-- ==== Sys2Proof/Word.lean ====
section
/-! DEFINITION. Sys2Proof/Word.lean: the word and byte types, and finite tables keyed by numbers. -/
namespace Sys2Proof

abbrev Byte := BitVec 8
abbrev Word := BitVec 32
abbrev DWord := BitVec 64

/-- A finite table keyed by numbers (queue identifiers, station slots, tags): key and value pairs,
keys strictly rising. -/
abbrev Tab (α : Type) := List (Nat × α)

end Sys2Proof
end

