-- ==== Sys2Proof/Syntax.lean ====
section
/-! DEFINITION. Sys2Proof/Syntax.lean: the commands of the block, one constructor per row of
spec/opcode_table.json (95_what_each_step_holds.md lists what each step holds).

A row that is a guest or administrative command (NOP ... LIVE_UPDATE) names the command by its queue
`q` and sequence number `seq` (R71): the envelope of that command, with all its operands (R258,
R267-R278), was received from the submission ring by ENVELOPE_RECEIVED and stands in the state.
A row that is an event carries what arrives with it: a register offset and value, a tag, a station
slot, a pin level, a beat or a frame. Where `fn` names who accesses a register, 0 is the PF, 1 to 256 are the VFs, and
512 + c is sequencer core c, which reaches the event controller's registers (R344). -/
namespace Sys2Proof

/-- A block that answers an idle request (R431). -/
inductive IdleBlock where
  | enginePort | station | memoryPort | courierEnd | hubCore | tapScan
  deriving DecidableEq, Repr

/-- What a rail answered after a Voltage write (R459 rule 5). -/
inductive RailAnswer where
  | ok | statusFault | silent
  deriving DecidableEq, Repr

/-- Instructions loaded at the TAP (R478, R492). -/
inductive TapInstr where
  | bypass | extest | sample | idcode | chipReset | wrapper1500 | sramTest | other
  deriving DecidableEq, Repr

/-- What the TAP is given: an instruction, and the bits of a data scan that follows it (R389). -/
structure TapLoad where
  ins : TapInstr
  tdi : List Bool
  deriving DecidableEq, Repr

/-- A completion of a read through LTP-H (R347): the offset in the request, the length, the status, and the data; beyond the data given
the host's memory is as the model holds it. -/
structure Completion where
  coff : Nat
  len : Nat
  status : Nat
  data : List (BitVec 8)
  deriving DecidableEq, Repr

/-- What a response beat of a memory port carries (R364): data, and a poison bit for each of its two sectors. -/
structure RespBeat where
  data : List (BitVec 8)
  poison : Nat
  deriving DecidableEq, Repr

/-- What a walker's read brings (R297): the 8 bytes of the entry, and whether they are poisoned. -/
structure EntryRead where
  data : List (BitVec 8)
  poison : Bool
  deriving DecidableEq, Repr

/-- A flit as it arrives: the logical lanes of a remote link whose codewords could not be corrected (R377), and its bytes. -/
structure FlitIn where
  lost : List Nat
  bytes : List (BitVec 8)
  deriving DecidableEq, Repr

/-- The lanes that training leaves to each direction, hub to station and station to hub: a mask of the good physical lanes of a remote link,
a number of lanes of a local one (R375, R378). -/
structure TrainedLanes where
  tx : Nat
  rx : Nat
  deriving DecidableEq, Repr

/-- A CAN frame as it arrives (R388, R449): its identifier, whether that has 29 bits, and its data. -/
structure CanFrame where
  id : Nat
  ext : Bool
  data : List (BitVec 8)
  deriving DecidableEq, Repr

/-- One slack reading of a domain: the least canary, in ps, and whether the short canary is of the
arithmetic clock (R465, R467). -/
structure SlackReading where
  ps : Int
  arith : Bool
  deriving DecidableEq, Repr

/-- What the ageing monitors of one domain report to a re-plan (R465): the physical readings. The
first slack reading is at the present step, each later one after a further frequency step. -/
structure Measure where
  dom : Nat
  shiftPpm : Nat
  slacks : List SlackReading
  vmin : Nat
  /-- k_v in fs per mV (thousandths of the ps per mV of R465). -/
  kvFs : Nat
  deriving DecidableEq, Repr

/-- What a word holds that is still in error after its second replay (R392, row by row). -/
inductive ParityWord where
  | data
  | index
  | envelope
  /-- Entry `k` of the translation cache of partition `pid`. -/
  | cacheEntry (pid k : Nat)
  /-- The overlay summary of a station. -/
  | summary (stn : Nat)
  /-- An extent-list copy, or a station's copy of descriptors, CIDs or key-slot bindings. -/
  | stationCopy
  /-- The oldest record staged in a postbag; the event record that is written next. -/
  | faultRecord (pb : Nat)
  | eventRecord
  | partitionState (pid : Nat)
  | globalState
  | core (n : Nat)
  | alwaysOn
  /-- Word `w` of the retention SRAM. -/
  | retention (w : Nat)
  deriving DecidableEq, Repr

/-- What the parity checks of a step found (R391): `unit` is a unit code of R416, `n` how many words cleared within the
replays, `word` and `addr` the location that the error record gives (R392, R414). -/
inductive Parity where
  | good
  | replayed (unit n : Nat)
  | persistent (unit word addr : Nat) (holds : ParityWord)
  deriving DecidableEq, Repr

/-- The commands of PK4: the 217 rows of spec/opcode_table.json. -/
inductive Instr where
  /-- SQ_TAIL_DOORBELL (R67). A submission tail doorbell write is applied to its queue: it may update the tail shadow, make the queue ACTIVE, be counted as stale or dropped, or stop the queue. -/
  | sqTailDoorbell (fn off width : Nat) (v : BitVec 64)
  /-- CQ_HEAD_DOORBELL (R67). A completion head doorbell write frees completion slots, is counted as stale, or stops the queue. -/
  | cqHeadDoorbell (fn off width : Nat) (v : BitVec 64)
  /-- QUEUE_SELECT_AND_FETCH (R82). The hub arbiter picks a queue by deficit round robin and class rank, and issues an envelope read for it. -/
  | queueSelectAndFetch
  /-- EXPRESS_WINDOW_END (R82). Each 1,600-hub-cycle window ends and the express envelope count of every partition restarts. -/
  | expressWindowEnd
  /-- ENVELOPE_RECEIVED (R71). Envelope read data returns; each whole envelope is numbered and offered to the graph unit for admission. -/
  | envelopeReceived (tag : Nat) (par : Parity)
  /-- COMMAND_COMPLETION (R43). Once every station has reported and every result is ordered, the hub writes the completion record, applies the signals and releases the pins. -/
  | commandCompletion (q seq : Nat)
  /-- CQ_ITIME_EXPIRY (R74). CQ_ITIME elapses after the first record written since the last message, and the queue's MSI-X message is sent. -/
  | cqItimeExpiry (q : Nat)
  /-- QCTL_RESUME (R75). MQI_QCTL ACTION RESUME returns a STOPPED queue to IDLE. -/
  | qctlResume (fn q : Nat)
  /-- QCTL_RESET (R77). MQI_QCTL ACTION RESET starts the guilty-queue reset of one queue. -/
  | qctlReset (fn q : Nat)
  /-- GUILTY_QUEUE_RESET_DONE (R77). Once the cancelled commands' final reports have arrived, the reset writes its records and marker and the queue enters STOPPED. -/
  | guiltyQueueResetDone (q : Nat)
  /-- GUILTY_RESET_BOUND_EXPIRY (R79). A guilty-queue reset that has not finished within 10 ms takes the context step for its context. -/
  | guiltyResetBoundExpiry (q : Nat)
  /-- MQI_ENABLE (R63). A write of 1 to MQI_CTL.EN checks the management-queue configuration and creates QID 0, or sets CFG_ERR. -/
  | mqiEnable
  /-- REGISTER_WRITE (R22). A write to a register with no row of its own sets, clears or ignores fields according to their access type. -/
  | registerWrite (fn off width : Nat) (v : BitVec 64)
  /-- NOP (R264). NOP completes with ST_OK and does nothing else. -/
  | nop (q seq : Nat)
  /-- FENCE_SIGNAL (R233). FENCE_SIGNAL MODE SIGNAL signals a fence good or with error. -/
  | fenceSignal (q seq : Nat)
  /-- FENCE_CREATE (R233). FENCE_SIGNAL MODE CREATE allocates a fence with an initial value, subject to the partition quota. -/
  | fenceCreate (q seq : Nat)
  /-- FENCE_DESTROY (R233). FENCE_SIGNAL MODE DESTROY error-signals a fence at the maximum value and frees it once nothing names it. -/
  | fenceDestroy (q seq : Nat)
  /-- FENCE_CLEAR_ERROR (R233). FENCE_SIGNAL MODE CLEAR_ERROR clears a fence's ERR bit. -/
  | fenceClearError (q seq : Nat)
  /-- FENCE_WAIT (R234). FENCE_WAIT waits as a running command until its wait is met or has failed. -/
  | fenceWait (q seq : Nat)
  /-- GRAPH_EDGE (R240). GRAPH_EDGE stores an edge from SRC to DST, or fires it at once, after the checks and a cycle search. -/
  | graphEdge (q seq : Nat)
  /-- LOOKUP_POOL (R96). LOOKUP_POOL reduces indexed table rows into P pools and writes or streams them. -/
  | lookupPool (q seq : Nat)
  /-- LOOKUP_GATHER (R97). LOOKUP_GATHER writes one output row for each index, in list order. -/
  | lookupGather (q seq : Nat)
  /-- LOOKUP_MULTI (R98). LOOKUP_MULTI runs 1 to 64 sub-lookups pinned to one version, interleaved or separate. -/
  | lookupMulti (q seq : Nat)
  /-- OCCURRENCE (R102). The Sorter takes one occurrence into its window, folding it into the row's entry or appending a new entry. -/
  | occurrence (q seq sub stn : Nat) (par : Parity)
  /-- PARTIAL_ARRIVAL (R133). A combining site merges an arriving partial into the pool's accumulator. -/
  | partialArrival (q seq sub stn pool : Nat)
  /-- STATION_FINAL_REPORT (R110). A station's final report for a block arrives; once all have arrived, pools are finished, converted and written or streamed. -/
  | stationFinalReport (q seq stn : Nat)
  /-- UPDATE_ROWS (R160). UPDATE_ROWS stages copied rows into overlay slots postmarked S, and publishes them when PUBLISH is set. -/
  | updateRows (q seq : Nat)
  /-- UPDATE_ACCUM (R161). UPDATE_ACCUM adds deltas to rows as the staged view shows them and stages the results postmarked S. -/
  | updateAccum (q seq : Nat)
  /-- TABLE_SWITCH_PUBLISH (R166). TABLE_SWITCH MODE PUBLISH closes S and makes it current on the same base. -/
  | tableSwitchPublish (q seq : Nat)
  /-- TABLE_SWITCH_NEW_BASE (R166). TABLE_SWITCH MODE NEW_BASE installs a new base's extent lists, then closes S and makes it current with floor S. -/
  | tableSwitchNewBase (q seq : Nat)
  /-- TABLE_SWITCH_DISCARD (R167). TABLE_SWITCH MODE DISCARD waits for the writers of S, then has every station release S's entries. -/
  | tableSwitchDiscard (q seq : Nat)
  /-- SWITCH_POINT (R168). Once its writers and earlier switches are done and the live limit allows, CUR becomes the switch's S in one hub step. -/
  | switchPoint (tid : Nat)
  /-- VERSION_RETIRE (R171). GEN1 releases the directory entries that a retired version alone could select. -/
  | versionRetire (tid ver : Nat)
  /-- TABLE_RETIRE_WAIT (R172). TABLE_RETIRE MODE WAIT completes when every version below VERSION has retired and been released. -/
  | tableRetireWait (q seq : Nat)
  /-- TABLE_RETIRE_TABLE (R172). TABLE_RETIRE MODE TABLE refuses later commands on the table and frees the TID once pins and writers are done. -/
  | tableRetireTable (q seq : Nat)
  /-- TABLE_COMPACT_COPY (R175). TABLE_COMPACT MODE COPY writes a full new base from the pinned version. -/
  | tableCompactCopy (q seq : Nat)
  /-- COPY_INSTALL (R175). When every shard of a COPY is written, the copy is installed as a NEW_BASE switch. -/
  | copyInstall (q seq : Nat)
  /-- TABLE_COMPACT_REBASE (R179). TABLE_COMPACT MODE REBASE renumbers a quiet table's versions from 1. -/
  | tableCompactRebase (q seq : Nat)
  /-- SUMMARY_REBUILD (R157). SSEQ0 rebuilds a station's overlay summary into the idle bank and swaps the banks. -/
  | summaryRebuild (stn : Nat)
  /-- STREAM_OPEN (R182). STREAM_OPEN copies a stream descriptor, allocates a SID and pushes the region's extent list. -/
  | streamOpen (q seq : Nat)
  /-- STREAM_APPEND (R189). STREAM_APPEND writes elements at the next positions and commits them as a whole. -/
  | streamAppend (q seq : Nat)
  /-- STREAM_GATHER (R194). STREAM_GATHER fills a tensor with the last K visible elements of each named stream. -/
  | streamGather (q seq : Nat)
  /-- STREAM_CLOSE (R201). STREAM_CLOSE MODE CLOSE sets CLOSING and frees the SID once earlier commands are done. -/
  | streamClose (q seq : Nat)
  /-- STREAM_TRIM (R201). STREAM_CLOSE MODE TRIM raises FIRST so that only KEEP elements stay visible. -/
  | streamTrim (q seq : Nat)
  /-- SCAN_LUT_BUILD (R211). SCAN_LUT_BUILD computes FP16 lookup tables from queries and a codebook. -/
  | scanLutBuild (q seq : Nat)
  /-- SCAN_PQ (R214). SCAN_PQ scores vectors of the named lists and writes the top K per query. -/
  | scanPq (q seq : Nat)
  /-- DISPATCH (R247). DISPATCH sends a translated descriptor chain to an engine port as a start message, transfers and an end message. -/
  | dispatch (q seq : Nat)
  /-- COPY (R276). COPY moves LEN bytes from SRC to DST within the context's address space. -/
  | copy (q seq : Nat)
  /-- CENSUS (R283). CENSUS writes records of the state in scope into a buffer. -/
  | census (q seq : Nat)
  /-- PROGRAM_LOAD (R140). PROGRAM MODE LOAD verifies a signed pooling program and loads it into SSEQ1 of the partition's stations. -/
  | programLoad (q seq : Nat)
  /-- PROGRAM_UNLOAD (R141). PROGRAM MODE UNLOAD refuses later uses of a handle and frees it once no outstanding command names it. -/
  | programUnload (q seq : Nat)
  /-- CONTEXT_CREATE (R51). CONTEXT_CREATE binds a new context to a function, PASID, partition, doorbell page and key slot. -/
  | contextCreate (q seq : Nat)
  /-- CONTEXT_DESTROY (R280). CONTEXT_DESTROY drains the context's queues, closes its objects, clears its segments and frees the CID. -/
  | contextDestroy (q seq : Nat)
  /-- QUEUE_CREATE (R69). QUEUE_CREATE checks the rings and allocates a QID in IDLE. -/
  | queueCreate (q seq : Nat)
  /-- QUEUE_DESTROY (R280). QUEUE_DESTROY drains the queue and completes when the queue is FREE. -/
  | queueDestroy (q seq : Nat)
  /-- QUEUE_DRAINED (R75). A DRAINING queue whose last record is written and whose census tags are gone becomes FREE. -/
  | queueDrained (q : Nat)
  /-- TABLE_CREATE (R86). TABLE_CREATE checks a table descriptor, installs its extent lists and overlay directories, and allocates a TID. -/
  | tableCreate (q seq : Nat)
  /-- PARTITION_CREATE (R280). PARTITION_CREATE forms a partition from whole stations, with its weight, timeout, fence quota, bays and a cache slice. -/
  | partitionCreate (q seq : Nat)
  /-- PARTITION_REMOVE (R321). PARTITION_REMOVE drains the partition's queues and starts the removal sequence. -/
  | partitionRemove (q seq : Nat)
  /-- PARTITION_DRAINED (R321). Once no census tag of the partition remains, removal writes the postbag, scrubs its slots, resets its stations and completes. -/
  | partitionDrained (pid : Nat)
  /-- T_DRAIN_EXPIRY (R321). T_DRAIN expires and the isolation wrapper aborts every remaining command of the partition. -/
  | tDrainExpiry (pid : Nat)
  /-- SEGMENT_SET (R293). SEGMENT_SET checks and stores a segment descriptor and invalidates the slot's old range. -/
  | segmentSet (q seq : Nat)
  /-- INVALIDATE_RANGE (R304). INVALIDATE_RANGE removes cache entries, rebuilds extent lists and waits for station and engine-port acknowledgements. -/
  | invalidateRange (q seq : Nat)
  /-- EXTENT_ACK (R304). A station or engine port acknowledges that nothing under an old translation of the range remains outstanding. -/
  | extentAck (q seq : Nat) (isPort : Bool) (id : Nat)
  /-- INVALIDATE_ACK_TIMEOUT (R305). An engine port that has not acknowledged within 10 ms is taken through the engine step. -/
  | invalidateAckTimeout (q seq ep : Nat)
  /-- KEYSLOT_LOAD (R317). KEYSLOT_LOAD delivers key material to the inline engines of the partition's stations and binds the lowest free slot. -/
  | keyslotLoad (q seq : Nat)
  /-- KEYSLOT_SCRUB (R318). KEYSLOT_SCRUB puts a slot into SCRUBBING and waits for its census tags. -/
  | keyslotScrub (q seq : Nat)
  /-- SCRUB_TAGS_DRAINED (R318). Once no tag of the slot remains, or T_mem passes, the inline engines are told to erase the key. -/
  | scrubTagsDrained (slot : Nat) (late : Bool)
  /-- KEY_ACK (R368). An inline engine acknowledges a key LOAD or ERASE on the key sideband. -/
  | keyAck (stn slot op : Nat)
  /-- KEY_ACK_TIMEOUT (R368). A key acknowledgement missing after 100 µs leads to the chip step. -/
  | keyAckTimeout (stn slot : Nat)
  /-- FIRMWARE_STAGE (R482). FIRMWARE_STAGE writes an image into a slot, reads it back, verifies it and marks the slot VERIFIED. -/
  | firmwareStage (q seq : Nat)
  /-- FIRMWARE_ACTIVATE (R483). FIRMWARE_ACTIVATE with LIVE 0 marks a slot TRIAL for the next boot, or confirms the running trial. -/
  | firmwareActivate (q seq : Nat)
  /-- LIVE_UPDATE (R485). FIRMWARE_ACTIVATE with LIVE 1 reloads the cores one at a time with the new image, without a reset. -/
  | liveUpdate (q seq : Nat)
  /-- TRIAL_CONFIRM_TIMER (R484). CONFIRM_S seconds of operation in TRIAL pass and the running slot is confirmed. -/
  | trialConfirmTimer
  /-- CONFIRM (R484). A write of 1 to OD 0x2500:07 confirms the running trial slot. -/
  | confirm
  /-- COMMAND_TIMEOUT (R397). A command's timeout expires, and it completes with ST_TIMEOUT with effects that depend on what it was waiting for. -/
  | commandTimeout (q seq : Nat)
  /-- PARKED_HEAD_TIMEOUT (R245). A parked head's timeout expires, and its queue is marked guilty and reset. -/
  | parkedHeadTimeout (q : Nat)
  /-- FLR (R55). An FLR of a function discards its work, frees its queues, detaches its contexts and clears its event ring. -/
  | flr (fn : Nat)
  /-- FLR_COMPLETE (R55). Once no census tag of the function remains, PK4 reports the FLR complete on LTP_FLRD. -/
  | flrComplete (fn : Nat)
  /-- FLR_ISOLATION_TIMEOUT (R55). At 80 ms after an FLR, the isolation wrapper completes outstanding work with error responses. -/
  | flrIsolationTimeout (fn : Nat)
  /-- PF_FUNCTION_RESET (R424). An FLR of the PF resets every function, frees QID 0 and its fences, and sets RST_CAUSE.FLR. -/
  | pfFunctionReset
  /-- FUNCTION_STATE_UPDATE (R353). LTP_FNU changes a function's enable or Bus Master Enable, and held interrupts are presented when BME returns. -/
  | functionStateUpdate (fn : Nat) (en bme : Bool)
  /-- HOST_HOT_RESET (R422). A rise of LTP_HOT_RST starts a warm reset of cause HOST_HOT_RESET. -/
  | hostHotReset
  /-- INBOUND_MMIO_READ (R350). An inbound MRD of BAR0 is answered with a completion within 200 ns, after every earlier write. -/
  | inboundMmioRead (fn off width tag : Nat)
  /-- LTP_COMPLETION (R351). A completion for a PK4 read arrives; good data is used, and poison or an error status is handled by what was read. -/
  | ltpCompletion (tag : Nat) (cpl : Completion) (poison last : Bool)
  /-- LTP_READ_TIMEOUT (R351). A read incomplete at T_ltp is retired and handled as a failed read. -/
  | ltpReadTimeout (tag : Nat)
  /-- MEMORY_RESPONSE (R365). A memory-port response beat arrives and is matched to a live tag, or is dropped as a dead letter. -/
  | memoryResponse (stn lane tag cid key type : Nat) (beat : RespBeat) (last : Bool) (par : Parity)
  /-- MEMORY_TIMEOUT (R315). A memory request unanswered at T_mem has its tag retired and its data treated as poisoned. -/
  | memoryTimeout (stn tag : Nat)
  /-- SWEEP_START (R319). A sweep starts and sends a MARKER down every lane of every memory port. -/
  | sweepStart
  /-- MEM_RDY_RISE (R369). MP_MEM_RDY rises, and the station's memory-ready wait ends. -/
  | memRdyRise (stn : Nat)
  /-- MEM_RDY_FALL (R369). MP_MEM_RDY falls in service, which fences the station. -/
  | memRdyFall (stn : Nat)
  /-- POSTBAG_BATCH_WRITE (R309). A postbag's staging buffer is written to its ring when it holds 64 records or 10 µs after its oldest record; records that do not fit are lost. -/
  | postbagBatchWrite (pb : Nat)
  /-- POSTBAG_ENABLE (R323). Setting XLT_PB_CFG.EN resets the postbag's head and tail, or sets CFG_ERR. -/
  | postbagEnable (v : BitVec 32)
  /-- POSTBAG_HEAD_WRITE (R311). A write to XLT_PB_HEAD frees postbag slots and lets a pending OVERFLOW record be written. -/
  | postbagHeadWrite (v : BitVec 32)
  /-- FAULT_LOST_CLEAR (R311). A write to XLT_FLOST_CLR clears a context's FAULT_LOST bit. -/
  | faultLostClear (v : BitVec 32)
  /-- XLT_WMAP_WRITE (R302). A write to XLT_WMAP changes a partition's cache slices and flushes its entries, or is refused and sets ERR. -/
  | xltWmapWrite (v : BitVec 32)
  /-- WALK_READ_RESPONSE (R297). A page-table entry read returns to a walker, which continues the walk, installs a run or reports a fault. -/
  | walkReadResponse (tag status : Nat) (entry : EntryRead)
  /-- EVENT_INPUT_CHANGE (R327). A sampled change of an event source input sets PENDING and merges INFO according to SENSE. -/
  | eventInputChange (src : Nat) (level : Bool) (info : BitVec 32)
  /-- EVENT_DELIVERY (R330). The winning pending source's record is written into its function ring or hub ring, or is lost. -/
  | eventDelivery
  /-- EVENT_RING_ENABLE (R332). Setting EVC_FN_CFG.EN resets the function ring's head and tail and arms its interrupt, or sets CFG_ERR. -/
  | eventRingEnable (fn : Nat) (v : BitVec 32)
  /-- EVENT_RING_HEAD_WRITE (R333). A write to EVC_FN_HEAD consumes records and re-arms the ring's interrupt or sends another message. -/
  | eventRingHeadWrite (fn : Nat) (v : BitVec 32)
  /-- EVC_ACK (R328). A write to EVC_ACK clears ACTIVE of a HOST LEVEL source. -/
  | evcAck (v : BitVec 32)
  /-- EVC_SWSET (R343). A write to EVC_SWSET raises one edge on a software source, with INFO. -/
  | evcSwset (fw : Bool) (v : BitVec 32)
  /-- EVC_MASK_SET (R339). A write to EVC_MASK_SET masks the sources whose bits are 1. -/
  | evcMaskSet (fw : Bool) (i : Nat) (v : BitVec 32)
  /-- EVC_MASK_CLR (R339). A write to EVC_MASK_CLR unmasks the sources whose bits are 1. -/
  | evcMaskClr (fw : Bool) (i : Nat) (v : BitVec 32)
  /-- SOURCE_CONFIG_WRITE (R340). A write to EVC_SCFG or EVC_SROUTE changes a source's sense, priority or routing, clearing its state when SENSE changes. -/
  | sourceConfigWrite (fw route : Bool) (v : BitVec 32)
  /-- EVC_CLAIM (R337). A core's read of EVC_CLAIM claims the most urgent record presented to it, or returns the spurious number. -/
  | evcClaim (core : Nat)
  /-- EVC_DONE (R338). A core's write to EVC_DONE ends a claim, frees its slot and recomputes SERVE. -/
  | evcDone (core : Nat) (v : BitVec 32)
  /-- FRANKING_CREDIT_RETURN (R357). The engine returns franking credits on EP_DN_FRANK, which allow further downstream beats. -/
  | frankingCreditReturn (ep n : Nat)
  /-- UPSTREAM_BEAT (R358). An OUTPUT beat arrives on EP_UP under a granted credit and is written to memory. -/
  | upstreamBeat (ep xid : Nat) (data : BitVec 512) (poison last : Bool)
  /-- DONE_RESPONSE (R254). An engine's done response arrives for a DID, allowing the DISPATCH to complete. -/
  | doneResponse (ep did stat : Nat) (res : BitVec 32)
  /-- ENG_RDY_CHANGE (R404). EP_ENG_RDY rises or falls; a rise after an engine step lets the port return to service once credits come, and a fall during a started dispatch triggers the engine step. -/
  | engRdyChange (ep : Nat) (up : Bool)
  /-- ENGINE_QUIESCE_ACK (R433). EP_QACK rises and PK4 drives EP_RST_N low to finish the idle-request reset. -/
  | engineQuiesceAck (ep : Nat)
  /-- ENGINE_RETURN_TIMEOUT (R404). An engine not returned 100 ms after the engine step leaves its port OUT. -/
  | engineReturnTimeout (ep : Nat)
  /-- FLIT_RECEIVE (R372). A Courier flit arrives and is accepted, replay-requested or dropped, and its credits and acknowledgements are applied. -/
  | flitReceive (slot : Nat) (atStn : Bool) (flit : FlitIn)
  /-- REPLAY_TIMEOUT (R372). The oldest unacknowledged flit waits 2 µs on Courier-D or 4 µs on Courier-X, and the sender resends. -/
  | replayTimeout (slot : Nat) (atStn : Bool)
  /-- LINK_TRAIN_TIMEOUT (R378). A Courier-X training state reaches its time limit and moves to its fallback state or to DOWN. -/
  | linkTrainTimeout (slot : Nat)
  /-- LINK_TRAIN_DONE (R378). A training state finishes its work and the link moves to its next state. -/
  | linkTrainDone (slot : Nat) (lanes : TrainedLanes) (slow : Bool)
  /-- CX_DISABLE (R382). Setting CX_CTL.DISABLE takes the link to OFF and fences its station. -/
  | cxDisable
  /-- CX_RESTART (R382). CX_CTL.RESTART makes a link train again from DETECT. -/
  | cxRestart
  /-- SPARE_GO (R382). CX_CTL.SPARE_GO starts sparing of the named logical lane. -/
  | spareGo (v : BitVec 32)
  /-- SPARE_WINDOW_CHECK (R379). At the end of each 1 ms window, a lane over CX_SPARE_THR, or with too many uncorrectable codewords, starts sparing. -/
  | spareWindowCheck (slot : Nat) (toHub : Bool) (lane corrected unc : Nat)
  /-- SPARE_REQUEST (R380). A spare request message makes both ends wake the spare lane in that direction. -/
  | spareRequest (slot : Nat) (toHub : Bool) (lane : Nat)
  /-- SWITCH_ORDER (R380). A switch order message moves stripe j to the spare lane at codeword N, or is ignored when N is out of reach. -/
  | switchOrder (slot : Nat) (toHub : Bool) (lane count now : Nat)
  /-- SPARE_LOCK_TIMEOUT (R380). A spare not locked 100 µs after the request abandons the sparing and the link retrains. -/
  | spareLockTimeout (slot : Nat) (toHub : Bool)
  /-- SPARE_BACKGROUND_RETRAIN (R379). Every 10 s the standby spare is retrained in the background. -/
  | spareBackgroundRetrain (slot : Nat) (toHub : Bool)
  /-- LANE_LOSS (R381). A lane lost after the spare is in use makes the link retrain to 4 lanes or enter DOWN. -/
  | laneLoss (slot : Nat) (toHub : Bool) (phys : Nat)
  /-- HEARTBEAT (R400). Every 1 ms the hub sends each station in service a heartbeat. -/
  | heartbeat
  /-- HEARTBEAT_ANSWER (R400). A station's progress counts arrive and are checked for hangs; a station that fails is fenced. -/
  | heartbeatAnswer (stn : Nat) (units : List (Nat × Bool))
  /-- STATION_WATCHDOG_EXPIRY (R400). A station sequencer's 1 ms watchdog expires and the station is fenced. -/
  | stationWatchdogExpiry (stn core : Nat)
  /-- STN_HCTL_FENCE (R410). STN_HCTL.FENCE makes the driver fence a station. -/
  | stnHctlFence
  /-- STATION_RETURN (R412). FAULT1 resets, retrains and repopulates a fenced station and returns it to service. -/
  | stationReturn (stn : Nat)
  /-- STN_HCTL_RETURN (R412). STN_HCTL.RETURN makes one return attempt for a FENCED or OUT station. -/
  | stnHctlReturn
  /-- EP_RESTART (R404). STN_HCTL.EP_RESTART takes the engine step for each OUT port of the station. -/
  | epRestart
  /-- DEBUG_READ_TIMEOUT (R417). A debug-ring read unanswered after 100 µs ends its section as UNREADABLE. -/
  | debugReadTimeout
  /-- WATCHDOG_EXPIRY (R399). A hub sequencer core's watchdog expires and its observer reloads and restarts it, or the chip step follows. -/
  | watchdogExpiry (core : Nat)
  /-- FAULT_CORES_HUNG (R399). FAULT0 and FAULT1 both in expiry with neither restarted within 2 ms make the reset controller take the chip step. -/
  | faultCoresHung
  /-- CONTEXT_STEP (R403). The context step resets every queue and command of one context; the driver requests it through RST_ESC_REQ STEP 1. -/
  | contextStep (cid : Nat)
  /-- ENGINE_STEP (R404). The engine step ends one port's transfers, completes its dispatches and resets the engine; the driver requests it through RST_ESC_REQ STEP 2. -/
  | engineStep (ep : Nat)
  /-- PARTITION_STEP (R405). The partition step ends all the partition's work and clears its class P state; the driver requests it through RST_ESC_REQ STEP 3. -/
  | partitionStep (pid : Nat)
  /-- CHIP_STEP (R406). The chip step collects a full dump and runs the warm-reset release of the whole block; the driver requests it through RST_ESC_REQ STEP 4. -/
  | chipStep
  /-- ESCALATION_BOUND_EXPIRY (R402). A ladder step not finished within its bound is followed by the next step for the enclosing scope. -/
  | escalationBoundExpiry (step id : Nat)
  /-- POWER_CYCLE_STEP (R408). The postmaster logs the error tail and power-cycle count, then raises TRAY_PCR within 500 ms. -/
  | powerCycleStep
  /-- DUMP_RELEASE (R418). A write to RST_DUMP_REL sets RELEASED on a dump slot. -/
  | dumpRelease (v : BitVec 32)
  /-- RSRAM_DATA_READ (R420). A read of RST_RSRAM_DATA returns the addressed retention word and adds 4 to the address. -/
  | rsramDataRead (tag : Nat)
  /-- POWER_ON (R428). AO_POR_N rises and the block is released in order from step 1. -/
  | powerOn
  /-- BROWNOUT (R422). BROWNOUT_N held at 0 for 2 always-on cycles starts a brown-out hold. -/
  | brownout
  /-- BROWNOUT_RELEASE (R421). BROWNOUT_N returns to 1 and the release order runs from step 2. -/
  | brownoutRelease
  /-- PIN_WARM_RESET (R422). WARM_RST_N held at 0 for 1 µs starts a warm reset of cause PIN_WARM. -/
  | pinWarmReset
  /-- TRAY_RESET (R384). TRAY_STAT falling and held at 0 for 1 ms starts a warm reset of cause TRAY. -/
  | trayReset
  /-- SOFTWARE_RESET (R442). RST_CTL.SWRST with the key starts a warm reset of cause SOFTWARE, with a dump when DUMP is set. -/
  | softwareReset (v : BitVec 32)
  /-- JTAG_CHIP_RESET (R422). The TAP instruction CHIP_RESET starts a warm reset of cause JTAG. -/
  | jtagChipReset
  /-- TAP_RESET (R422). TRST_N resets the TAP controller only. -/
  | tapReset
  /-- CLOCK_CHECK_RETRY (R428). A hub clock out of range at release step 3 is counted again every 10 ms. -/
  | clockCheckRetry (hubOk seqOk ltpOk : Bool)
  /-- MEMORY_READY_TIMEOUT (R406). A station without MP_MEM_RDY at the release's 2,000 ms limit is fenced and left out. -/
  | memoryReadyTimeout (stn : Nat)
  /-- HUB_CLOCK_STOPPED (R436). The always-on domain detects a stopped hub clock and starts a warm reset of cause WATCHDOG. -/
  | hubClockStopped
  /-- IDLE_TIMER_DOZE (R439). A station idle for T_DOZE enters Doze. -/
  | idleTimerDoze (stn : Nat)
  /-- DOZE_TIMER_SLEEP (R439). A station in Doze for T_SLEEP starts entry toward Sleep with idle requests. -/
  | dozeTimerSleep (stn : Nat)
  /-- SLEEP_TIMER_OFF (R439). A station in Sleep for T_OFF under ALLOW_OFF starts entry toward Off. -/
  | sleepTimerOff (stn : Nat)
  /-- ENTRY_COMMIT (R439). Every idle request is answered, and the station commits to Sleep or Off. -/
  | entryCommit (stn : Nat)
  /-- IDLE_REQUEST_TIMEOUT (R432). An idle request times out; a power entry is abandoned, and otherwise the isolation wrapper takes over. -/
  | idleRequestTimeout (blk : IdleBlock) (id : Nat)
  /-- STATION_DEMAND (R439). A demand on a station in Doze, Sleep, Off or ENTERING wakes it or abandons the entry. -/
  | stationDemand (stn : Nat)
  /-- PS_ACK (R440). STN_PS_ACK reports the state the integrator has reached; an Active echo lets a wake complete. -/
  | psAck (stn ack : Nat)
  /-- WAKE_ACK_TIMEOUT (R440). STN_PS_ACK not Active within 10 ms retries the wake once, then fences the station. -/
  | wakeAckTimeout (stn : Nat)
  /-- KEEP_WARM_LAPSE (R84). KW_HOLD µs after a queue's last tail doorbell, its keep-warm hold lapses. -/
  | keepWarmLapse (q : Nat)
  /-- POLICY_WRITE (R441). A write of PWR_STN.POLICY changes a station's power policy, acting as a demand or forcing it Off. -/
  | policyWrite (v : BitVec 32)
  /-- REPLAN (R467). A re-plan measures every domain and raises offsets or steps the arithmetic clock; it is requested by AGE_CTL.REPLAN or OD 0x2300:01. -/
  | replan (ms : List Measure)
  /-- AUTO_REPLAN (R466). Each 86,400 s of operation, or 60 s after READY following an interrupted re-plan, a re-plan starts. -/
  | autoReplan
  /-- FREQUENCY_STEP (R469). After the station's arithmetic clock is gated, ARITH_FSEL requests a new step. -/
  | frequencyStep (stn : Nat)
  /-- ARITH_FACK (R469). The integrator echoes the step on ARITH_FACK, and work resumes at the new FSTEP. -/
  | arithFack (stn f : Nat)
  /-- ARITH_FACK_TIMEOUT (R469). No ARITH_FACK echo within 100 µs restores the old step and retries once, then fences the station. -/
  | arithFackTimeout (stn : Nat)
  /-- AVS_RAIL_WRITE (R459). A 5 mV Voltage write to a rail is followed by a Status read; a fault or a 1 ms silence marks the rail failed. -/
  | avsRailWrite (rail : Nat) (ans : RailAnswer) (volts : Nat)
  /-- UPTIME_TICK (R464). Every 19,200,000 always-on cycles, UPTIME and WALL rise by 1. -/
  | uptimeTick
  /-- LIFETIME_COMMIT (R461). A COUNTERS record is written every 3,600 s of operation, at activation, at power cycle, or on OD 0x2110:03. -/
  | lifetimeCommit
  /-- OPTION_COMMIT (R458). A write of 1 to OD 0x2602:01 writes the option shadow to NVM and reads it back. -/
  | optionCommit (nvmOk : Bool)
  /-- WALL_SET (R464). A write of OD 0x2200:02 sets WALL and WALL_VALID. -/
  | wallSet (v : BitVec 64)
  /-- LC_ADVANCE (R478). A write to OD 0x2500:08 advances the lifecycle state in fuses. -/
  | lcAdvance (v : BitVec 8)
  /-- OD_READ (R446). MGT_OD_CTL OP READ reads a dictionary entry into MGT_OD_DATA. -/
  | odRead (v : BitVec 32)
  /-- OD_WRITE (R445). MGT_OD_CTL OP WRITE writes a dictionary entry under its access right and range. -/
  | odWrite (v : BitVec 32)
  /-- CAN_REQUEST (R450). A CAN FD REQUEST frame reads or writes a dictionary entry and is answered, replayed or refused with BUSY. -/
  | canRequest (frame : CanFrame)
  /-- CAN_TIME (R449). A broadcast TIME frame writes WALL. -/
  | canTime (frame : CanFrame)
  /-- CAN_HEARTBEAT (R452). Every 1 s while CAN_HB is 1, a HEARTBEAT frame is sent. -/
  | canHeartbeat
  /-- CAN_BUS_OFF (R452). Entry to bus-off counts in OD 0x1000:06 and raises source 776. -/
  | canBusOff
  /-- MONITOR_HELP (R490). HELP prints the command list. -/
  | monitorHelp
  /-- MONITOR_ID (R490). ID prints the identity entries. -/
  | monitorId
  /-- MONITOR_STAT (R490). STAT prints recovery state, reset causes and each station's state. -/
  | monitorStat
  /-- MONITOR_ELOG (R490). ELOG prints the newest error records. -/
  | monitorElog (n : Nat)
  /-- MONITOR_LLOG (R490). LLOG prints the newest lifetime records. -/
  | monitorLlog (n : Nat)
  /-- MONITOR_AGE (R490). AGE prints a domain's ageing state. -/
  | monitorAge (d : Nat)
  /-- MONITOR_CX (R490). CX prints a station slot's Courier registers. -/
  | monitorCx (slot : Nat)
  /-- MONITOR_STN (R490). STN prints a station slot's health. -/
  | monitorStn (slot : Nat)
  /-- MONITOR_OD_READ (R490). OD R reads a dictionary entry. -/
  | monitorOdRead (index sub : Nat)
  /-- MONITOR_OD_WRITE (R490). OD W writes a dictionary entry under R445. -/
  | monitorOdWrite (index sub : Nat) (bytes : List (BitVec 8))
  /-- UNLOCK (R491). UNLOCK issues a challenge, or checks a signed answer and unlocks the monitor. -/
  | unlock (answer : Option (Nat × Nat))
  /-- LOCK (R491). LOCK ends the monitor's unlock. -/
  | lock
  /-- UNLOCK_EXPIRY (R491). An unlock ends 3,600 s after it was granted. -/
  | unlockExpiry
  /-- UNLOCK_LOCKOUT_END (R491). Ten minutes after three wrong answers, challenges are given again. -/
  | unlockLockoutEnd
  /-- MONITOR_REPLAN (R490). REPLAN starts a re-plan from the monitor. -/
  | monitorReplan
  /-- BAUD (R489). BAUD n changes the UART rate after its OK, until the next hub reset. -/
  | baud (n : Nat)
  /-- MONITOR_DUMP (R490). DUMP prints a dump slot in hexadecimal. -/
  | monitorDump (k : Nat)
  /-- PEEK (R490). PEEK reads a PF BAR0 register. -/
  | peek (off : Nat)
  /-- POKE (R490). POKE writes a PF BAR0 register. -/
  | poke (off : Nat) (v : BitVec 32)
  /-- MONITOR_RESET (R490). RESET starts a software warm reset, with a dump when asked. -/
  | monitorReset (dump : Bool)
  /-- FUSE_READ (R490). FUSE R reads a fuse word from 0 to 76. -/
  | fuseRead (w : Nat)
  /-- FUSE_PROGRAM (R490). FUSE P programs bits into a fuse word in DEVELOPMENT. -/
  | fuseProgram (w : Nat) (v : BitVec 32) (fuseOk : Bool)
  /-- MONITOR_LC (R490). LC advances the lifecycle state. -/
  | monitorLc (v : BitVec 8) (fuseOk : Bool)
  /-- BOOTROM_ID (R488). The boot-ROM monitor's ID prints the block revision, lifecycle and fuse counters. -/
  | bootromId
  /-- BOOTLOG (R488). BOOTLOG prints each slot's state and the first verification check that failed. -/
  | bootlog
  /-- XLOAD (R488). XLOAD receives an image block by block, writes it into a slot and marks it TRIAL. -/
  | xload (slot : Nat) (image : List (BitVec 8))
  /-- BOOTROM_RESET (R488). The boot-ROM monitor's RESET starts a software warm reset. -/
  | bootromReset
  /-- BOOTROM_PEEK (R488). The boot-ROM monitor's PEEK reads a register in DECOMMISSIONED. -/
  | bootromPeek (off : Nat)
  /-- BOOTROM_FUSE_READ (R488). The boot-ROM monitor's FUSE R reads a fuse word in DECOMMISSIONED. -/
  | bootromFuseRead (w : Nat)
  /-- SPARE_LOCKED (R380). The receiving end locks FEC and lane words on the woken spare lane and sends a switch order naming j and a switch count N. -/
  | spareLocked (slot : Nat) (toHub : Bool) (now : Nat)
  /-- SPARE_SWITCH_COUNT_REACHED (R380). At codeword N the transmitter moves stripe j to the spare lane, the old lane carries idle lane words and is powered down, CX_LANE records the move and LANE_SPARED is raised. -/
  | spareSwitchCountReached (slot : Nat) (toHub : Bool)
  /-- RETURN_MEM_RDY_TIMEOUT (R412). A station being returned to service, or woken from Off, that has no MP_MEM_RDY after the 2 s wait fails its return attempt. -/
  | returnMemRdyTimeout (stn : Nat)
  /-- CX_DISABLE_CLEAR (R378). Clearing CX_CTL.DISABLE enables a link held in OFF, and the link moves to DETECT and trains. -/
  | cxDisableClear
  /-- TAP_INSTRUCTION_LOAD (R492). An instruction loaded at the TAP takes effect; one the lifecycle state forbids is loaded as BYPASS, and entry to IEEE 1500 test mode is made through the idle request of R431. -/
  | tapInstructionLoad (load : TapLoad)
  deriving DecidableEq, Repr

end Sys2Proof
end

