-- ==== Sys2Proof/Decode.lean ====
section
/-! DEFINITION. Sys2Proof/Decode.lean: the command that a word spells. PK4 is a block: the rows of
spec/opcode_table.json carry no bits, so no word spells a command. -/
namespace Sys2Proof

/-- The command a word spells by the table's bits: the table gives no row any bits. -/
def decodeTableWord (_nbits _w : Nat) : Option Instr := none

end Sys2Proof
end

