-- ==== Sys2Proof/Machine/Bits.lean ====
section
/-! DEFINITION. Sys2Proof/Machine/Bits.lean: bytes, little-endian fields (R20), records and the flit checksum. -/
namespace Sys2Proof

/-- The number that little-endian bytes spell (R20). -/
def leNat : List Byte → Nat
  | [] => 0
  | b :: bs => b.toNat + 256 * leNat bs

/-- `n` little-endian bytes of `v` (R20). -/
def leBytes : Nat → Nat → List Byte
  | 0, _ => []
  | n + 1, v => BitVec.ofNat 8 v :: leBytes n (v / 256)

/-- `n` bytes from byte offset `o` of a structure, as a number. -/
def rd (bs : List Byte) (o n : Nat) : Nat := leNat ((bs.drop o).take n)

/-- `w` bits of `v` from bit `lo` on. -/
def bits (v lo w : Nat) : Nat := (v / 2 ^ lo) % 2 ^ w

/-- Bit `i` of `v`. -/
def bit (v i : Nat) : Bool := Nat.testBit v i

/-- Sets or clears a bit. -/
def setBit (v i : Nat) : Nat := v ||| 2 ^ i
def clearBit (v i : Nat) : Nat := if bit v i then v - 2 ^ i else v

/-- A Boolean as a bit. -/
def b2n (b : Bool) : Nat := if b then 1 else 0

/-- A field of a register or record: lowest bit, width, value. -/
abbrev Fld := Nat × Nat × Nat

/-- The number that a list of fields spells; bits no field names are zero (R21). -/
def packF : List Fld → Nat
  | [] => 0
  | (lo, w, v) :: fs => (v % 2 ^ w) * 2 ^ lo + packF fs

/-- An `n`-byte structure given by its fields. -/
def recBytes (n : Nat) (fs : List Fld) : List Byte := leBytes n (packF fs)

/-- `n` zero bytes. -/
def zeros (n : Nat) : List Byte := List.replicate n 0

/-- A counter of `w` bits that saturates. -/
def satAdd (w v d : Nat) : Nat := min (v + d) (2 ^ w - 1)

/-- `⌈a / b⌉`. -/
def ceilDiv (a b : Nat) : Nat := (a + b - 1) / b

/-- `a` rounded down to a multiple of `b`. -/
def alignDown (a b : Nat) : Nat := a / b * b

/-- Some byte of a list is not zero. -/
def anyByte (bs : List Byte) : Bool := bs.any (· != 0)

/-- The bytes of a structure outside the named byte ranges (offset, length) are all zero. -/
def zeroOutside : Nat → List Byte → List (Nat × Nat) → Bool
  | _, [], _ => true
  | i, b :: bs, rs =>
    (b == 0 || rs.any (fun r => r.1 ≤ i && i < r.1 + r.2)) && zeroOutside (i + 1) bs rs

/-- `v` read as a two's complement number of `w` bits. -/
def toSigned (w v : Nat) : Int := if v % 2 ^ w < 2 ^ (w - 1) then (v % 2 ^ w : Nat) else (v % 2 ^ w : Nat) - (2 ^ w : Nat)

/-- The lowest `w` bits of an integer in two's complement. -/
def ofSigned (w : Nat) (i : Int) : Nat := (i % (2 ^ w : Nat)).toNat

/-- Cuts a list into pieces of `n`. -/
def chunksOf {α : Type} (n : Nat) : Nat → List α → List (List α)
  | 0, _ => []
  | fuel + 1, l => if l.isEmpty then [] else l.take n :: chunksOf n fuel (l.drop n)

/-- `n` as a run of numbers `a, a+1, …`. -/
def runFrom (a : Nat) : Nat → List Nat
  | 0 => []
  | n + 1 => a :: runFrom (a + 1) n

/-- Sets element `i` of a list. -/
def setNth {α : Type} : List α → Nat → α → List α
  | [], _, _ => []
  | _ :: t, 0, v => v :: t
  | h :: t, n + 1, v => h :: setNth t n v

/-- Text as the bytes the serial monitor sends. -/
def textBytes (t : String) : List Byte := t.toList.map (fun c => BitVec.ofNat 8 c.toNat)

end Sys2Proof
end

