-- ==== Sys2Proof/Machine/Float.lean ====
section
/-! DEFINITION. Sys2Proof/Machine/Float.lean: binary32 arithmetic (R126), the row formats (R119-R125) and output
conversion (R135-R139). Every value is a bit pattern; arithmetic is exact on integers and rounds once. -/
namespace Sys2Proof

/-- A decoded floating-point value: a NaN, an infinity, or plus or minus `m × 2^e`. -/
inductive Fp where
  | nan
  | inf (neg : Bool)
  | fin (neg : Bool) (m : Nat) (e : Int)
  deriving DecidableEq, Repr

/-- The canonical quiet NaN of binary32 (R122, R126). -/
def canonNan : Word := 0x7FC00000

/-- A binary floating-point encoding (R123): mantissa bits, exponent bits, bias, whether the all-ones exponent holds
infinity and NaN (1), NaN only at all-ones mantissa (2), or nothing (0). -/
structure FpFmt where
  mant : Nat
  exp : Nat
  bias : Nat
  special : Nat
  deriving DecidableEq, Repr

/-- binary32 (R123). -/
def fmtF32 : FpFmt := ⟨23, 8, 127, 1⟩
/-- BF16 (R123). -/
def fmtBf16 : FpFmt := ⟨7, 8, 127, 1⟩
/-- binary16 (R123). -/
def fmtF16 : FpFmt := ⟨10, 5, 15, 1⟩
/-- OCP FP8 E4M3 (R123). -/
def fmtE4m3 : FpFmt := ⟨3, 4, 7, 2⟩
/-- OCP FP8 E5M2 (R123). -/
def fmtE5m2 : FpFmt := ⟨2, 5, 15, 1⟩
/-- FP6 E3M2 (R123). -/
def fmtE3m2 : FpFmt := ⟨2, 3, 3, 0⟩
/-- FP6 E2M3 (R123). -/
def fmtE2m3 : FpFmt := ⟨3, 2, 1, 0⟩
/-- FP4 E2M1 (R123). -/
def fmtE2m1 : FpFmt := ⟨1, 2, 1, 0⟩

/-- The exponent of the least bit of a subnormal. -/
def FpFmt.low (f : FpFmt) : Int := 1 - (f.bias : Int) - (f.mant : Int)

/-- The pattern of the largest finite magnitude (R123). -/
def FpFmt.maxPat (f : FpFmt) : Nat :=
  match f.special with
  | 1 => (2 ^ f.exp - 1) * 2 ^ f.mant - 1
  | 2 => 2 ^ (f.exp + f.mant) - 2
  | _ => 2 ^ (f.exp + f.mant) - 1

/-- The value of a pattern (R123). -/
def FpFmt.dec (f : FpFmt) (w : Nat) : Fp :=
  let neg := bit w (f.exp + f.mant)
  let m := bits w 0 f.mant
  let e := bits w f.mant f.exp
  if f.special = 1 ∧ e = 2 ^ f.exp - 1 then (if m = 0 then .inf neg else .nan)
  else if f.special = 2 ∧ e = 2 ^ f.exp - 1 ∧ m = 2 ^ f.mant - 1 then .nan
  else if e = 0 then .fin neg m f.low
  else .fin neg (2 ^ f.mant + m) (f.low + (e - 1 : Int))

/-- Rounds `m / 2^sh` to an integer, ties to even. -/
def rneShift (m sh : Nat) : Nat :=
  let q := m / 2 ^ sh
  let r := 2 * (m % 2 ^ sh)
  if r > 2 ^ sh ∨ (r = 2 ^ sh ∧ q % 2 = 1) then q + 1 else q

/-- The magnitude pattern that `m × 2^e` rounds to with an unbounded exponent range above (R126 rules 1, 2, R136). -/
def FpFmt.roundMag (f : FpFmt) (m : Nat) (e : Int) : Nat :=
  if m = 0 then 0 else
  let top := e + (Nat.log2 m : Int) - (f.mant : Int)
  let q := if top < f.low then f.low else top
  let mm := if q ≤ e then m * 2 ^ (e - q).toNat else rneShift m (q - e).toNat
  (q - f.low).toNat * 2 ^ f.mant + mm

/-- A binary32 pattern from sign and magnitude pattern. -/
def mkF32 (neg : Bool) (mag : Nat) : Word :=
  BitVec.ofNat 32 ((if neg then 2 ^ 31 else 0) + min mag 0x7F800000)

/-- Rounds a value to binary32 (R126 rules 1-4). -/
def Fp.toF32 : Fp → Word
  | .nan => canonNan
  | .inf neg => mkF32 neg 0x7F800000
  | .fin neg m e => mkF32 neg (fmtF32.roundMag m e)

/-- The value of a binary32 pattern. -/
def f32 (w : Word) : Fp := fmtF32.dec w.toNat

/-- The exact sum of two values (R126 rule 4). -/
def Fp.add : Fp → Fp → Fp
  | .nan, _ => .nan
  | _, .nan => .nan
  | .inf a, .inf b => if a = b then .inf a else .nan
  | .inf a, _ => .inf a
  | _, .inf b => .inf b
  | .fin s m e, .fin t n d =>
    let l := min e d
    let a : Int := (m : Int) * 2 ^ (e - l).toNat
    let b : Int := (n : Int) * 2 ^ (d - l).toNat
    let sum := (if s then -a else a) + (if t then -b else b)
    if sum = 0 then .fin (s && t) 0 l else .fin (decide (sum < 0)) sum.natAbs l

/-- The exact product of two values (R126 rule 4). -/
def Fp.mul : Fp → Fp → Fp
  | .nan, _ => .nan
  | _, .nan => .nan
  | .inf a, .inf b => .inf (a != b)
  | .inf a, .fin t n _ => if n = 0 then .nan else .inf (a != t)
  | .fin s m _, .inf b => if m = 0 then .nan else .inf (s != b)
  | .fin s m e, .fin t n d => .fin (s != t) (m * n) (e + d)

/-- binary32 addition (R126). -/
def fadd (a b : Word) : Word := ((f32 a).add (f32 b)).toF32

/-- binary32 negation of a value; a NaN stays the canonical NaN. -/
def fneg (a : Word) : Word :=
  match f32 a with
  | .nan => canonNan
  | _ => a ^^^ 0x80000000

/-- binary32 subtraction. -/
def fsub (a b : Word) : Word := fadd a (fneg b)

/-- binary32 multiplication. -/
def fmul (a b : Word) : Word := ((f32 a).mul (f32 b)).toF32

/-- Fused multiply-add with a single rounding (R125, R126 rule 6). -/
def ffma (a b c : Word) : Word := (((f32 a).mul (f32 b)).add (f32 c)).toF32

/-- `a ÷ n` with one rounding (R128 MEAN). -/
def fdivNat (a : Word) (n : Nat) : Word :=
  match f32 a with
  | .fin s m e =>
    let q := m * 2 ^ 64 / n
    let sticky := if m * 2 ^ 64 % n = 0 then 0 else 1
    (Fp.fin s (2 * q + sticky) (e - 65)).toF32
  | v => v.toF32

/-- `⌊√v⌋` for `v` below `4^k`, bit by bit. -/
def isqrt (v : Nat) : Nat → Nat → Nat
  | 0, acc => acc
  | k + 1, acc => isqrt v k (if (acc + 2 ^ k) * (acc + 2 ^ k) ≤ v then acc + 2 ^ k else acc)

/-- `1 ÷ √n` rounded once to binary32 (R128 SQRTN). -/
def rsqrtNat (n : Nat) : Word :=
  let s := isqrt (2 ^ 160 / n) 81 0
  let sticky := if s * s * n = 2 ^ 160 then 0 else 1
  (Fp.fin false (2 * s + sticky) (-81)).toF32

/-- A count as binary32; exact up to 2^24 (R102, R129). -/
def fOfNat (n : Nat) : Word := (Fp.fin false n 0).toF32

/-- `a × 2^k` rounded to binary32 (R211). -/
def fscale (a : Word) (k : Int) : Word :=
  match f32 a with
  | .fin s m e => (Fp.fin s m (e + k)).toF32
  | v => v.toF32

/-- The place of a value in the total order of R130 (−0 below +0). -/
def fkey (a : Word) : Int :=
  let mag : Nat := a.toNat % 2 ^ 31
  if a.toNat < 2 ^ 31 then Int.ofNat mag else -(Int.ofNat mag) - 1

/-- The maximum of two contributions (R130): any NaN absorbs. -/
def fmax (a b : Word) : Word :=
  match f32 a, f32 b with
  | .nan, _ => canonNan
  | _, .nan => canonNan
  | _, _ => if fkey a < fkey b then b else a

/-- Whether score `a` lies below `b`, with −0 equal to +0 (R221). -/
def flt (a b : Word) : Bool :=
  let k := fun w : Word => if w.toNat % 2 ^ 31 = 0 then (0 : Int) else fkey w
  decide (k a < k b)

/-- A binary32 value is a NaN. -/
def isNan (a : Word) : Bool := f32 a == .nan

/-! ### Formats (R119) -/

/-- Codes of the formats that are defined (R119). -/
def fmtDefined (c : Nat) : Bool := [0x01, 0x02, 0x03, 0x04, 0x05, 0x10, 0x11, 0x12, 0x13, 0x14, 0x15, 0x20, 0x21].contains c
/-- Formats allowed as output (R119). -/
def fmtOutput (c : Nat) : Bool := [0x01, 0x02, 0x03, 0x04, 0x05, 0x10, 0x11, 0x15].contains c
/-- Formats that need HUB_CAP.MX (R119). -/
def fmtMx (c : Nat) : Bool := [0x10, 0x11, 0x12, 0x13, 0x14, 0x15].contains c

/-- Bits of an element (R120). -/
def fmtBits (c : Nat) : Nat :=
  if c = 0x01 then 32 else if c = 0x02 ∨ c = 0x03 then 16 else if c = 0x12 ∨ c = 0x13 then 6
  else if c = 0x14 ∨ c = 0x21 then 4 else 8

/-- Bytes of the element area of a row of `w` elements (R119, R120). -/
def elemBytes (c w : Nat) : Nat := ceilDiv (fmtBits c * w) 8

/-- Bytes of a row of `w` elements (R119). -/
def rowBytes (c w : Nat) : Nat :=
  elemBytes c w + (if fmtMx c then ceilDiv w 32 else if c = 0x20 ∨ c = 0x21 then 8 else 0)

/-- The floating-point encoding of a format's elements, where it has one. -/
def fmtFp (c : Nat) : Option FpFmt :=
  match c with
  | 0x01 => some fmtF32
  | 0x02 => some fmtBf16
  | 0x03 => some fmtF16
  | 0x04 => some fmtE4m3
  | 0x05 => some fmtE5m2
  | 0x10 => some fmtE4m3
  | 0x11 => some fmtE5m2
  | 0x12 => some fmtE3m2
  | 0x13 => some fmtE2m3
  | 0x14 => some fmtE2m1
  | _ => none

/-- Multiplies a decoded element by a block scale (R124). -/
def mxScale (v : Fp) (s : Nat) : Word :=
  if s = 255 then canonNan else
  match v with
  | .fin n m e => (Fp.fin n m (e + (s : Int) - 127)).toF32
  | o => o.toF32

/-- Element `i` of a row, decoded to binary32 (R122-R125). `row` is the row's bytes. -/
def decodeElem (c w : Nat) (row : List Byte) (area : Nat) (i : Nat) : Word :=
  let b := fmtBits c
  let v := bits area (b * i) b
  let e := elemBytes c w
  if c = 0x15 then
    let q := toSigned 8 v
    mxScale (.fin (decide (q < 0)) q.natAbs (-6)) (rd row (e + i / 32) 1)
  else if c = 0x20 ∨ c = 0x21 then
    let q := toSigned b v
    ffma (Fp.fin (decide (q < 0)) q.natAbs 0).toF32 (BitVec.ofNat 32 (rd row e 4)) (BitVec.ofNat 32 (rd row (e + 4) 4))
  else
    match fmtFp c with
    | some f => if fmtMx c then mxScale (f.dec v) (rd row (e + i / 32) 1) else (f.dec v).toF32
    | none => canonNan

/-- A row decoded to binary32 (R120, R122-R125). -/
def decodeRow (c w : Nat) (row : List Byte) : List Word :=
  let area := leNat (row.take (elemBytes c w))
  (List.range w).map (decodeElem c w row area)

/-- The canonical NaN of an output format (R137). -/
def outNan (c : Nat) : Nat :=
  match c with
  | 0x01 => 0x7FC00000
  | 0x02 => 0x7FC0
  | 0x03 => 0x7E00
  | 0x04 => 0x7F
  | _ => 0x7E

/-- Converts a binary32 value to BF16, FP16, E4M3 or E5M2; the flag says whether it overflowed or was infinite
(R136, R137). -/
def convElem (c : Nat) (f : FpFmt) (sat : Bool) (v : Word) : Nat × Bool :=
  let sgn := fun (neg : Bool) (mag : Nat) => (if neg then 2 ^ (f.exp + f.mant) else 0) + mag
  let past := fun (neg : Bool) =>
    if sat then sgn neg f.maxPat
    else if f.special = 1 then sgn neg (f.maxPat + 1) else outNan c
  match f32 v with
  | .nan => (outNan c, false)
  | .inf neg => (past neg, true)
  | .fin neg m e =>
    let mag := f.roundMag m e
    if mag > f.maxPat then (past neg, true) else (sgn neg mag, false)

/-- `⌊log2 |v|⌋` of a finite non-zero value. -/
def Fp.floorLog2 : Fp → Option Int
  | .fin _ m e => if m = 0 then none else some (e + (Nat.log2 m : Int))
  | _ => none

/-- Converts one MX block (R138): the scale byte and the element codes. -/
def convBlock (c : Nat) (vs : List Word) : Nat × List Nat :=
  let ps := vs.map f32
  let emax : Int := if c = 0x10 then 8 else if c = 0x11 then 15 else 0
  let zeroOf := fun (v : Word) => if c ≠ 0x15 ∧ v.toNat ≥ 2 ^ 31 then 0x80 else 0
  if ps.any (fun p => match p with | .fin _ _ _ => false | _ => true) then (0xFF, vs.map (fun _ => 0))
  else
    match (ps.filterMap Fp.floorLog2).max? with
    | none => (0, vs.map zeroOf)
    | some l =>
      let x := max (-127) (min 127 (l - emax))
      let code := fun (p : Fp) =>
        match p with
        | .fin neg m e =>
          if c = 0x15 then
            let k := e + 6 - x
            let mag := if k ≥ 0 then m * 2 ^ k.toNat else rneShift m (-k).toNat
            if neg then ofSigned 8 (-((min mag 128 : Nat) : Int)) else min mag 127
          else
            let f := if c = 0x10 then fmtE4m3 else fmtE5m2
            (if neg then 0x80 else 0) + min (f.roundMag m (e - x)) f.maxPat
        | _ => 0
      ((x + 127).toNat, ps.map code)

/-- Packs `b`-bit element codes into bytes (R120). -/
def packElems (b : Nat) (codes : List Nat) : List Byte :=
  leBytes (ceilDiv (b * codes.length) 8) (codes.foldr (fun c acc => c % 2 ^ b + 2 ^ b * acc) 0)

/-- An output row in format `c` (R136-R139), without padding; the flag says whether some element overflowed. -/
def encodeRow (c : Nat) (sat : Bool) (vs : List Word) : List Byte :=
  if c = 0x01 then vs.flatMap (fun v => leBytes 4 v.toNat)
  else if fmtMx c then
    let bl := (chunksOf 32 (vs.length + 1) vs).map (convBlock c)
    packElems 8 (bl.flatMap (·.2)) ++ bl.map (fun b => BitVec.ofNat 8 b.1)
  else
    match fmtFp c with
    | some f => packElems (fmtBits c) (vs.map (fun v => (convElem c f sat v).1))
    | none => []

/-- Bytes padded with zeros to the next multiple of 64 (R139). -/
def pad64 (bs : List Byte) : List Byte := bs ++ zeros ((64 - bs.length % 64) % 64)

/-- `n` rounded up to a multiple of 64. -/
def up64 (n : Nat) : Nat := ceilDiv n 64 * 64

end Sys2Proof
end

