-- ==== Sys2Proof/Config.lean ====
section
/-! DEFINITION. Sys2Proof/Config.lean: the values the spec leaves open. Each is a constant with no body: nothing can
be proved of its value, so whatever is proved holds for every value. -/
namespace Sys2Proof.Config

/-- The count of hub cycles at draw `n` (R42, R70, R308, R331): the model has no clock (log entry 1). -/
opaque stamp : Nat → BitVec 40
/-- Element `i` of what a pooling program makes of a vector (R142-R144): the instruction set of Cigotos is not given
(log entry 2). Arguments: code, constants, the vector, the pool's count n, and i. -/
opaque progElem : List Byte → List Byte → List Word → Nat → Nat → Word
/-- Whether piece `i` of what was cancelled at draw `n` had been carried out (R165, R191, R212, R276): the spec lists
both outcomes (log entry 4). -/
opaque done : Nat → Nat → Bool
/-- Byte `i` of the body of a log record at draw `n` that the spec does not lay out (R460; log entry 16). -/
opaque recByte : Nat → Nat → Byte
/-- Whether the fuse port fails at draw `n` (R386; log entry 15). -/
opaque fuseErr : Nat → Bool
/-- Length and byte `i` of the dump section of unit `u` begun at draw `n` (R416): the spec keys the layout to VERSION and
does not give it (log entry 19). -/
opaque dumpLen : Nat → Nat → Nat
opaque dumpByte : Nat → Nat → Nat → Byte
/-- Byte `i` of the first slot of the control message sent at draw `n`, where R371 leaves it internal to PK4 (log entry 23). -/
opaque msgByte : Nat → Nat → Byte
/-- Byte `i` of the slots of the INIT flit that an end (the station's, if true) of the link of a slot sends (R373): where the slot and the
revision lie in it is not given (log entry 23). -/
opaque initByte : Nat → Bool → Nat → Byte
/-- Byte `i` of a flit that arrives at draw `n` in stripes that were lost (R377; log entry 23). -/
opaque lostByte : Nat → Nat → Byte
/-- Whether the slot and revision that an INIT flit carries agree with those of the end that receives it (R373): where they lie in
it is not given (log entry 23). -/
opaque initAgrees : List Byte → Bool

/-- Which hub clock was found stopped at draw `n` (R436): HUB_CLOCK_STOPPED does not say (log entry 24). -/
opaque clkStopped : Nat → Nat
/-- Which of the 120 reliability sources is that of unit `u` (R325): the numbers are not assigned (log entry 88). -/
opaque relSource : Nat → Nat
/-- Which of the 2^22 bits of an overlay summary stands for a row: the hash of TID, shard and local row is not given (R157; log entry
45). -/
opaque sumHash : Nat → Nat → Nat → Nat
/-- The directory bucket that probe step k of a row reads (TID, shard, local row, k), and how many steps draw `n` takes: the hash is not
given (R152, R156, R181; log entry 45). -/
opaque dirBucket : Nat → Nat → Nat → Nat → Nat
opaque dirSteps : Nat → Nat
/-- Time of the wake that ends at draw `n`, in units of 100 ns (R442): the model has no clock (log entry 1). -/
opaque wakeTime : Nat → Nat

/-- The offset in mV that a re-plan needs at draw `n` where the measured sensitivity k_v is 0 and R467 divides by it (log entry 26). -/
opaque needAtZero : Nat → Nat
/-- Byte `i` of the challenge drawn at `n` (R491). -/
opaque challenge : Nat → Nat → Byte
/-- Error state (0), transmit (1) and receive (2) error counts of the CAN port at draw `n` (R448, R452): ISO 11898-1 governs them. -/
opaque canState : Nat → Nat → Nat

end Sys2Proof.Config
end

