-- ==== Sys2Proof/Machine/Tab.lean ====
section
/-! DEFINITION. Sys2Proof/Machine/Tab.lean: reading and changing finite tables keyed by numbers. -/
namespace Sys2Proof

/-- The value a table holds under key `i`. -/
def Tab.at? {α : Type} : Tab α → Nat → Option α
  | [], _ => none
  | (k, v) :: t, i => if i = k then some v else Tab.at? t i

/-- The value under key `i`, or `d` where the table holds none. -/
def Tab.atD {α : Type} (t : Tab α) (i : Nat) (d : α) : α := (Tab.at? t i).getD d

/-- The table holds a value under `i`. -/
def Tab.has {α : Type} (t : Tab α) (i : Nat) : Bool := (Tab.at? t i).isSome

/-- Puts `v` under `i`, keeping keys strictly rising. -/
def Tab.put {α : Type} : Tab α → Nat → α → Tab α
  | [], i, v => [(i, v)]
  | (k, w) :: t, i, v =>
    if i < k then (i, v) :: (k, w) :: t
    else if i = k then (i, v) :: t
    else (k, w) :: Tab.put t i v

/-- Removes key `i`. -/
def Tab.del {α : Type} (t : Tab α) (i : Nat) : Tab α := t.filter (fun e => e.1 != i)

/-- Changes the value under `i` where there is one. -/
def Tab.upd {α : Type} : Tab α → Nat → (α → α) → Tab α
  | [], _, _ => []
  | (k, v) :: t, i, f => if i = k then (k, f v) :: Tab.upd t i f else (k, v) :: Tab.upd t i f

/-- Changes every value of a table. -/
def Tab.mapV {α β : Type} (t : Tab α) (f : Nat → α → β) : Tab β := t.map (fun e => (e.1, f e.1 e.2))

/-- The entries for which `p` holds. -/
def Tab.keep {α : Type} (t : Tab α) (p : Nat → α → Bool) : Tab α := t.filter (fun e => p e.1 e.2)

/-- Some entry satisfies `p`. -/
def Tab.ex {α : Type} (t : Tab α) (p : Nat → α → Bool) : Bool := t.any (fun e => p e.1 e.2)

/-- How many entries satisfy `p`. -/
def Tab.cnt {α : Type} (t : Tab α) (p : Nat → α → Bool) : Nat := (t.filter (fun e => p e.1 e.2)).length

/-- The keys for which `p` holds, in rising order. -/
def Tab.keys {α : Type} (t : Tab α) (p : Nat → α → Bool) : List Nat :=
  (t.filter (fun e => p e.1 e.2)).map (·.1)

/-- The keys of a table strictly rise. -/
def Tab.sorted {α : Type} : Tab α → Bool
  | [] => true
  | [_] => true
  | (k, _) :: (k', v) :: t => decide (k < k') && Tab.sorted ((k', v) :: t)

/-- The lowest number from `i` on, below `i + fuel`, that is no key: the identifier an allocation takes. -/
def Tab.freeFrom {α : Type} (t : Tab α) : Nat → Nat → Option Nat
  | _, 0 => none
  | i, fuel + 1 => if Tab.has t i then Tab.freeFrom t (i + 1) fuel else some i

/-- Folds a state over a list of keys. -/
def overKeys {σ : Type} (ks : List Nat) (s : σ) (f : σ → Nat → σ) : σ := ks.foldl f s

end Sys2Proof
end

