-- ==== Sys2Proof/Machine/State.lean ====
section
/-! DEFINITION. Sys2Proof/Machine/State.lean: the state of PK4 as plain data, its faults and refusals, and the
state right after reset. Each part cites the rules of spec/ that give it. -/
namespace Sys2Proof.Machine

/-- Why the block could stop. No rule of the spec stops PK4 as a whole, and no meaning raises this fault: it
stands for completeness of the interface (safe). -/
inductive Fault where
  /-- Raised by nothing; safe. -/
  | none
  deriving DecidableEq, Repr

/-- Why a command could have no meaning. -/
inductive Refusal where
  /-- Raised by an arm of exec that has no meaning yet, by name; safe. -/
  | notModelled (mnemonic : String)
  deriving DecidableEq, Repr

/-! ### Build and memories -/

/-- What the integrator built and tied off (R6, R8-R11, R35, R369). It never changes. -/
structure Build where
  variant : Nat
  nstn : Nat
  ncxp : Nat
  scan : Bool
  mx : Bool
  canfd : Bool
  keys : Bool
  /-- Engine ports built on each slot (R35). -/
  eps : List Nat
  /-- Memory behind each slot's port, in 64 KiB units (R364, R369). -/
  mem : List Nat
  /-- JTAG identity code (R492). -/
  idcode : Nat
  /-- Local slots whose two link ends the integrator joins directly, without an adapter (R37, R375). -/
  direct : List Nat := []
  /-- The JEDEC ID that the SPI NOR on the board answers (R387, R427): all ones or all zeros where there is none. -/
  nor : Nat := 0x20BA19
  deriving DecidableEq, Repr

/-- A memory on the far side of a port: the bytes listed, and the 64-byte sectors stored poisoned (R365 rule 6).
A byte not listed reads zero (log entry 3). -/
structure Mem where
  cells : List Host.Cell
  poison : Tab Unit
  deriving DecidableEq, Repr

/-- A physical target (R297): a bus address, or an address behind one station's memory port. -/
structure Tgt where
  host : Bool
  stn : Nat
  addr : Nat
  deriving DecidableEq, Repr

/-! ### Functions and queues (02) -/

/-- A function's registers and state (R50, R55, R57, R59, R342, R353). -/
structure Fn where
  en : Bool := false
  bme : Bool := false
  badDb : Nat := 0
  badQctl : Nat := 0
  qsel : Nat := 0
  /-- Interrupt requests held while BME is 0, one per vector (R353). -/
  held : List Nat := []
  /-- An FLR has begun and is not yet reported complete (R55). -/
  flr : Bool := false
  evBase : Nat := 0
  evEn : Bool := false
  evLog2 : Nat := 0
  evVec : Nat := 0x7FF
  evHead : Nat := 0
  evTail : Nat := 0
  evLost : Bool := false
  evCfgErr : Bool := false
  evOvf : Bool := false
  evLostCnt : Nat := 0
  evArmed : Bool := false
  /-- Records lost that the pending overflow record counts (R341). -/
  evOvfInfo : Nat := 0
  deriving DecidableEq, Repr

/-- MQI_CTL, MQI_MGQ_*, MQI_XCAP (R63). -/
structure Mqi where
  en : Bool := false
  rdy : Bool := false
  cfgErr : Bool := false
  sqb : Nat := 0
  cqb : Nat := 0
  log2 : Nat := 0
  vec : Nat := 0x7FF
  xcap : Nat := 64
  deriving DecidableEq, Repr

/-- Queue states (R60, R75); a queue the store does not list is FREE. -/
inductive QState where
  | idle | active | stopping | resetting | stopped | draining
  deriving DecidableEq, Repr

/-- A queue (R67, R69, R75). Ring positions run from 0 to 2N - 1 (R65). -/
structure Queue where
  st : QState
  cause : Nat := 0
  cls : Nat
  cid : Nat
  dbs : Nat
  sq : Nat
  cq : Nat
  log2 : Nat
  h : Nat := 0
  f : Nat := 0
  t : Nat := 0
  c : Nat := 0
  k : Nat := 0
  nextSeq : Nat := 0
  stale : Nat := 0
  drop : Nat := 0
  timeout : Nat := 0
  kwLevel : Nat := 0
  kwHold : Nat := 0
  /-- The keep-warm hold is running (R84). -/
  kwOn : Bool := false
  vec : Nat := 0x7FF
  icnt : Nat := 1
  itime : Nat := 0
  /-- Records written since the last message (R74). -/
  since : Nat := 0
  /-- CQ_ITIME is running since the first of them (R74). -/
  itimer : Bool := false
  /-- Slots discarded at the stop, for the marker (R73, R75). -/
  disc : Nat := 0
  /-- Slots that have been read and not yet received, by position (R75, R235). -/
  gotten : Tab (List Byte) := []
  deriving DecidableEq, Repr

/-- The arbiter of the fetch engine (R81, R82): credit and express count by partition, place in the 13-selection
pattern by partition, last queue taken by partition and class, last partition served. -/
structure Arb where
  credit : Tab Int := []
  express : Tab Nat := []
  pat : Tab Nat := []
  lastQ : Tab Nat := []
  lastP : Nat := 47
  deriving DecidableEq, Repr

/-! ### Contexts, partitions, translation (10) -/

/-- A segment (R292): the stored descriptor's fields and its 64 bytes. -/
structure Seg where
  base : Nat
  len : Nat
  paged : Bool
  wr : Bool
  host : Bool
  stn : Nat
  phys : Nat
  raw : List Byte
  deriving DecidableEq, Repr

/-- A context (R51, R288). -/
structure Ctx where
  fn : Nat
  pasid : Option Nat
  /-- No partition only for CID 0 (R54). -/
  pid : Option Nat
  dbp : Nat
  key : Nat
  detached : Bool := false
  faultLost : Bool := false
  segs : Tab Seg := []
  deriving DecidableEq, Repr

/-- A cache entry: one run of pages (R298, R301). -/
structure CacheEnt where
  cid : Nat
  lo : Nat
  len : Nat
  wr : Bool
  host : Bool
  stn : Nat
  phys : Nat
  /-- The entry's value, for fault records (R308). -/
  entry : Nat
  level : Nat
  deriving DecidableEq, Repr

/-- A pooling program loaded in a partition (R140, R141, R476). -/
structure Prog where
  kind : Nat
  cost : Nat
  code : List Byte
  const : List Byte
  fmts : Nat
  ops : Nat
  unloading : Bool := false
  deriving DecidableEq, Repr

/-- A partition (R53, R288, R302, R323). -/
structure Part where
  /-- 0 ACTIVE, 1 DRAINING, 2 REMOVING (R288). -/
  st : Nat := 0
  stns : List Nat
  weight : Nat := 1
  defTmo : Nat
  quota : Nat
  /-- Sorting-bay base by slot (R104, R278). -/
  bays : Tab Nat
  progs : Tab Prog := []
  ways : Nat
  banks : Nat
  wmapErr : Bool := false
  hits : Nat := 0
  misses : Nat := 0
  /-- Cache entries, the most recently used first (R301). -/
  cache : List CacheEnt := []
  lowsig : Nat := 0
  /-- T_DRAIN expired and the isolation wrapper completed work (R281, R321). -/
  wrapped : Bool := false
  /-- Postbag flushed and scrubs started by the removal (R321 steps 4, 5). -/
  scrubbing : Bool := false
  deriving DecidableEq, Repr

/-- Who waits for a walk: a command or the rings of a queue, by number (a command's number is its key in the
command store; the rings of queue q have number 2^80 + q). -/
abbrev Client := Nat

/-- A miss that waits for a walker or is being walked (R303). -/
structure Miss where
  client : Client
  pid : Nat
  cid : Nat
  addr : Nat
  deriving DecidableEq, Repr

/-- A walk in progress (R297, R303). -/
structure Walker where
  pid : Nat
  cid : Nat
  addr : Nat
  seg : Nat
  level : Nat
  host : Bool
  stn : Nat
  /-- Address of the entry being read. -/
  at_ : Nat
  /-- The ranges (start, length) of its context invalidated since it began: a run that meets one is not installed (R304 step 1). -/
  inval : List (Nat × Nat) := []
  deriving DecidableEq, Repr

/-- How a walk ended, kept for the client that waited for it until its range is translated (R297): a fault, or (type 0) the run it
found. `stn`: the station whose memory holds the table read last; 0x3F for none. -/
structure XFault where
  client : Client
  cid : Nat
  lo : Nat
  len : Nat
  type : Nat
  level : Nat
  entry : Nat
  stn : Nat := 0x3F
  run : Option CacheEnt := none
  deriving DecidableEq, Repr

/-- A fault record (R308), without its PHASE bit. `stamp` numbers the draw of its STAMP. -/
structure FaultRec where
  type : Nat
  agent : Nat
  write : Bool
  level : Nat
  pid : Nat
  stn : Nat := 0x3F
  cid : Nat
  qid : Nat := 0x7FFF
  addr : Nat
  seq : Nat := 0
  opcode : Nat := 0
  seg : Nat := 15
  tag : Nat := 0
  lost : Nat := 0
  stamp : Nat := 0
  entry : Nat := 0
  phys : Nat := 0
  deriving DecidableEq, Repr

/-- A postbag (R307, R309, R311, R323); 48 is the system postbag. -/
structure Postbag where
  base : Nat := 0
  en : Bool := false
  log2 : Nat := 0
  cfgErr : Bool := false
  head : Nat := 0
  tail : Nat := 0
  staged : List FaultRec := []
  lostCnt : Nat := 0
  /-- The pending OVERFLOW record: the first lost record and how many (R311). -/
  ovf : Option FaultRec := none
  deriving DecidableEq, Repr

/-- Key slot states (R316). -/
inductive KeyState where
  | free | loaded | scrubbing | scrubbed
  deriving DecidableEq, Repr

/-- A key slot (R316-R319, R289). -/
structure KeySlot where
  st : KeyState := .free
  pid : Option Nat := none
  epoch : Nat := 0
  /-- Sweeps completed since the scrub (R319). -/
  sweeps : Nat := 2
  /-- Stations whose engine has not acknowledged the LOAD or ERASE (R317, R318). -/
  await : List Nat := []
  /-- The ERASE has been sent (R318 step 3). -/
  erasing : Bool := false
  /-- Stations whose inline engine holds the key. -/
  holders : List Nat := []
  deriving DecidableEq, Repr

/-- Block-wide translation state (R303, R319, R323). -/
structure Xlt where
  psel : Nat := 0
  sys : Bool := false
  ksel : Nat := 0
  epoch : Nat := 0
  dead : Nat := 0
  iso : Nat := 0
  walkers : Tab Walker := []
  misses : List Miss := []
  xfaults : List XFault := []
  /-- The sweep that runs: the stations and lanes whose markers have not returned (R319, R367). -/
  sweep : Option (List (Nat × Nat)) := none
  /-- Which partition's miss was last given a walker (R303). -/
  lastPid : Nat := 47
  deriving DecidableEq, Repr

/-! ### Fences and edges (08) -/

/-- A fence (R229, R231). -/
structure Fence where
  owner : Nat
  /-- Partition; none for the fences of QID 0 (SYS). -/
  pid : Option Nat
  shared : Bool
  value : Nat
  err : Bool := false
  errVal : Nat := 0
  /-- A DESTROY has been accepted (R233). -/
  dead : Bool := false
  deriving DecidableEq, Repr

/-- A pending edge (R240). -/
structure Edge where
  src : Nat
  sv : Nat
  dst : Nat
  dv : Nat
  deriving DecidableEq, Repr

/-- GRF registers and the SYS low-signal count (R256). -/
structure Grf where
  psel : Nat := 0
  sys : Bool := false
  lowSys : Nat := 0
  found : Nat := 0
  abandoned : Nat := 0
  deriving DecidableEq, Repr

/-! ### Reads in flight -/

/-- What a read or marker is for. -/
inductive Purpose where
  /-- `n` slots of queue q's submission ring from position `pos`; `drop`: the queue has stopped since (R75, R80). -/
  | fetch (q pos n : Nat) (drop : Bool)
  /-- Item `i` of a command's reads. -/
  | item (i : Nat)
  /-- Sectors of row `r` of the drained window of sub-lookup `sub` on station `stn` (R106), a directory bucket that is read before them
  (R181), and spilled entries of the window (R104). -/
  | row (sub stn r : Nat)
  | dir (sub stn r : Nat)
  | spill (sub stn : Nat)
  /-- The entry that walker `w` reads (R303). -/
  | walk (w : Nat)
  /-- Input of transfer slot `xid` of an engine port, from offset `off` (R253). -/
  | input (ep xid off : Nat)
  /-- A sweep marker (R319, R367). -/
  | marker
  /-- A write that is not acknowledged yet: its sectors with the poison of each (R364, R365 rule 3). -/
  | write (sectors : List (List Byte × Bool))
  deriving DecidableEq, Repr

/-- A request that PK4 has issued or holds for want of a tag (R27, R312, R348, R364). `stn` none: through LTP-H. -/
structure Req where
  stn : Option Nat
  client : Client
  cid : Nat
  key : Nat
  fn : Nat
  pasid : Option Nat
  addr : Nat
  len : Nat
  pur : Purpose
  lane : Nat := 0
  /-- It failed the check of R313: it was not issued, and its poisoned answer is not consumed yet. -/
  iso : Bool := false
  /-- It was outstanding when the running sweep began (R367). -/
  swept : Bool := false
  /-- Bytes of it that have been answered, from its start (R351, R365 rule 2). -/
  got : Nat := 0
  /-- What of it arrived poisoned or failed: address and length (R351, R365). -/
  bad : List (Nat × Nat) := []
  /-- A read of an operand list: the fetch engine makes it (R80). -/
  list : Bool := false
  deriving DecidableEq, Repr

/-! ### Event controller (11) -/

/-- A source (R324-R329, R343). -/
structure Src where
  raw : Bool := false
  pending : Bool := false
  active : Bool := false
  info : Nat := 0
  count : Nat := 0
  sense : Nat
  mode : Nat := 0
  hring : Nat := 0
  prio : Nat := 0x80
  fn : Nat := 0
  tmask : Nat := 0xFF
  masked : Bool
  deriving DecidableEq, Repr

/-- A record in a hub ring (R331, R335); `by_` is the core that claimed it. -/
structure HrRec where
  src : Nat
  prio : Nat
  ovf : Bool
  level : Bool
  info : Nat
  stamp : Nat
  coalesced : Nat
  mode : Nat
  tmask : Nat
  order : Nat
  by_ : Option Nat := none
  deriving DecidableEq, Repr

/-- A hub ring (R335, R341): its records by slot, position of head and tail modulo 512. -/
structure HubRing where
  recs : Tab HrRec := []
  /-- What the ring's SRAM holds, by slot (R335). -/
  sram : Tab (List Byte) := []
  head : Nat := 0
  tail : Nat := 0
  lost : Bool := false
  ovf : Bool := false
  ovfInfo : Nat := 0
  lostCnt : Nat := 0
  deriving DecidableEq, Repr

/-- The event controller (R324-R344). -/
structure Evc where
  en : Bool := false
  groupBits : Nat := 4
  ssel : Nat := 0
  fwEn : Bool := false
  /-- Sources whose state is not their reset state. -/
  srcs : Tab Src := []
  rings : Tab HubRing := []
  /-- EVC_SEQ_ERR per core: FOREIGN, EMPTY. -/
  foreign : Tab Unit := []
  empty_ : Tab Unit := []
  /-- Number of hub-ring records written, for "earliest written" (R337). -/
  order : Nat := 0
  deriving DecidableEq, Repr

/-! ### Commands in flight (02, 08, 09) -/

/-- Where a command stands (R71, R72, R234, R238). -/
inductive Phase where
  /-- Received, behind its queue's head. -/
  | received
  /-- Head of its queue, waiting for its fences (R238 step 5). -/
  | parked
  /-- Admitted; its own row has not started it yet. -/
  | admitted
  | running
  /-- Its status is decided; the completion record is not written yet. -/
  | done
  deriving DecidableEq, Repr

/-- One read that a command's data waits for: at most 256 bytes of station memory or 512 of host memory. -/
structure Item where
  tgt : Tgt
  len : Nat
  /-- Operand list or block (R351 row 2), not data that may arrive poisoned (row 3). -/
  operand : Bool
  back : Bool := false
  /-- What of it arrived poisoned or failed: address and length. -/
  bad : List (Nat × Nat) := []
  /-- The bytes it brought. -/
  data : List Byte := []
  deriving DecidableEq, Repr

/-- A piece of a translated range: offset in it, length, its target where it is mapped, its context address, whether it was translated
for writing, and whether its sectors may be written (R300, R304). -/
structure Piece where
  off : Nat
  len : Nat
  tgt : Option Tgt
  ca : Nat
  wr : Bool := false
  perm : Bool := false
  deriving DecidableEq, Repr

/-- One descriptor of a chain that makes a transfer (R248, R249). -/
structure Desc where
  idx : Nat
  kind : Nat
  len : Nat
  user : List Byte
  data : List Byte
  pieces : List Piece
  deriving DecidableEq, Repr

/-- A DISPATCH being carried out (R249-R254). -/
structure DispW where
  ep : Nat
  engOp : Nat
  descs : List Desc
  did : Option Nat := none
  /-- Next descriptor to issue as a transfer, and transfers made. -/
  next : Nat := 0
  made : Nat := 0
  endSent : Bool := false
  doneStat : Option (Nat × Nat) := none
  poisonSent : Bool := false
  unmapped : Bool := false
  /-- The fault record of each descriptor with an unmapped sector (R251). -/
  faults : List FaultRec := []
  deriving DecidableEq, Repr

/-- An invalidation being carried out (R304): its range, the stations and engine ports that have not acknowledged, ports
that have, hub accesses that must be consumed first (step 2), and station accesses under older extent lists (step 3). -/
structure InvW where
  cid : Nat
  lo : Nat
  len : Nat
  stns : List Nat := []
  ports : List Nat := []
  acked : Nat := 0
  hub : List Req := []
  old : List Req := []
  deriving DecidableEq, Repr

/-! ### Tables, streams (03, 05, 06) -/

/-- A live version (R149): its number, base, floor and pins. -/
structure Ver where
  ver : Nat
  base : Nat
  floor : Nat
  pins : Nat := 0
  deriving DecidableEq, Repr

/-- A directory entry of a shard's overlay (R151, R152, R156): local row, postmark, slot. -/
structure DirEnt where
  shard : Nat
  row : Nat
  post : Nat
  slot : Nat
  deriving DecidableEq, Repr

/-- What waits in a table's chain for its turn (R168): a switch, discard, COPY install of version `ver`. -/
structure Pend where
  client : Client
  /-- True for a DISCARD, or a switch that was cancelled or timed out (R168). -/
  discard : Bool
  ver : Nat
  /-- New base and floor of a NEW_BASE switch or COPY; a PUBLISH keeps those of CUR (R166). -/
  nb : Option (Nat × Nat)
  deriving DecidableEq, Repr

/-- An accepted update whose completion record is not written (R163, R168): its postmark, the shards of its slots and of its directory
entries that are reserved and not used yet (R173), and whether its rows are written. -/
structure Writer where
  client : Client
  post : Nat
  resv : List Nat
  ents : List Nat
  applied : Bool := false
  deriving DecidableEq, Repr

/-- A table (R85, R88, R149, R154, R165, R172, R173). -/
structure Table where
  pid : Nat
  fmt : Nat
  width : Nat
  owner : Nat
  shared : Bool
  rows : Nat
  /-- STRIDE_BYTES. -/
  stride : Nat
  block : Bool
  shift : Nat
  nshard : Nat
  dmode : Nat
  shardBytes : Nat
  daddr : Nat
  ovlBase : Nat
  ovlSlots : Nat
  stns : List Nat
  /-- The default row's extents (R89, R92). -/
  dext : List Piece := []
  /-- The stored descriptor (R85). -/
  raw : List Byte
  cur : Nat := 1
  s : Nat := 2
  vers : List Ver
  /-- Versions S of which a writer did not complete with ST_OK (R165). -/
  incomplete : List Nat := []
  retiring : Bool := false
  rebase : Option Client := none
  /-- Extent lists by base address x 64 + shard (R88). -/
  ext : Tab (List Piece) := []
  /-- Overlay regions' extents by shard. -/
  ovl : Tab (List Piece) := []
  dir : List DirEnt := []
  /-- Directory entries in use by shard, released ones included (R173). -/
  inUse : Tab Nat := []
  /-- Writers in acceptance order; their unused reservations are the reserved slots and entries of R173. -/
  writers : List Writer := []
  /-- Shards whose directory is to be cleared of released entries after a COPY, and the version it installed (R175). -/
  clear : List Nat := []
  clearAt : Nat := 0
  pend : List Pend := []
  /-- The COPY that runs, and its new base (R175). -/
  copying : Option (Client × Nat) := none
  /-- Versions retired whose entries GEN1 has not released yet (R171). -/
  retired : List Nat := []
  deriving DecidableEq, Repr

/-- A stream (R183, R187, R200). -/
structure Stream where
  pid : Nat
  row : Bool
  strict : Bool
  shared : Bool
  stn : Nat
  tid : Nat
  fmt : Nat
  width : Nat
  cap : Nat
  base : Nat
  owner : Nat
  closing : Bool := false
  orphaned : Bool := false
  total : Nat := 0
  first : Nat := 0
  raw : List Byte
  ext : List Piece
  /-- Commands accepted and not yet applied, in acceptance order (R200), and those not yet completed (R201). -/
  order : List Client := []
  users : List Client := []
  deriving DecidableEq, Repr

/-! ### Work of lookups, updates and scans (03-07) -/

/-- An occurrence (R101, R102): the row (none: the default row), its pool, scale and position. -/
structure Occ where
  row : Option Nat
  pool : Nat
  scale : Word
  pos : Nat := 0
  /-- Occurrences folded into it (R129), and where it lies in the sorting bay, counted from 1; 0: on chip (R104). -/
  count : Nat := 1
  spill : Nat := 0
  deriving DecidableEq, Repr

/-- A window entry (R102): a row and what was appended for it, oldest first. -/
structure WEnt where
  row : Option Nat
  occs : List Occ
  deriving DecidableEq, Repr

/-- A row of a closed window that is being fetched (R106): where it lies, its reads still out, whether its data is bad (R112, R113), and
the directory buckets still to read before it (R181). -/
structure RowF where
  ent : WEnt
  pieces : List Piece
  left : Nat
  bad : Bool
  probe : Nat := 0
  deriving DecidableEq, Repr

/-- A partial pool (R109, R128-R133): accumulator (empty list: nothing yet), placed rows, poison, and the count it carries (R129). -/
structure Partial where
  acc : List Word := []
  placed : List (Nat × List Word) := []
  poison : Bool := false
  count : Nat := 0
  deriving DecidableEq, Repr

/-- One station's share of one sub-lookup (R101-R110): occurrences still to sort; the filling window with its occurrences, entries and
Sorter bank; the closed window whose spilled entries are being read back (R104), the reads left and what of them was bad; the window
being drained; and its partials. -/
structure Share where
  todo : List Occ
  win : List WEnt := []
  winOcc : Nat := 0
  ents : Nat := 0
  bank : Nat := 0
  held : List WEnt := []
  heldLeft : Nat := 0
  heldBad : List (Nat × Nat) := []
  fetch : Tab RowF := []
  parts : Tab Partial := []
  deriving DecidableEq, Repr

/-- A sub-lookup with its operands resolved (R90-R98). `op` 0-6 as R128, 7 places one row for each index (R97). -/
structure Sub where
  tid : Nat
  ver : Nat
  op : Nat
  ofmt : Nat
  prog : Nat
  k : Nat
  /-- Count n by pool (R129). -/
  n : Tab Nat
  /-- Pools that hold an index under ZERO handling, and pools that hold a defaulted index (R92). -/
  zero : List Nat
  dflt : List Nat
  defaulted : Nat
  /-- How many indices of each pool have ZERO handling (R92, R129). -/
  zeros : Tab Nat := []
  deriving DecidableEq, Repr

/-- Where the rows of a lookup go: of one sub-lookup, or of all of them interleaved (R96, R98). -/
structure Dest where
  subs : List Nat
  p : Nat
  ep : Option Nat
  out : List Piece
  stride : Nat
  flags : List Piece
  /-- Flag bytes, output rows for each of them (R95, R194), and their bits so far. -/
  nflags : Nat
  group : Nat
  fbits : Tab Nat
  /-- Accumulator width A and pools of a block (R109), and the combining site: a station, or none for the hub. -/
  width : Nat
  blk : Nat
  site : Option Nat
  deriving DecidableEq, Repr

/-- A row for an engine port (R361): its port, index, bytes and poison. -/
structure RRow where
  ep : Nat
  idx : Nat
  bytes : List Byte
  poison : Bool
  deriving DecidableEq, Repr

/-- A lookup or gather being carried out (R109, R110). -/
structure LookW where
  subs : List Sub
  dests : List Dest
  /-- The destination whose block runs, the block's first pool, and output rows finished before. -/
  d : Nat := 0
  first : Nat := 0
  idx : Nat := 0
  /-- Shares by 64 x sub + station. -/
  shares : Tab Share
  /-- Accumulators of the site by 2^24 x sub + pool. -/
  acc : Tab Partial := []
  reports : List Nat := []
  poison : Bool := false
  empty : Bool := false
  fault : Bool := false
  /-- RESULT_COUNT at the end, and rows written or streamed so far. -/
  count : Nat
  written : Nat := 0
  /-- Rows not yet sent to an engine port, in output order (R361). -/
  rows : List RRow := []
  /-- Slots of a gather whose element arrived poisoned or lies in an unmapped sector: their rows are poisoned (R196, R494). -/
  spoiled : List Nat := []
  deriving DecidableEq, Repr

/-- An update that was accepted (R160-R165): its postmark, the version it pinned, its index list. -/
structure UpdW where
  tid : Nat
  post : Nat
  ver : Nat
  rows : List Nat
  deriving DecidableEq, Repr

/-- A list entry of a SCAN_PQ (R206): its index, its bytes, and whether it is skipped (R207, R217). -/
structure ScanL where
  idx : Nat
  raw : List Byte
  skip : Bool
  deriving DecidableEq, Repr

/-- A candidate (R221): its query, score, identifier, list, and position in the list. -/
structure Cand where
  q : Nat
  score : Word
  id : Nat
  list : Nat
  pos : Nat
  deriving DecidableEq, Repr

/-- What scanning has given (R215, R216, R221): candidates kept, pairs excluded, and queries that poison touched. -/
structure Tally where
  kept : List Cand := []
  excl : Nat := 0
  bad : List Nat := []
  deriving DecidableEq, Repr

/-- A station's part of a scan or LUT build (R213, R219, R220, R226): whether it holds its LUT bank; the lists still to be sent to it; the
list it scans and the next vector of it, or a build (0, 0), where a segment could start; the first of the command's reads that the unit in
flight waits for, and how many; what the running list and the lists before it gave; whether identifiers are being read; and whether its
final lists are sent. -/
structure ScanS where
  stn : Nat
  bank : Bool := false
  todo : List Nat := []
  seg : Option (Nat × Nat) := none
  busy : Option (Nat × Nat) := none
  cur : Tally := {}
  all : Tally := {}
  ids : Bool := false
  sent : Bool := false
  deriving DecidableEq, Repr

/-- A scan or LUT build (R211-R223): its stations' parts, its lists, and whether a list was skipped because it did not translate. -/
structure ScanW where
  per : List ScanS
  lists : List ScanL := []
  fault : Bool := false
  deriving DecidableEq, Repr

/-- The stations of a scan or build. -/
def ScanW.stns (w : ScanW) : List Nat := w.per.map (·.stn)

/-- Work of a command, by kind. -/
inductive Work where
  | idle
  | disp (w : DispW)
  | inv (w : InvW)
  | look (w : LookW)
  | upd (w : UpdW)
  | scan (w : ScanW)
  /-- An append to a stream that waits for its turn (R200): the source elements skipped and those written (R188). -/
  | append (sid skip n : Nat)
  /-- A gather that waits for its turn on its streams, and whether its element reads are issued (R200). -/
  | gather (sids : List Nat) (served : Bool)
  /-- A TRIM that waits for its turn (R201). -/
  | trim (sid keep : Nat)
  /-- A CLOSE, and the commands it waits for (R201). -/
  | close (sid : Nat) (cls : List Client)
  /-- Waits for a table event: a switch or discard of version `ver`, a WAIT below `ver`, a TABLE retire. -/
  | table (tid ver : Nat)
  /-- Waits for a fence (R233 DESTROY, R234). -/
  | fence (fid : Nat)
  /-- A queue, context, partition, key slot or stream whose end the command waits for. -/
  | obj (id : Nat)
  deriving DecidableEq, Repr

/-- A command received (R70-R72, R158, R238). -/
structure Cmd where
  q : Nat
  seq : Nat
  env : List Byte
  ext : List Byte
  phase : Phase := .received
  /-- Hub admission order (R83). -/
  order : Nat := 0
  stage : Nat := 0
  status : Nat := 0
  poison : Bool := false
  empty : Bool := false
  trunc : Bool := false
  count : Nat := 0
  aux : Nat := 0
  /-- Cancelled: completes with this status once its reads are back (R77). -/
  cancel : Option Nat := none
  /-- Some of its result data has left PK4 (R77 step 3). -/
  left : Bool := false
  pins : List (Nat × Nat) := []
  /-- Operand ranges, translated once by the checks (R100), in the order the command's own meaning gives. -/
  ranges : List (List Piece) := []
  items : List Item := []
  work : Work := .idle
  /-- The chain of a DISPATCH ahead of its start (R249): 0 not read, 1 being read, 2 translated, 3 to be translated at admission. -/
  pre : Nat := 0
  deriving DecidableEq, Repr

/-! ### Engine ports (12) -/

/-- A transfer on an engine port (R253, R358, R361). -/
structure Xfer where
  client : Client
  /-- 0 INPUT, 1 OUTPUT, 2 INLINE, 3 RESULT. -/
  kind : Nat
  len : Nat
  /-- Beats sent or received. -/
  beats : Nat := 0
  /-- Where input comes from, or output goes. -/
  pieces : List Piece := []
  /-- Beats of an INLINE or RESULT transfer with their poison. -/
  data : List (List Byte × Bool) := []
  /-- INPUT: bytes whose reads are issued, reads still out (offset, length), bytes that have come by offset, and what of them is bad
  (offset, length). OUTPUT: credits granted. -/
  issued : Nat := 0
  out : List (Nat × Nat) := []
  input : List (Nat × List Byte) := []
  badAt : List (Nat × Nat) := []
  deriving DecidableEq, Repr

/-- An engine port (R357-R363, R404). -/
structure Ep where
  rdy : Bool := false
  rstN : Bool := false
  qreq : Bool := false
  credits : Nat := 0
  nextDid : Nat := 0
  /-- Dispatches that have sent START and have no done response: DID and command (R360). -/
  dids : Tab Client := []
  xids : Tab Xfer := []
  res : Option Xfer := none
  /-- The dispatch whose transfers are being issued (R252). -/
  cur : Option Client := none
  granted : Nat := 0
  /-- OUTPUT transfers ended early: later beats of them are discarded (R403 step 3). -/
  ended : List Nat := []
  /-- END beats of dispatches that were ended early, not sent yet. -/
  ends : List (List Byte) := []
  /-- STN_EP bits (R420). -/
  out : Bool := false
  inReset : Bool := false
  deriving DecidableEq, Repr

/-! ### Stations (13, 14) -/

/-- A station's health and power (R400, R401, R412, R420, R439-R442). -/
structure Stn where
  /-- STN_HEALTH.STATE: 0 IN_SERVICE, 1 FENCED, 2 RETURNING, 3 OUT. -/
  state : Nat := 0
  memFell : Bool := false
  /-- UPTIME of each return attempt of the last hour (R412). -/
  attempts : List Nat := []
  trigger : Nat := 0
  fences : Nat := 0
  /-- The return attempt that runs began from OUT: if it fails the station is OUT again (R412). -/
  fromOut : Bool := false
  /-- Fenced by the driver or CX_CTL.DISABLE: it returns only when the driver asks (R412). -/
  byDriver : Bool := false
  /-- STN_PAR and STN_MP_ERR. -/
  parRep : Nat := 0
  parPer : Nat := 0
  mpTmo : Nat := 0
  mpPoison : Nat := 0
  /-- UPTIME of each retirement at T_mem within the last second (R401). -/
  tmoAt : List Nat := []
  /-- MP_MEM_RDY. -/
  memRdy : Bool := true
  /-- Heartbeats not answered, and heartbeats without progress by unit (R400). -/
  missed : Nat := 0
  stalled : Tab Nat := []
  /-- Units that answer no debug read (R417): those found hung. -/
  silent : List Nat := []
  /-- PWR_STN.STATE: 0 Active, 1 Doze, 2 Sleep, 3 Off, 4 ENTERING, 5 WAKING. -/
  pwr : Nat := 0
  abandon : Bool := false
  /-- PWR_STN.ENUM: 0 pending, 1 PRESENT, 2 ABSENT, 3 FAILED. -/
  enum : Nat := 0
  /-- PWR_STN.POLICY: 0 AUTO, 1 HOLD_ACTIVE, 2 ALLOW_OFF, 3 FORCE_OFF. -/
  policy : Nat := 0
  /-- STN_PS_REQ and STN_PS_ACK. -/
  psReq : Nat := 0
  psAck : Nat := 0
  /-- Where an ENTERING station goes, the ports whose idle request is not answered, and where a WAKING one comes from: 2 Sleep, 3
  Off, 4 Off once its supplies are back. -/
  toward : Nat := 2
  idleReq : List Nat := []
  wakeFrom : Nat := 0
  wakeTried : Bool := false
  /-- A demand is held until the entry completes (R439). -/
  demand : Bool := false
  dozes : Nat := 0
  sleeps : Nat := 0
  wakeLast : Nat := 0
  wakeMax : Nat := 0
  /-- Its copy of the CIDs of its partition, with the key slot bound to each (R313). -/
  iso : Tab Nat := []
  /-- Every bit of the overlay summary reads as set (R157), and directory entries released since its last rebuild. -/
  sumAll : Bool := false
  sumRel : Nat := 0
  /-- The two banks of the summary, by the bits that are set, and whether the second is the one in use (R157). -/
  sumA : List Nat := []
  sumB : List Nat := []
  sumSel : Bool := false
  /-- The Sorter bank that fills next (R101, R104). -/
  sortBank : Nat := 0
  /-- ARITH_FSEL, the step it asks for and whether it was tried before (R469). -/
  fsel : Nat := 0
  fstepTo : Option Nat := none
  fTried : Bool := false
  deriving DecidableEq, Repr

/-! ### Courier links (12) -/

/-- The traffic of one class at an end of a link (R39, R371): slots whose credits it has returned, the other end's total as last received,
and slots sent, all modulo 4,096; the receive buffer, of slots whose message is not yet whole; messages that wait to be sent, each with the
link it came over (63 the end itself), oldest first; what is left of the message begun, and where the last message begun came from. -/
structure Chan where
  crt : Nat := 0
  got : Nat := 0
  sent : Nat := 0
  buf : List (List Byte) := []
  queue : List (Nat × List (List Byte)) := []
  rest : List (List Byte) := []
  last : Nat := 63
  deriving DecidableEq, Repr

/-- One end of a Courier link (R370-R373). -/
structure LEnd where
  /-- SEQ of the next PAYLOAD flit sent, flits kept, and times the oldest was resent. -/
  txNext : Nat := 0
  kept : List (Nat × List Byte) := []
  resent : Nat := 0
  /-- SEQ expected next, and whether flits are discarded until it comes. -/
  rxNext : Nat := 0
  asking : Bool := false
  /-- Its classes: requests, responses, debug and management. -/
  req : Chan := {}
  rsp : Chan := {}
  dbg : Chan := {}
  /-- An INIT flit that agrees has been received since the last training. -/
  init : Bool := false
  deriving DecidableEq, Repr

/-- Sparing in progress in one direction (R380). -/
structure Spare where
  lane : Nat
  /-- The receiver has locked, and the switch count of its last order. -/
  locked : Bool := false
  order : Nat := 0
  /-- The count at which the transmitter will switch. -/
  at_ : Option Nat := none
  deriving DecidableEq, Repr

/-- A Courier link (R372, R378-R382). -/
structure Link where
  /-- CX_STAT.STATE: 0 OFF, 1 DETECT, 2 EQ, 3 ALIGN, 4 INIT, 5 ACTIVE, 6 RETRAIN, 7 DOWN. -/
  st : Nat := 0
  degraded : Bool := false
  spareRdy : Bool := false
  disable : Bool := false
  spareLane : Nat := 0
  spareDir : Bool := false
  retry : Nat := 0
  retrains : Nat := 0
  downs : Nat := 0
  txSpared : Nat := 15
  rxSpared : Nat := 15
  /-- Physical lanes found good at the last ALIGN and not lost since, and those a sparing has powered down, hub to station and station to
  hub (R380, R381). -/
  txGood : Nat := 0
  rxGood : Nat := 0
  txOff : Nat := 0
  rxOff : Nat := 0
  thr : Nat := 65536
  fecCorr : Nat := 0
  fecNear : Nat := 0
  fecFar : Nat := 0
  lerr : Tab Nat := []
  /-- Logical lanes in use, hub to station and station to hub (R381). -/
  txLanes : Nat := 8
  rxLanes : Nat := 8
  tx : Option Spare := none
  rx : Option Spare := none
  /-- Uncorrectable codewords seen by direction (0 hub to station) and lane, with the UPTIME they were seen at (R379). -/
  unc : List (Nat × Nat × Nat × Nat) := []
  /-- UPTIME of each retrain that failed to reach ACTIVE (R378). -/
  failed : List Nat := []
  /-- The link is retraining, not training for the first time. -/
  again : Bool := false
  hub : LEnd := {}
  stn : LEnd := {}
  deriving DecidableEq, Repr

/-! ### Recovery (13) -/

/-- A dump being collected (R415-R417): its slot, STEP, the unit codes left, where the next section goes, sections so
far, and the partition it is filtered to. -/
structure Coll where
  slot : Nat
  step : Nat
  todo : List Nat
  /-- 0: not begun. -/
  pos : Nat := 0
  nsect : Nat := 0
  pid : Option Nat := none
  first : Nat := 0
  /-- SERIAL of the error record that started it (R415). -/
  serial : Nat := 0
  deriving DecidableEq, Repr

/-- Where a station's core stands among the cores: 0 to 7 are the hub's; `j` is 0 for SSEQ0, 1 for SSEQ1 (R29). -/
def stnCore (n j : Nat) : Nat := 16 + 2 * n + j

/-- A sequencer core (R29, R336, R399): UPTIME of its last watchdog expiry and of the load of a new image (R486); whether it hangs, so
that it answers no debug read (R417); and its instruction and data memories. -/
structure Core where
  expired : Option Nat := none
  loaded : Option Nat := none
  hung : Bool := false
  code : List Host.Cell := []
  data : List Host.Cell := []
  deriving DecidableEq, Repr

/-- Recovery registers and state (R402, R409, R413-R420). -/
structure Recov where
  escStep : Nat := 0
  escId : Nat := 0
  /-- Ladder steps that have begun and may still run: step and scope. -/
  running : List (Nat × Nat) := []
  /-- RST_ESC_CNT by i. -/
  cnt : Tab Nat := []
  /-- RST_REC_STAT: 0 READY, 1 COLLECT, 2 RESTART, 3 FAILED; milliseconds since the trigger. -/
  state : Nat := 0
  elapsed : Nat := 0
  parRep : Nat := 0
  parPer : Nat := 0
  dumpEn : Bool := false
  dumpBase : Nat := 0
  /-- RST_RSRAM_ADDR, in words. -/
  rsAddr : Nat := 0
  elogCnt : Nat := 0
  serial : Nat := 0
  hsel : Nat := 0
  colls : List Coll := []
  /-- Dump slots that wait to be copied (R418). -/
  copies : List Nat := []
  /-- Retention SRAM; bytes not listed are zero (R413, R428). -/
  rsram : List Host.Cell := []
  /-- Ladder steps begun: step, partition (0 for the chip), UPTIME (R402). -/
  hist : List (Nat × Nat × Nat) := []
  deriving DecidableEq, Repr

/-! ### Reset and power (14) -/

/-- How far a release or warm reset has come (R406, R428). -/
inductive Rel where
  /-- READY. -/
  | ready
  /-- A warm reset before step 3: the dump is being collected. -/
  | collect
  /-- A brown-out hold. -/
  | hold
  /-- Step 3: a hub clock is out of range. -/
  | clocks
  /-- Steps 6 and 7: links train. -/
  | links
  /-- Step 8: memories. -/
  | memory
  /-- No slot verified, or DECOMMISSIONED (R430, R488). -/
  | failed
  deriving DecidableEq, Repr

/-- Reset registers and state (R421-R430, R442). -/
structure Rst where
  rel : Rel := .ready
  cause : Nat := 1
  bad : Bool := false
  spiFail : Bool := false
  range : Bool := false
  clk : Nat := 0
  holdCnt : Nat := 0
  /-- Causes that step 3 of the running warm reset will set (R422, R425), and whether it is a chip step (R423). -/
  due : Nat := 0
  ladder : Bool := false
  /-- UPTIME at the last READY (R466). -/
  readyAt : Nat := 0
  /-- Hub clocks that are out of range, as the last check found or HUB_CLOCK_STOPPED said. -/
  clkOut : Nat := 0
  deriving DecidableEq, Repr

/-- Option bytes as loaded (R426, R457): the fields in the order of OD 0x2600 (R458), and the 32 rail entries of 5 bytes. -/
structure Opts where
  fields : List Nat
  rails : List (List Byte)
  deriving DecidableEq, Repr

/-- The defaults of R426 and R457. -/
def Opts.default : Opts :=
  { fields := [4, 0, 0, 0, 20, 10, 0, 1, 1, 600, 25, 30, 50, 4, 180, 50, 1], rails := List.replicate 32 (List.replicate 5 0) }

/-- PWR_TIMERS, PWR_TOFF and PWR_SEL (R442). -/
structure Pwr where
  tDoze : Nat := 20
  tSleep : Nat := 10
  tOff : Nat := 0
  sel : Nat := 0
  deriving DecidableEq, Repr

/-! ### Management (15) -/

/-- The mirror, the interfaces of the dictionary, calendar and monitor (R446-R464, R489-R492). -/
structure Mgt where
  odAddr : Nat := 0
  odBusy : Bool := false
  odResult : Nat := 0
  odSize : Nat := 0
  /-- MGT_OD_DATA words. -/
  odData : Tab Nat := []
  /-- OD 0x2110:01 by interface: 0 mirror, 1 CAN FD, 2 monitor (R446). -/
  sel : Tab Int := []
  busOff : Nat := 0
  /-- The last CAN request answered and its response (R451), and requests that wait. -/
  lastReq : List Byte := []
  lastResp : List Byte := []
  canQ : List (List Byte) := []
  /-- The interface whose option commit runs, with its CAN request (R451, R458). -/
  commit : Option (Nat × List Byte) := none
  baud : Nat := 115200
  unlocked : Bool := false
  /-- The challenge given and not answered, with the UPTIME at which it was given (R491). -/
  challenge : Option (Nat × List Byte) := none
  wrong : Nat := 0
  lockout : Bool := false
  uptime : Nat := 0
  wall : Nat := 0
  wallValid : Bool := false
  toReplan : Nat := 86400
  toCommit : Nat := 3600
  /-- The TAP's instruction, and whether IEEE 1500 test mode is entered (R478, R492). -/
  tap : TapInstr := .idcode
  test : Bool := false
  /-- Idle requests to hub cores and wrapper scans that may still time out: kind and number as in Output (R431). -/
  asked : List (Nat × Nat) := []
  deriving DecidableEq, Repr

/-- A supply rail (R448, R459): offset applied, last voltage read, status 0 OK, 1 no answer, 2 Status fault. -/
structure Rail where
  off : Nat := 0
  volt : Nat := 0
  status : Nat := 0
  deriving DecidableEq, Repr

/-- A measurement domain (R467, R470, R471); 48 is the hub. -/
structure Dom where
  shift : Nat := 0
  slack : Int := 0
  vmin : Nat := 0
  off : Nat := 0
  fstep : Nat := 0
  toStep : Nat := 0xFFFF
  toEnd : Nat := 0xFFFF
  /-- 0 OK, 1 WARN, 2 STEPPED, 3 END_OF_MARGIN, 4 NOT_MEASURED. -/
  state : Nat := 4
  last : Nat := 0
  /-- Steps planned and not taken yet (R467, R469). -/
  plan : Nat := 0
  /-- Source 771 has been raised. -/
  ended : Bool := false
  /-- Re-plans made: operating seconds, and slack at offset 0 and step 0, in fs (R470). -/
  hist : List (Nat × Int) := []
  deriving DecidableEq, Repr

/-- Ageing (R466, R471, R472). -/
structure Age where
  running : Bool := false
  /-- A reset interrupted a re-plan (R466). -/
  cut : Bool := false
  auto : Bool := true
  leastEnd : Nat := 0xFFFF
  leastDom : Nat := 48
  sel : Nat := 0
  doms : Tab Dom := []
  deriving DecidableEq, Repr

/-- Firmware (R454, R474-R487): the running slot and image, the trial's seconds, rejections not yet told, the first failed
check of each slot (BOOTLOG), and the live update that may still be reverted (command, previous slot). -/
structure Fw where
  slot : Nat := 0
  live : Bool := false
  untrusted : Bool := false
  version : Nat := 0
  fmt : Nat := 0
  toConfirm : Nat := 0
  rejected : List Nat := []
  update : Option (Client × Nat) := none
  deriving DecidableEq, Repr

/-! ### What PK4 drives -/

/-- What PK4 drives on its ports, as a record of what happened. -/
inductive Output where
  /-- A posted write through LTP-H (R347, R52). -/
  | ltpWrite (fn : Nat) (pasid : Option Nat) (addr : Nat) (data : List Byte) (poison : Bool)
  | ltpRead (fn : Nat) (pasid : Option Nat) (addr len tag : Nat)
  /-- A completion of an inbound read: status 0 or 1, data (R347, R350). -/
  | cpl (fn tag stat len data : Nat)
  | irq (fn vec : Nat)
  | flrd (fn : Nat)
  /-- Memory-port requests (R364). -/
  | mpRead (stn lane tag addr len cid key : Nat)
  | mpWrite (stn lane tag addr cid key : Nat) (sectors : List (List Byte × Bool))
  | mpMarker (stn lane tag : Nat)
  /-- Key sideband: 0 LOAD, 1 ERASE (R364, R368). -/
  | keyOp (stn op slot : Nat) (len : Option Nat) (material : List Byte)
  /-- A downstream beat: type, XID, contents (R356, R359). -/
  | beat (ep type xid : Nat) (data : List Byte) (poison last : Bool)
  | grant (ep n : Nat)
  /-- EP_RST_N and EP_QREQ of an engine port (R356). -/
  | epReset (ep : Nat) (level : Bool)
  | epQreq (ep : Nat) (level : Bool)
  /-- What a sequencer core reads (R337). -/
  | seqRead (core value : Nat)
  /-- A Courier flit sent by the hub end or the station end of a link (R370). -/
  | flit (slot : Nat) (fromStn : Bool) (data : List Byte)
  /-- A link retrain asked of the UCIe adapter of a link (R375). -/
  | ucieRetrain (slot : Nat)
  /-- A CAN FD frame: identifier, Mbit/s of its data phase, and data (R388, R449). -/
  | can (id rate : Nat) (data : List Byte)
  /-- A command to the SPI NOR: its bytes, and whether the answer comes over four lines (R387). -/
  | spi (bytes : List Byte) (quad : Bool)
  /-- Bits out of TDO (R389). -/
  | tdo (bits : List Bool)
  /-- Text of the serial monitor (R489). -/
  | text (data : List Byte)
  /-- A voltage written to a rail, in mV (R459). -/
  | avs (rail mv : Nat)
  /-- STN_PS_REQ, ARITH_FSEL and TRAY_PCR (R440, R468, R384). -/
  | psReq (stn level : Nat)
  | fsel (stn level : Nat)
  | tray
  /-- An idle request to a block inside PK4, or into test mode (R431). -/
  | idleReq (kind id : Nat)
  /-- A heartbeat to a station (R400). -/
  | heartbeat (stn : Nat)
  deriving DecidableEq, Repr

/-- The state of PK4. -/
structure State where
  /-- Commands waiting, first in, first out. -/
  pending : List Instr
  build : Build
  host : Mem
  stnMem : Tab Mem
  /-- What PK4 has driven, oldest first. -/
  out : List Output
  /-- Draws made from the free values (log entry 1). -/
  fresh : Nat
  mqi : Mqi
  fns : Tab Fn
  queues : Tab Queue
  cmds : Tab Cmd
  /-- Commands admitted so far (R83). -/
  admitted : Nat
  arb : Arb
  ctxs : Tab Ctx
  parts : Tab Part
  fences : Tab Fence
  edges : Tab Edge
  grf : Grf
  /-- Requests with a tag: LTP-H tags below 1,024; tag t of station s has key 65536 x (s + 1) + t. -/
  tags : Tab Req
  /-- Requests that wait for a tag, in order (R107, R348). -/
  waiting : List Req
  xlt : Xlt
  postbags : Tab Postbag
  keys : Tab KeySlot
  tables : Tab Table
  streams : Tab Stream
  evc : Evc
  eps : Tab Ep
  stns : Tab Stn
  /-- Ladder steps that are due: step and scope (R402, log entry 12). -/
  want : List (Nat × Nat)
  rst : Rst
  rcv : Recov
  cores : Tab Core
  links : Tab Link
  /-- CX_SEL. -/
  cxSel : Nat
  pwr : Pwr
  /-- Options as loaded (class O) and the shadow of OD 0x2600 and 0x2601 (R458). -/
  opts : Opts
  shadow : Opts
  /-- NVM (R387): the bits programmed, by byte; a byte not listed is erased. -/
  nvm : List Host.Cell
  /-- The SPI NOR gives a valid JEDEC ID (R427). -/
  spi : Bool
  /-- Next record of the lifetime ring, and its SEQ (R460). -/
  logAt : Nat
  logSeq : Nat
  /-- Fuse words 0-76 (R386). -/
  fuses : Tab Nat
  fw : Fw
  rails : Tab Rail
  age : Age
  /-- Lifetime counters as in the newest COUNTERS record, and increments since, by 8 x (index - 0x2100) + subindex (R461). -/
  life : Tab Nat
  incr : Tab Nat
  mgt : Mgt
  /-- TRAY_PCR (R384). -/
  tray : Bool
  /-- LTP-H takes writes now, as sampled (R330; log entry 106). -/
  ltpTakes : Bool
  deriving DecidableEq, Repr

/-- The build that the model takes (log entry 10): PK4-F with four stations, the last of them remote. -/
def Build.model : Build :=
  { variant := 1, nstn := 4, ncxp := 1, scan := true, mx := true, canfd := true, keys := true, eps := [2, 2, 2, 2],
    mem := [262144, 262144, 262144, 262144], idcode := 0 }

/-- The block right after reset (R421, R442): the values of the Reset columns; nothing created, nothing in flight. -/
def State.reset : State :=
  { pending := [], build := Build.model, host := ⟨[], []⟩, stnMem := [], out := [], fresh := 0, mqi := {},
    fns := [(0, { en := true })], queues := [], cmds := [], admitted := 0, arb := {}, ctxs := [], parts := [], fences := [],
    edges := [], grf := {}, tags := [], waiting := [], xlt := {}, postbags := [(48, {})], keys := [], tables := [], streams := [],
    evc := {}, eps := (List.range 8).map (fun i => (i, { rstN := true })), stns := [], want := [], rst := {}, rcv := {}, cores := [], links := [], cxSel := 0, pwr := {},
    opts := Opts.default, shadow := Opts.default, nvm := [], spi := true, logAt := 0, logSeq := 0, fuses := [], fw := {},
    rails := [], age := {}, life := [], incr := [], mgt := {}, tray := false, ltpTakes := true }

end Sys2Proof.Machine
end

