-- ==== Sys2Proof/Machine/Ops.lean ====
section
/-! DEFINITION. Sys2Proof/Machine/Ops.lean: the named operations over memories, ports and requests that every command
uses. -/
namespace Sys2Proof.Machine

/-- An outcome that goes on. -/
abbrev Out := Host.Outcome State Fault Refusal

/-- Records what PK4 drives. -/
def State.emit (s : State) (o : Output) : State := { s with out := s.out ++ [o] }

/-- Records a list of what PK4 drives. -/
def State.emits (s : State) (os : List Output) : State := { s with out := s.out ++ os }

/-- Takes the next draw of a free value. -/
def State.draw (s : State) : State := { s with fresh := s.fresh + 1 }

/-! ### Build -/

/-- The first block number of a slot's engine ports, F_s (R35). -/
def Build.epFirst (b : Build) (stn : Nat) : Nat := (b.eps.take stn).foldl (· + ·) 0
/-- Engine ports built, NEP (R11). -/
def Build.nep (b : Build) : Nat := b.eps.foldl (· + ·) 0
/-- Engine ports of a slot, n_s (R35). -/
def Build.epCount (b : Build) (stn : Nat) : Nat := (b.eps[stn]?).getD 0
/-- The slot of engine port `ep` (R35), found from slot `i` on. -/
def Build.epStn (b : Build) (ep : Nat) : Nat :=
  ((List.range b.nstn).find? (fun i => b.epFirst i ≤ ep && ep < b.epFirst i + b.epCount i)).getD 0x3F
/-- Bytes behind a slot's memory port (R369). -/
def Build.memBytes (b : Build) (stn : Nat) : Nat := (b.mem[stn]?).getD 0 * 65536
/-- A slot is remote (R9). -/
def Build.remote (b : Build) (stn : Nat) : Bool := decide (b.nstn - b.ncxp ≤ stn ∧ stn < b.nstn)

/-- The SPI NOR gives a JEDEC ID: its three bytes are not all ones and not all zeros (R427). -/
def Build.norAnswers (b : Build) : Bool := b.nor % 2 ^ 24 != 0 && b.nor % 2 ^ 24 != 2 ^ 24 - 1

/-- HUB_ID (R6). -/
def Build.hubId (b : Build) : Nat := packF [(0, 16, 0x0401), (16, 4, b.variant), (20, 8, 0x20)]
/-- HUB_CAP (R10). -/
def Build.hubCap (b : Build) : Nat :=
  packF [(0, 6, b.nstn), (8, 1, b2n b.scan), (9, 1, b2n b.mx), (10, 1, b2n b.canfd), (11, 1, b2n b.keys), (12, 3, b.ncxp)]
/-- HUB_CAP_EP (R11). -/
def Build.hubCapEp (b : Build) : Nat := b.nep

/-! ### Memories -/

/-- One byte of a memory; a byte not listed reads zero (log entry 3). -/
def Mem.byte (m : Mem) (a : Nat) : Byte := Tab.atD m.cells a 0
/-- `n` bytes of a memory. -/
def Mem.read (m : Mem) (a n : Nat) : List Byte := (runFrom a n).map m.byte
/-- Writes one byte; writing what an unlisted address reads as removes the entry. -/
def cellPut (c : List Host.Cell) (a : Nat) (b : Byte) : List Host.Cell := if b = 0 then Tab.del c a else Tab.put c a b
/-- Writes bytes into a list of cells. -/
def cellsWrite : List Host.Cell → Nat → List Byte → List Host.Cell
  | c, _, [] => c
  | c, a, b :: bs => cellsWrite (cellPut c a b) (a + 1) bs
/-- The sectors that `n` bytes at `a` touch. -/
def sectorsOf (a n : Nat) : List Nat := if n = 0 then [] else runFrom (a / 64) ((a + n - 1) / 64 - a / 64 + 1)
/-- Writes bytes, and stores the poison bit of every sector touched (R365 rule 6). -/
def Mem.write (m : Mem) (a : Nat) (bs : List Byte) (poison : Bool) : Mem :=
  { cells := cellsWrite m.cells a bs
    poison := (sectorsOf a bs.length).foldl (fun p k => if poison then Tab.put p k () else Tab.del p k) m.poison }
/-- Puts bytes where a response shows that they are; what is stored poisoned stays so. -/
def Mem.show (m : Mem) (a : Nat) (bs : List Byte) : Mem := { m with cells := cellsWrite m.cells a bs }
/-- Marks the sectors of a range as stored poisoned. -/
def Mem.spoil (m : Mem) (a n : Nat) : Mem := { m with poison := (sectorsOf a n).foldl (fun p k => Tab.put p k ()) m.poison }
/-- Some sector of the range is stored poisoned. -/
def Mem.poisoned (m : Mem) (a n : Nat) : Bool := (sectorsOf a n).any (Tab.has m.poison)
/-- Cells in canonical form: addresses strictly rise, and no byte is what an unlisted address reads as. -/
def cellsWf (c : List Host.Cell) : Bool := Tab.sorted c && c.all (fun e => e.2 != 0)
/-- A memory in its canonical form. -/
def Mem.wf (m : Mem) : Bool := cellsWf m.cells && Tab.sorted m.poison

/-- Stores the memory behind a station's port; one with nothing listed has no entry. -/
def memPut (t : Tab Mem) (stn : Nat) (m : Mem) : Tab Mem := if m = ⟨[], []⟩ then Tab.del t stn else Tab.put t stn m
/-- The memory behind a station's port. -/
def State.memOf (s : State) (stn : Nat) : Mem := Tab.atD s.stnMem stn ⟨[], []⟩
/-- Reads a physical target. -/
def State.tread (s : State) (t : Tgt) (n : Nat) : List Byte :=
  if t.host then s.host.read t.addr n else (s.memOf t.stn).read t.addr n
/-- The memory that a request goes to changes. -/
def State.updMemOf (s : State) (stn : Option Nat) (f : Mem → Mem) : State :=
  match stn with
  | none => { s with host := f s.host }
  | some n => { s with stnMem := memPut s.stnMem n (f (s.memOf n)) }
/-- A physical target holds poisoned data: only station memory keeps the bit (R365 rule 6). -/
def State.tpoison (s : State) (t : Tgt) (n : Nat) : Bool :=
  if t.host then false else (s.memOf t.stn).poisoned t.addr n

/-! ### Lifetime counters (R461, R462) -/

/-- Adds to the companion of a lifetime counter. -/
def State.countBy (s : State) (index sub n : Nat) : State :=
  let k := 8 * (index - 0x2100) + sub
  if n = 0 then s else { s with incr := Tab.put s.incr k (satAdd 64 (Tab.atD s.incr k 0) n) }
/-- Adds 1 to the companion of a lifetime counter. -/
def State.count (s : State) (index sub : Nat) : State := s.countBy index sub 1

/-- Inbound MMIO reaches the registers (R407). -/
def State.up (s : State) : Bool := s.rst.rel == .ready
/-- What an inbound register write of function `fn` does: dropped until READY (R407), and while the function is disabled (R353). -/
def State.mmioOf (s : State) (fn : Nat) (f : State → State) : State := if s.up && ((Tab.at? s.fns fn).map (·.en)).getD false then f s else s
/-- The same for a register of the PF. -/
def State.mmio (s : State) (f : State → State) : State := s.mmioOf 0 f

/-! ### LTP-H (R347-R353) -/

/-- PK4 may issue requests for the function (R353, R407). -/
def State.fnOk (s : State) (fn : Nat) : Bool :=
  s.rst.rel == .ready && (match Tab.at? s.fns fn with
  | some f => f.en && f.bme
  | none => false)

/-- Cuts a range so that no piece passes `max` bytes or a multiple of `wall` (R348, R364). -/
def cutRange (max wall : Nat) : Nat → Nat → Nat → List (Nat × Nat)
  | 0, _, _ => []
  | fuel + 1, a, n =>
    if n = 0 then [] else
    let k := min n (min max (wall - a % wall))
    (a, k) :: cutRange max wall fuel (a + k) (n - k)

/-- The posted writes of a range: at most 256 bytes each, none across 4 KiB (R348). -/
def ltpWrites (fn : Nat) (pasid : Option Nat) (a : Nat) (bs : List Byte) (poison : Bool) : List Output :=
  (cutRange 256 4096 (bs.length + 1) a bs.length).map
    (fun p => .ltpWrite fn pasid p.1 ((bs.drop (p.1 - a)).take p.2) poison)

/-- Writes host memory for a function (R52, R348); dropped while the function may not issue requests (R353). -/
def State.hostWrite (s : State) (fn : Nat) (pasid : Option Nat) (a : Nat) (bs : List Byte) (poison : Bool) : State :=
  if s.fnOk fn ∧ bs ≠ [] then { s with host := s.host.write a bs poison, out := s.out ++ ltpWrites fn pasid a bs poison } else s

/-- The function and PASID a context's requests carry (R52). -/
def State.reqId (s : State) (cid : Nat) : Nat × Option Nat :=
  match Tab.at? s.ctxs cid with
  | some c => (c.fn, c.pasid)
  | none => (0, none)

/-- The key slot of a context (R312). -/
def State.keyOf (s : State) (cid : Nat) : Nat := ((Tab.at? s.ctxs cid).map (·.key)).getD 0

/-- Reads bytes of a translated range; unmapped bytes read zero. -/
def State.pread (s : State) (ps : List Piece) (o n : Nat) : List Byte :=
  ps.flatMap (fun p =>
    let lo := max o p.off
    let hi := min (o + n) (p.off + p.len)
    if lo < hi then
      match p.tgt with
      | some t => s.tread { t with addr := t.addr + (lo - p.off) } (hi - lo)
      | none => zeros (hi - lo)
    else [])

/-- Some sector of a translated range is stored poisoned. -/
def State.ppoison (s : State) (ps : List Piece) (o n : Nat) : Bool :=
  ps.any (fun p =>
    let lo := max o p.off
    let hi := min (o + n) (p.off + p.len)
    lo < hi && (match p.tgt with
      | some t => s.tpoison { t with addr := t.addr + (lo - p.off) } (hi - lo)
      | none => false))

/-- Requests an interrupt (R352, R353): none on vector 0x7FF; held, once per vector, while BME is 0. -/
def State.irq (s : State) (fn vec : Nat) : State :=
  if vec = 0x7FF then s
  else if s.fnOk fn then s.emit (.irq fn vec)
  else { s with fns := Tab.upd s.fns fn (fun f => if f.held.contains vec then f else { f with held := f.held ++ [vec] }) }

/-! ### Requests (R27, R348, R364) -/

/-- The first tag of a request's port, and how many tags the port has: of the 4,096 requests a memory
port may have outstanding, 2,048 are reads, 16 markers and the rest writes (R107, R364, R366). -/
def Req.range (r : Req) : Nat × Nat :=
  match r.stn with
  | none => (0, 1024)
  | some n => match r.pur with
    | .marker => (65536 * (n + 1) + 2048, 16)
    | .write _ => (65536 * (n + 1) + 4096, 2032)
    | _ => (65536 * (n + 1), 2048)

/-- What a request drives when it is issued. -/
def Req.drives (r : Req) (id : Nat) : Output :=
  match r.stn, r.pur with
  | some n, .marker => .mpMarker n r.lane (id % 65536)
  | some n, .write ss => .mpWrite n r.lane (id % 65536) r.addr r.cid r.key ss
  | some n, _ => .mpRead n r.lane (id % 65536) r.addr r.len r.cid r.key
  | none, _ => .ltpRead r.fn r.pasid r.addr r.len id

/-- A station is in service and Active: it takes work (R115, R411, R439). -/
def State.stnUp (s : State) (n : Nat) : Bool :=
  let x := Tab.atD s.stns n {}
  x.state == 0 && x.pwr == 0

/-- No frequency step of the station is planned or under way: it is handed new windows, segments and LUT builds (R469). -/
def State.arithOk (s : State) (n : Nat) : Bool :=
  let d := Tab.atD s.age.doms n {}
  decide (d.plan ≤ d.fstep) && (Tab.atD s.stns n {}).fstepTo.isNone

/-- Some of the marked stretches (address, length) meets `n` bytes at `a`. -/
def hits (bad : List (Nat × Nat)) (a n : Nat) : Bool := bad.any (fun x => decide (x.1 < a + n ∧ a < x.1 + x.2))
/-- The whole of a request, as a marked stretch. -/
def Req.whole (r : Req) : List (Nat × Nat) := [(r.addr, r.len)]
/-- The sectors of a target's range that are stored poisoned, as marked stretches: only station memory keeps the bit (R365 rule 6). -/
def State.storedBad (s : State) (t : Tgt) (n : Nat) : List (Nat × Nat) :=
  if t.host then [] else ((sectorsOf t.addr n).filter (Tab.has (s.memOf t.stn).poison)).map (fun k => (64 * k, 64))

/-- Requests of a client are outstanding or waiting for a tag. -/
def State.asking (s : State) (c : Client) : Bool :=
  Tab.ex s.tags (fun _ r => r.client == c) || s.waiting.any (fun r => r.client == c)

/-- Memory operations of a client are outstanding or waiting for a tag: what a cancelled command waits for (R77 step 3).
Reads through LTP-H are not waited for, and what they bring then goes nowhere (log entry 32). -/
def State.busy (s : State) (c : Client) : Bool :=
  Tab.ex s.tags (fun _ r => r.client == c && r.stn.isSome) || s.waiting.any (fun r => r.client == c && r.stn.isSome)


/-- A step of the escalation ladder falls due for a scope (R402): 1 context, 2 engine, 3 partition, 4 chip. -/
def State.ask (s : State) (step id : Nat) : State :=
  if s.want.contains (step, id) then s else { s with want := s.want ++ [(step, id)] }

/-! ### Commands -/

/-- A command's number in the command store. -/
def ckey (q seq : Nat) : Nat := q * 2 ^ 48 + seq
/-- The number under which a queue's rings wait for walks. -/
def ringClient (q : Nat) : Client := 2 ^ 80 + q

/-- The command (q, seq), where it is in flight. -/
def State.cmd (s : State) (c : Client) : Option Cmd := Tab.at? s.cmds c
/-- Changes a command. -/
def State.updCmd (s : State) (c : Client) (f : Cmd → Cmd) : State := { s with cmds := Tab.upd s.cmds c f }
/-- The command's context. -/
def State.cidOf (s : State) (c : Cmd) : Nat := ((Tab.at? s.queues c.q).map (·.cid)).getD 0
/-- Engine-port transfers in flight of the contexts that satisfy `p`: each carries a tag of the census (R27). -/
def State.epTags (s : State) (p : Nat → Bool) : Nat :=
  let mine := fun (x : Xfer) => p (((s.cmd x.client).map s.cidOf).getD 0)
  (s.eps.map (fun e => (e.2.xids.filter (fun x => mine x.2)).length + (e.2.res.toList.filter mine).length)).foldl (· + ·) 0

/-- Headers of the Courier messages of a class that have not left an end of a link (R371). -/
def Chan.heads (c : Chan) : List Nat := (c.queue.map (fun m => rd (m.2.headD []) 0 8)) ++ (c.buf.take 1).map (fun b => rd b 0 8)
/-- Courier messages under way whose header satisfies `p`: each carries a tag of the census (R27). -/
def State.msgTags (s : State) (p : Nat → Bool) : Nat :=
  (s.links.map (fun l => ([l.2.hub, l.2.stn].map (fun e => ((e.req.heads ++ e.rsp.heads ++ e.dbg.heads).filter p).length)).foldl (· + ·) 0)).foldl (· + ·) 0

/-- Census tags of a context: requests and engine-port transfers in flight, and requests that wait for a tag (R27). -/
def State.ctxTags (s : State) (cid : Nat) : Nat :=
  Tab.cnt s.tags (fun _ r => r.cid == cid) + (s.waiting.filter (fun r => r.cid == cid)).length + s.epTags (· == cid) +
    s.msgTags (fun h => bits h 39 12 == cid && cid != 0)

/-- Census tags of a key slot: those of its contexts, whatever port they go through (R27, R289). -/
def State.keyTags (s : State) (key : Nat) : Nat :=
  Tab.cnt s.tags (fun _ r => r.pur != .marker && r.key == key) + s.epTags (fun cid => s.keyOf cid == key) +
    s.msgTags (fun h => bits h 51 6 == key && key != 0)

/-- The partition of a context; 0x3F for none. -/
def State.pidOf (s : State) (cid : Nat) : Nat := ((Tab.at? s.ctxs cid).bind (·.pid)).getD 0x3F
/-- The stations a partition owns. -/
def State.stnsOf (s : State) (pid : Nat) : List Nat := ((Tab.at? s.parts pid).map (·.stns)).getD []
/-- A station belongs to the partition. -/
def State.owns (s : State) (pid stn : Nat) : Bool := (s.stnsOf pid).contains stn
/-- The partition that owns a station. -/
def State.ownerOf (s : State) (stn : Nat) : Option Nat :=
  (s.parts.find? (fun p => p.2.stns.contains stn)).map (·.1)

/-- Operand bits of a command's envelope: `n` bytes at `o`, bits from `lo`, `w` wide. -/
def Cmd.fld (c : Cmd) (o n lo w : Nat) : Nat := bits (rd c.env o n) lo w
/-- Bytes of the envelope as a number. -/
def Cmd.num (c : Cmd) (o n : Nat) : Nat := rd c.env o n
def Cmd.opcode (c : Cmd) : Nat := c.num 0 1
def Cmd.flags (c : Cmd) : Nat := c.num 1 1
def Cmd.nwait (c : Cmd) : Nat := c.fld 0 4 16 3
def Cmd.nsig (c : Cmd) : Nat := c.fld 0 4 19 2
def Cmd.prio (c : Cmd) : Nat := c.fld 0 4 21 3
def Cmd.tmo (c : Cmd) : Nat := c.fld 0 4 24 4
def Cmd.tag (c : Cmd) : Nat := c.num 4 4
def Cmd.serial (c : Cmd) : Bool := bit c.flags 0
/-- Wait `j` of the fence extension: fence, value, TOLERATE (R236). -/
def Cmd.wait (c : Cmd) (j : Nat) : Nat × Nat × Bool :=
  let f := rd c.ext 48 16
  (bits f (20 * j) 18, rd c.ext (8 * j) 8, bit f (20 * j + 18))
/-- Signal `j` of the fence extension: fence, value, FAULT_OK (R236). -/
def Cmd.sig (c : Cmd) (j : Nat) : Nat × Nat × Bool :=
  let f := rd c.ext 48 16
  (bits f (20 * (j + 4)) 18, rd c.ext (32 + 8 * j) 8, bit f (20 * (j + 4) + 18))
/-- The waits in use; the extension has four (R236). -/
def Cmd.waits (c : Cmd) : List (Nat × Nat × Bool) := (List.range (min c.nwait 4)).map c.wait
/-- The signals in use; the extension has two (R236), which an NSIG of 3 leaves to be error-signalled (R238, R239). -/
def Cmd.sigs (c : Cmd) : List (Nat × Nat × Bool) := (List.range (min c.nsig 2)).map c.sig

end Sys2Proof.Machine
end

