-- ==== Sys2Proof/Machine/Event.lean ====
section
/-! DEFINITION. Sys2Proof/Machine/Event.lean: the event controller (11): sources, arbitration, function rings, hub
rings and claims, and the commands that act on them. -/
namespace Sys2Proof.Machine

/-! ### Ring positions (R65) -/

/-- The position a doorbell or pointer value names in a ring of `n`, where its INDEX is in range. -/
def posDec (n v : Nat) : Option Nat :=
  if v % 65536 < n then some ((if bit v 16 then n else 0) + v % 65536) else none
/-- A position as INDEX and PHASE. -/
def posEnc (n p : Nat) : Nat := if n = 0 then 0 else p % n + p / n % 2 * 65536
/-- The distance from position `b` up to `a`, modulo 2N. -/
def posSub (n a b : Nat) : Nat := if n = 0 then 0 else (a + 2 * n - b % (2 * n)) % (2 * n)
/-- A position advanced by `d`. -/
def posAdd (n a d : Nat) : Nat := if n = 0 then 0 else (a + d) % (2 * n)
/-- The PHASE bit of the record written at position `p`: 1 on even laps (R70). -/
def phaseOf (n p : Nat) : Nat := if n = 0 then 1 else 1 - p / n % 2

/-! ### Sources -/

/-- A source belongs to firmware (R325). -/
def srcFw (n : Nat) : Bool := (256 ≤ n && n ≤ 383) || (768 ≤ n && n ≤ 831) || (960 ≤ n && n ≤ 1015)
/-- A source's SENSE is fixed (R325). -/
def srcFixed (n : Nat) : Bool := n ≤ 48 || (384 ≤ n && n ≤ 640) || (896 ≤ n && n ≤ 1015)
/-- A number is reserved (R324, R325). -/
def srcReserved (n : Nat) : Bool :=
  (49 ≤ n && n ≤ 63) || (208 ≤ n && n ≤ 255) || (641 ≤ n && n ≤ 767) || (832 ≤ n && n ≤ 895) || 1016 ≤ n
/-- A source at reset (R325, R343). SENSE "as firmware sets" is RISING until then (log entry 6). -/
def srcReset (n : Nat) : Src :=
  { sense := if 256 ≤ n ∧ n ≤ 263 then 0 else 1
    fn := if 384 ≤ n ∧ n ≤ 640 then n - 384 else 0
    masked := !(384 ≤ n && n ≤ 640) }

/-- The source can be asserted in this instance (R324). -/
def State.srcBuilt (s : State) (n : Nat) : Bool :=
  !srcReserved n &&
  (if 64 ≤ n ∧ n ≤ 207 then decide ((n - 64) % 48 < s.build.nstn)
   else if 384 ≤ n ∧ n ≤ 640 then ((Tab.at? s.fns (n - 384)).map (·.en)).getD false
   else true)

/-- A source's state. -/
def State.src (s : State) (n : Nat) : Src := Tab.atD s.evc.srcs n (srcReset n)
/-- Replaces a source's state. -/
def State.setSrc (s : State) (n : Nat) (x : Src) : State := { s with evc := { s.evc with srcs := Tab.put s.evc.srcs n x } }

/-- How INFO values of a source merge (R325). -/
def mergeInfo (n old new : Nat) : Nat :=
  if n ≤ 48 ∨ (160 ≤ n ∧ n ≤ 207) then (old + new) % 2 ^ 32
  else if (64 ≤ n ∧ n ≤ 159) ∨ (384 ≤ n ∧ n ≤ 640) ∨ (896 ≤ n ∧ n ≤ 1015) then old ||| new
  else new % 2 ^ 32

/-- A source's input takes a level with an INFO value (R327). -/
def Src.sample (x : Src) (n : Nat) (level : Bool) (info : Nat) : Src :=
  let rise := level && !x.raw
  let fall := !level && x.raw
  if x.sense = 0 then
    { x with raw := level, pending := level && !x.active, info := if level then info % 2 ^ 32 else x.info }
  else if (x.sense = 1 ∧ rise) ∨ (x.sense = 2 ∧ fall) ∨ (x.sense = 3 ∧ (rise ∨ fall)) then
    { x with raw := level, pending := true, count := min 255 (x.count + 1), info := mergeInfo n x.info info }
  else { x with raw := level }

/-- The input of source `n` takes a level (R324, R327). -/
def State.setInput (s : State) (n : Nat) (level : Bool) (info : Nat) : State :=
  if s.srcBuilt n then s.setSrc n ((s.src n).sample n level info) else s

/-- A happening raises source `n` once: its input rises and falls again. -/
def State.raise (s : State) (n info : Nat) : State := (s.setInput n true info).setInput n false info

/-- Raises the notification source of a function with a cause bit (R326). -/
def State.notify (s : State) (fn cause : Nat) : State := s.raise (384 + fn) (2 ^ cause)

/-- Raises the notification of every function that has a context in the partition (R326). -/
def State.notifyPart (s : State) (pid cause : Nat) : State :=
  let fs := (s.ctxs.filter (fun c => c.2.pid == some pid)).map (·.2.fn)
  fs.eraseDups.foldl (fun s f => s.notify f cause) s

/-! ### Function rings (R332, R333, R341) -/

/-- Records a function ring holds. -/
def Fn.evN (f : Fn) : Nat := 2 ^ f.evLog2
/-- The ring takes no further record. -/
def Fn.evFull (f : Fn) : Bool := posSub f.evN f.evTail f.evHead == f.evN

/-- The 16 bytes of an event record (R331). -/
def eventBytes (src prio : Nat) (ovf level : Bool) (phase info stamp coalesced : Nat) : List Byte :=
  recBytes 16 [(0, 10, src), (16, 8, prio), (24, 1, b2n ovf), (25, 1, b2n level), (31, 1, phase), (32, 32, info),
    (64, 40, stamp), (104, 8, coalesced)]

/-- Writes one record into a function ring that has room (R332, R333). -/
def State.fnRingPut (s : State) (fn src prio : Nat) (ovf level : Bool) (info coalesced : Nat) : State :=
  let f := Tab.atD s.fns fn {}
  let bs := eventBytes src prio ovf level (phaseOf f.evN f.evTail) info (Config.stamp s.fresh).toNat coalesced
  let s := s.draw.hostWrite fn none (f.evBase + 16 * (f.evTail % f.evN)) bs false
  let s := { s with fns := Tab.upd s.fns fn (fun f => { f with evTail := posAdd f.evN f.evTail 1, evArmed := false }) }
  if f.evArmed then s.irq fn f.evVec else s

/-- The pending overflow record takes the next free slot (R341). -/
def State.fnRingOvf (s : State) (fn : Nat) : State :=
  let f := Tab.atD s.fns fn {}
  if f.evOvf && f.evEn && !f.evFull then
    let s := s.fnRingPut fn 0x3FF 0 true false f.evOvfInfo 0
    { s with fns := Tab.upd s.fns fn (fun f => { f with evOvf := false, evOvfInfo := 0 }) }
  else s

/-- A function ring loses a record (R341), be it of a function of which nothing has been heard yet. -/
def State.fnRingLose (s : State) (fn : Nat) : State :=
  let f := Tab.atD s.fns fn {}
  let g := { f with evLost := true, evLostCnt := satAdd 32 f.evLostCnt 1, evOvf := true, evOvfInfo := satAdd 32 f.evOvfInfo 1 }
  { s with fns := Tab.put s.fns fn g }

/-- A record reaches a function ring, or is lost (R341). -/
def State.fnRingRecord (s : State) (fn src prio : Nat) (level : Bool) (info coalesced : Nat) : State :=
  let f := Tab.atD s.fns fn {}
  if f.evEn && !f.evFull then s.fnRingPut fn src prio false level info coalesced else s.fnRingLose fn

/-! ### CAN FD frames (R388) -/

/-- A data field of a length that a CAN FD frame can have: zeros fill the rest (log entry 81). -/
def canPad (b : List Byte) : List Byte :=
  let n := ((List.range 9 ++ [12, 16, 20, 24, 32, 48, 64]).find? (fun n => decide (b.length ≤ n))).getD 64
  b ++ zeros (n - b.length)
/-- A frame that PK4 sends: one longer than 8 bytes has its data phase at the rate of CAN_DRATE (R388, R449). -/
def canFrame (s : State) (id : Nat) (b : List Byte) : Output :=
  .can id (if b.length ≤ 8 then 1 else [1, 2, 4, 5, 8].getD (s.opts.fields.getD 1 0) 1) (canPad b)

/-! ### Hub rings and claims (R335-R338) -/

/-- A hub ring. -/
def State.hring (s : State) (r : Nat) : HubRing := Tab.atD s.evc.rings r {}
/-- Replaces a hub ring. -/
def State.setHring (s : State) (r : Nat) (h : HubRing) : State := { s with evc := { s.evc with rings := Tab.put s.evc.rings r h } }
/-- The ring's tail would reach its head (R335). -/
def HubRing.full (h : HubRing) : Bool := posSub 256 h.tail h.head == 256
/-- The head passes every free slot that begins at it (R335). -/
def HubRing.advance : Nat → HubRing → HubRing
  | 0, h => h
  | k + 1, h =>
    if h.head = h.tail ∨ Tab.has h.recs (h.head % 256) then h
    else HubRing.advance k { h with head := posAdd 256 h.head 1 }

/-- Writes a record at a hub ring's tail (R331, R335). -/
def State.hubRingPut (s : State) (r : Nat) (rec : HrRec) : State :=
  let h := s.hring r
  let bs := eventBytes rec.src rec.prio rec.ovf rec.level (phaseOf 256 h.tail) rec.info (Config.stamp s.fresh).toNat rec.coalesced
  let s := s.setHring r { h with recs := Tab.put h.recs (h.tail % 256) { rec with order := s.evc.order, stamp := s.fresh }
                                 sram := Tab.put h.sram (h.tail % 256) bs, tail := posAdd 256 h.tail 1 }
  { s.draw with evc := { s.evc with order := s.evc.order + 1 } }

/-- The pending overflow record takes the next free slot of a hub ring (R341). -/
def State.hubRingOvf (s : State) (r : Nat) : State :=
  let h := s.hring r
  if h.ovf && !h.full then
    let s := s.setHring r { h with ovf := false, ovfInfo := 0 }
    s.hubRingPut r { src := 0x3FF, prio := 0, ovf := true, level := false, info := h.ovfInfo, stamp := 0, coalesced := 0, mode := 0, tmask := 0xFF, order := 0 }
  else s

/-- A hub ring loses a record (R341). -/
def State.hubRingLose (s : State) (r : Nat) : State :=
  let h := s.hring r
  s.setHring r { h with lost := true, lostCnt := satAdd 32 h.lostCnt 1, ovf := true, ovfInfo := satAdd 32 h.ovfInfo 1 }

/-- A record reaches a hub ring, or is lost (R341). -/
def State.hubRingRecord (s : State) (r : Nat) (rec : HrRec) : State :=
  let h := s.hring r
  if h.full then s.hubRingLose r else s.hubRingPut r rec

/-- The claims a core holds: ring, slot, PRIO. -/
def State.claims (s : State) (core : Nat) : List (Nat × Nat × Nat) :=
  s.evc.rings.flatMap (fun h => (h.2.recs.filter (fun e => e.2.by_ == some core)).map (fun e => (h.1, e.1, e.2.prio)))
/-- SERVE of a core; 0x100 idle (R336). -/
def State.serve (s : State) (core : Nat) : Nat := ((s.claims core).map (·.2.2)).foldl min 0x100
/-- The group of a PRIO (R329). -/
def prioGroup (g p : Nat) : Nat := p / 2 ^ (8 - g)
/-- The cores a record may go to (R336); a TMASK of 0 counts as all. -/
def maskCores (m : Nat) : List Nat := (List.range 8).filter (fun c => bit (if m % 256 = 0 then 0xFF else m) c)
/-- The core LOWEST chooses: highest SERVE, then lowest number (R336). -/
def State.lowest (s : State) (m : Nat) : Option Nat :=
  (maskCores m).foldl (fun b c => match b with
    | none => some c
    | some d => if s.serve d < s.serve c then some c else some d) none
/-- A record is presented to a core (R336). -/
def State.presented (s : State) (core : Nat) (e : HrRec) : Bool :=
  e.by_.isNone &&
  (if e.mode = 0 then (maskCores e.tmask).contains core else s.lowest e.tmask == some core) &&
  (s.serve core == 0x100 || decide (prioGroup s.evc.groupBits e.prio < prioGroup s.evc.groupBits (s.serve core))) &&
  decide ((s.claims core).length < 8)
/-- A core's interrupt input: a level, asserted while a record is presented to it (R336). -/
def State.coreIrq (s : State) (core : Nat) : Bool := s.evc.rings.any (fun h => h.2.recs.any (fun e => s.presented core e.2))
/-- Four bytes of the hub rings' SRAM, as the cores read them at `off` of their data window (R335); a slot never written reads zero (log
entry 103). -/
def State.ringWord (s : State) (off : Nat) : Nat :=
  let o := off - 0x08000000
  rd (Tab.atD (s.hring (o / 4096)).sram (o % 4096 / 16) (zeros 16)) (o % 16) 4

/-- The record a claim by the core takes: lowest PRIO, earliest written (R337). -/
def State.claimPick (s : State) (core : Nat) : Option (Nat × Nat × HrRec) :=
  let cs := s.evc.rings.flatMap (fun h => (h.2.recs.filter (fun e => s.presented core e.2)).map (fun e => (h.1, e.1, e.2)))
  cs.foldl (fun b c => match b with
    | none => some c
    | some d => if c.2.2.prio < d.2.2.prio ∨ (c.2.2.prio = d.2.2.prio ∧ c.2.2.order < d.2.2.order) then some c else some d) none

/-- Frees a slot of a hub ring (R335, R338, R341). -/
def State.freeSlot (s : State) (r slot : Nat) : State :=
  let h := s.hring r
  (s.setHring r (HubRing.advance 256 { h with recs := Tab.del h.recs slot })).hubRingOvf r

/-- A core held in reset loses its claims; its records return to unclaimed (R338). -/
def State.dropClaims (s : State) (core : Nat) : State :=
  { s with evc := { s.evc with rings := Tab.mapV s.evc.rings (fun _ h =>
      { h with recs := Tab.mapV h.recs (fun _ e => if e.by_ = some core then { e with by_ := none } else e) }) } }

/-! ### Arbitration (R330) -/

/-- A source may win; one whose record goes to a function ring only while LTP-H takes writes (R330; log entry 106). -/
def State.mayWin (s : State) (ltp : Bool) (n : Nat) (x : Src) : Bool :=
  x.pending && !x.masked && (if srcFw n then s.evc.fwEn else s.evc.en && ltp)
/-- The winner: lowest PRIO, then lowest number (R330). -/
def State.winner (s : State) (ltp : Bool) : Option (Nat × Src) :=
  (s.evc.srcs.filter (fun e => s.mayWin ltp e.1 e.2)).foldl (fun b c => match b with
    | none => some c
    | some d => if c.2.prio < d.2.prio then some c else some d) none
/-- A source after its delivery or loss (R327, R328). -/
def Src.delivered (x : Src) : Src :=
  if x.sense = 0 then { x with pending := false, active := true } else { x with pending := false, info := 0, count := 0 }

/-- The postmaster sends each record delivered from a management source as an EVENT frame (R449, R453). -/
def State.eventFrame (s : State) (r n : Nat) (x : Src) (level : Bool) (co : Nat) : State :=
  let h := s.hring r
  if 768 ≤ n && n ≤ 831 && s.build.canfd && !h.full then
    s.emit (canFrame s (0x80 + s.opts.fields.getD 7 1) (eventBytes n x.prio false level (phaseOf 256 h.tail) x.info (Config.stamp s.fresh).toNat co))
  else s

/-- The winning source's record goes to its ring (R330, R331, R341). -/
def State.deliver (s : State) (ltp : Bool) : State :=
  match s.winner ltp with
  | none => s
  | some (n, x) =>
    let s := s.setSrc n x.delivered
    let level := x.sense == 0
    let co := if level then 1 else x.count
    if srcFw n then
      (s.eventFrame x.hring n x level co).hubRingRecord x.hring { src := n, prio := x.prio, ovf := false, level := level, info := x.info, stamp := 0, coalesced := co, mode := x.mode, tmask := x.tmask, order := 0 }
    else s.fnRingRecord x.fn n x.prio level x.info co

/-- ACTIVE of a LEVEL source is cleared; it pends again while its input is asserted (R328). -/
def State.clearActive (s : State) (n : Nat) : State :=
  let x := s.src n
  if x.sense = 0 ∧ x.active then s.setSrc n { x with active := false, pending := x.raw } else s

/-- Whether the writer may configure the source (R340): the driver HOST sources, firmware FW ones. -/
def State.mayCfg (s : State) (fw : Bool) (n : Nat) : Bool := s.srcBuilt n && srcFw n == fw

/-- A write of EVC_SCFG for source `n` (R340, R343). -/
def State.srcCfg (s : State) (fw : Bool) (n v : Nat) : State :=
  if s.mayCfg fw n then
    let x := s.src n
    let sense := if srcFixed n then x.sense else bits v 0 2
    let x := { x with prio := bits v 8 8, mode := if fw then bits v 2 1 else 0, hring := if fw then bits v 3 2 else 0 }
    s.setSrc n (if sense = x.sense then x else
      { x with sense := sense, active := false, info := 0, count := 0, pending := sense == 0 && x.raw })
  else s
/-- A write of EVC_SROUTE for source `n` (R325, R343). -/
def State.srcRoute (s : State) (fw : Bool) (n v : Nat) : State :=
  if s.mayCfg fw n then
    let x := s.src n
    if fw then s.setSrc n { x with tmask := bits v 16 8 }
    else if bits v 0 9 ≤ 256 ∧ ¬(384 ≤ n ∧ n ≤ 640) then s.setSrc n { x with fn := bits v 0 9 } else s
  else s
/-- Masks or unmasks sources 32i + j for each bit j of `v` (R343). -/
def State.maskWord (s : State) (fw set : Bool) (i v : Nat) : State :=
  (List.range 32).foldl (fun s j =>
    if bit v j ∧ s.mayCfg fw (32 * i + j) then s.setSrc (32 * i + j) { s.src (32 * i + j) with masked := set } else s) s
/-- A word of per-source bits (R343). -/
def State.srcWord (s : State) (f : Src → Bool) (i : Nat) : Nat :=
  packF ((List.range 32).map (fun j => (j, 1, b2n (s.srcBuilt (32 * i + j) && f (s.src (32 * i + j))))))

/-- A write of EVC_FN_CFG (R332, R342). -/
def State.evFnCfg (s : State) (fn v : Nat) : State :=
  let en := bit v 0
  let lg := bits v 1 4
  let s' := { s with fns := Tab.upd s.fns fn (fun f =>
    let f := { f with evVec := bits v 5 11, evLog2 := if f.evEn then f.evLog2 else lg }
    if en && !f.evEn then
      if 4 ≤ lg ∧ lg ≤ 12 then { f with evEn := true, evCfgErr := false, evHead := 0, evTail := 0, evArmed := true }
      else { f with evCfgErr := true }
    else { f with evEn := en && f.evEn }) }
  s'.fnRingOvf fn
/-- A write of EVC_FN_HEAD (R333). -/
def State.evFnHead (s : State) (fn v : Nat) : State :=
  match Tab.at? s.fns fn with
  | none => s
  | some f =>
    match posDec f.evN v with
    | none => s
    | some h =>
      if posSub f.evN h f.evHead ≤ posSub f.evN f.evTail f.evHead then
        let s := { s with fns := Tab.upd s.fns fn (fun f => { f with evHead := h, evArmed := f.evArmed || h == f.evTail }) }
        let s := if h ≠ f.evTail then s.irq fn f.evVec else s
        s.fnRingOvf fn
      else s

/-- An FLR clears the function's ring and its notification source (R334); the edges counted go with the rest (log entry 89). -/
def State.evFlr (s : State) (fn : Nat) : State :=
  let s := { s with fns := Tab.upd s.fns fn (fun f =>
    { f with evBase := 0, evEn := false, evLog2 := 0, evVec := 0x7FF, evHead := 0, evTail := 0, evLost := false,
             evCfgErr := false, evOvf := false, evLostCnt := 0, evArmed := false, evOvfInfo := 0 }) }
  s.setSrc (384 + fn) { s.src (384 + fn) with pending := false, active := false, info := 0, count := 0 }

/-- What a core's read of EVC_CLAIM returns, and the claim it makes (R337). -/
def State.claimRead (s : State) (core : Nat) : Nat × State :=
  match s.claimPick core with
  | none => (0x3FF, s)
  | some (r, slot, e) =>
    let h := s.hring r
    (packF [(0, 10, e.src), (10, 2, r), (12, 8, slot), (31, 1, 1)],
      s.setHring r { h with recs := Tab.put h.recs slot { e with by_ := some core } })
/-- A core's claim (R337): what EVC_CLAIM returns goes to the core. -/
def State.claim (s : State) (core : Nat) : State :=
  if 8 ≤ core then s else (s.claimRead core).2.emit (.seqRead core (s.claimRead core).1)

/-- A core's DONE (R338). -/
def State.doneClaim (s : State) (core v : Nat) : State :=
  if 8 ≤ core then s else
  let r := bits v 10 2
  let slot := bits v 12 8
  if s.claims core = [] then { s with evc := { s.evc with empty_ := Tab.put s.evc.empty_ core () } }
  else
    match Tab.at? (s.hring r).recs slot with
    | some e =>
      if e.by_ = some core then
        let s := s.freeSlot r slot
        if e.level then s.clearActive e.src else s
      else { s with evc := { s.evc with foreign := Tab.put s.evc.foreign core () } }
    | none => { s with evc := { s.evc with foreign := Tab.put s.evc.foreign core () } }

/-- A register write by firmware, or an inbound one (R407). -/
def State.hostOr (s : State) (fw : Bool) (f : State → State) : State := if fw then f s else s.mmio f

/-! ### The commands -/

/-- EVENT_INPUT_CHANGE (R327): an input of the controller takes a level. -/
def execEventInputChange (src : Nat) (level : Bool) (info : BitVec 32) (s : State) : Out :=
  .next (s.setInput src level info.toNat)
/-- EVENT_DELIVERY (R330). -/
def execEventDelivery (s : State) : Out := .next (s.deliver s.ltpTakes)
/-- EVENT_RING_ENABLE (R332, R342): EVC_FN_CFG of a function is written. -/
def execEventRingEnable (fn : Nat) (v : BitVec 32) (s : State) : Out := .next (s.mmioOf fn (fun s => s.evFnCfg fn v.toNat))
/-- EVENT_RING_HEAD_WRITE (R333). -/
def execEventRingHeadWrite (fn : Nat) (v : BitVec 32) (s : State) : Out := .next (s.mmioOf fn (fun s => s.evFnHead fn v.toNat))
/-- EVC_ACK (R328): acts on a HOST LEVEL source that is ACTIVE. -/
def execEvcAck (v : BitVec 32) (s : State) : Out :=
  .next (s.mmio (fun s => if srcFw (bits v.toNat 0 10) then s else s.clearActive (bits v.toNat 0 10)))
/-- EVC_SWSET (R343): one edge on a software source of the writer's owner. -/
def execEvcSwset (fw : Bool) (v : BitVec 32) (s : State) : Out :=
  let n := bits v.toNat 0 10
  .next (s.hostOr fw (fun s => if (if fw then 960 ≤ n ∧ n ≤ 1015 else 896 ≤ n ∧ n ≤ 959) then s.raise n (v.toNat / 1024 * 1024) else s))
/-- EVC_MASK_SET (R339, R343). -/
def execEvcMaskSet (fw : Bool) (i : Nat) (v : BitVec 32) (s : State) : Out := .next (s.hostOr fw (fun s => s.maskWord fw true i v.toNat))
/-- EVC_MASK_CLR (R339, R343). -/
def execEvcMaskClr (fw : Bool) (i : Nat) (v : BitVec 32) (s : State) : Out := .next (s.hostOr fw (fun s => s.maskWord fw false i v.toNat))
/-- SOURCE_CONFIG_WRITE (R340): EVC_SCFG or EVC_SROUTE of the source EVC_SSEL names. -/
def execSourceConfigWrite (fw route : Bool) (v : BitVec 32) (s : State) : Out :=
  .next (s.hostOr fw (fun s => if route then s.srcRoute fw s.evc.ssel v.toNat else s.srcCfg fw s.evc.ssel v.toNat))
/-- EVC_CLAIM (R337). -/
def execEvcClaim (core : Nat) (s : State) : Out := .next (s.claim core)
/-- EVC_DONE (R338). -/
def execEvcDone (core : Nat) (v : BitVec 32) (s : State) : Out := .next (s.doneClaim core v.toNat)

end Sys2Proof.Machine
end

