-- ==== Sys2Proof/Machine/Fault.lean ====
section
/-! DEFINITION. Sys2Proof/Machine/Fault.lean: error records (R413, R414), fault records and postbags (R307-R311, R323), the requests that PK4 issues
and the check at the memory port (R312, R313), and the commands of the postbag registers. -/
namespace Sys2Proof.Machine

/-! ### The error log (R413, R414) -/

/-- What an error record says (R414). -/
structure ERec where
  kind : Nat
  step : Nat := 0
  pid : Nat := 0x3F
  stn : Nat := 0x3F
  cid : Nat := 0
  qid : Nat := 0x7FFF
  unit : Nat := 0
  ep : Nat := 0xFF
  detail : Nat := 0
  seq : Nat := 0
  opcode : Nat := 0
  addr : Nat := 0
  deriving DecidableEq, Repr

/-- The 64 bytes of an error record. -/
def ERec.bytes (r : ERec) (stamp serial : Nat) : List Byte :=
  recBytes 64 [(0, 8, r.kind), (8, 3, r.step), (16, 6, r.pid), (24, 6, r.stn), (32, 12, r.cid), (48, 15, r.qid), (64, 16, r.unit), (80, 8, r.ep),
    (96, 32, r.detail), (128, 48, r.seq), (176, 8, r.opcode), (192, 40, stamp), (256, 64, serial), (320, 64, r.addr)]

/-- Writes bytes of the retention SRAM. -/
def State.rsWrite (s : State) (a : Nat) (bs : List Byte) : State := { s with rcv := { s.rcv with rsram := cellsWrite s.rcv.rsram a bs } }
/-- Reads bytes of the retention SRAM. -/
def State.rsRead (s : State) (a n : Nat) : List Byte := (runFrom a n).map (fun i => Tab.atD s.rcv.rsram i 0)

/-- Writes an error record over the oldest (R413, R414, R420). -/
def State.elog (s : State) (r : ERec) : State :=
  let b := r.bytes (Config.stamp s.fresh).toNat (s.rcv.serial + 1)
  let s := s.draw.rsWrite (64 * (s.rcv.elogCnt % 256)) b
  { s with rcv := { s.rcv with elogCnt := (s.rcv.elogCnt + 1) % 2 ^ 32, serial := s.rcv.serial + 1 } }

/-- The k-th newest error record. -/
def State.elogAt (s : State) (k : Nat) : List Byte := s.rsRead (64 * ((s.rcv.elogCnt + 2 ^ 32 - 1 - k) % 256)) 64

/-! ### Fault records and postbags (R307-R311) -/

/-- The 64 bytes of a fault record (R308). -/
def FaultRec.bytes (r : FaultRec) (phase : Nat) : List Byte :=
  let ovf := r.type == 0x7F
  recBytes 64 [(0, 8, r.type), (8, 3, if ovf then 0 else r.agent), (11, 1, if ovf then 0 else b2n r.write),
    (12, 3, if ovf then 0 else r.level), (15, 1, phase), (16, 6, r.pid), (24, 6, r.stn), (32, 12, r.cid), (48, 15, r.qid),
    (64, 64, r.addr), (128, 48, r.seq), (176, 8, r.opcode), (184, 4, r.seg), (192, 32, r.tag), (224, 32, r.lost),
    (256, 40, (Config.stamp r.stamp).toNat), (320, 64, r.entry), (384, 64, r.phys)]

/-- A postbag. -/
def State.pb (s : State) (p : Nat) : Postbag := Tab.atD s.postbags p {}
/-- Changes a postbag. -/
def State.updPb (s : State) (p : Nat) (f : Postbag → Postbag) : State := { s with postbags := Tab.upd s.postbags p f }
/-- Slots of a postbag. -/
def Postbag.n (b : Postbag) : Nat := 2 ^ b.log2
/-- The ring is full (R311). -/
def Postbag.full (b : Postbag) : Bool := posSub b.n b.tail b.head == b.n

/-- Writes one record into a postbag's ring, which has room (R307, R308). -/
def State.pbPut (s : State) (p : Nat) (r : FaultRec) : State :=
  let b := s.pb p
  ((s.count 0x2105 5).hostWrite 0 none (b.base + 64 * (b.tail % b.n)) (r.bytes (phaseOf b.n b.tail)) false).updPb p
    (fun b => { b with tail := posAdd b.n b.tail 1 })

/-- The pending OVERFLOW record takes the next free slot (R311). -/
def State.pbOvf (s : State) (p : Nat) : State :=
  let b := s.pb p
  match b.ovf with
  | some r => if b.en && !b.full then (s.pbPut p r).updPb p (fun b => { b with ovf := none }) else s
  | none => s

/-- FAULT_LOST of a context is set, and its function told (R311, R326). -/
def State.setFaultLost (s : State) (cid : Nat) : State :=
  match Tab.at? s.ctxs cid with
  | some c =>
    if c.faultLost then s
    else { s with ctxs := Tab.upd s.ctxs cid (fun c => { c with faultLost := true }) }.notify c.fn 0
  | none => s

/-- A fault record is lost (R311). -/
def State.pbLose (s : State) (p : Nat) (r : FaultRec) : State :=
  let s := s.updPb p (fun b => { b with
    lostCnt := satAdd 32 b.lostCnt 1
    ovf := match b.ovf with
      | some o => some { o with lost := satAdd 32 o.lost 1 }
      | none => some { r with type := 0x7F, lost := 1 } })
  if p = 48 then s else s.setFaultLost r.cid

/-- A record of a batch is written, or lost (R311). -/
def State.pbRecord (s : State) (p : Nat) (r : FaultRec) : State :=
  let b := s.pb p
  if b.en && !b.full && b.ovf.isNone then s.pbPut p r else s.pbLose p r

/-- The staging buffer goes to the ring as one batch, and the postbag's source is raised (R309). -/
def State.pbBatch (s : State) (p : Nat) : State :=
  let b := s.pb p
  if b.staged = [] then s else
  let t := b.tail
  let s := (b.staged.foldl (fun s r => s.pbRecord p r) s).updPb p (fun b => { b with staged := [] })
  s.raise p (posSub b.n (s.pb p).tail t)

/-- A fault record enters a postbag's staging buffer; the 64th sends the batch (R309). -/
def State.post (s : State) (p : Nat) (r : FaultRec) : State :=
  if Tab.has s.postbags p then
    let s := { s.draw with postbags := Tab.upd s.postbags p (fun b => { b with staged := b.staged ++ [{ r with stamp := s.fresh }] }) }
    if 64 ≤ (s.pb p).staged.length then s.pbBatch p else s
  else s

/-- The postbag XLT_PSEL selects, where it exists (R323). -/
def State.pbSel (s : State) : Option Nat :=
  if s.xlt.sys then some 48 else if Tab.has s.parts s.xlt.psel then some s.xlt.psel else none

/-- A write of XLT_PB_CFG (R311, R323). -/
def State.pbCfg (s : State) (v : Nat) : State :=
  match s.pbSel with
  | none => s
  | some p =>
    let en := bit v 0
    let lg := bits v 1 5
    (s.updPb p (fun b =>
      if b.en then { b with en := en }
      else if en then
        if 6 ≤ lg ∧ lg ≤ 16 then { b with en := true, log2 := lg, cfgErr := false, head := 0, tail := 0 }
        else { b with log2 := lg, cfgErr := true }
      else { b with log2 := lg })).pbOvf p

/-- A write of XLT_PB_HEAD (R311, R323). -/
def State.pbHead (s : State) (v : Nat) : State :=
  match s.pbSel with
  | none => s
  | some p =>
    let b := s.pb p
    match posDec b.n v with
    | none => s
    | some h =>
      if posSub b.n h b.head ≤ posSub b.n b.tail b.head then (s.updPb p (fun b => { b with head := h })).pbOvf p else s

/-! ### Requests through the ports (R106, R107, R312, R313, R348) -/

/-- The contexts of a station's partition with their key slots, as the hub pushes them to it (R313). -/
def State.isoList (s : State) (n : Nat) : Tab Nat :=
  match s.ownerOf n with
  | some p => (s.ctxs.filter (fun e => e.2.pid == some p)).map (fun e => (e.1, e.2.key))
  | none => []

/-- The hub pushes the copies of R313 to every station that is awake. -/
def State.pushIso (s : State) : State :=
  (List.range s.build.nstn).foldl (fun s n =>
    let x := Tab.atD s.stns n {}
    let l := if x.state = 0 ∧ x.pwr < 2 then s.isoList n else x.iso
    if l = x.iso then s else { s with stns := Tab.put s.stns n { x with iso := l } }) s

/-- The check of R313: a station's request carries a context of the station's partition and the key slot bound to it, by the
station's own copy. -/
def State.portOk (s : State) (r : Req) : Bool :=
  match r.stn with
  | none => true
  | some n => r.pur == .marker || Tab.at? (Tab.atD s.stns n {}).iso r.cid == some r.key

/-- A request that fails the check is not issued (R313): it is counted, recorded in the system postbag and leads to the partition
step; the poisoned answer of a read waits to be consumed, and a write is dropped. -/
def State.isoFail (s : State) (r : Req) : State :=
  let n := r.stn.getD 0
  let c : Option Cmd := s.cmd r.client
  let p := (s.ownerOf n).getD 0x3F
  let w := match r.pur with
    | .write _ => true
    | _ => false
  let s := ({ s with xlt := { s.xlt with iso := satAdd 32 s.xlt.iso 1 }, waiting := if w then s.waiting else s.waiting ++ [{ r with iso := true }] }).post 48
    { type := 6, agent := 6, write := w, level := 7, pid := 0x3F, stn := n, cid := r.cid, addr := 0, phys := r.addr,
      qid := (c.map (fun (c : Cmd) => c.q)).getD 0x7FFF, seq := (c.map (fun (c : Cmd) => c.seq)).getD 0, 
      opcode := (c.map (fun (c : Cmd) => c.opcode)).getD 0, tag := (c.map (fun (c : Cmd) => c.tag)).getD 0 }
  let s := s.elog { kind := 9, pid := p, stn := n, cid := r.cid, qid := (c.map (fun (c : Cmd) => c.q)).getD 0x7FFF,
                    seq := (c.map (fun (c : Cmd) => c.seq)).getD 0, opcode := (c.map (fun (c : Cmd) => c.opcode)).getD 0, addr := r.addr }
  if p = 0x3F then s else s.ask 3 p

/-- A read that overlaps a write of PK4 that is not acknowledged (R365 rule 7). -/
def Req.after (r w : Req) : Bool :=
  r.stn.isSome && w.stn == r.stn && decide (r.addr < w.addr + w.len ∧ w.addr < r.addr + r.len) &&
  (match r.pur, w.pur with
    | .write _, _ => false
    | .marker, _ => false
    | _, .write _ => true
    | _, _ => false)

/-! #### The fetch engine's share-out (R80, R81) -/

/-- The fetch engine makes the read (R80). -/
def Req.fetched (r : Req) : Bool := r.list || (match r.pur with
  | .fetch _ _ _ _ => true
  | _ => false)
/-- Fetch reads in flight: of ring slots and of operand lists, for all queues (R80). -/
def State.fetchReads (s : State) : Nat := Tab.cnt s.tags (fun _ r => r.fetched)
/-- Partitions with work pending for the fetch engine: an ACTIVE queue, or an operand list not fetched yet (R81). -/
def State.wanting (s : State) : List Nat :=
  Tab.keys s.parts (fun p _ => Tab.ex s.queues (fun i q => i != 0 && q.st == .active && s.pidOf q.cid == p) ||
    s.waiting.any (fun r => r.list && s.pidOf r.cid == p))
/-- A new round: each partition with work pending gains WEIGHT x 512 bytes; one without keeps no credit (R81). -/
def State.newRound (s : State) (ws : List Nat) : State :=
  { s with arb := { s.arb with credit := ws.map (fun p =>
      (p, Tab.atD s.arb.credit p 0 + (512 * ((Tab.at? s.parts p).map (·.weight)).getD 1 : Nat))) } }
/-- A partition of the list has credit. -/
def State.inCredit (s : State) (ps : List Nat) : Bool := ps.any (fun p => decide (0 < Tab.atD s.arb.credit p 0))
/-- Rounds until some partition that could be served, one of `ps`, has credit (R81; log entry 99). -/
def State.rounds (ws ps : List Nat) : Nat → State → State
  | 0, s => s
  | k + 1, s => if s.inCredit ps || ps == [] then s else (s.newRound ws).rounds ws ps k
/-- Bytes that the fetch engine reads for a partition are charged to its credit (R81). -/
def State.charge (s : State) (pid n : Nat) : State :=
  if pid = 0x3F then s else { s with arb := { s.arb with credit := Tab.put s.arb.credit pid (Tab.atD s.arb.credit pid 0 - (n : Nat)) } }
/-- A read of an operand list may be made: fewer than 256 fetch reads are in flight, and its partition has credit; QID 0's are charged to
no partition (R80, R81). -/
def State.listTurn (s : State) (r : Req) : Bool :=
  decide (s.fetchReads < 256) && (s.pidOf r.cid == 0x3F || s.inCredit [s.pidOf r.cid])
/-- Before a read of an operand list: where no partition that has one to read is in credit, a new round begins. -/
def State.listRound (s : State) (r : Req) : State :=
  if r.list ∧ s.pidOf r.cid ≠ 0x3F then
    let s' := { s with waiting := s.waiting ++ [r] }
    { s with arb := (s'.rounds s'.wanting (Tab.keys s'.parts (fun p _ => s'.waiting.any (fun r => r.list && s'.pidOf r.cid == p))) 1024).arb }
  else s

/-- The request may go out now: its station takes requests, and no write that it must follow is unacknowledged. -/
def State.mayIssue (s : State) (r : Req) : Bool :=
  (match r.stn with
    | some n => s.stnUp n && (Tab.atD s.stns n {}).memRdy
    | none => true) &&
  !Tab.ex s.tags (fun _ w => r.after w) && !s.waiting.any (fun w => r.after w)

/-- Issues a request under the lowest free tag, on lane tag mod 16; without a free tag, or while it may not go out, it waits
(R107, R348, R365, R369, R411). The check of R313 is made as it leaves, and a read for a function that may issue none then is
answered as an unsupported request (R353). -/
def State.issue (s : State) (r : Req) : State :=
  if !s.mayIssue r then { s with waiting := s.waiting ++ [r] }
  else if !s.portOk r then s.isoFail r
  else if r.stn.isNone && !s.fnOk r.fn then { s with waiting := s.waiting ++ [{ r with iso := true }] }
  else
  let s := s.listRound r
  if r.list && !s.listTurn r then { s with waiting := s.waiting ++ [r] }
  else
  match Tab.freeFrom s.tags r.range.1 r.range.2 with
  | some id =>
    let r := if r.pur = .marker then r else { r with lane := id % 16 }
    let s := if r.list then s.charge (s.pidOf r.cid) r.len else s
    { s with tags := Tab.put s.tags id r, out := s.out ++ [r.drives id] }
  | none => { s with waiting := s.waiting ++ [r] }

/-- The requests of a port that wait are tried again, in order. -/
def State.refill (s : State) (stn : Option Nat) : State :=
  let mine := fun (r : Req) => r.stn == stn && !r.iso
  (s.waiting.filter mine).foldl (fun s r => s.issue r) { s with waiting := s.waiting.filter (fun r => !mine r) }

/-- Reads of operand lists that wait for the fetch engine are tried again, in order (R80, R81). -/
def State.refillLists (s : State) : State :=
  (s.waiting.filter (fun r => r.list && !r.iso)).foldl (fun s r => s.issue r) { s with waiting := s.waiting.filter (fun r => !(r.list && !r.iso)) }

/-- Frees a tag; the requests of its port that wait are tried again, and the operand lists that wait where it was the fetch engine's. -/
def State.retire (s : State) (id : Nat) : State :=
  match Tab.at? s.tags id with
  | none => s
  | some r =>
    let s := { s with tags := Tab.del s.tags id }.refill r.stn
    if r.fetched then s.refillLists else s

/-- Drops requests: their tags are retired and what would still come is dead letters (R314). -/
def State.dropReqs (s : State) (p : Req → Bool) : State :=
  let ports := ((s.tags.filter (fun e => p e.2)).map (·.2.stn)).eraseDups
  ports.foldl (fun s n => s.refill n) { s with tags := Tab.keep s.tags (fun _ r => !p r), waiting := s.waiting.filter (fun r => !p r) }

/-! ### Writes (R312, R313, R364, R365) -/

/-- Writes memory behind a station's port for client `cl`: at most four sectors a request, acknowledged later. What it stores is
stored at once (log entry 17). -/
def State.stnWrite (s : State) (cl : Client) (stn cid : Nat) (a : Nat) (bs : List Byte) (poison : Bool) : State :=
  if bs = [] then s else
  let n := ceilDiv (a % 64 + bs.length) 64 * 64
  let r := fun (m : Mem) (x : Nat × Nat) =>
    ({ stn := some stn, client := cl, cid := cid, key := s.keyOf cid, fn := 0, pasid := none, addr := x.1, len := x.2,
       pur := .write ((chunksOf 64 (x.2 / 64) (m.read x.1 x.2)).map (fun b => (b, poison))) } : Req)
  let m := (s.memOf stn).write a bs poison
  let s := if (s.isoList stn).any (· == (cid, s.keyOf cid)) then { s with stnMem := memPut s.stnMem stn m } else s
  (cutRange 256 (2 ^ 60) (n + 1) (alignDown a 64) n).foldl (fun s x => s.issue (r m x)) s

/-- Writes a physical target on behalf of a context. -/
def State.twrite (s : State) (cl : Client) (cid : Nat) (t : Tgt) (bs : List Byte) (poison : Bool) : State :=
  if t.host then s.hostWrite (s.reqId cid).1 (s.reqId cid).2 t.addr bs poison else s.stnWrite cl t.stn cid t.addr bs poison

/-- Writes bytes over the pieces of a translated range, from offset `o` of it; unmapped pieces take nothing. -/
def State.pwrite (s : State) (cl : Client) (cid : Nat) (ps : List Piece) (o : Nat) (bs : List Byte) (poison : Bool) : State :=
  ps.foldl (fun s p =>
    let lo := max o p.off
    let hi := min (o + bs.length) (p.off + p.len)
    match p.tgt with
    | some t => if lo < hi then s.twrite cl cid { t with addr := t.addr + (lo - p.off) } ((bs.drop (lo - o)).take (hi - lo)) poison else s
    | none => s) s

/-! ### Ladder steps that run (R402, R403, R409) -/

/-- Some command of the context that a context step cancelled has no record yet. -/
def State.ctxEnding (s : State) (cid : Nat) : Bool :=
  Tab.ex s.cmds (fun _ c => s.cidOf c == cid && (c.cancel.isSome || (c.phase == .done && (match Tab.at? s.queues c.q with
    | some q => q.st == .draining
    | none => false))))

/-- A step that has begun still runs. -/
def State.stepLive (s : State) (r : Nat × Nat) : Bool :=
  match r.1 with
  | 1 => Tab.ex s.queues (fun _ q => q.cid == r.2 && q.st == .resetting) || s.ctxEnding r.2
  | 2 => ((Tab.at? s.eps r.2).map (·.inReset)).getD false
  | _ => true

/-- Steps that are over no longer run; a context step ends with ESCALATED (R326, R403 step 7). -/
def State.settleSteps (s : State) : State :=
  let ended := s.rcv.running.filter (fun r => !s.stepLive r)
  if ended = [] then s else
  let s := { s with rcv := { s.rcv with running := s.rcv.running.filter (fun r => !ended.contains r) } }
  ended.foldl (fun (s : State) r => if r.1 = 1 then s.notify (s.reqId r.2).1 3 else s) s

/-- POSTBAG_BATCH_WRITE (R309): 10 µs after the oldest staged record entered. -/
def execPostbagBatchWrite (pb : Nat) (s : State) : Out := .next (s.pbBatch pb)
/-- POSTBAG_ENABLE (R307, R323): a write of XLT_PB_CFG. -/
def execPostbagEnable (v : BitVec 32) (s : State) : Out := .next (s.mmio (fun s => s.pbCfg v.toNat))
/-- POSTBAG_HEAD_WRITE (R311, R323). -/
def execPostbagHeadWrite (v : BitVec 32) (s : State) : Out := .next (s.mmio (fun s => s.pbHead v.toNat))
/-- FAULT_LOST_CLEAR (R311, R323). -/
def execFaultLostClear (v : BitVec 32) (s : State) : Out :=
  .next (s.mmio (fun s => { s with ctxs := Tab.upd s.ctxs (bits v.toNat 0 12) (fun c => { c with faultLost := false }) }))

end Sys2Proof.Machine
end

