-- ==== Sys2Proof/Machine/Xlt.lean ====
section
/-! DEFINITION. Sys2Proof/Machine/Xlt.lean: segments, page-table walks, the translation cache and ranges
(R292-R306). -/
namespace Sys2Proof.Machine

/-- A stretch of context addresses that translates alike: its target, or the fault of R297 it gives. -/
structure Span where
  lo : Nat
  hi : Nat
  tgt : Option Tgt
  type : Nat := 0
  level : Nat := 7
  entry : Nat := 0
  phys : Nat := 0
  seg : Nat := 15
  /-- The station that a fault involves (R308), and whether the stretch may be written. -/
  stn : Nat := 0x3F
  perm : Bool := true
  deriving DecidableEq, Repr

/-- The enabled segment of a context that holds `a` (R294). -/
def Ctx.segOf (c : Ctx) (a : Nat) : Option (Nat × Seg) :=
  c.segs.find? (fun e => decide (e.2.len ≠ 0 ∧ e.2.base ≤ a ∧ a < e.2.base + e.2.len))

/-- Where the next enabled segment above `a` begins. -/
def Ctx.nextSeg (c : Ctx) (a : Nat) : Nat :=
  ((c.segs.filter (fun e => decide (e.2.len ≠ 0 ∧ a < e.2.base))).map (·.2.base)).foldl min (2 ^ 65)

/-- The cache entry of a context that covers `a` (R301). -/
def Part.cacheFind (p : Part) (cid a : Nat) : Option CacheEnt :=
  p.cache.find? (fun e => decide (e.cid = cid ∧ e.lo ≤ a ∧ a < e.lo + e.len))

/-- What a client's own walk left for `a` (R297). -/
def State.xnote (s : State) (cl : Client) (cid a : Nat) : Option XFault :=
  s.xlt.xfaults.find? (fun x => decide (x.client = cl ∧ x.cid = cid ∧ x.lo ≤ a ∧ a < x.lo + x.len))

/-- A mapped stretch, after the target check of R297. -/
def State.checkTarget (s : State) (pid : Nat) (sp : Span) (t : Tgt) : Span :=
  if !t.host && !s.owns pid t.stn then { sp with type := 4, phys := t.addr, stn := t.stn } else { sp with tgt := some t, level := 7, entry := 0 }

/-- A stretch that a run translates, as R297 checks it: `note` is what the client's own walk left. -/
def State.viaRun (s : State) (pid : Nat) (g : Seg) (sp : Span) (a : Nat) (write : Bool) (e : CacheEnt) (note : Option XFault) : Span :=
  let sp := { sp with hi := min sp.hi (e.lo + e.len), level := (note.map (·.level)).getD 7, entry := (note.map (·.entry)).getD 0, perm := g.wr && e.wr }
  if write && !e.wr then { sp with type := 3 } else s.checkTarget pid sp ⟨e.host, e.stn, e.phys + (a - e.lo)⟩

/-- Translates the stretch that begins at `a` (R297); none: the cache misses. What the client's own walks found for a range that it is
translating serves it until the whole range is translated, though the cache may have replaced it since (R300). -/
def State.xlatAt (s : State) (cl : Client) (cid a : Nat) (write : Bool) : Option Span :=
  match Tab.at? s.ctxs cid with
  | none => some { lo := a, hi := 2 ^ 65, tgt := none, type := 1 }
  | some c =>
    match c.segOf a with
    | none => some { lo := a, hi := c.nextSeg a, tgt := none, type := 1 }
    | some (i, g) =>
      let sp : Span := { lo := a, hi := g.base + g.len, tgt := none, seg := i, perm := g.wr }
      let pid := c.pid.getD 0x3F
      if write && !g.wr then some { sp with type := 3 }
      else if !g.paged then some (s.checkTarget pid sp ⟨g.host, g.stn, g.phys + (a - g.base)⟩)
      else
        match (Tab.at? s.parts pid).bind (fun p => p.cacheFind cid a), s.xnote cl cid a with
        | some e, note => some (s.viaRun pid g sp a write e note)
        | none, some x =>
          match x.run with
          | some e => some (s.viaRun pid g sp a write e (some x))
          | none => some { sp with hi := min sp.hi (x.lo + x.len), type := x.type, level := x.level, entry := x.entry, stn := x.stn }
        | none, none => none

/-- Translates a range into stretches; an error names the first address that misses. -/
def State.xlatLoop (s : State) (cl : Client) (cid : Nat) (write : Bool) : Nat → Nat → Nat → Except Nat (List Span)
  | 0, _, _ => .ok []
  | fuel + 1, a, e =>
    if e ≤ a then .ok [] else
    match s.xlatAt cl cid a write with
    | none => .error a
    | some sp =>
      match s.xlatLoop cl cid write fuel (min sp.hi e) e with
      | .ok r => .ok ({ sp with hi := min sp.hi e } :: r)
      | .error x => .error x

/-- Translates `len` bytes at `a` for context `cid` (R297, R300); CID 0 uses bus addresses (R260). -/
def State.xlat (s : State) (cl : Client) (cid : Nat) (write : Bool) (a len : Nat) : Except Nat (List Span) :=
  if len = 0 then .ok []
  else if cid = 0 then .ok [{ lo := a, hi := a + len, tgt := some ⟨true, 0, a⟩ }]
  else s.xlatLoop cl cid write (len / 65536 + 34) a (a + len)

/-- The pieces of a translated range that starts at `a`. -/
def piecesOf (a : Nat) (sps : List Span) : List Piece := sps.map (fun p => { off := p.lo - a, len := p.hi - p.lo, tgt := p.tgt, ca := p.lo, perm := p.perm })

/-- Counts the hits of a range and marks its cache entries most recently used (R301, R323). -/
def State.touch (s : State) (cid : Nat) (sps : List Span) : State :=
  match (Tab.at? s.ctxs cid).bind (·.pid) with
  | none => s
  | some pid =>
    { s with parts := Tab.upd s.parts pid (fun p =>
      sps.foldl (fun p sp => match p.cacheFind cid sp.lo with
        | some e => { p with hits := satAdd 64 p.hits 1, cache := e :: p.cache.filter (· != e) }
        | none => p) p) }

/-! ### Walks (R297, R303) -/

/-- Page size at a walk level (R295). -/
def pageSize (level : Nat) : Nat := if level = 2 then 2 ^ 30 else if level = 1 then 2 ^ 21 else 2 ^ 16

/-- Reads of walker `w` have this client number. -/
def walkClient (w : Nat) : Client := 2 ^ 90 + w

/-- Misses of the stretch that note `x` tells of go to their clients as notes, and no longer wait. -/
def State.walkNote (s : State) (x : XFault) : State :=
  let hit := fun (m : Miss) => decide (m.cid = x.cid ∧ x.lo ≤ m.addr ∧ m.addr < x.lo + x.len)
  let notes := (s.xlt.misses.filter hit).map (fun m => { x with client := m.client })
  { s with xlt := { s.xlt with misses := s.xlt.misses.filter (fun m => !hit m), xfaults := s.xlt.xfaults ++ notes } }

/-- An invalidation since the walk began meets the stretch: the result is not used, and its misses walk again (R304 step 1). -/
def Walker.stale (w : Walker) (lo len : Nat) : Bool := w.inval.any (fun r => decide (r.1 < lo + len ∧ lo < r.1 + r.2))

/-- A walk ends in a fault that covers the whole stretch its entry stands for. -/
def State.walkFail (s : State) (k : Nat) (w : Walker) (type entry : Nat) : State :=
  let base := (((Tab.at? s.ctxs w.cid).bind (fun c => Tab.at? c.segs w.seg)).map (·.base)).getD 0
  let sz := pageSize w.level
  let lo := base + alignDown (w.addr - base) sz
  let s := { s with xlt := { s.xlt with walkers := Tab.del s.xlt.walkers k } }
  if w.stale lo sz then s
  else s.walkNote { client := 0, cid := w.cid, lo := lo, len := sz, type := type, level := w.level, entry := entry, stn := if w.host then 0x3F else w.stn }

/-- The walker's current entry is read, or lies beyond the station's memory (R297); a read through LTP-H that the PF may not issue
fails as an unsupported request (R353). -/
def State.walkRead (s : State) (k : Nat) (w : Walker) : State :=
  if w.host && !s.fnOk 0 then s.walkFail k w 5 0
  else if !w.host && !(w.stn < s.build.nstn && w.at_ + 8 ≤ s.build.memBytes w.stn) then s.walkFail k w 5 0
  else
    ({ s with xlt := { s.xlt with walkers := Tab.put s.xlt.walkers k w } }).issue
      { stn := if w.host then none else some w.stn, client := walkClient k, cid := w.cid, key := s.keyOf w.cid, fn := 0,
        pasid := none, addr := w.at_, len := 8, pur := .walk k }

/-- The run that a walk finds may still hold the address: both lie in one aligned group of 64 pages, the longest run, of the level the
walk has come to (R298). -/
def Walker.mayFind (w : Walker) (base a : Nat) : Bool :=
  (w.addr - base) / (64 * pageSize w.level) == (a - base) / (64 * pageSize w.level)

/-- Misses that no walker is working on, nor one that may yet find their run: those of one run are coalesced into one walk (R303; log
entry 92). -/
def State.idleMisses (s : State) : List Miss :=
  s.xlt.misses.filter (fun m => match (Tab.at? s.ctxs m.cid).bind (fun c => c.segOf m.addr) with
    | some (i, g) => !Tab.ex s.xlt.walkers (fun _ w => w.cid == m.cid && w.seg == i && w.mayFind g.base m.addr)
    | none => true)

/-- The next miss to be given a walker: round robin by partition, in order within one; at most 4 walkers for one
partition while another waits (R303). -/
def State.nextMiss (s : State) : Option Miss :=
  let ms := s.idleMisses
  let may := fun (p : Nat) => ms.any (fun m => m.pid == p) &&
    (decide (Tab.cnt s.xlt.walkers (fun _ w => w.pid == p) < 4) || ms.all (fun m => m.pid == p))
  match (runFrom (s.xlt.lastPid + 1) 64).find? (fun p => may (p % 64)) with
  | some p => ms.find? (fun m => m.pid == p % 64)
  | none => none

/-- Gives free walkers to waiting misses (R303). -/
def State.assignWalkers : Nat → State → State
  | 0, s => s
  | fuel + 1, s =>
    match Tab.freeFrom s.xlt.walkers 0 8, s.nextMiss with
    | some k, some m =>
      match (Tab.at? s.ctxs m.cid).bind (fun c => c.segOf m.addr) with
      | some (i, g) =>
        let w : Walker := { pid := m.pid, cid := m.cid, addr := m.addr, seg := i, level := 2, host := g.host, stn := g.stn,
                            at_ := g.phys + 8 * ((m.addr - g.base) / 2 ^ 30) }
        ({ s with xlt := { s.xlt with lastPid := m.pid } }.walkRead k w).assignWalkers fuel
      | none => ({ s with xlt := { s.xlt with misses := s.xlt.misses.filter (· != m) } }).assignWalkers fuel
    | _, _ => s

/-- A client's translation of `a` missed: it waits for a walk (R303). -/
def State.miss (s : State) (cl : Client) (cid a : Nat) : State :=
  let pid := s.pidOf cid
  let m : Miss := ⟨cl, pid, cid, a⟩
  if s.xlt.misses.any (fun x => x.client == cl && x.cid == cid && x.addr / 65536 == a / 65536) then s
  else
    ({ s with
      parts := Tab.upd s.parts pid (fun p => { p with misses := satAdd 64 p.misses 1 })
      xlt := { s.xlt with misses := s.xlt.misses ++ [m] } }).assignWalkers 9

/-- Notes kept for a client are dropped. -/
def State.dropNotes (s : State) (cl : Client) : State :=
  { s with xlt := { s.xlt with xfaults := s.xlt.xfaults.filter (fun x => x.client != cl), misses := s.xlt.misses.filter (fun m => m.client != cl) } }

/-- A leaf entry is malformed (R297, R298). -/
def State.badLeaf (s : State) (level e page : Nat) : Bool :=
  let c := bits e 10 3
  let sz := pageSize level
  let addr := e / 65536 * 65536
  bits e 13 3 != 0 || c == 7 || addr % sz != 0 ||
  (!bit e 3 && !(bits e 4 6 < s.build.nstn && addr + sz ≤ s.build.memBytes (bits e 4 6))) ||
  decide (addr < page % 2 ^ c * sz)

/-- Ways of one set that a partition holds, and banks (R301). -/
def Part.nways (p : Part) : Nat := ((List.range 16).filter (bit p.ways)).length
def Part.nbanks (p : Part) : Nat := ((List.range 4).filter (bit p.banks)).length

/-- The set and bank of a run's entry: which of the 1,024 sets and of the partition's banks holds a run is not stated (R301; log entry
35). -/
def Part.place (p : Part) (e : CacheEnt) : Nat × Nat := (e.lo / 65536 % 1024, e.lo / 2 ^ 26 % max p.nbanks 1)

/-- Installs a run as the most recently used entry; within the partition's ways of its set the least recently used one makes room
(R301). -/
def Part.install (p : Part) (e : CacheEnt) : Part :=
  let out := (p.cache.filter (fun x => p.place x == p.place e)).drop (p.nways - 1)
  { p with cache := e :: p.cache.filter (fun x => !out.contains x) }

/-- A walker's read came back with an entry (R297, R298). -/
def State.walkEntry (s : State) (k : Nat) (w : Walker) (e : Nat) : State :=
  match (Tab.at? s.ctxs w.cid).bind (fun c => Tab.at? c.segs w.seg) with
  | none => { s with xlt := { s.xlt with walkers := Tab.del s.xlt.walkers k } }
  | some g =>
    let o := w.addr - g.base
    if !bit e 0 then s.walkFail k w 2 e
    else if bit e 2 then
      let sz := pageSize w.level
      let page := o / sz
      if s.badLeaf w.level e page then s.walkFail k w 5 e
      else
        let c := bits e 10 3
        let j := page % 2 ^ c
        let ent : CacheEnt := { cid := w.cid, lo := g.base + (page - j) * sz, len := 2 ^ c * sz, wr := bit e 1, host := bit e 3,
                                stn := bits e 4 6, phys := e / 65536 * 65536 - j * sz, entry := e, level := w.level }
        let s := { s with xlt := { s.xlt with walkers := Tab.del s.xlt.walkers k } }
        if w.stale ent.lo ent.len then s
        else { s with parts := Tab.upd s.parts w.pid (fun p => p.install ent) }.walkNote
          { client := 0, cid := w.cid, lo := ent.lo, len := ent.len, type := 0, level := w.level, entry := e, run := some ent }
    else if bit e 1 || bits e 3 5 != 0 || w.level == 0 || (w.level == 2 && bits e 8 4 != 0) then s.walkFail k w 5 e
    else
      let next := e / 256 * 256
      let i := if w.level = 2 then o / 2 ^ 21 % 512 else o / 2 ^ 16 % 32
      s.walkRead k { w with level := w.level - 1, at_ := next + 8 * i }

/-- A dead letter is counted (R314, R351). -/
def State.deadLtp (s : State) : State := { s with xlt := { s.xlt with dead := satAdd 32 s.xlt.dead 1 } }
/-- A dead letter of a memory port is counted (R314, R462). -/
def State.deadLetter (s : State) : State := s.deadLtp.count 0x2106 3

/-- A walker's read is over (R297, R303): a poisoned, failed or timed-out read is a malformed entry. -/
def State.walkDone (s : State) (r : Req) (k : Nat) (bad : List (Nat × Nat)) : State :=
  match Tab.at? s.xlt.walkers k with
  | some w =>
    let t : Tgt := ⟨r.stn.isNone, r.stn.getD 0, r.addr⟩
    (if bad ≠ [] ∨ s.tpoison t 8 then s.walkFail k w 5 0 else s.walkEntry k w (leNat (s.tread t 8))).assignWalkers 9
  | none => s

/-! ### Invalidation (R304 step 1) -/

/-- Removes the cache entries of a context that overlap the range; what a walk in flight finds there is not installed. -/
def State.invalCache (s : State) (cid lo len : Nat) : State :=
  let meets := fun (a n : Nat) => decide (a < lo + len ∧ lo < a + n)
  { s with
    parts := Tab.mapV s.parts (fun _ p => { p with cache := p.cache.filter (fun e => !(e.cid == cid && meets e.lo e.len)) })
    xlt := { s.xlt with
      walkers := Tab.mapV s.xlt.walkers (fun _ w => if w.cid = cid then { w with inval := w.inval ++ [(lo, len)] } else w)
      xfaults := s.xlt.xfaults.filter (fun x => !(x.cid == cid && meets x.lo x.len)) } }

/-- Flushes a partition's entries (R302). -/
def State.flushCache (s : State) (pid : Nat) : State := { s with parts := Tab.upd s.parts pid (fun p => { p with cache := [] }) }

/-- The slices a way mask and a bank mask name (R301). -/
def slicesOf (ways banks : Nat) : List Nat :=
  ((List.range 4).filter (bit banks)).flatMap (fun b => ((List.range 16).filter (bit ways)).map (fun w => 16 * b + w))
/-- A slice is held by a partition other than `pid`. -/
def State.sliceTaken (s : State) (pid sl : Nat) : Bool :=
  Tab.ex s.parts (fun p x => p != pid && (slicesOf x.ways x.banks).contains sl)
/-- The lowest-numbered free slice (R302). -/
def State.freeSlice (s : State) : Option Nat := (List.range 64).find? (fun sl => !s.sliceTaken 64 sl)

/-- A write of XLT_WMAP for the selected partition (R302, R323). -/
def State.wmapWrite (s : State) (v : Nat) : State :=
  if s.xlt.sys || !Tab.has s.parts s.xlt.psel then s else
  let pid := s.xlt.psel
  let s := if bit v 31 then { s with parts := Tab.upd s.parts pid (fun p => { p with wmapErr := false }) } else s
  let ways := bits v 0 16
  let banks := bits v 16 4
  if ways = 0 ∨ banks = 0 ∨ (slicesOf ways banks).any (s.sliceTaken pid) then
    { s with parts := Tab.upd s.parts pid (fun p => { p with wmapErr := true }) }
  else { s.flushCache pid with parts := Tab.upd s.parts pid (fun p => { p with cache := [], ways := ways, banks := banks }) }

/-- XLT_WMAP_WRITE (R302, R323). -/
def execXltWmapWrite (v : BitVec 32) (s : State) : Out := .next (s.mmio (fun s => s.wmapWrite v.toNat))

/-! ### Checks of a command -/

/-- Why a command's checks stop: a translation that misses, or a status with the fault record it posts. -/
inductive Stop where
  | miss (cid a : Nat)
  | fail (st : Nat) (rec : Option FaultRec)
  deriving DecidableEq, Repr

/-- Checks of a command, in order. -/
abbrev Chk (α : Type) := Except Stop α

/-- A check that gives `st` where it does not hold. -/
def need (b : Bool) (st : Nat) : Chk Unit := if b then .ok () else .error (.fail st none)

/-- The fault record of a stretch that does not translate (R308). -/
def State.faultRec (s : State) (c : Cmd) (cid agent : Nat) (write : Bool) (sp : Span) : FaultRec :=
  { type := sp.type, agent := agent, write := write, level := sp.level, pid := if c.q = 0 then 0x3F else s.pidOf cid, cid := cid, qid := c.q,
    addr := alignDown sp.lo 64 % 2 ^ 64, seq := c.seq, opcode := c.opcode, seg := sp.seg, tag := c.tag, entry := sp.entry,
    phys := sp.phys, stn := sp.stn }

/-- Translates a range, unmapped stretches and all. -/
def State.spans (s : State) (cl : Client) (cid : Nat) (write : Bool) (a len : Nat) : Chk (List Span) :=
  match s.xlat cl cid write a len with
  | .ok r => .ok r
  | .error x => .error (.miss cid x)

/-- Translates a range every byte of which must be mapped: ST_FAULT with the record of the first that is not. -/
def State.mapAll (s : State) (cl : Client) (c : Cmd) (cid : Nat) (write : Bool) (a len : Nat) : Chk (List Piece) :=
  match s.spans cl cid write a len with
  | .ok sps =>
    match sps.find? (fun p => p.tgt.isNone) with
    | some p => .error (.fail 5 (some (s.faultRec c cid (if write then 1 else 0) write p)))
    | none => .ok ((piecesOf a sps).map (fun p => { p with wr := write }))
  | .error e => .error e

/-- The reads of a translated range: 1 to 4 sectors of station memory, or up to 512 bytes of host memory within
4 KiB (R348, R364). -/
def itemsOf (operand : Bool) (ps : List Piece) : List Item :=
  ps.flatMap (fun p => match p.tgt with
    | none => []
    | some t =>
      let cut := if t.host then cutRange 512 4096 (p.len + 1) t.addr p.len
        else cutRange 256 (2 ^ 60) (p.len + 1) (alignDown t.addr 64) (up64b (t.addr % 64 + p.len))
      cut.map (fun x => { tgt := { t with addr := x.1 }, len := x.2, operand := operand }))
where
  /-- Rounded up to whole sectors. -/
  up64b (n : Nat) : Nat := ceilDiv n 64 * 64

/-- A read that is back brought some of `n` bytes at target `t`. -/
def Item.brought (i : Item) (t : Tgt) (n : Nat) : Bool :=
  i.back && i.tgt.host == t.host && (i.tgt.host || i.tgt.stn == t.stn) && decide (i.tgt.addr < t.addr + n ∧ t.addr < i.tgt.addr + i.len)

/-- Bytes at `a` with those of `data` at `b` laid over them. -/
def overlay (bs : List Byte) (a : Nat) (data : List Byte) (b : Nat) : List Byte :=
  let lo := max a b
  let hi := min (a + bs.length) (b + data.length)
  if lo < hi then bs.take (lo - a) ++ (data.drop (lo - b)).take (hi - lo) ++ bs.drop (hi - a) else bs

/-- `n` bytes at a target as a command's reads brought them; what no read brought is as the memory holds it. -/
def State.titems (s : State) (its : List Item) (t : Tgt) (n : Nat) : List Byte :=
  (its.filter (fun i => i.brought t n)).foldl (fun bs i => overlay bs t.addr i.data i.tgt.addr) (s.tread t n)

/-- Whether some of `n` bytes at a target arrived poisoned or failed (R351, R365). -/
def State.tbad (s : State) (its : List Item) (t : Tgt) (n : Nat) : Bool :=
  if its.any (fun i => i.brought t n) then its.any (fun i => i.brought t n && hits i.bad t.addr n) else s.tpoison t n

/-- The mapped parts of bytes `o` to `o + n` of a range, with the bytes each has; `none` for an unmapped part. -/
def partsOf (ps : List Piece) (o n : Nat) : List (Option Tgt × Nat) :=
  ps.filterMap (fun p =>
    let lo := max o p.off
    let hi := min (o + n) (p.off + p.len)
    if lo < hi then some (p.tgt.map (fun t => { t with addr := t.addr + (lo - p.off) }), hi - lo) else none)

/-- Bytes `o` to `o + n` of a range as a command's reads brought them; unmapped bytes read zero. -/
def State.brought (s : State) (its : List Item) (ps : List Piece) (o n : Nat) : List Byte :=
  (partsOf ps o n).flatMap (fun p => match p.1 with
    | some t => s.titems its t p.2
    | none => zeros p.2)

/-- Bytes `o` to `o + n` of a range read by a command arrived poisoned. -/
def State.arrivedBad (s : State) (its : List Item) (ps : List Piece) (o n : Nat) : Bool :=
  (partsOf ps o n).any (fun p => match p.1 with
    | some t => s.tbad its t p.2
    | none => false)

end Sys2Proof.Machine
end

