-- ==== Sys2Proof/Machine/Operands.lean ====
section
/-! DEFINITION. Sys2Proof/Machine/Operands.lean: status codes (R265), the opcode map (R263), the bits every opcode's
envelope names (R258, R259, R267-R278, R283), and the start, reads and end of a command. -/
namespace Sys2Proof.Machine

/-! ### Status codes (R265) -/
abbrev stOk : Nat := 0x00
abbrev stBadOpcode : Nat := 0x01
abbrev stBadOperand : Nat := 0x02
abbrev stNotPermitted : Nat := 0x03
abbrev stUnitAbsent : Nat := 0x04
abbrev stFault : Nat := 0x05
abbrev stTimeout : Nat := 0x06
abbrev stAborted : Nat := 0x07
abbrev stDependencyFailed : Nat := 0x08
abbrev stDependencyCycle : Nat := 0x09
abbrev stEngineError : Nat := 0x0A
abbrev stBadContext : Nat := 0x10
abbrev stBadFence : Nat := 0x11
abbrev stBadTable : Nat := 0x12
abbrev stBadStream : Nat := 0x13
abbrev stNoQid : Nat := 0x18
abbrev stNoContext : Nat := 0x19
abbrev stNoFence : Nat := 0x1A
abbrev stNoEdge : Nat := 0x1B
abbrev stNoTable : Nat := 0x1C
abbrev stNoStream : Nat := 0x1D
abbrev stNoKeyslot : Nat := 0x1E
abbrev stNoSpace : Nat := 0x1F
abbrev stTableBusy : Nat := 0x20
abbrev stVersionExhausted : Nat := 0x21
abbrev stOverlayFull : Nat := 0x22
abbrev stStreamFull : Nat := 0x23
abbrev stBadSignature : Nat := 0x28
abbrev stRollback : Nat := 0x29
abbrev stBusy : Nat := 0x2A
abbrev stQueueError : Nat := 0x30
abbrev stQueueReset : Nat := 0x31

/-! ### Opcodes (R263) -/

/-- The bits of bytes 8 to 63 that an opcode's layout names: bit offset in the envelope and width. None: undefined. -/
def opFields (op : Nat) : Option (List (Nat × Nat)) :=
  match op with
  | 0x00 => some []
  | 0x01 => some [(64, 5), (96, 18), (128, 64)]
  | 0x02 => some [(64, 1), (96, 18), (128, 64)]
  | 0x03 => some [(96, 18), (128, 64), (192, 18), (256, 64)]
  | 0x10 => some [(64, 32), (96, 30), (128, 30), (160, 32), (192, 320)]
  | 0x11 => some [(64, 32), (96, 30), (128, 30), (160, 32), (192, 320)]
  | 0x12 => some [(64, 7), (75, 1), (160, 32), (192, 64), (384, 128)]
  | 0x18 => some [(64, 16), (80, 3), (88, 8), (96, 21), (128, 32), (192, 128)]
  | 0x19 => some [(64, 16), (80, 3), (88, 8), (96, 21), (128, 32), (192, 128)]
  | 0x1A => some [(64, 16), (80, 2), (128, 64)]
  | 0x1B => some [(64, 16), (80, 2), (96, 32)]
  | 0x1C => some [(64, 16), (80, 2), (88, 5), (128, 64)]
  | 0x20 => some [(192, 64)]
  | 0x21 => some [(64, 14), (96, 25), (128, 32), (192, 64)]
  | 0x22 => some [(64, 17), (96, 17), (128, 27), (160, 32), (192, 64), (256, 8), (320, 192)]
  | 0x23 => some [(64, 14), (80, 2), (96, 25)]
  | 0x28 => some [(64, 24), (96, 32), (128, 384)]
  | 0x29 => some [(64, 14), (80, 13), (96, 6), (104, 16), (128, 192)]
  | 0x30 => some [(64, 10), (96, 13), (128, 128)]
  | 0x31 => some [(64, 192)]
  | 0x38 => some [(64, 2), (80, 12), (96, 12), (192, 128)]
  | 0x3F => some [(64, 1), (72, 5), (96, 32), (128, 64)]
  | 0x40 => some [(64, 9), (80, 1), (88, 6), (96, 20), (128, 12), (144, 6)]
  | 0x41 => some [(64, 12)]
  | 0x42 => some [(64, 12), (80, 5), (88, 4), (96, 9), (112, 16), (128, 128), (256, 26), (288, 11), (304, 8), (320, 10)]
  | 0x43 => some [(64, 15)]
  | 0x44 => some [(192, 64)]
  | 0x45 => some [(64, 6), (72, 8), (96, 26), (128, 48), (192, 19), (256, 64)]
  | 0x46 => some [(64, 6), (96, 26)]
  | 0x47 => some [(64, 12), (80, 4), (128, 64)]
  | 0x48 => some [(64, 12), (128, 128)]
  | 0x49 => some [(64, 6), (96, 7), (128, 64)]
  | 0x4A => some [(64, 6)]
  | 0x4B => some [(64, 1), (96, 32), (128, 64)]
  | 0x4C => some [(64, 1), (72, 1)]
  | _ => none

/-- Opcodes for which FLAGS bit 1 has a meaning (R259). -/
def flag1Ops : List Nat := [0x12, 0x18, 0x19, 0x21]

/-- Every reserved header bit, reserved FLAGS bit and reserved operand byte is zero, and TMO_CLASS is not 9 to 14
(R258, R259, R261). -/
def Cmd.clean (c : Cmd) : Bool :=
  let v := rd c.env 0 64
  let hdr := [(0, 9), (16, 12), (32, 32)] ++ (if flag1Ops.contains c.opcode then [(9, 1)] else [])
  let used := packF ((hdr ++ (opFields c.opcode).getD []).map (fun f => (f.1, f.2, 2 ^ f.2 - 1)))
  (v &&& used) == v && !(9 ≤ c.tmo && c.tmo ≤ 14)

/-- An administrative opcode (R54). -/
def adminOp (op : Nat) : Bool := 0x40 ≤ op && op ≤ 0x5F
/-- The queue accepts the opcode (R54, R277). -/
def opAllowed (q op : Nat) : Bool :=
  if q = 0 then adminOp op || [0x00, 0x01, 0x02, 0x38].contains op else !adminOp op

/-- GEN0 runs the command in ring order, one at a time (R54). -/
def gen0 (q op : Nat) : Bool := q == 0 && (adminOp op || op == 0x38)

/-! ### Start -/

/-- Sequence number `a` is later than `b` (R71). -/
def seqLater (a b : Nat) : Bool := 1 ≤ (a + 2 ^ 48 - b) % 2 ^ 48 && (a + 2 ^ 48 - b) % 2 ^ 48 ≤ 2 ^ 47 - 1

/-- Commands whose acceptance pins a table, changes its versions, or takes a place on a stream: those of one queue are accepted in ring
order (R72, R158, R200; log entry 31). -/
def orderedOps : List Nat := [0x10, 0x11, 0x12, 0x18, 0x19, 0x1A, 0x1B, 0x1C, 0x20, 0x21, 0x22, 0x23]
/-- Such a command is not accepted yet: it has not started, though nothing but its own row holds it back, or its operand lists are being
read before it is accepted (R100, R158, R164). -/
def Cmd.checking (c : Cmd) : Bool :=
  orderedOps.contains c.opcode && c.cancel.isNone && ((c.phase == .admitted && c.stage == 0 && !c.serial && !gen0 c.q c.opcode) ||
    (c.phase == .running && 1 ≤ c.stage && c.stage ≤ 2 && c.work == .idle && c.items.all (·.operand)))

/-- Acceptance of the command waits: one before it in its queue is not accepted yet (R72, R158; log entry 31). -/
def State.behind (s : State) (c : Cmd) : Bool :=
  orderedOps.contains c.opcode && Tab.ex s.cmds (fun _ d => d.q == c.q && seqLater c.seq d.seq && d.checking)
/-- Commands that are accepted as they start, because they read no operand list first. -/
def atOnce (op : Nat) : Bool := [0x1A, 0x1B, 0x1C, 0x21, 0x23].contains op

/-- A command may start: admitted; a SERIAL one only when every earlier command of its queue has written its record
(R72), and a GEN0 command only when the one before it has completed (R54). One that is accepted as it starts keeps the order of
acceptance. -/
def State.mayStart (s : State) (c : Cmd) : Bool :=
  c.phase == .admitted && c.stage == 0 && c.cancel.isNone && !(atOnce c.opcode && s.behind c) &&
  !Tab.ex s.cmds (fun _ d => d.q == c.q && seqLater c.seq d.seq && (c.serial || (gen0 c.q c.opcode && gen0 d.q d.opcode)))

/-- A started command whose operand reads are back and whose checks a translation miss left unfinished goes on when
its own row comes again (R303, log entry 11). -/
def Cmd.again (c : Cmd) : Bool :=
  c.phase == .running && 1 ≤ c.stage && c.stage < 8 && c.cancel.isNone && (c.items.all (·.back) || (c.opcode == 0x28 && c.stage == 5))

/-- Runs the own row of command (q, seq) when it may start, or goes on, and is the one the row is for; otherwise nothing
happens (log entry 5). -/
def State.start (s : State) (q seq : Nat) (mine : Cmd → Bool) (f : Client → Cmd → State → State) : State :=
  match s.cmd (ckey q seq) with
  | some c => if (s.mayStart c || c.again) && mine c then f (ckey q seq) c s else s
  | none => s

/-! ### End -/

/-- Decides a command's status and completion fields (R281). A cancelled command keeps the status of its
cancellation (R77), and the count and aux it has: 0 for a switch (R169; log entry 104). -/
def State.finish (s : State) (cl : Client) (st count aux : Nat) : State :=
  (s.updCmd cl (fun c =>
    match c.cancel with
    | some k => { c with phase := .done, status := k, poison := c.poison || c.left }
    | none => { c with phase := .done, status := st, count := count % 2 ^ 32, aux := min aux (2 ^ 32 - 1) })).dropNotes cl

/-- The fault record of a command goes to its partition's postbag, or the system one (R307). -/
def State.postFor (s : State) (pid : Nat) (r : FaultRec) : State := s.post (if pid = 0x3F then 48 else pid) r

/-- A failed check completes the command with its status and fault record; a miss leaves it to be tried again when
the walk has ended (R303). -/
def State.stop (s : State) (cl : Client) : Stop → State
  | .miss cid a => s.miss cl cid a
  | .fail st rec =>
    let s := match rec with
      | some r => s.postFor r.pid r
      | none => s
    s.finish cl st 0 0

/-- Goes on with what a command's checks gave, or stops it. -/
def State.checked {α : Type} (s : State) (cl : Client) (r : Chk α) (k : α → State) : State :=
  match r with
  | .ok a => k a
  | .error e => s.stop cl e

/-! ### Reads -/

/-- The request of one of a command's reads. -/
def State.itemReq (s : State) (cl : Client) (cid i : Nat) (it : Item) : Req :=
  { stn := if it.tgt.host then none else some it.tgt.stn, client := cl, cid := cid, key := s.keyOf cid,
    fn := (s.reqId cid).1, pasid := (s.reqId cid).2, addr := it.tgt.addr, len := it.len, pur := .item i, list := it.operand }

/-- Reads for a function that may issue none come back at once as unsupported requests (R353). -/
def State.ready? (s : State) (cid : Nat) (its : List Item) : List Item :=
  its.map (fun i => if i.tgt.host && !s.fnOk (s.reqId cid).1 then { i with back := true, bad := [(i.tgt.addr, i.len)], data := zeros i.len } else i)

/-- Issues a command's reads and moves it to stage `stage`, which goes on when all are back. -/
def State.fetchItems (s : State) (cl : Client) (cid stage : Nat) (its : List Item) : State :=
  let its := s.ready? cid its
  let s := s.updCmd cl (fun c => { c with phase := .running, stage := stage, items := its })
  (its.zipIdx.filter (fun x => !x.1.back)).foldl (fun s x => s.issue (s.itemReq cl cid x.2 x.1)) s

/-- Issues further reads of a command, whose earlier ones are back, and moves it to stage `stage`. -/
def State.fetchMore (s : State) (cl : Client) (cid stage : Nat) (its : List Item) : State :=
  let n := ((s.cmd cl).map (fun c => c.items.length)).getD 0
  let its := s.ready? cid its
  let s := s.updCmd cl (fun c => { c with phase := .running, stage := stage, items := c.items ++ its })
  (its.zipIdx.filter (fun x => !x.1.back)).foldl (fun s x => s.issue (s.itemReq cl cid (n + x.2) x.1)) s

/-- A read of a command came back: its bytes and what of them arrived poisoned or failed are kept. A read that the check of R313
stopped brings zeros. -/
def State.itemBack (s : State) (cl : Client) (i : Nat) (iso : Bool) (bad : List (Nat × Nat)) : State :=
  s.updCmd cl (fun c => { c with items := (c.items.zipIdx).map (fun x =>
    if x.2 = i then { x.1 with back := true, bad := bad ++ s.storedBad x.1.tgt x.1.len, data := if iso then zeros x.1.len else s.tread x.1.tgt x.1.len } else x.1) })

/-- Every read of the command's stage is back. -/
def Cmd.allBack (c : Cmd) : Bool := c.items.all (·.back)
/-- An operand read came back bad: the command stops with ST_ABORTED and POISON (R351). -/
def Cmd.operandBad (c : Cmd) : Bool := c.items.any (fun i => i.operand && i.bad != [])

/-- Goes on with what a command's operand reads brought: a command that was cancelled ends, one whose operands came
back bad stops with ST_ABORTED and POISON (R77, R351). -/
def State.withOperands (s : State) (cl : Client) (c : Cmd) (k : Cmd → State → State) : State :=
  if c.cancel.isSome then (if s.busy cl then s else s.finish cl stAborted 0 0)
  else if c.operandBad then (s.updCmd cl (fun c => { c with poison := true })).finish cl stAborted 0 0
  else k c s

/-- Issues a command's reads for stage `stage`, and goes on at once when none is outstanding. -/
def State.fetchThen (s : State) (cl : Client) (cid stage : Nat) (its : List Item) (k : Client → Cmd → State → State) : State :=
  let s := s.fetchItems cl cid stage its
  match s.cmd cl with
  | some c => if c.allBack then k cl c s else s
  | none => s

/-- The bytes of translated range `i` of a command, as its reads brought them. -/
def State.rangeBytes (s : State) (c : Cmd) (i n : Nat) : List Byte := s.brought c.items ((c.ranges[i]?).getD []) 0 n

/-- Little-endian numbers of `w` bytes each. -/
def numsOf (w : Nat) (bs : List Byte) : List Nat := (chunksOf w bs.length bs).map leNat

end Sys2Proof.Machine
end

