-- ==== Sys2Proof/Machine/Flags.lean ====
section
/-! DEFINITION. Sys2Proof/Machine/Flags.lean: completion records and their flags (R70, R73, R281), and the flag byte of
a pool (R95). -/
namespace Sys2Proof.Machine

/-- The flag byte of a pool (R95). -/
def poolFlags (poison empty dflt : Bool) : Nat := b2n poison + 2 * b2n empty + 4 * b2n dflt

/-- Ring size N (R68). -/
def Queue.n (q : Queue) : Nat := 2 ^ q.log2

/-- The 32 bytes of a completion record (R70). -/
def recordBytes (tag status : Nat) (poison empty trunc : Bool) (phase sqHead count aux seq qid stamp : Nat) : List Byte :=
  recBytes 32 [(0, 32, tag), (32, 8, status), (40, 1, b2n poison), (41, 1, b2n empty), (42, 1, b2n trunc), (47, 1, phase),
    (48, 16, sqHead), (64, 32, count), (96, 32, aux), (128, 48, seq), (176, 15, qid), (192, 40, stamp)]

/-- The record of a completed command (R70, R71). -/
def State.cmdRecord (s : State) (q : Queue) (c : Cmd) : List Byte :=
  recordBytes c.tag c.status c.poison c.empty c.trunc (phaseOf q.n q.c) (q.h % q.n) c.count c.aux c.seq c.q (Config.stamp s.fresh).toNat

/-- A marker record: CMD_TAG 0, the slots discarded, the stop cause (R73, R75). -/
def State.markerRecord (s : State) (qid : Nat) (q : Queue) (status : Nat) : List Byte :=
  recordBytes 0 status false false false (phaseOf q.n q.c) (q.h % q.n) q.disc (q.cause % 16) q.nextSeq qid (Config.stamp s.fresh).toNat

end Sys2Proof.Machine
end

