-- ==== Sys2Proof/Machine/Graph.lean ====
section
/-! DEFINITION. Sys2Proof/Machine/Graph.lean: fences, waits and signals, admission, edges and the cycle search
(R229-R246, R254 excepted), and the fence and graph commands. -/
namespace Sys2Proof.Machine

/-! ### Fences (R229-R232) -/

/-- The three states of a wait (R232). -/
inductive WaitSt where
  | failed | met | unmet
  deriving DecidableEq, Repr

/-- The state of a wait for `w` (R232). -/
def Fence.wait (f : Fence) (w : Nat) : WaitSt :=
  if f.err ∧ f.errVal ≤ w then .failed else if w ≤ f.value then .met else .unmet

/-- The state of a wait on fence `fid`; a fence no longer there counts as failed, since only a destroyed fence is
ever freed (R233). -/
def State.waitSt (s : State) (fid w : Nat) : WaitSt :=
  match Tab.at? s.fences fid with
  | some f => f.wait w
  | none => .failed

/-- A signal of value `v` (R231). -/
def Fence.signal (f : Fence) (v : Nat) (err : Bool) : Fence :=
  if err then { f with value := max f.value v, err := true, errVal := if f.err then min f.errVal v else v }
  else { f with value := max f.value v }

/-- A context's command may name the fence (R230), and the status if it may not. -/
def State.nameFence (s : State) (q cid fid : Nat) : Chk Fence :=
  match Tab.at? s.fences fid with
  | none => .error (.fail stBadFence none)
  | some f =>
    if f.dead then .error (.fail stBadFence none)
    else if q = 0 ∨ f.owner = cid ∨ (f.shared ∧ f.pid = some (s.pidOf cid)) then .ok f
    else .error (.fail stNotPermitted none)

/-- Applies a signal to a fence; a good signal below its value is counted (R231). -/
def State.signalOne (s : State) (fid v : Nat) (err : Bool) : State :=
  match Tab.at? s.fences fid with
  | none => s
  | some f =>
    let s := { s with fences := Tab.put s.fences fid (f.signal v err) }
    if !err && v < f.value then
      match f.pid with
      | some p => { s with parts := Tab.upd s.parts p (fun p => { p with lowsig := satAdd 32 p.lowsig 1 }) }
      | none => { s with grf := { s.grf with lowSys := satAdd 32 s.grf.lowSys 1 } }
    else s

/-- Fires, one at a time, every edge whose wait has left the unmet state; each edge fires once (R240). -/
def State.fireEdges : Nat → State → State
  | 0, s => s
  | fuel + 1, s =>
    match s.edges.find? (fun e => s.waitSt e.2.src e.2.sv != .unmet) with
    | none => s
    | some (k, e) =>
      let st := s.waitSt e.src e.sv
      ({ s with edges := Tab.del s.edges k }.signalOne e.dst e.dv (decide (st = WaitSt.failed))).fireEdges fuel

/-- A signal and the edges it fires (R231, R240). -/
def State.signal (s : State) (fid v : Nat) (err : Bool) : State :=
  let s := s.signalOne fid v err
  s.fireEdges (s.edges.length + 1)

/-! ### The dependency graph (R242, R243) -/

/-- Received, unadmitted commands of a queue, in order. -/
def State.unadmitted (s : State) (q : Nat) : List Cmd :=
  (s.cmds.filter (fun e => e.2.q == q && (e.2.phase == .received || e.2.phase == .parked))).map (·.2)

/-- A command will signal the fence: through its extension or as FENCE_SIGNAL MODE 0 (R242). -/
def Cmd.signals (c : Cmd) (fid : Nat) : Bool :=
  c.sigs.any (fun g => g.1 == fid) || (c.opcode == 0x01 && c.fld 8 1 0 3 == 0 && c.fld 12 4 0 18 == fid)

/-- Nodes: fence f is 2f, the parked head of queue q is 2q + 1. The nodes that node `n` cannot progress without. -/
def State.succs (s : State) (n : Nat) : List Nat :=
  if n % 2 = 1 then
    match (s.unadmitted (n / 2)).head? with
    | some h => if h.phase = .parked then (h.waits.filter (fun w => s.waitSt w.1 w.2.1 == .unmet)).map (fun w => 2 * w.1) else []
    | none => []
  else
    let f := n / 2
    let heads := ((s.cmds.filter (fun e => e.2.phase == .parked)).map (·.2.q)).filter (fun q => (s.unadmitted q).any (fun c => c.signals f))
    let viaEdges := (s.edges.filter (fun e => e.2.dst == f)).map (fun e => 2 * e.2.src)
    let viaWaits := (s.cmds.filter (fun e => e.2.phase == .running && e.2.opcode == 0x02 && e.2.sigs.any (fun g => g.1 == f))).map
      (fun e => 2 * e.2.fld 12 4 0 18)
    heads.map (fun q => 2 * q + 1) ++ viaEdges ++ viaWaits

/-- What a search answers (R243). -/
inductive SearchRes where
  | cycle | none | abandoned
  deriving DecidableEq, Repr

/-- Adds the successors of one hop to those seen (R243): stops at x, or when 256 nodes are seen. -/
def hopAdd (x : Nat) : List Nat → List Nat → List Nat → Except SearchRes (List Nat × List Nat)
  | [], seen, next => .ok (seen, next)
  | m :: ms, seen, next =>
    if m = x then .error .cycle
    else if seen.contains m then hopAdd x ms seen next
    else if seen.length = 256 then .error .abandoned
    else hopAdd x ms (m :: seen) (next ++ [m])

/-- The hops of a search from x (R243). -/
def State.hops (s : State) (x : Nat) : Nat → List Nat → List Nat → SearchRes
  | 0, _, _ => .none
  | k + 1, frontier, seen =>
    match hopAdd x (frontier.flatMap s.succs) seen [] with
    | .error r => r
    | .ok (seen, next) => if next = [] then .none else s.hops x k next seen

/-- A search of at most 16 hops from node x (R243), and its counts (R256). -/
def State.search (s : State) (x : Nat) : State × Bool :=
  match s.hops x 16 [x] [x] with
  | .cycle => ({ s with grf := { s.grf with found := satAdd 16 s.grf.found 1 } }, true)
  | .abandoned => ({ s with grf := { s.grf with abandoned := satAdd 16 s.grf.abandoned 1 } }, false)
  | .none => (s, false)

/-! ### Admission (R238, R261) -/

/-- Steps 1 and 2 of R238: the fence fields. -/
def State.fenceFields (s : State) (c : Cmd) (cid : Nat) : Chk Unit := do
  let f := rd c.ext 48 16
  let reserved := (List.range 6).any (fun j => bit f (20 * j + 19)) || bits f 120 8 != 0
  need (c.nwait ≤ 4 && c.nsig ≤ 2 && !(c.ext != [] && reserved)) stBadOperand
  (c.waits.map (·.1) ++ c.sigs.map (·.1)).forM (fun fid => do let _ ← s.nameFence c.q cid fid; pure ())

/-- How a head's waits stand: steps 3 to 5 of R238. -/
def State.headWaits (s : State) (c : Cmd) : WaitSt :=
  if c.waits.any (fun w => s.waitSt w.1 w.2.1 == .failed && !w.2.2) then .failed
  else if c.waits.all (fun w => s.waitSt w.1 w.2.1 != .unmet) then .met else .unmet

/-- An admitted command: completed at once where its opcode is undefined or its queue does not accept it
(R261 steps 2, 3). -/
def State.admitHead (s : State) (cl : Client) (c : Cmd) : State :=
  let s := { s with admitted := s.admitted + 1 }.updCmd cl (fun c => { c with phase := .admitted, order := s.admitted })
  if (opFields c.opcode).isNone then s.finish cl stBadOpcode 0 0
  else if !opAllowed c.q c.opcode then s.finish cl stNotPermitted 0 0
  else s

/-- Handles the heads of a queue's admission order until one parks (R238, R243, R244). -/
def State.admitLoop (q : Nat) : Nat → State → State
  | 0, s => s
  | fuel + 1, s =>
    match (s.unadmitted q).head? with
    | none => s
    | some c =>
      let cl := ckey q c.seq
      let res := if c.phase = .parked then .ok () else s.fenceFields c (s.cidOf c)
      match res with
      | .error (.fail st _) => (s.finish cl st 0 0).admitLoop q fuel
      | .error (.miss _ _) => s
      | .ok () =>
        match s.headWaits c with
        | .failed => (s.finish cl stDependencyFailed 0 0).admitLoop q fuel
        | .met => (s.admitHead cl c).admitLoop q fuel
        | .unmet =>
          if c.phase = .parked then s
          else
            let (s, cyc) := (s.updCmd cl (fun c => { c with phase := .parked })).search (2 * q + 1)
            if cyc then (s.finish cl stDependencyCycle 0 0).admitLoop q fuel else s

/-- Examines a queue's head (R238). -/
def State.admitQueue (s : State) (q : Nat) : State := s.admitLoop q ((s.unadmitted q).length + 1)

/-- The fences a command will signal (R242). -/
def Cmd.signalled (c : Cmd) : List Nat := c.sigs.map (·.1) ++ (if c.opcode = 0x01 ∧ c.fld 8 1 0 3 = 0 then [c.fld 12 4 0 18] else [])
/-- The command adds an edge from a fence to its queue's head: it signals a fence that no other command of the queue that is not admitted
signals (R242). -/
def State.addsEdge (s : State) (q : Nat) (c : Cmd) : Bool :=
  c.signalled.any (fun f => !((s.unadmitted q).filter (fun d => d.seq != c.seq)).any (fun d => d.signals f))

/-- After a parked head's queue received command `c`: a search when it adds an edge from a fence to the head; the head
is the victim (R243, R244). -/
def State.searchBehind (s : State) (q : Nat) (c : Cmd) : State :=
  match (s.unadmitted q).head? with
  | some h =>
    if h.phase = .parked ∧ s.addsEdge q c then
      let (s, cyc) := s.search (2 * q + 1)
      if cyc then (s.finish (ckey q h.seq) stDependencyCycle 0 0).admitQueue q else s
    else s
  | none => s

/-- A running FENCE_WAIT whose wait has left the unmet state completes (R234). -/
def State.fenceWaitDone (s : State) (cl : Client) (c : Cmd) : State :=
  match s.waitSt (c.fld 12 4 0 18) (c.num 16 8) with
  | .unmet => s
  | .met => s.finish cl stOk 0 0
  | .failed => if c.fld 8 1 0 1 = 1 then s.finish cl stOk 0 1 else s.finish cl stDependencyFailed 0 0

/-- After fences changed: parked heads and running FENCE_WAITs are examined again (R234, R238). -/
def State.examine (s : State) : State :=
  let s := (s.cmds.filter (fun e => e.2.phase == .running && e.2.opcode == 0x02 && e.2.cancel.isNone)).foldl (fun s e => s.fenceWaitDone e.1 e.2) s
  ((s.cmds.filter (fun e => e.2.phase == .parked)).map (·.2.q)).eraseDups.foldl (fun s q => s.admitQueue q) s

/-- A command in flight, other than a DESTROY of it, or an edge names the fence (R233). -/
def State.fenceNamed (s : State) (fid : Nat) : Bool :=
  Tab.ex s.cmds (fun _ c => c.waits.any (fun w => w.1 == fid) || c.sigs.any (fun g => g.1 == fid) ||
    (c.phase != .done && ((c.opcode == 0x01 && c.fld 12 4 0 18 == fid && c.fld 8 1 0 3 != 1 && !(c.fld 8 1 0 3 == 2 && c.phase == .running)) ||
      (c.opcode == 0x02 && c.fld 12 4 0 18 == fid) ||
      (c.opcode == 0x03 && (c.fld 12 4 0 18 == fid || c.fld 24 4 0 18 == fid))))) ||
  Tab.ex s.edges (fun _ e => e.src == fid || e.dst == fid)

/-- Destroyed fences that nothing names any more are freed, and their DESTROY commands complete (R233). -/
def State.freeFences (s : State) : State :=
  (s.fences.filter (fun e => e.2.dead && !s.fenceNamed e.1)).foldl (fun s e =>
    let s := { s with fences := Tab.del s.fences e.1 }
    (s.cmds.filter (fun d => d.2.work == .fence e.1 && d.2.opcode == 0x01 && d.2.phase == .running)).foldl (fun s d => s.finish d.1 stOk 0 0) s) s

/-- Destroys a fence: error-signalled at its highest value, edges to it dropped (R233, R240). -/
def State.destroyFence (s : State) (fid : Nat) : State :=
  let s := { s with edges := Tab.keep s.edges (fun _ e => e.dst != fid), fences := Tab.upd s.fences fid (fun f => { f with dead := true }) }
  (s.signal fid (2 ^ 64 - 1) true).examine

/-- Signals of a completed command, in order (R239). -/
def State.signalAll (s : State) (c : Cmd) : State :=
  (c.sigs.foldl (fun s g => s.signal g.1 g.2.1 (!(c.status == stOk || (c.status == stFault && g.2.2)))) s).examine

/-! ### The fence and graph commands (R233, R234, R240, R241, R267) -/

/-- MODE, FID and VALUE of FENCE_SIGNAL. -/
def Cmd.fmode (c : Cmd) : Nat := c.fld 8 1 0 3
def Cmd.fid (c : Cmd) : Nat := c.fld 12 4 0 18
def Cmd.fval (c : Cmd) : Nat := c.num 16 8

/-- The field checks of FENCE_SIGNAL (R267). -/
def Cmd.fsigOk (c : Cmd) : Bool :=
  c.clean && decide (c.fmode < 4) && !(c.fmode != 0 && c.fld 8 1 3 1 == 1) && !(c.fmode != 1 && c.fld 8 1 4 1 == 1)

/-- FENCE_SIGNAL MODE 0, and modes 4 to 7 (R233). -/
def State.doFenceSignal (cl : Client) (c : Cmd) (s : State) : State :=
  s.checked cl (do need c.fsigOk stBadOperand; s.nameFence c.q (s.cidOf c) c.fid) fun _ =>
    let s := s.signal c.fid c.fval (c.fld 8 1 3 1 == 1)
    let f := Tab.at? s.fences c.fid
    (s.finish cl stOk ((f.map (·.value)).getD 0) (b2n ((f.map (·.err)).getD false))).examine

/-- Live fences of a partition, or of QID 0. -/
def State.fencesOf (s : State) (pid : Option Nat) : Nat := Tab.cnt s.fences (fun _ f => f.pid == pid)
/-- The fence quota (R229, R256). -/
def State.quotaOf (s : State) (pid : Option Nat) : Nat :=
  match pid with
  | some p => ((Tab.at? s.parts p).map (·.quota)).getD 0
  | none => 262144

/-- FENCE_SIGNAL MODE 1 (R229, R233): the lowest free FID is taken (log entry 7). -/
def State.doFenceCreate (cl : Client) (c : Cmd) (s : State) : State :=
  let pid := if c.q = 0 then none else some (s.pidOf (s.cidOf c))
  s.checked cl (need c.fsigOk stBadOperand) fun _ =>
    match Tab.freeFrom s.fences 0 262144 with
    | some fid =>
      if s.fencesOf pid < s.quotaOf pid then
        ({ s with fences := Tab.put s.fences fid { owner := s.cidOf c, pid := pid, shared := c.q != 0 && c.fld 8 1 4 1 == 1, value := c.fval } }).finish cl stOk fid 0
      else s.finish cl stNoFence 0 0
    | none => s.finish cl stNoFence 0 0

/-- Only the owner and QID 0 (R233). -/
def State.fenceOwner (s : State) (c : Cmd) : Chk Fence := do
  need c.fsigOk stBadOperand
  let f ← s.nameFence c.q (s.cidOf c) c.fid
  need (c.q == 0 || f.owner == s.cidOf c) stNotPermitted
  pure f

/-- FENCE_SIGNAL MODE 2 (R233): completes when the fence is freed. -/
def State.doFenceDestroy (cl : Client) (c : Cmd) (s : State) : State :=
  s.checked cl (s.fenceOwner c) fun _ =>
    ((s.updCmd cl (fun c => { c with phase := .running, stage := 8, work := .fence c.fid })).destroyFence c.fid).freeFences

/-- FENCE_SIGNAL MODE 3 (R233). -/
def State.doFenceClear (cl : Client) (c : Cmd) (s : State) : State :=
  s.checked cl (s.fenceOwner c) fun f =>
    ({ s with fences := Tab.upd s.fences c.fid (fun f => { f with err := false, errVal := 0 }) }).finish cl stOk f.value 0

/-- FENCE_WAIT (R234, R243): a wait already over completes at once; otherwise it runs on, after a search when it has signals. -/
def State.doFenceWait (cl : Client) (c : Cmd) (s : State) : State :=
  s.checked cl (do need c.clean stBadOperand; s.nameFence c.q (s.cidOf c) c.fid) fun f =>
    let run := s.updCmd cl (fun c => { c with phase := .running, stage := 8, work := .fence c.fid })
    if f.wait c.fval = .unmet then
      if c.nsig = 0 then run
      else
        let (s, cyc) := run.search (2 * c.fid)
        if cyc then s.finish cl stDependencyCycle 0 0 else s
    else run.fenceWaitDone cl c

/-- GRAPH_EDGE (R240, R241, R243). -/
def State.doGraphEdge (cl : Client) (c : Cmd) (s : State) : State :=
  let dst := c.fld 24 4 0 18
  let sv := c.num 16 8
  let dv := c.num 32 8
  s.checked cl (do
    need c.clean stBadOperand
    let _ ← s.nameFence c.q (s.cidOf c) c.fid
    let _ ← s.nameFence c.q (s.cidOf c) dst
    need (c.fid != dst) stDependencyCycle
    need ((Tab.freeFrom s.edges 0 65536).isSome) stNoEdge) fun _ =>
    let st := s.waitSt c.fid sv
    if st ≠ .unmet then ((s.signal dst dv (decide (st = WaitSt.failed))).finish cl stOk 0 1).examine
    else
      let k := (Tab.freeFrom s.edges 0 65536).getD 0
      let (t, cyc) := ({ s with edges := Tab.put s.edges k ⟨c.fid, sv, dst, dv⟩ }).search (2 * dst)
      if cyc then ({ s with grf := t.grf }).finish cl stDependencyCycle 0 0 else t.finish cl stOk 0 0

/-- NOP (R264). -/
def State.doNop (cl : Client) (c : Cmd) (s : State) : State :=
  s.checked cl (need c.clean stBadOperand) fun _ => s.finish cl stOk 0 0

/-- NOP (R264). -/
def execNop (q seq : Nat) (s : State) : Out := .next (s.start q seq (fun c => c.opcode == 0x00) State.doNop)
/-- FENCE_SIGNAL (R233); an undefined MODE ends here with ST_BAD_OPERAND. -/
def execFenceSignal (q seq : Nat) (s : State) : Out :=
  .next (s.start q seq (fun c => c.opcode == 0x01 && (c.fmode == 0 || 4 ≤ c.fmode)) State.doFenceSignal)
/-- FENCE_CREATE (R233). -/
def execFenceCreate (q seq : Nat) (s : State) : Out :=
  .next (s.start q seq (fun c => c.opcode == 0x01 && c.fmode == 1) State.doFenceCreate)
/-- FENCE_DESTROY (R233). -/
def execFenceDestroy (q seq : Nat) (s : State) : Out :=
  .next (s.start q seq (fun c => c.opcode == 0x01 && c.fmode == 2) State.doFenceDestroy)
/-- FENCE_CLEAR_ERROR (R233). -/
def execFenceClearError (q seq : Nat) (s : State) : Out :=
  .next (s.start q seq (fun c => c.opcode == 0x01 && c.fmode == 3) State.doFenceClear)
/-- FENCE_WAIT (R234). -/
def execFenceWait (q seq : Nat) (s : State) : Out := .next (s.start q seq (fun c => c.opcode == 0x02) State.doFenceWait)
/-- GRAPH_EDGE (R240). -/
def execGraphEdge (q seq : Nat) (s : State) : Out := .next (s.start q seq (fun c => c.opcode == 0x03) State.doGraphEdge)

end Sys2Proof.Machine
end

