-- ==== Sys2Proof/Machine/Queue.lean ====
section
/-! DEFINITION. Sys2Proof/Machine/Queue.lean: doorbells (R64-R67), the fetch engine and its arbiter (R76, R80-R82), the
receipt of envelopes (R71, R235, R237), completion records and markers (R70, R73-R75, R493). -/
namespace Sys2Proof.Machine

/-- Changes a queue. -/
def State.updQ (s : State) (q : Nat) (f : Queue → Queue) : State := { s with queues := Tab.upd s.queues q f }

/-- Commands of a queue received and not completed. -/
def State.received (s : State) (q : Nat) : Nat := Tab.cnt s.cmds (fun _ c => c.q == q)

/-- The queue bound to a doorbell slot of a function's page (R64). -/
def State.queueAt (s : State) (fn dbp dbs : Nat) : Option (Nat × Queue) :=
  s.queues.find? (fun e => e.2.dbs == dbs && (match Tab.at? s.ctxs e.2.cid with
    | some c => c.fn == fn && c.dbp == dbp
    | none => false))

/-- Reads of a queue's ring in flight: their number and slots. -/
def State.fetching (s : State) (q : Nat) : Nat × Nat :=
  let rs := (s.tags.map (·.2) ++ s.waiting).filterMap (fun r => match r.pur with
    | .fetch p _ n _ => if p = q then some n else none
    | _ => none)
  (rs.length, rs.foldl (· + ·) 0)

/-- A ring read of the queue, marked so that what it brings is discarded. -/
def Req.dropFetch (q : Nat) (r : Req) : Req :=
  match r.pur with
  | .fetch p pos n _ => if p = q then { r with pur := .fetch p pos n true } else r
  | _ => r

/-- Marks the ring reads of a queue: what they bring is discarded (R75). -/
def State.dropFetches (s : State) (q : Nat) : State :=
  { s with tags := Tab.mapV s.tags (fun _ r => r.dropFetch q), waiting := s.waiting.map (Req.dropFetch q) }

/-- A queue stops fetching: what has been read but not received is discarded (R75). -/
def State.endFetch (s : State) (q : Nat) : State := (s.dropFetches q).updQ q (fun x => { x with gotten := [] })

/-! ### Records (R70, R73, R74, R493) -/

/-- The message rule after a record (R74); QID 0 has CQ_ICNT 1, CQ_ITIME 0 and its own vector (R63). -/
def State.afterRecord (s : State) (qid : Nat) (q : Queue) (marker : Bool) : State :=
  let fn := (s.reqId q.cid).1
  let vec := if qid = 0 then s.mqi.vec else q.vec
  if vec = 0x7FF then s
  else if marker || qid == 0 || q.icnt ≤ q.since + 1 || q.itime == 0 then
    (s.updQ qid (fun q => { q with since := 0, itimer := false })).irq fn vec
  else s.updQ qid (fun q => { q with since := q.since + 1, itimer := true })

/-- Enters STOPPING with a cause (R75). -/
def State.stopQueue (s : State) (qid cause : Nat) : State :=
  match Tab.at? s.queues qid with
  | some q =>
    if q.st = .idle ∨ q.st = .active then (s.updQ qid (fun q => { q with st := .stopping, cause := cause })).endFetch qid else s
  | none => s

/-- The fault record of an access to a queue's rings (R308, R493). -/
def State.ringFault (s : State) (qid : Nat) (q : Queue) (agent : Nat) (sp : Span) : State :=
  s.postFor (s.pidOf q.cid)
    { type := sp.type, agent := agent, write := agent == 1, level := sp.level, pid := s.pidOf q.cid, cid := q.cid, qid := qid,
      addr := alignDown sp.lo 64, seg := sp.seg, entry := sp.entry, phys := sp.phys, stn := sp.stn }

/-- A completion slot is free (R73). -/
def Queue.room (q : Queue) : Bool := posSub q.n q.c q.k < q.n

/-- Writes a record at the completion tail, or loses it when it does not translate; its slot is used either way
(R70, R493). An error is a miss: nothing is written yet. -/
def State.writeRecord (s : State) (qid : Nat) (q : Queue) (bs : List Byte) (marker : Bool) : Except State State :=
  let a := q.cq + 32 * (q.c % q.n)
  match s.xlat (ringClient qid) q.cid true a 32 with
  | .error x => .error (s.miss (ringClient qid) q.cid x)
  | .ok sps =>
    let s := s.draw.dropNotes (ringClient qid)
    let adv := fun (s : State) => s.updQ qid (fun q => { q with c := posAdd q.n q.c 1 })
    match sps.find? (fun p => p.tgt.isNone) with
    | none => .ok ((adv ((s.touch q.cid sps).pwrite (ringClient qid) q.cid (piecesOf a sps) 0 bs false)).afterRecord qid q marker)
    | some p => .ok ((((adv s).ringFault qid q 1 p).stopQueue qid 4).afterRecord qid q marker)

/-- Writes a marker and enters STOPPED: T = F = H (R73, R75, R77 step 6). -/
def State.marker (s : State) (qid : Nat) (q : Queue) (status : Nat) : State :=
  if q.room then
    let q' := { q with disc := posSub q.n q.t q.h, t := q.h, f := q.h }
    match s.writeRecord qid q' (s.markerRecord qid q' status) true with
    | .error s => s
    | .ok s => s.updQ qid (fun q => { q with st := .stopped, disc := q'.disc, t := q.h, f := q.h })
  else s

/-- A STOPPING queue whose last received command's record is written writes its marker (R75). -/
def State.settleQueue (s : State) (qid : Nat) : State :=
  match Tab.at? s.queues qid with
  | some q => if q.st = .stopping ∧ s.received qid = 0 then s.marker qid q stQueueError else s
  | none => s

/-- Releases a version pin; a version neither current nor pinned retires (R150, R158). -/
def Table.unpin (t : Table) (v : Nat) : Table :=
  let vs := t.vers.map (fun x => if x.ver = v then { x with pins := x.pins - 1 } else x)
  let gone := vs.filter (fun x => x.ver != t.cur && x.pins == 0)
  { t with vers := vs.filter (fun x => x.ver == t.cur || x.pins != 0), retired := t.retired ++ gone.map (·.ver) }

/-- Releases the pins of a command (R44, R158). -/
def State.releasePins (s : State) (c : Cmd) : State :=
  c.pins.foldl (fun s p => { s with tables := Tab.upd s.tables p.1 (fun t => t.unpin p.2) }) s

/-- A writer of a table has written its record: its unused reservations return, and a status other than ST_OK marks its
version incomplete (R165, R173). -/
def State.endWriter (s : State) (cl : Client) (c : Cmd) : State :=
  { s with tables := Tab.mapV s.tables (fun _ t => match t.writers.find? (fun w => w.client == cl) with
    | some w => { t with
        writers := t.writers.filter (fun w => w.client != cl)
        incomplete := if c.status = stOk ∨ t.incomplete.contains w.post then t.incomplete else t.incomplete ++ [w.post] }
    | none => t) }

/-- Writes the record of a completed command, applies its signals and releases its pins (R43, R44, R70, R239). -/
def State.complete (s : State) (cl : Client) (c : Cmd) : State :=
  match Tab.at? s.queues c.q with
  | none => s
  | some q =>
    if c.phase == .done && !s.busy cl && q.room then
      match s.writeRecord c.q q (s.cmdRecord q c) false with
      | .error s => s
      | .ok s =>
        let s := { s with cmds := Tab.del s.cmds cl }.count 0x2105 1
        (((s.signalAll c).releasePins c).endWriter cl c).freeFences.settleQueue c.q
    else s

/-! ### Doorbells (R64-R67) -/

/-- Counts a doorbell write that named no queue (R57, R66). -/
def State.badDb (s : State) (fn : Nat) : State :=
  { s with fns := Tab.upd s.fns fn (fun f => { f with badDb := satAdd 16 f.badDb 1 }) }

/-- A submission tail doorbell (R67): keep-warm starts again with an accepted one (R84). -/
def State.sqDoorbell (s : State) (qid : Nat) (q : Queue) (v : Nat) : State :=
  if ¬(q.st = .idle ∨ q.st = .active) then s.updQ qid (fun q => { q with drop := satAdd 16 q.drop 1 })
  else match posDec q.n v with
    | none => (s.stopQueue qid 1).settleQueue qid
    | some p =>
      let dNew := posSub q.n p q.h
      if dNew > q.n ∨ dNew < posSub q.n q.t q.h then s.updQ qid (fun q => { q with stale := satAdd 16 q.stale 1 })
      else s.updQ qid (fun q => { q with t := p, kwOn := true, st := if q.st = .idle ∧ p ≠ q.f then .active else q.st })

/-- A completion head doorbell (R67). -/
def State.cqDoorbell (s : State) (qid : Nat) (q : Queue) (v : Nat) : State :=
  match posDec q.n v with
  | none => (s.stopQueue qid 2).settleQueue qid
  | some p =>
    if posSub q.n p q.k > posSub q.n q.c q.k then
      if posSub q.n p q.k > q.n then s.updQ qid (fun q => { q with stale := satAdd 16 q.stale 1 })
      else (s.stopQueue qid 3).settleQueue qid
    else (s.updQ qid (fun q => { q with k := p })).settleQueue qid

/-- A write of `width` bytes to the doorbell region of an enabled function (R64, R66, R350, R353). -/
def State.doorbell (s : State) (fn off width v : Nat) : State :=
  if !((Tab.at? s.fns fn).map (·.en)).getD false then s
  else
    let r := off - 0x01000000
    let ok := (width == 4 && off % 4 == 0) || (width == 8 && off % 8 == 0)
    match s.queueAt fn (r / 0x1000) (r % 0x1000 / 8) with
    | some (qid, q) =>
      if !ok then s.badDb fn
      else if width = 8 then
        let s := s.sqDoorbell qid q (v % 2 ^ 32)
        match Tab.at? s.queues qid with
        | some q => s.cqDoorbell qid q (v / 2 ^ 32)
        | none => s
      else if off % 8 = 0 then s.sqDoorbell qid q v
      else s.cqDoorbell qid q v
    | none => s.badDb fn

/-! ### Arbiter and fetch (R76, R80-R82) -/

/-- The next slot to read holds the fence extension of the envelope at the head, whose first slot has been read: the two are one
envelope (R235). -/
def Queue.extNext (q : Queue) : Bool :=
  match Tab.at? q.gotten q.h with
  | some env => (bits (rd env 0 4) 16 3 != 0 || bits (rd env 0 4) 19 2 != 0) && q.f == posAdd q.n q.h 1
  | none => false

/-- Slots the fetch engine may read for a queue now (R73, R80). -/
def State.mayFetch (s : State) (qid : Nat) (q : Queue) : Nat :=
  let (reads, slots) := s.fetching qid
  if q.st = .active ∧ reads < 4 then
    min 8 (min (posSub q.n q.t q.f) (min (q.n - q.f % q.n)
      (((q.n - 1) - (s.received qid + posSub q.n q.c q.k + slots + q.gotten.length)) + b2n q.extNext)))
  else 0

/-- The partition's queues the engine could read for, by class. -/
def State.ready (s : State) (pid cls : Nat) : List Nat :=
  Tab.keys s.queues (fun i q => i != 0 && q.cls == cls && s.pidOf q.cid == pid && s.mayFetch i q != 0)

/-- The next of the keys after `last`, round robin. -/
def nextAfter (last : Nat) (ks : List Nat) : Option Nat :=
  match ks.find? (fun k => last < k) with
  | some k => some k
  | none => ks.head?

/-- Envelopes an express queue of the partition may still fetch at express rank in this window (R82). -/
def State.expressLeft (s : State) (pid : Nat) : Nat := s.mqi.xcap - Tab.atD s.arb.express pid 0

/-- The class due at place `i` of the 13-selection pattern (R82): 8 HIGH, 4 NORMAL, 1 BULK (log entry 8). -/
def patClass (i : Nat) : Nat := if i % 13 < 8 then 2 else if i % 13 < 12 then 1 else 0

/-- The queue a partition's turn chooses, with its class for the round robin and whether it goes at express rank
(R82). -/
def State.pickQueue (s : State) (pid : Nat) : Option (Nat × Nat × Bool) :=
  let ex := s.ready pid 3
  let last := fun (c : Nat) => Tab.atD s.arb.lastQ (4 * pid + c) 0
  if 0 < s.expressLeft pid ∧ ex ≠ [] then (nextAfter (last 3) ex).map (fun q => (q, 3, true))
  else
    let high := (s.ready pid 2 ++ ex).mergeSort (· ≤ ·)
    let qs := fun (c : Nat) => if c = 2 then high else s.ready pid c
    let due := patClass (Tab.atD s.arb.pat pid 0)
    let order := if due = 2 then [2, 1, 0] else if due = 1 then [1, 0, 2] else [0, 2, 1]
    match order.find? (fun c => qs c != []) with
    | some c => (nextAfter (last c) (qs c)).map (fun q => (q, c, false))
    | none => none

/-- Partitions with a queue that the engine could read for now. -/
def State.fetchable (s : State) : List Nat := Tab.keys s.parts (fun p _ => (s.pickQueue p).isSome)

/-- The next partition with credit, round robin; it is served one read in its turn, which may leave its credit below zero, and a new round
begins once no partition that could be served has credit left (R81; log entry 99). -/
def State.pickPart (s : State) (ws : List Nat) : Option Nat :=
  nextAfter s.arb.lastP (ws.filter (fun p => decide (0 < Tab.atD s.arb.credit p 0)))

/-- Issues one read of up to `n` envelopes for a queue, and makes the idle step (R76, R80). -/
def State.fetchFor (s : State) (qid n : Nat) (charge : State → Nat → State) : State :=
  match Tab.at? s.queues qid with
  | none => s
  | some q =>
    let a := q.sq + 64 * (q.f % q.n)
    match s.xlat (ringClient qid) q.cid false a (64 * n) with
    | .error x => s.miss (ringClient qid) q.cid x
    | .ok sps =>
      let s := s.dropNotes (ringClient qid)
      match sps.head? with
      | none => s
      | some sp =>
        match sp.tgt with
        | none => ((s.ringFault qid q 0 sp).stopQueue qid 4).settleQueue qid
        | some t =>
          let (fn, pasid) := s.reqId q.cid
          if t.host ∧ ¬s.fnOk fn then (s.stopQueue qid 4).settleQueue qid
          else
            let wall := if t.host then (4096 - t.addr % 4096) / 64 else 4
            let k := min n (min ((sp.hi - sp.lo) / 64) wall)
            let s := (charge s k).touch q.cid sps
            let s := s.issue { stn := if t.host then none else some t.stn, client := ringClient qid, cid := q.cid, key := s.keyOf q.cid,
                               fn := fn, pasid := pasid, addr := t.addr, len := 64 * k, pur := .fetch qid q.f k false }
            s.updQ qid (fun q => { q with f := posAdd q.n q.f k, st := if posAdd q.n q.f k = q.t then .idle else q.st })

/-- The arbiter takes one queue and reads for it (R80-R82); QID 0 first, charged to no partition. -/
def State.selectAndFetch (s : State) : State :=
  if 256 ≤ s.fetchReads then s else
  match (Tab.at? s.queues 0).map (s.mayFetch 0) with
  | some (n + 1) => s.fetchFor 0 (n + 1) (fun s _ => s)
  | _ =>
    let ws := s.wanting
    let ps := s.fetchable
    let s := { s with arb := { s.arb with credit := Tab.keep s.arb.credit (fun p _ => ws.contains p) } }
    let s := s.rounds ws ps 1024
    match s.pickPart ps with
    | none => s
    | some pid =>
      match s.pickQueue pid with
      | none => s
      | some (qid, cls, express) =>
        let n := ((Tab.at? s.queues qid).map (s.mayFetch qid)).getD 0
        let n := if express then min n (s.expressLeft pid) else n
        s.fetchFor qid n (fun s k =>
          let s := s.charge pid (64 * k)
          { s with arb := { s.arb with
              express := if express then Tab.put s.arb.express pid (Tab.atD s.arb.express pid 0 + k) else s.arb.express
              pat := if express then s.arb.pat else Tab.put s.arb.pat pid ((Tab.atD s.arb.pat pid 0 + 1) % 13)
              lastQ := Tab.put s.arb.lastQ (4 * pid + cls) qid
              lastP := pid } })

/-! ### Receipt (R71, R72, R235, R237) -/

/-- Chains of DISPATCH commands that the block holds, translated or on the way there (R249; log entry 102). -/
def State.chains (s : State) : Nat := Tab.cnt s.cmds (fun _ c => c.opcode == 0x30 && (c.pre != 0 || c.work != .idle))

/-- A command is received: numbered and offered for admission; the chain of a DISPATCH is read ahead of it while the block holds fewer than
1,024 (R71, R238, R243, R249). -/
def State.receive (s : State) (qid : Nat) (q : Queue) (env ext : List Byte) (slots : Nat) : State :=
  let c : Cmd := { q := qid, seq := q.nextSeq, env := env, ext := ext }
  let c := { c with pre := b2n (c.opcode == 0x30 && qid != 0 && decide (s.chains < 1024)) }
  let s := { s with cmds := Tab.put s.cmds (ckey qid q.nextSeq) c }
  let s := s.updQ qid (fun q => { q with
    h := posAdd q.n q.h slots
    nextSeq := (q.nextSeq + 1) % 2 ^ 48
    gotten := (List.range slots).foldl (fun g i => Tab.del g (posAdd q.n q.h i)) q.gotten })
  (s.searchBehind qid c).admitQueue qid

/-- Receives, in ring order, every envelope of which every slot has been read (R72, R75, R235, R237). -/
def State.receiveLoop (qid : Nat) : Nat → State → State
  | 0, s => s
  | fuel + 1, s =>
    match Tab.at? s.queues qid with
    | none => s
    | some q =>
      match Tab.at? q.gotten q.h with
      | none => s
      | some env =>
        let h0 := rd env 0 4
        if bits h0 16 3 = 0 ∧ bits h0 19 2 = 0 then (s.receive qid q env [] 1).receiveLoop qid fuel
        else
          let e := posAdd q.n q.h 1
          if e = q.t then (s.stopQueue qid 1).settleQueue qid
          else match Tab.at? q.gotten e with
            | some ext => (s.receive qid q env ext 2).receiveLoop qid fuel
            | none => s

/-- A read of `n` ring slots from position `pos` is over (R71, R75, R351): at the first slot that came back bad the queue stops with
CAUSE 4, and that slot and those after it are discarded. -/
def State.fetchDone (s : State) (r : Req) (qid pos n : Nat) (drop : Bool) (bad : List (Nat × Nat)) : State :=
  let t : Tgt := ⟨r.stn.isNone, r.stn.getD 0, r.addr⟩
  let bs := s.tread t (64 * n)
  let bad := bad ++ s.storedBad t (64 * n)
  if drop then s
  else
    let k := ((List.range n).find? (fun i => hits bad (r.addr + 64 * i) 64)).getD n
    let add := fun (q : Queue) (g : Tab (List Byte)) (i : Nat) => Tab.put g (posAdd q.n pos i) ((bs.drop (64 * i)).take 64)
    let s := (s.updQ qid (fun q => { q with gotten := (List.range k).foldl (add q) q.gotten })).receiveLoop qid 64
    if k < n then (s.stopQueue qid 4).settleQueue qid else s

/-! ### MQI enable (R63, R68) -/

/-- A write of 1 to MQI_CTL.EN (R63): QID 0 comes to exist, or CFG_ERR is set. The class that MQI_QSTAT shows for QID 0 is not given: NORMAL
(log entry 100). -/
def State.mqiEnable (s : State) : State :=
  let m := s.mqi
  if m.en then s
  else if 4 ≤ m.log2 ∧ m.log2 ≤ 16 ∧ m.sqb % 4096 = 0 ∧ m.cqb % 4096 = 0 then
    { s with
      mqi := { m with en := true, rdy := true, cfgErr := false }
      ctxs := Tab.put s.ctxs 0 { fn := 0, pasid := none, pid := none, dbp := 0, key := 0 }
      queues := Tab.put s.queues 0 { st := .idle, cls := 1, cid := 0, dbs := 0, sq := m.sqb, cq := m.cqb, log2 := m.log2, vec := m.vec } }
  else { s with mqi := { m with cfgErr := true } }

/-- A queue of the function. -/
def State.queueOf (s : State) (fn qid : Nat) : Option Queue :=
  match Tab.at? s.queues qid with
  | some q => if (Tab.at? s.ctxs q.cid).map (·.fn) = some fn then some q else none
  | none => none

/-- Counts an MQI_QCTL write that named no queue of the function (R57). -/
def State.badQctl (s : State) (fn : Nat) : State :=
  { s with fns := Tab.upd s.fns fn (fun f => { f with badQctl := satAdd 16 f.badQctl 1 }) }

/-- MQI_QCTL RESUME (R58, R75). -/
def State.resume (s : State) (fn qid : Nat) : State :=
  match s.queueOf fn qid with
  | none => s.badQctl fn
  | some q => if q.st = .stopped then s.updQ qid (fun q => { q with st := .idle }) else s

/-! ### The commands -/

/-- QUEUE_SELECT_AND_FETCH (R76, R80-R82): a marker that waited for its slot is tried first (R73). -/
def execQueueSelectAndFetch (s : State) : Out :=
  .next ((Tab.keys s.queues (fun _ q => q.st == .stopping)).foldl (fun s q => s.settleQueue q) s).refillLists.selectAndFetch
/-- EXPRESS_WINDOW_END (R82). -/
def execExpressWindowEnd (s : State) : Out := .next { s with arb := { s.arb with express := [] } }
/-- CQ_ITIME_EXPIRY (R74). -/
def execCqItimeExpiry (q : Nat) (s : State) : Out :=
  .next (match Tab.at? s.queues q with
    | some x => if x.itimer then (s.updQ q (fun x => { x with since := 0, itimer := false })).irq (s.reqId x.cid).1 x.vec else s
    | none => s)
/-- QCTL_RESUME (R75). -/
def execQctlResume (fn q : Nat) (s : State) : Out := .next (s.mmioOf fn (fun s => s.resume fn q))
/-- KEEP_WARM_LAPSE (R84). -/
def execKeepWarmLapse (q : Nat) (s : State) : Out :=
  .next (s.updQ q (fun x => if x.kwHold = 0 then x else { x with kwOn := false }))

end Sys2Proof.Machine
end

