-- ==== Sys2Proof/Machine/Lookup.lean ====
section
/-! DEFINITION. Sys2Proof/Machine/Lookup.lean: rows and where they live (R87-R93, R152), the lookup commands' checks
(R96-R100, R145), the Sorter (R101-R104), row fetch (R106, R112, R113), partials and combining (R109-R111, R126-R133) and
the rows a lookup writes (R94, R95, R135-R139). -/
namespace Sys2Proof.Machine

/-! ### Ranges -/

/-- Translates ranges in order (write, address, length), every byte of which must be mapped. -/
def State.mapRanges (s : State) (cl : Client) (c : Cmd) (cid : Nat) (rs : List (Bool × Nat × Nat)) : Chk (List (List Piece)) :=
  rs.mapM (fun r => s.mapAll cl c cid r.1 r.2.1 r.2.2)

/-- Counts the cache hits of ranges that translated (R301, R323). -/
def State.touchRanges (s : State) (cl : Client) (cid : Nat) (rs : List (Bool × Nat × Nat)) : State :=
  rs.foldl (fun s r => match s.xlat cl cid r.1 r.2.1 r.2.2 with
    | .ok sps => s.touch cid sps
    | .error _ => s) s

/-- Bytes `o` to `o + n` of a translated range, counted from 0. -/
def cutPieces (ps : List Piece) (o n : Nat) : List Piece :=
  ps.filterMap (fun p =>
    let lo := max o p.off
    let hi := min (o + n) (p.off + p.len)
    if lo < hi then some { p with off := lo - o, len := hi - lo, ca := p.ca + (lo - p.off), tgt := p.tgt.map (fun t => { t with addr := t.addr + (lo - p.off) }) } else none)

/-! ### Where a row lives -/

/-- STRIDE_BYTES of a table's own bytes, row bytes and row sectors (R85, R119). -/
def Table.rowB (t : Table) : Nat := rowBytes t.fmt t.width

/-- locate of R87: the shard of row `r` and its index there. -/
def Table.locate (t : Table) (r : Nat) : Nat × Nat :=
  if t.block then
    let b := r / 2 ^ t.shift
    (b % t.nshard, b / t.nshard * 2 ^ t.shift + r % 2 ^ t.shift)
  else (r / 2 ^ t.shift, r % 2 ^ t.shift)

/-- The station of a shard (R85). -/
def Table.stnOf (t : Table) (shard : Nat) : Nat := (t.stns[shard]?).getD 0
/-- The station that reads a row; the default row is read by SHARD_STN[0] (R92). -/
def Table.rowStn (t : Table) (row : Option Nat) : Nat :=
  match row with
  | some r => t.stnOf (t.locate r).1
  | none => t.stnOf 0
/-- A live version of a table. -/
def Table.ver? (t : Table) (v : Nat) : Option Ver := t.vers.find? (fun x => x.ver == v)

/-- The overlay entry that select_row picks (R152): the newest postmark of the row from `floor` to `p`. -/
def Table.entry (t : Table) (shard l floor p : Nat) : Option DirEnt :=
  (t.dir.filter (fun e => e.shard == shard && e.row == l && decide (floor ≤ e.post ∧ e.post ≤ p))).foldl
    (fun b e => match b with
      | some x => if x.post < e.post then some e else some x
      | none => some e) none

/-- Overlay slot `k` of a shard: its pieces (R154). -/
def Table.slot (t : Table) (shard k : Nat) : List Piece :=
  cutPieces (Tab.atD t.ovl shard []) (32 * t.ovlSlots + k * t.stride) t.stride

/-- The pieces of a row of STRIDE_BYTES as the view (base, floor, p) shows it (R152), and its context address. -/
def Table.view (t : Table) (base floor p : Nat) (row : Option Nat) : List Piece × Nat :=
  match row with
  | none => (cutPieces t.dext 0 t.stride, t.daddr)
  | some r =>
    let (sh, l) := t.locate r
    match t.entry sh l floor p with
    | some e => (t.slot sh e.slot, 0)
    | none => (cutPieces (Tab.atD t.ext (base * 64 + sh) []) (l * t.stride) t.stride, base + sh * t.shardBytes + l * t.stride)

/-- The row as pinned version `v` shows it. -/
def Table.pinned (t : Table) (v : Nat) (row : Option Nat) : List Piece × Nat :=
  match t.ver? v with
  | some x => t.view x.base x.floor v row
  | none => t.view t.ovlBase 0 0 row

/-- The first piece of a row's own sectors that its station cannot read (R89): its offset and the fault type. -/
def rowFault (stn size : Nat) (ps : List Piece) : Option (Nat × Nat × Nat) :=
  match (cutPieces ps 0 (up64 size)).find? (fun p => match p.tgt with
    | none => true
    | some t => t.host || t.stn != stn) with
  | some p => some (p.off, (match p.tgt with | none => 2 | some _ => 4), (p.tgt.map (·.addr)).getD 0)
  | none => none

/-- The memory operations of a row of STRIDE_BYTES (R106): at most 256 bytes each; padding that does not lie in the station's memory is
not read (R120; log entry 39). -/
def rowOps (stn : Nat) (ps : List Piece) : List (Nat × Nat) :=
  ps.flatMap (fun p => match p.tgt with
    | some t => if !t.host && t.stn == stn then cutRange 256 (2 ^ 60) (p.len / 64 + 1) t.addr p.len else []
    | none => [])

/-! ### The overlay summary and directory (R152, R157, R181) -/

/-- The bits of the summary bank in use. -/
def Stn.summary (x : Stn) : List Nat := if x.sumSel then x.sumB else x.sumA
/-- The bit of a row in the summary: the hash is free (log entry 45). -/
def sumBit (tid shard l : Nat) : Nat := Config.sumHash tid shard l % 2 ^ 22
/-- The summary of a station says that a row may have a directory entry (R152, R157). -/
def State.mayHave (s : State) (stn tid shard l : Nat) : Bool :=
  let x := Tab.atD s.stns stn {}
  x.sumAll || x.summary.any (fun k => k == sumBit tid shard l)
/-- A station sets a row's bit before it writes the row's first directory entry (R157). -/
def State.setSum (s : State) (stn tid shard l : Nat) : State :=
  let x := Tab.atD s.stns stn {}
  let add := fun (b : List Nat) => if b.any (fun k => k == sumBit tid shard l) then b else b ++ [sumBit tid shard l]
  { s with stns := Tab.put s.stns stn (if x.sumSel then { x with sumB := add x.sumB } else { x with sumA := add x.sumA }) }

/-- The row as pinned version `v` shows it to its station: one whose summary bit is clear is a base row (R152). -/
def State.pinnedRow (s : State) (tid : Nat) (t : Table) (v : Nat) (row : Option Nat) : List Piece × Nat :=
  match row with
  | none => t.pinned v none
  | some r => if s.mayHave (t.stnOf (t.locate r).1) tid (t.locate r).1 (t.locate r).2 then t.pinned v row else { t with dir := [] }.pinned v row

/-- Where probe step `k` for a row reads its directory bucket (R181): the 64 bytes of it in the shard's overlay region. -/
def Table.bucket (t : Table) (tid shard l k : Nat) : Option Tgt :=
  (((cutPieces (Tab.atD t.ovl shard []) (64 * (Config.dirBucket tid shard l k % max 1 (ceilDiv t.ovlSlots 2))) 64).head?).bind (·.tgt))
/-- The probe steps of a row whose summary bit is set: as many as draw `n` says, at least one and no more than there are buckets (R173). -/
def Table.probes (t : Table) (n : Nat) : Nat := if t.ovlSlots = 0 then 0 else 1 + Config.dirSteps n % ceilDiv t.ovlSlots 2
/-- The directory reads of row `row` of a table for a command (R181). -/
def State.dirItems (s : State) (tid : Nat) (t : Table) (row : Nat) : List Item :=
  let (sh, l) := t.locate row
  if s.mayHave (t.stnOf sh) tid sh l then
    (List.range (t.probes s.fresh)).filterMap (fun k => (t.bucket tid sh l k).map (fun g => { tgt := g, len := 64, operand := false }))
  else []

/-! ### Operands (R268, R269) -/

/-- A field of 64 bytes laid out as R268. -/
def lf (e : List Byte) (o n lo w : Nat) : Nat := bits (rd e o n) lo w
def lTid (e : List Byte) : Nat := rd e 8 2
def lIw (e : List Byte) : Nat := lf e 10 1 0 2
def lFixed (e : List Byte) : Bool := lf e 10 1 2 1 == 1
def lEng (e : List Byte) : Bool := lf e 10 1 3 1 == 1
def lOp (e : List Byte) : Nat := lf e 10 1 4 4
def lOfmt (e : List Byte) : Nat := rd e 11 1
def lN (e : List Byte) : Nat := lf e 12 4 0 25
def lProg (e : List Byte) : Nat := lf e 12 4 25 5
def lP (e : List Byte) : Nat := lf e 16 4 0 21
def lK (e : List Byte) : Nat := lf e 16 4 21 9
def lStride (e : List Byte) : Nat := rd e 20 4
def lIdx (e : List Byte) : Nat := rd e 24 8
def lOffs (e : List Byte) : Nat := rd e 32 8
def lWts (e : List Byte) : Nat := rd e 40 8
def lOut (e : List Byte) : Nat := rd e 48 8
def lFlags (e : List Byte) : Nat := rd e 56 8

/-- Operator of the meaning: 7 for a gather. -/
def lKind (gather : Bool) (e : List Byte) : Nat := if gather then 7 else lOp e
/-- Output rows of a sub-lookup: P pools, or N rows of a gather. -/
def lRows (gather : Bool) (e : List Byte) : Nat := if gather then lN e else lP e

/-- The code of an OFMT byte and its SAT bit (R135). -/
def ofCode (o : Nat) : Nat := o % 128
def ofSat (o : Nat) : Bool := 128 ≤ o

/-- Destination fields (R96, R268): an output address on a 64-byte boundary and a stride that is a multiple of 64, or an
engine-port number and no stride. -/
def destOk (eng : Bool) (stride out : Nat) : Bool :=
  if eng then stride == 0 && decide (out < 1024) else stride % 64 == 0 && out % 64 == 0

/-- R100 step 2 for one set of operands. -/
def lookOk (gather inter : Bool) (e : List Byte) : Bool :=
  decide (lIw e < 3 ∧ lN e ≤ 2 ^ 24) && lf e 12 4 30 2 == 0 && lf e 16 4 30 2 == 0 && fmtOutput (ofCode (lOfmt e)) &&
  (if gather then lP e == 0 && !lFixed e && lOp e == 0 && lK e == 0 && lOffs e == 0 && lWts e == 0
   else decide (lOp e < 7 ∧ 1 ≤ lP e ∧ lP e ≤ 2 ^ 20) &&
     (if lFixed e then lN e % lP e == 0 && lOffs e == 0 else true) &&
     (if lOp e = 5 ∨ lOp e = 6 then decide (1 ≤ lK e ∧ lK e ≤ 256) else lK e == 0) &&
     (lOp e == 2 || lWts e == 0)) &&
  (if inter then !lEng e && lStride e == 0 && lOut e == 0 && lFlags e == 0 else destOk (lEng e) (lStride e) (lOut e))

/-- Width of an output row and of an accumulator, in elements (R109, R131). -/
def accWidth (op k width : Nat) : Nat := if op = 5 ∨ op = 6 then k * width else width

/-! ### Checks (R100) -/

/-- The table an operand set names, under steps 3 and 4. -/
def State.readTable (s : State) (tid : Nat) : Chk Table :=
  match Tab.at? s.tables tid with
  | none => .error (.fail stBadTable none)
  | some t => if t.retiring then .error (.fail stBadTable none) else .ok t

/-- A context may read a table (R85, R100 step 4). -/
def State.mayRead (s : State) (cid : Nat) (t : Table) : Bool := t.pid == s.pidOf cid && (t.shared || t.owner == cid)

/-- An engine port lies on a station the context's partition owns (R96). -/
def State.ownsEp (s : State) (cid ep : Nat) : Bool := decide (ep < s.build.nep) && s.owns (s.pidOf cid) (s.build.epStn ep)

/-- R145: the program an operand set names may be used; `hub`: its combining site is the hub. -/
def State.progOk (s : State) (cid prog fmt op : Nat) (hub : Bool) : Bool :=
  if prog = 0 then true else
  match (Tab.at? s.parts (s.pidOf cid)).bind (fun p => Tab.at? p.progs prog) with
  | none => false
  | some g =>
    if g.unloading then false
    else if g.kind = 0 then bit g.fmts fmt
    else bit g.ops op && op != 7 && !hub

/-- The combining site of the output at `out`, by the memory of its first byte (R109, R145; log entry 93): a station, or none for the
hub. An output that does not translate is no case of R145: R100 step 6 stops it. -/
def State.siteOf (s : State) (cl : Client) (cid : Nat) (eng : Bool) (out : Nat) : Chk (Option Nat) :=
  if eng then .ok (some (s.build.epStn out))
  else match s.spans cl cid true out 1 with
    | .error e => .error e
    | .ok sps => .ok (match sps.head?.bind (·.tgt) with
      | some t => if t.host then none else some t.stn
      | none => some 0)

/-- A destination: engine port or memory, stride and pointers. -/
structure DestOp where
  eng : Bool
  stride : Nat
  out : Nat
  flags : Nat

/-- The destination of an operand set (R268). -/
def destOf (e : List Byte) : DestOp := ⟨lEng e, lStride e, lOut e, lFlags e⟩

/-- The padded size of an output row of `sizes` parts (R98, R139) and its stride in memory (R96). -/
def DestOp.effStride (d : DestOp) (size : Nat) : Nat := if d.stride = 0 then up64 size else d.stride

/-- Output and flag ranges of `p` rows of `size` bytes, `nf` flag bytes (R95, R96). -/
def DestOp.ranges (d : DestOp) (p size nf : Nat) : List (Bool × Nat × Nat) :=
  [(true, d.out, if d.eng ∨ p = 0 then 0 else (p - 1) * d.effStride size + up64 size),
   (true, d.flags, if d.flags = 0 then 0 else nf)]

/-- Input ranges of an operand set: indices, offsets, weights (R90, R91). -/
def inRanges (gather : Bool) (e : List Byte) : List (Bool × Nat × Nat) :=
  let n := lN e
  [(false, lIdx e, n * 2 ^ (lIw e + 1)),
   (false, lOffs e, if n = 0 ∨ gather ∨ lFixed e then 0 else 4 * (lP e + 1)),
   (false, lWts e, if !gather ∧ lOp e = 2 then 4 * n else 0)]

/-- Bytes of an output row part of an operand set. -/
def partBytes (t : Table) (gather : Bool) (e : List Byte) : Nat :=
  rowBytes (ofCode (lOfmt e)) (accWidth (lKind gather e) (lK e) t.width)

/-- Steps 3 to 6 of R100 over the operand sets `es`; `d`: the envelope's destination where rows are interleaved. Answers the
translated ranges: for each set its indices, offsets and weights, then for each destination its output and flags. An OFMT of MX on a build
without it is no breach of R135 but ST_UNIT_ABSENT (R16; log entry 104). -/
def State.lookChecks (s : State) (cl : Client) (c : Cmd) (gather : Bool) (es : List (List Byte)) (d : Option DestOp) :
    Chk (List (Bool × Nat × Nat)) := do
  let cid := s.cidOf c
  need (!es.any (fun e => fmtMx (ofCode (lOfmt e))) || s.build.mx) stUnitAbsent
  let same := match es with
    | e :: r => r.all (fun x => lP x == lP e && ofCode (lOfmt x) == ofCode (lOfmt e))
    | [] => true
  need (es.all (lookOk gather d.isSome)) stBadOperand
  need (match d with | some d => same && destOk d.eng d.stride d.out | none => true) stBadOperand
  let ts ← es.mapM (fun e => s.readTable (lTid e))
  need (ts.all (s.mayRead cid) && (match d with
    | some d => !d.eng || s.ownsEp cid d.out
    | none => es.all (fun e => !lEng e || s.ownsEp cid (lOut e)))) stNotPermitted
  let ets := es.zip ts
  let widths := ets.map (fun x => accWidth (lKind gather x.1) (lK x.1) x.2.width)
  let sizes := ets.map (fun x => partBytes x.2 gather x.1)
  ets.forM (fun x => do
    let dd := d.getD (destOf x.1)
    let site ← if lProg x.1 = 0 then pure (some 0) else s.siteOf cl cid dd.eng dd.out
    let a := accWidth (lKind gather x.1) (lK x.1) x.2.width
    need (s.progOk cid (lProg x.1) x.2.fmt (lKind gather x.1) site.isNone &&
      !(lOp x.1 == 2 && !gather && lN x.1 != 0 && lWts x.1 == 0) && decide (a ≤ 524288) &&
      (!(lOp x.1 == 5 || lOp x.1 == 6) || decide (a ≤ 65536)) &&
      (d.isSome || lStride x.1 == 0 || decide (partBytes x.2 gather x.1 ≤ lStride x.1))) stBadOperand)
  need (match d with
    | some d => decide (widths.foldl (· + ·) 0 ≤ 524288) && (d.stride == 0 || decide (sizes.foldl (· + ·) 0 ≤ d.stride))
    | none => true) stBadOperand
  let outs := fun (x : List Byte × Nat) => if d.isSome then [] else (destOf x.1).ranges (lRows gather x.1) x.2 (lRows gather x.1)
  let _ ← (es.zip sizes).mapM (fun x => s.mapRanges cl c cid (inRanges gather x.1 ++ outs x))
  let rs := (es.flatMap (inRanges gather)) ++ (match d with
    | some d => d.ranges ((es.head?.map lP).getD 0) (sizes.foldl (· + ·) 0) ((es.head?.map lP).getD 0)
    | none => (es.zip sizes).flatMap (fun x => (destOf x.1).ranges (lRows gather x.1) x.2 (lRows gather x.1)))
  let _ ← s.mapRanges cl c cid rs
  pure rs

/-! ### Splitting (R90-R92, R129, R131) -/

/-- What an index resolves to (R92): none is SKIP; otherwise a row, the default row, or a zero row. -/
inductive Res where
  | skip | zero | drow
  | row (r : Nat)
  deriving DecidableEq, Repr

/-- Default handling (R92). -/
def Table.dflt (t : Table) : Res := if t.dmode = 0 then .zero else if t.dmode = 1 then .skip else .drow
/-- Resolves index value `v` of a list whose missing-index marker is `mark`. -/
def Table.resolve (t : Table) (mark v : Nat) : Res := if v < t.rows ∧ v ≠ mark then .row v else t.dflt
/-- The index received default handling. -/
def Table.defaulted (t : Table) (mark v : Nat) : Bool := !(decide (v < t.rows) && v != mark)

/-- Pools as (pool, its indices) in order: each index is its value and weight (R91). -/
def poolsOf (bnd : List (Nat × Nat)) (ix : List (Nat × Word)) : List (Nat × List (Nat × Word)) :=
  (bnd.zipIdx).map (fun b => (b.2, (ix.drop b.1.1).take (b.1.2 - b.1.1)))

/-- Occurrences of one pool, before positions (R92). A gather keeps a SKIP index as a zero row (R97). -/
def poolRes (t : Table) (op mark : Nat) (ix : List (Nat × Word)) : List (Res × Word) :=
  (ix.map (fun x => (t.resolve mark x.1, x.2))).filter (fun x => x.1 != .skip || op == 7)

/-- The occurrences of one pool that go to stations (R92, R131). -/
def poolOccs (op k pool : Nat) (rs : List (Res × Word)) : List Occ :=
  let c := rs.length
  (rs.zipIdx).filterMap (fun x =>
    let pos := if op = 5 then (if x.2 < k then some x.2 else none)
      else if op = 6 then (if c ≤ x.2 + k then some (k + x.2 - c) else none) else some 0
    match pos with
    | none => none
    | some q =>
      match x.1.1 with
      | .row r => some { row := some r, pool := pool, scale := x.1.2, pos := q }
      | .drow => some { row := none, pool := pool, scale := x.1.2, pos := q }
      | _ => none)

/-- A sub-lookup's resolved operands and its occurrences. -/
def splitSub (t : Table) (ver op ofmt prog k mark tid : Nat) (pools : List (Nat × List (Nat × Word))) : Sub × List Occ :=
  let rs := pools.map (fun p => (p.1, p.2, poolRes t op mark p.2))
  let d := fun (ix : List (Nat × Word)) => (ix.filter (fun x => t.defaulted mark x.1)).length
  ({ tid := tid, ver := ver, op := op, ofmt := ofmt, prog := prog, k := k
     n := rs.map (fun r => (r.1, r.2.2.length))
     zero := (rs.filter (fun r => r.2.2.any (fun x => x.1 == .zero))).map (·.1)
     zeros := rs.map (fun r => (r.1, (r.2.2.filter (fun x => x.1 == .zero)).length))
     dflt := (rs.filter (fun r => d r.2.1 != 0)).map (·.1)
     defaulted := (rs.map (fun r => d r.2.1)).foldl (· + ·) 0 },
   rs.flatMap (fun r => poolOccs op k r.1 r.2.2))

/-- The stations that hold shards of a table. -/
def Table.stations (t : Table) : List Nat := (t.stns.take t.nshard).eraseDups

/-- The shares of a sub-lookup's occurrences, by 64 x sub + station (R101). -/
def sharesOf (t : Table) (sub : Nat) (occs : List Occ) : Tab Share :=
  t.stations.foldl (fun sh n => Tab.put sh (64 * sub + n) { todo := occs.filter (fun o => t.rowStn o.row == n) }) []

/-- One more pin on CUR (R158). -/
def Table.pin (t : Table) : Table :=
  { t with vers := t.vers.map (fun (v : Ver) => if v.ver = t.cur then { v with pins := v.pins + 1 } else v) }

/-- Takes a pin on CUR of each table (R99, R158). -/
def State.pinAll (s : State) (cl : Client) (tids : List Nat) : State :=
  tids.eraseDups.foldl (fun s tid => match Tab.at? s.tables tid with
    | none => s
    | some t =>
      ({ s with tables := Tab.put s.tables tid t.pin }).updCmd cl (fun c => { c with pins := c.pins ++ [(tid, t.cur)] })) s

/-! ### The row path (R106, R112, R113, R142) -/

/-- Changes the work of a lookup. -/
def State.updLook (s : State) (cl : Client) (f : LookW → LookW) : State :=
  s.updCmd cl (fun c => match c.work with
    | .look w => { c with work := .look (f w) }
    | _ => c)
/-- The work of a lookup in progress. -/
def State.look (s : State) (cl : Client) : Option (Cmd × LookW) :=
  match s.cmd cl with
  | some c => match c.work with
    | .look w => if c.phase = .running ∧ c.cancel.isNone then some (c, w) else none
    | _ => none
  | none => none
/-- The block that runs: its destination. -/
def LookW.dest (w : LookW) : Option Dest := w.dests[w.d]?
/-- The first pool after the block. -/
def LookW.last (w : LookW) : Nat := match w.dest with | some d => min d.p (w.first + d.blk) | none => 0
/-- A share of the running block. -/
def LookW.share (w : LookW) (sub stn : Nat) : Share := Tab.atD w.shares (64 * sub + stn) { todo := [] }
/-- Changes a share. -/
def LookW.updShare (w : LookW) (sub stn : Nat) (f : Share → Share) : LookW := { w with shares := Tab.upd w.shares (64 * sub + stn) f }
/-- The next occurrence of a share in the running block. -/
def LookW.nextOcc (w : LookW) (sub stn : Nat) : Option Occ :=
  match (w.share sub stn).todo.head? with
  | some o => if o.pool < w.last then some o else none
  | none => none

/-- The program an operand names in the partition of its context (R142). -/
def State.progOf (s : State) (cid prog : Nat) : Option Prog :=
  if prog = 0 then none else (Tab.at? s.parts (s.pidOf cid)).bind (fun p => Tab.at? p.progs prog)
/-- Runs a pooling program on a vector (R142-R144); a NaN that it gives is the canonical one (R126, R137). -/
def Prog.run (g : Prog) (v : List Word) (n : Nat) : List Word :=
  (List.range v.length).map (fun i => let x := Config.progElem g.code g.const v n i; if isNan x then canonNan else x)

/-- Adds an entry of a row to a partial (R126-R128, R130, R131); no row: the zero row of a bad one (R112, R127). -/
def Partial.apply (p : Partial) (op width : Nat) (x : Option (List Word)) (o : Occ) : Partial :=
  let p := { p with poison := p.poison || x.isNone, count := p.count + o.count }
  if 5 ≤ op then { p with placed := p.placed ++ [(o.pos, x.getD (List.replicate width 0))] }
  else
    let v := x.getD (List.replicate width 0)
    if op = 3 then { p with acc := if p.acc = [] then v else List.zipWith fmax p.acc v }
    else
      let acc := if p.acc = [] then List.replicate width 0 else p.acc
      { p with acc := match x with
        | some v => List.zipWith (fun a e => ffma o.scale e a) acc v
        | none => acc.map (fun a => fadd a 0) }

/-- An entry's spilled bytes came back bad: what it stands for is taken as arriving poisoned (R104, R113; log entry 38). -/
def Share.lost (sh : Share) (o : Occ) : Bool := o.spill != 0 && hits sh.heldBad (8 * (o.spill - 1)) 8

/-- Every occurrence of a row is applied to the station's partials. -/
def Share.applyRow (sh : Share) (op width : Nat) (x : Option (List Word)) (e : WEnt) : Share :=
  { sh with parts := e.occs.foldl (fun ps o => Tab.put ps o.pool ((Tab.atD ps o.pool {}).apply op width (if sh.lost o then none else x) o)) sh.parts }

/-- The drained bank of a station is free (R101, R107). -/
def State.drainFree (s : State) (stn : Nat) : Bool :=
  !Tab.ex s.cmds (fun _ c => match c.work with
    | .look w => Tab.ex w.shares (fun k sh => k % 64 == stn && (sh.fetch != [] || sh.held != []))
    | _ => false)

/-- The segment of an address in a context; 15 for none (R308). -/
def State.segNo (s : State) (cid a : Nat) : Nat := (((Tab.at? s.ctxs cid).bind (fun x => x.segOf a)).map (·.1)).getD 15

/-- The fault record of a row or element (R112, R308, R494): its address, and the offset, type and physical address of the
first bad sector; `owner` is the context whose segments hold the address. -/
def State.rowRec (s : State) (c : Cmd) (owner stn addr : Nat) (f : Nat × Nat × Nat) : FaultRec :=
  { type := f.2.1, agent := 3, seg := s.segNo owner (alignDown (addr + f.1) 64), write := false, level := 7, pid := s.pidOf (s.cidOf c), stn := stn, cid := s.cidOf c, qid := c.q,
    addr := alignDown (addr + f.1) 64, seq := c.seq, opcode := c.opcode, tag := c.tag, phys := f.2.2 }

/-- A request of a station for a lookup, under the lookup's context (R312). -/
def State.lookReq (s : State) (cl : Client) (c : Cmd) (stn addr len : Nat) (pur : Purpose) : Req :=
  { stn := some stn, client := cl, cid := s.cidOf c, key := s.keyOf (s.cidOf c), fn := 0, pasid := none, addr := addr, len := len, pur := pur }

/-- The next read for row `r` of a drained window: a directory bucket while probe steps are left, and then the row's own memory
operations (R106, R181). -/
def State.rowReads (s : State) (cl : Client) (c : Cmd) (sub stn r tid : Nat) (t : Table) (f : RowF) : State :=
  let put := fun (s : State) (f : RowF) => s.updLook cl (fun w => w.updShare sub stn (fun sh => { sh with fetch := Tab.put sh.fetch r f }))
  let ops := rowOps stn f.pieces
  let rows := ops.foldl (fun (s : State) o => s.issue (s.lookReq cl c stn o.1 o.2 (.row sub stn r))) (put s { f with left := ops.length, probe := 0 })
  match f.probe, f.ent.row with
  | k + 1, some row =>
    match t.bucket tid (t.locate row).1 (t.locate row).2 k with
    | some g => (put s { f with probe := k }).issue (s.lookReq cl c stn g.addr 64 (.dir sub stn r))
    | none => rows
  | _, _ => rows

/-- Row `r` of a closed window is read, or replaced by a zero row where a sector is unmapped (R106, R112). -/
def State.fetchRow (s : State) (cl : Client) (c : Cmd) (sub stn r : Nat) (e : WEnt) : State :=
  match s.look cl with
  | none => s
  | some (_, w) =>
    match w.subs[sub]? with
    | none => s
    | some sb =>
      match Tab.at? s.tables sb.tid with
      | none => s
      | some t =>
        let (ps, addr) := s.pinnedRow sb.tid t sb.ver e.row
        match rowFault stn t.rowB ps with
        | some f =>
          let s := s.postFor (s.pidOf (s.cidOf c)) (s.rowRec c t.owner stn addr f)
          s.updLook cl (fun w => { w with fault := true, poison := true }.updShare sub stn (fun sh => sh.applyRow sb.op t.width none e))
        | none =>
          let set := match e.row with
            | some row => s.mayHave stn sb.tid (t.locate row).1 (t.locate row).2
            | none => false
          let n := if set then t.probes s.fresh else 0
          ((if set then s.draw else s).count 0x2105 2).rowReads cl c sub stn r sb.tid t { ent := e, pieces := ps, left := 0, bad := false, probe := n }

/-- Entries of a window that one Sorter bank keeps on chip (R104). -/
abbrev onChip : Nat := 131072
/-- Where entries of Sorter bank `b` spill to: half of the sorting bay's 256 MiB each (R104; log entry 38). -/
def State.spillAt (s : State) (cid stn b : Nat) : Nat :=
  Tab.atD (((Tab.at? s.parts (s.pidOf cid)).map (·.bays)).getD []) stn 0 + 2 ^ 27 * (b % 2)

/-- Entries of the closed window are fetched row by row (R106). -/
def State.drain (s : State) (cl : Client) (c : Cmd) (sub stn : Nat) (es : List WEnt) : State :=
  (es.zipIdx).foldl (fun s e => s.fetchRow cl c sub stn e.2 e.1) s

/-- Closes the filling window and hands it to the fetch engine (R102, R106): its spilled entries are read back first (R104). -/
def State.closeWin (s : State) (cl : Client) (c : Cmd) (sub stn : Nat) : State :=
  match s.look cl with
  | none => s
  | some (_, w) =>
    let sh := w.share sub stn
    let empty := fun (sh : Share) => { sh with win := [], winOcc := 0, ents := 0, heldBad := [] }
    if sh.ents ≤ onChip then (s.updLook cl (fun w => w.updShare sub stn empty)).drain cl c sub stn sh.win
    else
      let ops := cutRange 256 (2 ^ 60) (sh.ents + 1) (s.spillAt (s.cidOf c) stn sh.bank) (ceilDiv (8 * (sh.ents - onChip)) 64 * 64)
      ops.foldl (fun (s : State) o => s.issue (s.lookReq cl c stn o.1 o.2 (.spill sub stn)))
        (s.updLook cl (fun w => w.updShare sub stn (fun sh => { empty sh with held := sh.win, heldLeft := ops.length })))

/-- Spilled entries came back (R104); with the last of them the window drains. -/
def State.spillBack (s : State) (cl : Client) (sub stn : Nat) (bad : List (Nat × Nat)) : State :=
  match s.look cl with
  | none => s
  | some (c, w) =>
    let sh := w.share sub stn
    let at0 := s.spillAt (s.cidOf c) stn sh.bank
    let sh' := { sh with heldLeft := sh.heldLeft - 1, heldBad := sh.heldBad ++ bad.map (fun b => (b.1 - at0, b.2)) }
    let put := fun (sh : Share) => s.updLook cl (fun w => w.updShare sub stn (fun _ => sh))
    if sh.heldLeft = 1 then (put { sh' with held := [] }).drain cl c sub stn sh.held else put sh'

/-- A directory bucket of a row came back (R181): the next is read, or the row; a bad one makes the row bad (log entry 45). -/
def State.dirBack (s : State) (cl : Client) (sub stn r : Nat) (bad : List (Nat × Nat)) : State :=
  match s.look cl with
  | none => s
  | some (c, w) =>
    match Tab.at? (w.share sub stn).fetch r, w.subs[sub]? with
    | some f, some sb =>
      match Tab.at? s.tables sb.tid with
      | some t => s.rowReads cl c sub stn r sb.tid t { f with bad := f.bad || bad != [] }
      | none => s
    | _, _ => s

/-- Closes the windows of a station whose share of the block has ended, while its drained bank is free (R102). -/
def State.closeEnded (s : State) (stn : Nat) : State :=
  (s.cmds.filter (fun e => e.2.phase == .running && e.2.cancel.isNone)).foldl (fun s e =>
    match s.look e.1 with
    | some (c, w) =>
      (w.shares.filter (fun sh => sh.1 % 64 == stn && sh.2.win != [] && (w.nextOcc (sh.1 / 64) stn).isNone)).foldl
        (fun s sh => if s.drainFree stn then s.closeWin e.1 c (sh.1 / 64) stn else s) s
    | none => s) s

/-- The pieces of a row's own bytes meet a marked stretch of the station's memory. -/
def rowHit (ps : List Piece) (size : Nat) (bad : List (Nat × Nat)) : Bool :=
  (partsOf ps 0 size).any (fun p => match p.1 with
    | some t => hits bad t.addr p.2
    | none => false)

/-- A read of a row came back; with the last one the row is decoded, mapped and applied (R106, R113, R122, R142). Only what is
poisoned of the row's own bytes makes it bad. -/
def State.rowBack (s : State) (cl : Client) (sub stn r : Nat) (bad : List (Nat × Nat)) : State :=
  match s.look cl with
  | none => s
  | some (c, w) =>
    match Tab.at? (w.share sub stn).fetch r, w.subs[sub]? with
    | some f, some sb =>
      let own := ((Tab.at? s.tables sb.tid).map Table.rowB).getD 0
      let f := { f with left := f.left - 1, bad := f.bad || rowHit f.pieces own bad }
      if f.left ≠ 0 then s.updLook cl (fun w => w.updShare sub stn (fun sh => { sh with fetch := Tab.put sh.fetch r f }))
      else match Tab.at? s.tables sb.tid with
        | none => s
        | some t =>
          let size := t.rowB
          let bad := f.bad || s.ppoison f.pieces 0 size
          let x := decodeRow t.fmt t.width (s.pread f.pieces 0 size)
          let x := match s.progOf (s.cidOf c) sb.prog with
            | some g => if g.kind = 0 then g.run x 0 else x
            | none => x
          let s := s.updLook cl (fun w => { w with poison := w.poison || bad }.updShare sub stn (fun sh =>
            { sh with fetch := Tab.del sh.fetch r }.applyRow sb.op t.width (if bad then none else some x) f.ent))
          s.closeEnded stn
    | _, _ => s

/-! ### The Sorter (R101, R102, R108) -/

/-- The operators whose repeats fold (R102). -/
def foldable (op : Nat) : Bool := op < 5

/-- The window after one more occurrence (R102). -/
def sortInto (op : Nat) (o : Occ) : List WEnt → List WEnt
  | [] => [⟨o.row, [o]⟩]
  | e :: es =>
    if e.row = o.row then
      match e.occs.getLast? with
      | some l =>
        if foldable op ∧ l.pool = o.pool then { e with occs := e.occs.dropLast ++ [{ l with scale := fadd l.scale o.scale, count := l.count + o.count }] } :: es
        else { e with occs := e.occs ++ [o] } :: es
      | none => { e with occs := [o] } :: es
    else e :: sortInto op o es

/-- Another share is filling the station's window (R101). -/
def State.otherFills (s : State) (cl : Client) (sub stn : Nat) : Bool :=
  Tab.ex s.cmds (fun k c => match c.work with
    | .look w => Tab.ex w.shares (fun j sh => j % 64 == stn && sh.win != [] && !(k == cl && j / 64 == sub))
    | _ => false)

/-- An occurrence folds into the entry that its row holds last in the window (R102). -/
def folds (op : Nat) (o : Occ) (win : List WEnt) : Bool :=
  foldable op && win.any (fun e => e.row == o.row && (match e.occs.getLast? with
    | some l => l.pool == o.pool
    | none => false))

/-- Every station of a lookup takes work (R115, R411). -/
def State.lookUp (s : State) (w : LookW) : Bool := w.shares.all (fun e => s.stnUp (e.1 % 64))
/-- An engine port is in service: not OUT, and back from the engine step (R404), its station up. -/
def State.epService (s : State) (ep : Nat) : Bool :=
  (match Tab.at? s.eps ep with
  | some e => !e.out && !e.inReset
  | none => false) && s.stnUp (s.build.epStn ep)
/-- Nothing of a lookup has been distributed (R397). -/
def LookW.untouched (w : LookW) : Bool :=
  w.d == 0 && w.first == 0 && w.reports == [] && w.acc == [] && w.shares.all (fun x => x.2.win == [] && x.2.fetch == [] && x.2.parts == [])
/-- A lookup is held before distribution: a station it needs must wake or return, or its engine port is out of service (R397, R404,
R411). -/
def State.lookHeld (s : State) (w : LookW) : Bool :=
  w.untouched && (w.shares.any (fun x => x.2.todo != [] && !s.stnUp (x.1 % 64)) || w.dests.any (fun d => (match d.site with
    | some n => !s.stnUp n
    | none => false) || (match d.ep with
    | some e => !s.epService e
    | none => false)))

/-- The stations an update writes on take work (R115). -/
def State.updUp (s : State) (u : UpdW) : Bool :=
  match Tab.at? s.tables u.tid with
  | some t => u.rows.all (fun r => s.stnUp (t.rowStn (some r)))
  | none => true

/-- Commands that hold a LUT bank of a station (R219). -/
def State.banksHeld (s : State) (stn : Nat) : Nat :=
  Tab.cnt s.cmds (fun _ c => match c.work with
    | .scan w => c.phase == .running && w.per.any (fun x => x.stn == stn && x.bank)
    | _ => false)
/-- Reads of a scan segment or LUT build are out at the station: it is not pre-empted (R226). -/
def State.scanning (s : State) (stn : Nat) : Bool :=
  Tab.ex s.cmds (fun _ c => match c.work with
    | .scan w => c.phase == .running && w.per.any (fun x => x.stn == stn && x.busy.isSome && !x.ids)
    | _ => false)

/-- Command `d` has a unit of work for the station that could start now: a lookup window ready to sort, a scan segment or LUT build, an
update's rows, or an operation on a stream (R83, R108, R226). -/
def State.unitReady (s : State) (k : Client) (d : Cmd) (stn : Nat) : Bool :=
  let head := fun (i : Nat) => match Tab.at? s.streams i with
    | some x => x.order.head? == some k && s.stnUp x.stn
    | none => false
  let on := fun (i : Nat) => ((Tab.at? s.streams i).map (fun x => x.stn == stn)).getD false
  d.phase == .running && d.cancel.isNone && (match d.work with
    | .look w => s.lookUp w && !s.lookHeld w && (w.dest.map (fun x => x.subs.any (fun i => (w.nextOcc i stn).isSome))).getD false
    | .scan w => s.stnUp stn && s.arithOk stn &&
      w.per.any (fun x => x.stn == stn && x.seg.isSome && x.busy.isNone && (x.bank || decide (s.banksHeld stn < 2)))
    | .upd u => d.allBack && s.updUp u && (match Tab.at? s.tables u.tid with
      | some t => (t.writers.find? (fun x => !x.applied)).map (·.client) == some k && u.rows.any (fun r => t.rowStn (some r) == stn)
      | none => false)
    | .append sid _ _ => d.allBack && head sid && on sid
    | .trim sid _ => head sid && on sid
    | .gather sids served => !served && (d.pins != [] || sids.all (fun i => ((Tab.at? s.streams i).map (·.row)).getD true)) && sids.all head && sids.any on
    | _ => false)

/-- A station takes its next unit of work from another command than this one: by PRIO, then hub admission order (R83, R108, R226). -/
def State.outranked (s : State) (cl : Client) (c : Cmd) (stn : Nat) : Bool :=
  Tab.ex s.cmds (fun k d => k != cl && (decide (c.prio < d.prio) || (c.prio == d.prio && decide (d.order < c.order))) && s.unitReady k d stn)

/-- An occurrence is put into the filling window; an entry beyond those kept on chip is spilled to the sorting bay (R102, R104). -/
def State.sortOcc (s : State) (cl : Client) (c : Cmd) (sub stn op : Nat) (o : Occ) (sh : Share) : State :=
  let new := !folds op o sh.win
  let x := Tab.atD s.stns stn {}
  let bank := if sh.win = [] then x.sortBank else sh.bank
  let s := if sh.win = [] then { s with stns := Tab.put s.stns stn { x with sortBank := (x.sortBank + 1) % 2 } } else s
  let k := if new ∧ onChip ≤ sh.ents then sh.ents + 1 - onChip else 0
  let s := if k = 0 then s else
    s.stnWrite cl stn (s.cidOf c) (s.spillAt (s.cidOf c) stn bank + 8 * (k - 1)) (leBytes 4 o.pool ++ leBytes 4 o.scale.toNat) false
  s.updLook cl (fun w => w.updShare sub stn (fun sh =>
    { sh with todo := sh.todo.drop 1, win := sortInto op { o with spill := k } sh.win, winOcc := sh.winOcc + 1, ents := sh.ents + b2n new, bank := bank }))

/-- One occurrence reaches its station's Sorter (R102). Nothing happens while the Sorter must wait (R107, R108); a window opens only when
no other command's unit goes first (R83) and no segment's reads are out (R226; log entry 94). -/
def State.occurrence (s : State) (cl : Client) (sub stn : Nat) : State :=
  match s.look cl with
  | none => s
  | some (c, w) =>
    match w.nextOcc sub stn, w.subs[sub]? with
    | some o, some sb =>
      let sh := w.share sub stn
      let waits := s.outranked cl c stn || s.scanning stn || !s.arithOk stn
      if ¬((w.dest.map (·.subs.contains sub)).getD false) ∨ !s.lookUp w ∨ s.lookHeld w ∨ s.otherFills cl sub stn then s
      else if sh.win = [] then (if waits then s else (s.sortOcc cl c sub stn sb.op o sh).closeEnded stn)
      else if sh.winOcc == 2 ^ 24 || (sh.win.length == 65536 && !sh.win.any (fun e => e.row == o.row)) then
        if !s.drainFree stn then s
        else
          let s := s.closeWin cl c sub stn
          if waits then s else (s.sortOcc cl c sub stn sb.op o { sh with win := [], ents := 0 }).closeEnded stn
      else (s.sortOcc cl c sub stn sb.op o sh).closeEnded stn
    | _, _ => s

/-! ### Combining and results (R94, R95, R109-R111, R133, R135-R139) -/

/-- A station has done its part of the running block for a sub-lookup: only its partials are left to send. -/
def LookW.swept (w : LookW) (sub stn : Nat) : Bool :=
  let sh := w.share sub stn
  (w.nextOcc sub stn).isNone && sh.win == [] && sh.held == [] && sh.fetch == []

/-- Merges a partial into the site's accumulator (R133). -/
def Partial.merge (a p : Partial) (op : Nat) : Partial :=
  let r := { a with placed := a.placed ++ p.placed, poison := a.poison || p.poison, count := a.count + p.count }
  if p.acc = [] then r
  else if a.acc = [] then { r with acc := if op = 3 then p.acc else p.acc.map (fun x => fadd 0 x) }
  else { r with acc := List.zipWith (if op = 3 then fmax else fadd) a.acc p.acc }

/-- Key of an accumulator. -/
def accKey (sub pool : Nat) : Nat := sub * 2 ^ 24 + pool

/-- The site's accumulators that a lookup's running block takes: none before its first partial is accepted (R109). -/
def LookW.atSite (w : LookW) (site : Option Nat) : Nat :=
  match w.dest with
  | some d => if d.site = site ∧ w.acc ≠ [] then (w.last - w.first) * d.width else 0
  | none => 0

/-- The combining site's accumulator buffer of 524,288 elements has room for the block of this lookup beside those that it combines
already (R107, R109). -/
def State.siteRoom (s : State) (w : LookW) : Bool :=
  match w.dest with
  | some d =>
    w.acc != [] || decide ((s.cmds.map (fun e => match e.2.work with
      | .look x => x.atSite d.site
      | _ => 0)).foldl (· + ·) 0 + (w.last - w.first) * d.width ≤ 524288)
  | none => true

/-- A station's partial of a pool arrives at the combining site (R111, R133); it waits in its station while the site's buffer has no room
for its block (R107). -/
def State.partialArrival (s : State) (cl : Client) (sub stn pool : Nat) : State :=
  match s.look cl with
  | none => s
  | some (_, w) =>
    match Tab.at? (w.share sub stn).parts pool, w.subs[sub]? with
    | some p, some sb =>
      if w.swept sub stn && s.siteRoom w then
        s.updLook cl (fun w => { w with acc := Tab.put w.acc (accKey sub pool) ((Tab.atD w.acc (accKey sub pool) {}).merge p sb.op) }.updShare sub stn
          (fun sh => { sh with parts := Tab.del sh.parts pool }))
      else s
    | _, _ => s

/-- A finished pool of a sub-lookup: its elements, whether it is poisoned and whether it is empty (R92, R94, R128, R131). -/
def State.poolValue (s : State) (cid : Nat) (w : LookW) (sub pool : Nat) : List Word × Bool × Bool :=
  match w.subs[sub]? with
  | none => ([], false, true)
  | some sb =>
    let width := ((Tab.at? s.tables sb.tid).map (·.width)).getD 0
    let a := accWidth sb.op sb.k width
    let p := Tab.atD w.acc (accKey sub pool) {}
    let n := Tab.atD sb.n pool 0
    if n = 0 then (List.replicate a 0, p.poison || w.spoiled.contains pool, true)
    else
      let p := if sb.op < 5 ∧ sb.zero.contains pool then p.merge { acc := List.replicate width 0 } sb.op else p
      let v := if 5 ≤ sb.op then
          p.placed.foldl (fun v x => (v.take (x.1 * width)) ++ x.2 ++ v.drop (x.1 * width + width)) (List.replicate a 0)
        else if p.acc = [] then List.replicate a 0 else p.acc
      let m := p.count + Tab.atD sb.zeros pool 0
      let v := if sb.op = 1 then v.map (fun x => fdivNat x m)
        else if sb.op = 4 then v.map (fun x => fmul x (rsqrtNat m)) else v
      let v := match s.progOf cid sb.prog with
        | some g => if g.kind = 1 then g.run v n else v
        | none => v
      (v, p.poison, false)

/-- Row `pool` of a destination: its bytes, poison, empty, defaulted (R98, R135-R139). -/
def State.destRow (s : State) (cid : Nat) (w : LookW) (d : Dest) (pool : Nat) : List Byte × Bool × Bool × Bool :=
  let ps := d.subs.map (fun i => (i, s.poolValue cid w i pool))
  (pad64 (ps.flatMap (fun p => match w.subs[p.1]? with
      | some sb => encodeRow (ofCode sb.ofmt) (ofSat sb.ofmt) p.2.1
      | none => [])),
   ps.any (fun p => p.2.2.1),
   ps.any (fun p => p.2.2.2 && (match w.subs[p.1]? with | some sb => sb.op != 7 | none => false)),
   ps.any (fun p => (match w.subs[p.1]? with | some sb => sb.dflt.contains pool | none => false)))

/-- Writes row `pool` of a destination, or queues it for the engine port, and notes its flags (R95, R96, R114). -/
def State.putRow (s : State) (cl : Client) (cid : Nat) (w : LookW) (d : Dest) (pool : Nat) : State :=
  let (bs, po, em, df) := s.destRow cid w d pool
  let s := match d.ep with
    | some _ => s
    | none => s.pwrite cl cid d.out (pool * d.stride) bs false
  let s := s.updCmd cl (fun c => { c with left := true })
  s.updLook cl (fun w => { w with
    poison := w.poison || po
    empty := w.empty || em
    written := w.written + 1
    rows := match d.ep with
      | some e => w.rows ++ [⟨e, w.idx + pool, bs, po⟩]
      | none => w.rows
    dests := setNth w.dests w.d { (w.dest.getD d) with
      fbits := Tab.put (w.dest.getD d).fbits (pool / d.group) (Tab.atD (w.dest.getD d).fbits (pool / d.group) 0 ||| poolFlags po em df) } })

/-- Writes the flag bytes of every destination that has them (R95). -/
def State.putFlags (s : State) (cl : Client) (cid : Nat) (w : LookW) : State :=
  w.dests.foldl (fun s d => if d.flags = [] then s
    else s.pwrite cl cid d.flags 0 ((List.range d.nflags).map (fun i => BitVec.ofNat 8 (Tab.atD d.fbits i 0))) false) s

/-- Every block is finished. -/
def LookW.ended (w : LookW) : Bool := w.dests.length ≤ w.d

/-- Completes a lookup whose blocks are finished and whose rows have all been taken (R96, R110, R112). -/
def State.lookEnd (s : State) (cl : Client) : State :=
  match s.look cl with
  | some (_, w) =>
    if w.ended && w.rows == [] && !Tab.ex s.eps (fun _ e => e.res.any (fun x => x.client == cl)) then
      (s.updCmd cl (fun c => { c with poison := c.poison || w.poison, empty := w.empty })).finish cl (if w.fault then stFault else stOk) w.count
        ((w.subs.map (·.defaulted)).foldl (· + ·) 0)
    else s
  | none => s

/-- Goes to the next destination that has rows; after the last, writes the flags (R109, R110). -/
def State.nextBlock (cl : Client) (cid : Nat) : Nat → State → State
  | 0, s => s
  | fuel + 1, s =>
    match s.look cl with
    | none => s
    | some (_, w) =>
      match w.dest with
      | none => (s.putFlags cl cid w).lookEnd cl
      | some d =>
        if w.first < d.p then s
        else (s.updLook cl (fun w => { w with d := w.d + 1, first := 0, idx := w.idx + d.p })).nextBlock cl cid fuel

/-- The block's pools are final: they are converted and written, and the next block begins (R94, R109, R110). -/
def State.finishBlock (s : State) (cl : Client) : State :=
  match s.look cl with
  | none => s
  | some (c, w) =>
    match w.dest with
    | none => s
    | some d =>
      let cid := s.cidOf c
      let s := (runFrom w.first (w.last - w.first)).foldl (fun s p => s.putRow cl cid w d p) s
      let s := s.updLook cl (fun w => { w with first := w.last, acc := [], reports := [] })
      s.nextBlock cl cid (w.dests.length + 1)

/-- The stations that report for the running block: those of its tables (R110). -/
def State.blockStns (s : State) (w : LookW) : List Nat :=
  ((w.dest.map (·.subs)).getD []).flatMap (fun i => match w.subs[i]? with
    | some sb => ((Tab.at? s.tables sb.tid).map Table.stations).getD []
    | none => [])

/-- A station's final report for a block arrives; with the last one the block's pools are final (R110). -/
def State.finalReport (s : State) (cl : Client) (stn : Nat) : State :=
  match s.look cl with
  | none => s
  | some (_, w) =>
    let subs := (w.dest.map (·.subs)).getD []
    if (s.blockStns w).contains stn && !w.reports.contains stn && !s.lookHeld w &&
        subs.all (fun i => w.swept i stn && (w.share i stn).parts == []) then
      let s := s.updLook cl (fun w => { w with reports := stn :: w.reports })
      if (s.blockStns w).all (fun n => n == stn || w.reports.contains n) then s.finishBlock cl else s
    else s

/-! ### Acceptance (R99, R100 step 7) -/

/-- The pool boundaries of an operand set, or none where the offsets list breaks R91. -/
def boundsOf (gather : Bool) (e : List Byte) (offs : List Nat) : Option (List (Nat × Nat)) :=
  let n := lN e
  if gather then some ((List.range n).map (fun i => (i, i + 1)))
  else if n = 0 then some (List.replicate (lP e) (0, 0))
  else if lFixed e then some ((List.range (lP e)).map (fun i => (i * (n / lP e), (i + 1) * (n / lP e))))
  else
    let ok := offs.head? == some 0 && offs.getLast? == some n && (offs.zip (offs.drop 1)).all (fun x => x.1 ≤ x.2)
    if ok then some (offs.zip (offs.drop 1)) else none

/-- Operand set `i` of a command with its list bytes read. -/
def State.subOf (s : State) (c : Cmd) (gather : Bool) (i : Nat) (e : List Byte) : Option (Nat × List (Nat × List (Nat × Word))) :=
  let n := lN e
  let w := 2 ^ (lIw e + 1)
  let ix := numsOf w (s.rangeBytes c (3 * i) (n * w))
  let offs := if gather ∨ lFixed e ∨ n = 0 then [] else numsOf 4 (s.rangeBytes c (3 * i + 1) (4 * (lP e + 1)))
  let wts := if !gather ∧ lOp e = 2 then (numsOf 4 (s.rangeBytes c (3 * i + 2) (4 * n))).map (BitVec.ofNat 32)
    else List.replicate n 0x3F800000
  (boundsOf gather e offs).map (fun b => (2 ^ (8 * w) - 1, poolsOf b (ix.zip wts)))

/-- A destination as the work holds it, combined at the site of its output's first byte (R109; log entry 93). -/
def State.mkDest (s : State) (c : Cmd) (subs : List Nat) (p size a base : Nat) (d : DestOp) : Dest :=
  let out := (c.ranges[base]?).getD []
  { subs := subs, p := p, ep := if d.eng then some d.out else none, out := out, stride := d.effStride size,
    flags := (c.ranges[base + 1]?).getD [], nflags := p, group := 1, fbits := [], width := a, blk := 524288 / max a 1,
    site := if d.eng then some (s.build.epStn d.out)
      else (out.head?.bind (·.tgt)).bind (fun t => if t.host then none else some t.stn) }

/-- Step 7 of R100, then pins and distribution (R99, R109). While a REBASE of a table runs, the pin waits (R158). A program that was
unloaded while the lists were read fails the command now: it is accepted after the unload (R141). -/
def State.lookSplit (s : State) (cl : Client) (c : Cmd) (gather : Bool) (es : List (List Byte)) (d : Option DestOp) : State :=
  match (es.zipIdx).mapM (fun x => s.subOf c gather x.2 x.1) with
  | none => s.finish cl stBadOperand 0 0
  | some ps =>
    let ts := es.filterMap (fun e => Tab.at? s.tables (lTid e))
    if ts.any (·.rebase.isSome) || s.behind c then s else
    let subs := ((es.zip ts).zip ps).map (fun x =>
      splitSub x.1.2 x.1.2.cur (lKind gather x.1.1) (lOfmt x.1.1) (lProg x.1.1) (lK x.1.1) x.2.1 (lTid x.1.1) x.2.2)
    let shares := (((subs.zip ts).zipIdx).flatMap (fun x => sharesOf x.1.2 x.2 x.1.1.2))
    let base := 3 * es.length
    let size := fun (x : List Byte × Table) => partBytes x.2 gather x.1
    let wid := fun (x : List Byte × Table) => accWidth (lKind gather x.1) (lK x.1) x.2.width
    let ets := es.zip ts
    let dests := match d with
      | some d => [s.mkDest c (List.range es.length) ((es.head?.map lP).getD 0) ((ets.map size).foldl (· + ·) 0)
          ((ets.map wid).foldl (· + ·) 0) base d]
      | none => (ets.zipIdx).map (fun x => s.mkDest c [x.2] (lRows gather x.1.1) (size x.1) (wid x.1) (base + 2 * x.2) (destOf x.1.1))
    let hubOf := fun (i : Nat) => dests.any (fun (x : Dest) => x.subs.contains i && x.site.isNone)
    if !((es.zip ts).zipIdx).all (fun x => s.progOk (s.cidOf c) (lProg x.1.1) x.1.2.fmt (lKind gather x.1.1) (hubOf x.2)) then s.finish cl stBadOperand 0 0
    else
    let w : LookW := { subs := subs.map (·.1), dests := dests, shares := shares, count := (es.map (lRows gather)).foldl (· + ·) 0,
                       empty := gather && es.all (fun e => lN e == 0) }
    let s := s.pinAll cl (es.map lTid)
    (s.updCmd cl (fun c => { c with stage := 8, items := [], work := .look w })).nextBlock cl (s.cidOf c) (dests.length + 1)

/-- Checks the operand sets, reads their lists (stage 2) and distributes the work. -/
def State.lookPlan (s : State) (cl : Client) (c : Cmd) (gather : Bool) (es : List (List Byte)) (d : Option DestOp) : State :=
  let cid := s.cidOf c
  s.checked cl (do let rs ← s.lookChecks cl c gather es d; let ps ← s.mapRanges cl c cid rs; pure (rs, ps)) fun r =>
    let s := (s.touchRanges cl cid r.1).updCmd cl (fun c => { c with ranges := r.2 })
    s.fetchThen cl cid 2 ((r.2.take (3 * es.length)).flatMap (itemsOf true)) (fun cl c s =>
      s.withOperands cl c (fun c s => s.lookSplit cl c gather es d))

/-- LOOKUP_POOL and LOOKUP_GATHER (R96, R97, R100): MX on a build without it, in OFMT too, gives ST_UNIT_ABSENT (R16, R135; log entry 104). -/
def State.doLookup (gather : Bool) (cl : Client) (c : Cmd) (s : State) : State :=
  if c.stage = 0 then
    if fmtMx (ofCode (lOfmt c.env)) && !s.build.mx then s.finish cl stUnitAbsent 0 0
    else s.checked cl (need c.clean stBadOperand) fun _ => s.lookPlan cl c gather [c.env] none
  else s.withOperands cl c (fun c s => s.lookSplit cl c gather [c.env] none)

/-- The destination fields of a LOOKUP_MULTI (R269). -/
def multiDest (c : Cmd) : DestOp := ⟨c.fld 9 1 3 1 == 1, c.num 20 4, c.num 48 8, c.num 56 8⟩
/-- INTERLEAVE (R98). -/
def Cmd.interleave (c : Cmd) : Bool := bit c.flags 1
/-- NSUB (R269). -/
def Cmd.nsub (c : Cmd) : Nat := c.fld 8 1 0 7

/-- The envelope's own checks of LOOKUP_MULTI (R100, R269). -/
def multiOk (c : Cmd) : Bool := c.clean && decide (1 ≤ c.nsub ∧ c.nsub ≤ 64) && c.num 24 8 % 64 == 0
/-- The destination fields are zero where rows are not interleaved (R269). -/
def multiPlain (c : Cmd) : Bool := c.interleave || (c.fld 9 1 3 1 == 0 && c.num 20 4 == 0 && c.num 48 8 == 0 && c.num 56 8 == 0)

/-- The operand sets of a LOOKUP_MULTI and its interleaved destination. -/
def State.multiSubs (s : State) (c : Cmd) (sub : List Piece) : List (List Byte) × Option DestOp :=
  (chunksOf 64 c.nsub (s.pread sub 0 (64 * c.nsub)), if c.interleave then some (multiDest c) else none)

/-- LOOKUP_MULTI (R98, R100): the sub-lookup array is read first (stage 1), then the lists (stage 2). -/
def State.doMulti (cl : Client) (c : Cmd) (s : State) : State :=
  let cid := s.cidOf c
  if c.stage = 0 then
    s.checked cl (do need (multiOk c) stBadOperand; s.mapAll cl c cid false (c.num 24 8) (64 * c.nsub)) fun ps =>
      let s := (s.touchRanges cl cid [(false, c.num 24 8, 64 * c.nsub)]).updCmd cl (fun c => { c with ranges := [ps] })
      s.fetchThen cl cid 1 (itemsOf true ps) (fun cl c s => s.withOperands cl c (planOf cl))
  else if c.stage = 1 then s.withOperands cl c (planOf cl)
  else s.withOperands cl c (fun c s => let m := s.multiSubs c ((c.ranges.getLast?).getD []); s.lookSplit cl c false m.1 m.2)
where
  /-- Steps 1 to 6 over the entries, once the array is read. -/
  planOf (cl : Client) (c : Cmd) (s : State) : State :=
    let sub := (c.ranges.getLast?).getD []
    let m := s.multiSubs c sub
    let cid := s.cidOf c
    let bad := m.1.any (fun e => rd e 0 8 != 0x10)
    s.checked cl (do
        need (!m.1.any (fun e => fmtMx (ofCode (lOfmt e))) || s.build.mx) stUnitAbsent
        need (multiPlain c && !bad) stBadOperand
        let rs ← s.lookChecks cl c false m.1 m.2
        let ps ← s.mapRanges cl c cid rs
        pure (rs, ps)) fun r =>
      let s := (s.touchRanges cl cid r.1).updCmd cl (fun c => { c with ranges := r.2 ++ [sub] })
      s.fetchThen cl cid 2 ((r.2.take (3 * m.1.length)).flatMap (itemsOf true)) (fun cl c s =>
        s.withOperands cl c (fun c s => s.lookSplit cl c false m.1 m.2))

/-- LOOKUP_POOL (R96). -/
def execLookupPool (q seq : Nat) (s : State) : Out := .next (s.start q seq (fun c => c.opcode == 0x10) (State.doLookup false))
/-- LOOKUP_GATHER (R97). -/
def execLookupGather (q seq : Nat) (s : State) : Out := .next (s.start q seq (fun c => c.opcode == 0x11) (State.doLookup true))
/-- LOOKUP_MULTI (R98). -/
def execLookupMulti (q seq : Nat) (s : State) : Out := .next (s.start q seq (fun c => c.opcode == 0x12) State.doMulti)
/-- PARTIAL_ARRIVAL (R133). -/
def execPartialArrival (q seq sub stn pool : Nat) (s : State) : Out := .next (s.partialArrival (ckey q seq) sub stn pool)

end Sys2Proof.Machine
end

