-- ==== Sys2Proof/Machine/Update.lean ====
section
/-! DEFINITION. Sys2Proof/Machine/Update.lean: staging rows (R160-R165, R173), switching versions (R166-R170), retirement
and release (R171, R172), compaction and rebasing (R174-R179), and the overlay summary (R157). -/
namespace Sys2Proof.Machine

/-- Changes a table. -/
def State.updTable (s : State) (tid : Nat) (f : Table → Table) : State := { s with tables := Tab.upd s.tables tid f }

/-! ### Extent lists (R88) -/

/-- Joins pieces that follow one another in the range and in memory and share one permission: extents (R300). -/
def joinPieces : List Piece → List Piece
  | [] => []
  | p :: ps =>
    match joinPieces ps with
    | [] => [p]
    | q :: r =>
      if p.off + p.len = q.off ∧ p.perm = q.perm ∧ q.tgt = p.tgt.map (fun t => { t with addr := t.addr + p.len }) then { p with len := p.len + q.len } :: r
      else p :: q :: r

/-- How many extents a range resolves to (R88). -/
def extents (ps : List Piece) : Nat := ((joinPieces ps).filter (fun p => p.tgt.isSome)).length

/-- Some mapped piece of a range is not in the station's memory. -/
def elsewhere (stn : Nat) (ps : List Piece) : Bool :=
  ps.any (fun p => match p.tgt with
    | some t => t.host || t.stn != stn
    | none => false)

/-- The spans of every shard of a base, translated through the context (R88). -/
def State.baseSpans (s : State) (cl : Client) (cid : Nat) (base nshard bytes : Nat) : Chk (List (List Span)) :=
  (List.range nshard).mapM (fun i => s.spans cl cid false (base + i * bytes) bytes)

/-- OVL_SPAN (R154). -/
def ovlSpan (slots stride : Nat) : Nat := ceilDiv (32 * slots + slots * stride) 65536 * 65536

/-- Two ranges (start, length) overlap. -/
def overlaps (a b : Nat × Nat) : Bool := decide (a.1 < b.1 + b.2 ∧ b.1 < a.1 + a.2)

/-- Pushes a base's extent lists to the stations (R88). -/
def Table.pushExt (t : Table) (base : Nat) (ext : List (List Piece)) : Table :=
  { t with ext := (ext.zipIdx).foldl (fun e x => Tab.put e (base * 64 + x.2) x.1) t.ext }

/-- Translates a table's overlay regions and default row for an install of extent lists (R88, R154, R300). An overlay region is its
OVL_SLOTS directory entries and slots, without the rounding of OVL_SPAN (log entry 96). -/
def State.sideSpans (s : State) (cl : Client) (t : Table) : Chk (List (List Span) × List Span) := do
  let ovl ← (List.range t.nshard).mapM (fun i =>
    s.spans cl t.owner false (t.ovlBase + i * ovlSpan t.ovlSlots t.stride) (32 * t.ovlSlots + t.ovlSlots * t.stride))
  let d ← if t.dmode = 2 then s.spans cl t.owner false t.daddr t.stride else pure []
  pure (ovl, d)

/-- A table with its overlay regions and default row as translated. -/
def Table.withSides (t : Table) (x : List (List Span) × List Span) : Table :=
  { t with
    dext := piecesOf t.daddr x.2
    ovl := (x.1.zipIdx).map (fun y => (y.2, piecesOf (t.ovlBase + y.2 * ovlSpan t.ovlSlots t.stride) y.1)) }

/-- The checks of a new base (R170 steps 3-5, R176): the table with its extent lists, overlay regions and default row as the install
translates them (R300). A COPY's span with an unmapped sector gives ST_BAD_OPERAND (log entry 97). -/
def State.newBase (s : State) (cl : Client) (c : Cmd) (t : Table) (nb : Nat) (whole : Bool) : Chk Table := do
  let cid := s.cidOf c
  let sps ← s.baseSpans cl cid nb t.nshard t.shardBytes
  match sps.flatten.find? (fun p => p.tgt.isNone && p.type == 1) with
  | some p => .error (.fail stFault (some (s.faultRec c cid 2 false p)))
  | none => pure ()
  need (!sps.flatten.any (fun p => p.type == 4)) stBadOperand
  let ext := (sps.zipIdx).map (fun x => piecesOf (nb + x.2 * t.shardBytes) x.1)
  let span := (nb, t.nshard * t.shardBytes)
  need ((ext.zipIdx).all (fun x => decide (extents x.1 ≤ 1024) && !elsewhere (t.stnOf x.2) x.1 && !(whole && x.1.any (fun p => p.tgt.isNone))) &&
    !(t.ovlSlots != 0 && overlaps span (t.ovlBase, t.nshard * ovlSpan t.ovlSlots t.stride))) stBadOperand
  let bases := t.vers.map (·.base) ++ (t.pend.filter (fun p => !p.discard)).filterMap (fun p => p.nb.map (·.1)) ++ (t.copying.map (·.2)).toList
  need (!bases.any (fun b => overlaps span (b, t.nshard * t.shardBytes)) && t.copying.isNone) stTableBusy
  let side ← s.sideSpans cl t
  pure ((t.withSides side).pushExt nb ext)

/-! ### Release (R171) -/

/-- Version `v` of a table can select entry `e` (R171). -/
def Table.selects (t : Table) (v : Ver) (e : DirEnt) : Bool :=
  decide (v.floor ≤ e.post ∧ e.post ≤ v.ver) &&
  !t.dir.any (fun f => f.shard == e.shard && f.row == e.row && decide (e.post < f.post ∧ f.post ≤ v.ver))

/-- Counts releases on the stations that hold the entries (R157). -/
def State.countRel (s : State) (t : Table) (es : List DirEnt) : State :=
  es.foldl (fun s e =>
    let x := Tab.atD s.stns (t.stnOf e.shard) {}
    { s with stns := Tab.put s.stns (t.stnOf e.shard) { x with sumRel := x.sumRel + 1 } }) s

/-- Keeps the directory entries that satisfy `p`; the others are released and their slots freed. -/
def State.releaseEntries (s : State) (tid : Nat) (p : Table → DirEnt → Bool) : State :=
  match Tab.at? s.tables tid with
  | none => s
  | some t => (s.countRel t (t.dir.filter (fun e => !p t e))).updTable tid (fun t => { t with dir := t.dir.filter (p t) })

/-- A retired version's release (R171): entries that no live version can select, and extent lists no live base needs. -/
def State.versionRetire (s : State) (tid ver : Nat) : State :=
  match Tab.at? s.tables tid with
  | none => s
  | some t =>
    if t.retired.contains ver then
      (s.releaseEntries tid (fun t e => decide (t.cur < e.post) || t.vers.any (fun v => t.selects v e))).updTable tid (fun t =>
        { t with
          retired := t.retired.filter (· != ver)
          ext := Tab.keep t.ext (fun k _ => t.vers.any (fun v => v.base == k / 64) || t.pend.any (fun p => p.nb.map (·.1) == some (k / 64)) ||
            (t.copying.map (·.2)) == some (k / 64)) })
    else s

/-! ### Waiting for the table (R167, R168, R172) -/

/-- RESULT_AUX of a switch (R169). -/
def Table.switchAux (t : Table) (ver : Nat) : Nat := t.vers.length % 16 + 256 * b2n (t.incomplete.contains ver)

/-- Discards whose writers are done: their entries are released and their commands complete (R167, R168). -/
def State.settleDiscards (s : State) (tid : Nat) : State :=
  match Tab.at? s.tables tid with
  | none => s
  | some t =>
    (t.pend.filter (fun p => p.discard && !t.writers.any (fun w => w.post == p.ver && w.client != p.client))).foldl (fun s p =>
      let s := (s.releaseEntries tid (fun _ e => e.post != p.ver)).updTable tid (fun t => { t with pend := t.pend.filter (· != p) })
      s.finish p.client stOk p.ver (t.switchAux p.ver)) s

/-- TABLE_RETIREs of the table of one MODE that wait, with the table's version that each names (R172). -/
def State.retires (s : State) (tid : Nat) (wait : Bool) : List (Client × Nat) :=
  s.cmds.filterMap (fun e => match e.2.work with
    | .table i v =>
      if i = tid ∧ e.2.opcode = 0x1B ∧ e.2.phase = .running ∧ e.2.cancel.isNone ∧ (e.2.fld 10 1 0 2 == 0) = wait then some (e.1, v) else none
    | _ => none)

/-- Waits of the table end whose versions have retired and are released; where the table goes, all its versions have (R172). -/
def State.endWaits (s : State) (tid : Nat) (t : Table) (all : Bool) : State :=
  (s.retires tid true).foldl (fun s e =>
    if all || (t.vers.all (fun x => e.2 ≤ x.ver) && t.retired.all (fun x => e.2 ≤ x)) then s.finish e.1 stOk e.2 t.cur else s) s

/-- TABLE_RETIREs of the table that wait (R172). -/
def State.settleRetires (s : State) (tid : Nat) : State :=
  match Tab.at? s.tables tid with
  | none => s
  | some t =>
    if s.retires tid false != [] && t.vers.all (fun x => x.pins == 0) && t.writers == [] && t.pend == [] && t.copying.isNone then
      let s := s.endWaits tid t true
      (s.retires tid false).foldl (fun s e => s.finish e.1 stOk tid 0) { s with tables := Tab.del s.tables tid }
    else s.endWaits tid t false

/-- What waits on a table is tried again. -/
def State.settleTable (s : State) (tid : Nat) : State := (s.settleDiscards tid).settleRetires tid
/-- Every table is looked at. -/
def State.settleTables (s : State) : State := (s.tables.map (·.1)).foldl (fun s t => s.settleTable t) s

/-- Versions live once version `p.ver` is current (R150, R168). -/
def Table.liveAfter (t : Table) : Nat := (t.vers.filter (fun v => v.ver != t.cur || v.pins != 0)).length + 1

/-- Version `p.ver` becomes current (R168). -/
def Table.switchTo (t : Table) (p : Pend) : Table :=
  let old := t.vers.filter (fun v => v.ver == t.cur && v.pins == 0)
  let now := (t.ver? t.cur).getD ⟨t.cur, 0, 0, 0⟩
  let b := p.nb.getD (now.base, now.floor)
  { t with
    cur := p.ver
    vers := t.vers.filter (fun v => v.ver != t.cur || v.pins != 0) ++ [⟨p.ver, b.1, b.2, 0⟩]
    retired := t.retired ++ old.map (·.ver)
    pend := t.pend.drop 1
    clear := if (t.copying.map (·.1)) = some p.client then List.range t.nshard else t.clear
    clearAt := if (t.copying.map (·.1)) = some p.client then p.ver else t.clearAt
    copying := if (t.copying.map (·.1)) = some p.client then none else t.copying }

/-- The switch point of the first switch that waits (R168, R169). -/
def State.switchPoint (s : State) (tid : Nat) : State :=
  match Tab.at? s.tables tid with
  | none => s
  | some t =>
    match t.pend.head? with
    | none => s
    | some p =>
      if p.discard || t.writers.any (fun w => w.post == p.ver && (w.client != p.client || !w.applied)) || decide (8 < t.liveAfter) then s
      else
        let t' := t.switchTo p
        let s := s.updTable tid (fun _ => t')
        let own := match (s.cmd p.client).map (·.work) with
          | some (.upd u) => (u.rows.eraseDups.length, u.post)
          | _ => (p.ver, t'.switchAux p.ver)
        let st := match s.cmd p.client with
          | some c => if c.status = stFault then stFault else stOk
          | none => stOk
        (s.finish p.client st own.1 own.2).settleTable tid

/-! ### Updates (R160-R165) -/

/-- UPDATE_ACCUM. -/
def Cmd.isAccum (c : Cmd) : Bool := c.opcode == 0x19
/-- Operands of an update (R270). -/
def Cmd.uNr (c : Cmd) : Nat := c.fld 12 4 0 21
def Cmd.uIw (c : Cmd) : Nat := c.fld 10 1 0 2
def Cmd.uSat (c : Cmd) : Bool := c.fld 10 1 2 1 == 1
def Cmd.uDfmt (c : Cmd) : Nat := c.num 11 1
def Cmd.publish (c : Cmd) : Bool := bit c.flags 1
/-- Bytes of one source row, and its stride (R160, R161). -/
def Cmd.uSize (c : Cmd) (t : Table) : Nat := if c.isAccum then rowBytes c.uDfmt t.width else t.rowB
def Cmd.uStride (c : Cmd) (t : Table) : Nat := if c.num 16 4 = 0 then up64 (c.uSize t) else c.num 16 4

/-- Steps 3 and 4 of R164: the table exists and the context owns it. -/
def State.ownTable (s : State) (c : Cmd) : Chk Table := do
  let t ← s.readTable (c.num 8 2)
  need (t.owner == s.cidOf c) stNotPermitted
  pure t

/-- Steps 1 to 6 of R164: the ranges of the index list and the source. -/
def State.updChecks (s : State) (cl : Client) (c : Cmd) : Chk (List (Bool × Nat × Nat)) := do
  let cid := s.cidOf c
  let t0 := Tab.at? s.tables (c.num 8 2)
  need (s.build.mx || !((c.isAccum && fmtMx c.uDfmt) || (t0.map (fun t => fmtMx t.fmt)).getD false)) stUnitAbsent
  need (c.clean && decide (c.uIw < 3 ∧ c.uNr ≤ 2 ^ 20) && c.num 16 4 % 64 == 0 &&
    (if c.isAccum then c.uDfmt == 1 || c.uDfmt == 2 else c.uDfmt == 0 && !c.uSat)) stBadOperand
  let t ← s.ownTable c
  need (!(c.isAccum && !fmtOutput t.fmt) && (c.num 16 4 == 0 || decide (c.uSize t ≤ c.num 16 4))) stBadOperand
  let n := c.uNr
  let rs := [(false, c.num 24 8, n * 2 ^ (c.uIw + 1)), (false, c.num 32 8, if n = 0 then 0 else (n - 1) * c.uStride t + c.uSize t)]
  let _ ← s.mapRanges cl c cid rs
  pure rs

/-- Reserved slots and reserved entries of a shard (R173). -/
def Table.reserved (t : Table) (sh : Nat) : Nat := (t.writers.map (fun w => (w.resv.filter (· == sh)).length)).foldl (· + ·) 0
def Table.reservedEnts (t : Table) (sh : Nat) : Nat := (t.writers.map (fun w => (w.ents.filter (· == sh)).length)).foldl (· + ·) 0
/-- Slots in use of a shard. -/
def Table.used (t : Table) (sh : Nat) : Nat := (t.dir.filter (fun e => e.shard == sh)).length

/-- Whether the shards have room for the reservations (R173). -/
def Table.roomFor (t : Table) (shs : List Nat) : Bool :=
  shs.eraseDups.all (fun sh =>
    let m := (shs.filter (· == sh)).length
    decide (t.reserved sh + m ≤ t.ovlSlots - t.used sh ∧ 2 * (Tab.atD t.inUse sh 0 + t.reservedEnts sh + m) ≤ 3 * t.ovlSlots))

/-- The lowest free slot of a shard (log entry 7). -/
def Table.freeSlot (t : Table) (sh : Nat) : Nat :=
  ((List.range (t.used sh + 1)).find? (fun k => !t.dir.any (fun e => e.shard == sh && e.slot == k))).getD 0

/-- Stores one row of postmark `post` in a free slot (R162): its summary bit is set (R157), its entry is made or repointed, and the entry's
bucket is written (R181); the directory's bytes themselves are not modelled, and stay as they are (log entry 45). A repointed entry leaves
the entry reservation for the completion (R173). -/
def State.stage (s : State) (cl : Client) (cid tid post row : Nat) (bs : List Byte) (poison : Bool) : State :=
  match Tab.at? s.tables tid with
  | none => s
  | some t =>
    let (sh, l) := t.locate row
    let k := t.freeSlot sh
    let s := (s.pwrite cl cid (t.slot sh k) 0 (pad64 bs) poison).setSum (t.stnOf sh) tid sh l
    let s := match t.bucket tid sh l (t.probes s.fresh - 1) with
      | some g => s.draw.twrite cl cid g (s.tread g 64) false
      | none => s
    let mine := fun (e : DirEnt) => e.shard == sh && e.row == l && e.post == post
    let s := s.updTable tid (fun t =>
      { t with
        dir := if t.dir.any mine then t.dir.map (fun e => if mine e then { e with slot := k } else e) else t.dir ++ [⟨sh, l, post, k⟩]
        inUse := if t.dir.any mine then t.inUse else Tab.put t.inUse sh (Tab.atD t.inUse sh 0 + 1)
        writers := t.writers.map (fun w => if w.client = cl then
          { w with resv := w.resv.erase sh, ents := if t.dir.any mine then w.ents else w.ents.erase sh } else w) })
    if poison then s.updCmd cl (fun c => { c with poison := true }) else s

/-- Adds the deltas of a row, in list order (R161). -/
def addDeltas (x : List Word) (ds : List (List Word)) : List Word := ds.foldl (fun x d => List.zipWith fadd x d) x

/-- The memory-port reads of a row on its station (R106). -/
def rowItems (stn : Nat) (ps : List Piece) : List Item :=
  (rowOps stn ps).map (fun o => { tgt := ⟨false, stn, o.1⟩, len := o.2, operand := false })

/-- A row as the staged view of an UPDATE_ACCUM shows it (R161 step 1): its pieces, address and first bad sector. -/
def State.staged (s : State) (t : Table) (u : UpdW) (row : Nat) : List Piece × Nat × Option (Nat × Nat × Nat) :=
  let v := (t.ver? u.ver).getD ⟨u.ver, 0, 0, 0⟩
  let stn := t.rowStn (some row)
  let t' := if s.mayHave stn u.tid (t.locate row).1 (t.locate row).2 then t else { t with dir := [] }
  let (ps, addr) := t'.view v.base v.floor u.post (some row)
  (ps, addr, rowFault stn t.rowB ps)

/-- The rows that an UPDATE_ACCUM adds to are read (R161 step 1). -/
def State.readRows (s : State) (cl : Client) (c : Cmd) (u : UpdW) : State :=
  match Tab.at? s.tables u.tid with
  | none => s
  | some t => s.fetchMore cl (s.cidOf c) 5 (u.rows.eraseDups.flatMap (fun r =>
      match s.staged t u r with
      | (ps, _, none) => rowItems (t.rowStn (some r)) ps
      | _ => []))

/-- The directory bucket of probe step `k` for a row, and the reads of the buckets that an update probes (R181). -/
def Table.bucketOf (t : Table) (tid row k : Nat) : Option Tgt := t.bucket tid (t.locate row).1 (t.locate row).2 k
def State.probeItems (s : State) (tid : Nat) (t : Table) (row : Nat) : List Item :=
  (List.range (t.probes s.fresh)).filterMap (fun k => (t.bucketOf tid row k).map (fun g => { tgt := g, len := 64, operand := false }))
/-- An update reads the buckets that it probes for its rows (R181). -/
def State.readBuckets (s : State) (cl : Client) (c : Cmd) (u : UpdW) : State :=
  match Tab.at? s.tables u.tid with
  | none => s
  | some t => s.draw.fetchMore cl (s.cidOf c) 4 (u.rows.eraseDups.flatMap (s.probeItems u.tid t))
/-- Some bucket that an update read for a row arrived poisoned: the row is then taken as poisoned (log entry 45). -/
def Table.bucketBad (t : Table) (its : List Item) (tid row : Nat) : Bool :=
  (List.range (ceilDiv t.ovlSlots 2)).any (fun k => match t.bucketOf tid row k with
    | some g => its.any (fun i => i.tgt == g && i.len == 64 && i.bad != [])
    | none => false)

/-- Writes one distinct row of an update (R160-R162). -/
def State.writeRow (s : State) (cl : Client) (c : Cmd) (u : UpdW) (row : Nat) : State :=
  match Tab.at? s.tables u.tid with
  | none => s
  | some t =>
    let src := (c.ranges[1]?).getD []
    let occ := (u.rows.zipIdx).filter (fun x => x.1 == row)
    let size := c.uSize t
    let cid := s.cidOf c
    let at_ := fun (i : Nat) => s.brought c.items src (i * c.uStride t) size
    let dirBad := c.items.any (fun i => i.bad != []) && t.bucketBad c.items u.tid row
    let bad := fun (i : Nat) => dirBad || s.arrivedBad c.items src (i * c.uStride t) size
    if c.isAccum then
      let (ps, addr, ft) := s.staged t u row
      let stn := t.rowStn (some row)
      let s := match ft with
        | some f => (s.postFor (s.pidOf cid) (s.rowRec c t.owner stn addr f)).updCmd cl (fun c => { c with status := stFault })
        | none => s
      let x := if ft.isSome then List.replicate t.width 0 else decodeRow t.fmt t.width (s.brought c.items ps 0 t.rowB)
      let y := addDeltas x (occ.map (fun o => decodeRow c.uDfmt t.width (at_ o.2)))
      s.stage cl cid u.tid u.post row (encodeRow t.fmt c.uSat y) (ft.isSome || s.arrivedBad c.items ps 0 t.rowB || occ.any (fun o => bad o.2))
    else
      let i := ((occ.getLast?).map (·.2)).getD 0
      s.stage cl cid u.tid u.post row (at_ i) (bad i)

/-- An update writes its rows; one that does not publish is then complete (R160-R162, R165). -/
def State.writeRows (s : State) (cl : Client) (c : Cmd) (u : UpdW) : State :=
  let s := u.rows.eraseDups.foldl (fun s r => s.writeRow cl c u r) s
  let s := s.updTable u.tid (fun t => { t with writers := t.writers.map (fun w => if w.client = cl then { w with applied := true } else w) })
  if c.publish then s
  else s.finish cl (((s.cmd cl).map (fun c => if c.status = stFault then stFault else stOk)).getD stOk) u.rows.eraseDups.length u.post

/-- The next of an update's reads: the buckets it probes (stage 4), then an UPDATE_ACCUM's rows (5). -/
def State.updReads (s : State) (cl : Client) (c : Cmd) (u : UpdW) : State :=
  if c.stage = 3 then s.readBuckets cl c u else if c.isAccum ∧ c.stage = 4 then s.readRows cl c u else s

/-- The stations of an update's rows take its work as their next unit (R83). -/
def State.updTurn (s : State) (cl : Client) (c : Cmd) (u : UpdW) : Bool :=
  match Tab.at? s.tables u.tid with
  | some t => u.rows.all (fun r => !s.outranked cl c (t.rowStn (some r)))
  | none => true

/-- An update whose operands are read, and whose turn on the table and its stations has come, reads the buckets that it probes, an
UPDATE_ACCUM its rows, and writes its rows (R83, R161, R163, R165, R181). -/
def State.applyUpdate (s : State) (cl : Client) : State :=
  match s.cmd cl with
  | none => s
  | some c =>
    match c.work with
    | .upd u =>
      let first := ((Tab.at? s.tables u.tid).bind (fun t => t.writers.find? (fun w => !w.applied))).map (·.client)
      if c.phase = .running ∧ c.cancel.isNone ∧ c.allBack ∧ first = some cl ∧ s.updUp u ∧ (c.stage ≠ 3 ∨ s.updTurn cl c u) then
        let go := fun (s : State) => match s.cmd cl with
          | some c => if c.allBack then s.updReads cl c u else s
          | none => s
        let s := go (go s)
        match s.cmd cl with
        | some c => if c.allBack then s.writeRows cl c u else s
        | none => s
      else s
    | _ => s

/-- Applies the updates of a table that are ready, in acceptance order (R163). -/
def State.applyUpdates (tid : Nat) : Nat → State → State
  | 0, s => s
  | fuel + 1, s =>
    match (Tab.at? s.tables tid).bind (fun t => t.writers.find? (fun w => !w.applied)) with
    | none => s
    | some w =>
      let s' := s.applyUpdate w.client
      if ((Tab.at? s'.tables tid).map (fun t => t.writers.any (fun x => x.client == w.client && x.applied))).getD false
      then s'.applyUpdates tid fuel else s'

/-- Steps 7 to 10 of R164 and acceptance: pin, postmark, reservations, and for a publishing update its switch (R158, R166,
R173). -/
def State.updAccept (s : State) (cl : Client) (c : Cmd) : State :=
  match Tab.at? s.tables (c.num 8 2) with
  | none => s.finish cl stBadTable 0 0
  | some t =>
    if s.behind c then s else
    let tid := c.num 8 2
    let w := 2 ^ (c.uIw + 1)
    let rows := numsOf w (s.rangeBytes c 0 (c.uNr * w))
    let shs := rows.map (fun r => (t.locate r).1)
    s.checked cl (do
      need (rows.all (fun r => decide (r < t.rows) && r != 2 ^ (8 * w) - 1)) stBadOperand
      need t.rebase.isNone stTableBusy
      need (decide (t.s ≤ 0xFFFFFFF0)) stVersionExhausted
      need (t.roomFor shs) stOverlayFull) fun _ =>
      let u : UpdW := ⟨tid, t.s, t.cur, rows⟩
      let cid := s.cidOf c
      let s := s.pinAll cl [tid]
      let s := s.updTable tid (fun t => { t with
        writers := t.writers ++ [{ client := cl, post := t.s, resv := shs, ents := shs }]
        pend := if c.publish then t.pend ++ [⟨cl, false, t.s, none⟩] else t.pend
        s := if c.publish then t.s + 1 else t.s })
      let s := s.updCmd cl (fun c => { c with work := .upd u })
      s.fetchThen cl cid 3 (itemsOf false ((c.ranges[1]?).getD [])) (fun _ _ s => s.applyUpdates tid (t.writers.length + 1))

/-- UPDATE_ROWS and UPDATE_ACCUM (R160, R161, R164). -/
def State.doUpdate (cl : Client) (c : Cmd) (s : State) : State :=
  if c.stage = 0 then
    let cid := s.cidOf c
    s.checked cl (do let rs ← s.updChecks cl c; let ps ← s.mapRanges cl c cid rs; pure (rs, ps)) fun r =>
      let s := (s.touchRanges cl cid r.1).updCmd cl (fun c => { c with ranges := r.2 })
      s.fetchThen cl cid 1 (itemsOf true ((r.2[0]?).getD [])) (fun cl c s => s.withOperands cl c (fun c s => s.updAccept cl c))
  else if c.stage = 1 then s.withOperands cl c (fun c s => s.updAccept cl c)
  else s.applyUpdates (c.num 8 2) (s.cmds.length + 1)

/-! ### Switches (R166-R170) -/

/-- MODE of a table command (R270). -/
def Cmd.tmode (c : Cmd) : Nat := c.fld 10 1 0 2

/-- Closes the staging version: the command takes it as its own (R167). -/
def State.closeS (s : State) (cl : Client) (tid : Nat) (nb : Option (Nat × Nat)) (discard : Bool) : State :=
  match Tab.at? s.tables tid with
  | none => s
  | some t =>
    (s.updTable tid (fun t => { t with pend := t.pend ++ [⟨cl, discard, t.s, nb⟩], s := t.s + 1 })).updCmd cl
      (fun c => { c with phase := .running, stage := 8, work := .table tid t.s })

/-- Steps 1 and 2 of R170. -/
def State.switchTable (s : State) (c : Cmd) : Chk Table := do
  need (c.clean && decide (c.tmode < 3) && (c.tmode == 1 || c.num 16 8 == 0)) stBadOperand
  s.ownTable c

/-- The last checks of R170. -/
def switchFree (t : Table) : Chk Unit := do
  need t.rebase.isNone stTableBusy
  need (decide (t.s ≤ 0xFFFFFFF0)) stVersionExhausted

/-- TABLE_SWITCH MODE 0 PUBLISH and MODE 2 DISCARD (R167); an undefined MODE ends here (R170). -/
def State.doSwitch (cl : Client) (c : Cmd) (s : State) : State :=
  s.checked cl (do let t ← s.switchTable c; switchFree t; pure t) fun _ =>
    (s.closeS cl (c.num 8 2) none (c.tmode == 2)).settleTable (c.num 8 2)

/-- TABLE_SWITCH MODE 1 NEW_BASE (R167, R170): FLOOR_S = S. -/
def State.doNewBase (cl : Client) (c : Cmd) (s : State) : State :=
  s.checked cl (do
    let t ← s.switchTable c
    let t' ← s.newBase cl c t (c.num 16 8) false
    switchFree t
    pure t') fun t =>
    ((s.touchRanges cl (s.cidOf c) [(false, c.num 16 8, t.nshard * t.shardBytes)]).updTable (c.num 8 2) (fun _ => t)).closeS cl
      (c.num 8 2) (some (c.num 16 8, t.s)) false

/-! ### Retirement (R172) -/

/-- TABLE_RETIRE (R172). -/
def State.doRetire (cl : Client) (c : Cmd) (s : State) : State :=
  let tid := c.num 8 2
  s.checked cl (do
    need (c.clean && decide (c.tmode < 2) && (c.tmode == 0 || c.num 12 4 == 0)) stBadOperand
    let t ← s.ownTable c
    need (c.tmode == 1 || decide (c.num 12 4 ≤ t.cur)) stBadOperand
    pure t) fun t =>
    let v := if c.num 12 4 = 0 then t.cur else c.num 12 4
    let s := s.updCmd cl (fun c => { c with phase := .running, stage := 8, work := .table tid v })
    let s := if c.tmode = 1 then
        { s.updTable tid (fun t => { t with retiring := true }) with
          streams := Tab.mapV s.streams (fun _ x => if !x.row && x.tid == tid then { x with orphaned := true } else x) }
      else s
    s.settleTable tid

/-! ### Compaction (R174-R179) -/

/-- The reads of row `row` for a COPY of version `vc`; none where part of it lies in a hole (R175 step 2). -/
def State.copyItems (s : State) (tid : Nat) (t : Table) (vc row : Nat) : List Item :=
  let ps := (s.pinnedRow tid t vc (some row)).1
  let stn := t.rowStn (some row)
  s.dirItems tid t row ++ if (rowFault stn t.rowB ps).isSome then [] else rowItems stn ps

/-- TABLE_COMPACT MODE COPY (R175 steps 1 and 2, R176); an undefined MODE ends here (R174). Every row is read as version Vc
selects it. -/
def State.doCompact (cl : Client) (c : Cmd) (s : State) : State :=
  let tid := c.num 8 2
  if c.stage ≠ 0 then s else
  s.checked cl (do
    need (c.clean && c.tmode == 0 && decide (c.fld 11 1 0 5 ≤ 16)) stBadOperand
    let t ← s.ownTable c
    let t' ← s.newBase cl c t (c.num 16 8) true
    need (t.pend.all (fun p => p.discard || p.nb.isNone)) stTableBusy
    switchFree t
    pure t') fun t =>
    let s := ((s.touchRanges cl (s.cidOf c) [(false, c.num 16 8, t.nshard * t.shardBytes)]).updTable tid (fun _ =>
      { t with copying := some (cl, c.num 16 8) })).pinAll cl [tid]
    let s := s.updCmd cl (fun c => { c with work := .table tid t.cur })
    s.draw.fetchItems cl (s.cidOf c) 7 ((List.range t.rows).flatMap (s.copyItems tid t t.cur))

/-- Writes row `row` of version `vc` into the new base (R175 step 2). -/
def State.copyRow (s : State) (cl : Client) (c : Cmd) (tid vc nb row : Nat) : State :=
  match Tab.at? s.tables tid with
  | none => s
  | some t =>
    let cid := s.cidOf c
    let (sh, l) := t.locate row
    let ps := (s.pinnedRow tid t vc (some row)).1
    let hole := (rowFault (t.stnOf sh) t.rowB ps).isSome
    let bad := hole || s.arrivedBad c.items ps 0 t.rowB || (c.items.any (fun i => i.bad != []) && t.bucketBad c.items tid row)
    let s := s.pwrite cl cid (cutPieces (Tab.atD t.ext (nb * 64 + sh) []) (l * t.stride) t.stride) 0
      (if hole then pad64 (zeros t.rowB) else pad64 (s.brought c.items ps 0 t.rowB)) bad
    if bad then s.updCmd cl (fun c => { c with poison := true }) else s

/-- Every shard of a COPY is written, and the copy is installed as a NEW_BASE switch (R175 step 4, R178). -/
def State.copyInstall (s : State) (cl : Client) : State :=
  match s.cmd cl with
  | none => s
  | some c =>
    match c.work with
    | .table tid vc =>
      match Tab.at? s.tables tid with
      | none => s
      | some t =>
        if c.opcode = 0x1C ∧ c.phase = .running ∧ c.stage = 7 ∧ c.cancel.isNone ∧ c.allBack ∧ (t.copying.map (·.1)) = some cl ∧
            t.stations.all s.stnUp then
          let nb := c.num 16 8
          let s := (List.range t.rows).foldl (fun s r => s.copyRow cl c tid vc nb r) s
          if 0xFFFFFFF0 < t.s then
            (s.updTable tid (fun t => { t with copying := none })).finish cl stVersionExhausted 0 0
          else (s.closeS cl tid (some (nb, vc + 1)) false).updCmd cl (fun c => { c with stage := 9, items := [] })
        else s
    | _ => s

/-- Step 1 of a REBASE (R179): the stations rewrite the entries that CUR selects and release the others. -/
def State.rebaseNow (s : State) (tid : Nat) : State :=
  (s.releaseEntries tid (fun t e => t.vers.any (fun v => v.ver == t.cur && t.selects v e))).updTable tid (fun t =>
    { t with dir := t.dir.map (fun e => { e with post := 1 }) })

/-- Step 2 of a REBASE (R179), and step 3's release of the pins held back: those are taken once `rebase` is none. -/
def State.rebaseEnd (s : State) (tid : Nat) : State :=
  s.updTable tid (fun t => { t with
    clearAt := 1
    vers := (t.vers.filter (fun v => v.ver == t.cur)).map (fun v => { v with ver := 1, floor := 1 })
    cur := 1, s := 2, incomplete := [], retired := [], rebase := none })

/-- TABLE_COMPACT MODE REBASE (R179): accepted with its first row; with the next its stations carry out step 1, and with the one after it
ends. Lookups accepted in between wait for their pins (R158). -/
def State.doRebase (cl : Client) (c : Cmd) (s : State) : State :=
  let tid := c.num 8 2
  if c.stage = 0 then
    s.checked cl (do
      need (c.clean && c.num 11 1 == 0 && c.num 16 8 == 0) stBadOperand
      let t ← s.ownTable c
      need (t.vers.all (fun v => v.ver == t.cur && v.pins == 0) && t.retired == [] && t.writers == [] && t.pend == [] &&
        t.copying.isNone && t.rebase.isNone) stTableBusy) fun _ =>
      (s.updTable tid (fun t => { t with rebase := some cl })).updCmd cl (fun c => { c with phase := .running, stage := 1, work := .table tid 1 })
  else if c.stage = 1 then (s.rebaseNow tid).updCmd cl (fun c => { c with stage := 2 })
  else (s.rebaseEnd tid).finish cl stOk 1 1

/-! ### The overlay summary (R157) -/

/-- Live directory entries on a station. -/
def State.liveEntries (s : State) (stn : Nat) : Nat :=
  (s.tables.map (fun t => (t.2.dir.filter (fun e => t.2.stnOf e.shard == stn)).length)).foldl (· + ·) 0

/-- A COPY of the table has left directories that SSEQ0 may clear (R175). -/
def Table.mayClear (t : Table) : Bool := t.clear != [] && t.vers.all (fun v => t.clearAt ≤ v.ver) && t.retired == []

/-- The bits of the rows that have directory entries on a station (R157). -/
def State.summaryOf (s : State) (stn : Nat) : List Nat :=
  (s.tables.flatMap (fun t => (t.2.dir.filter (fun e => t.2.stnOf e.shard == stn)).map (fun e => sumBit t.1 e.shard e.row))).eraseDups

/-- The idle bank is filled and the banks are swapped (R157). -/
def Stn.swapSum (x : Stn) (b : List Nat) : Stn :=
  { (if x.sumSel then { x with sumA := b } else { x with sumB := b }) with sumSel := !x.sumSel, sumAll := false, sumRel := 0 }

/-- SSEQ0 rebuilds a station's summary, and clears directories of released entries after a COPY (R157, R175). -/
def State.summaryRebuild (s : State) (stn : Nat) : State :=
  let x := Tab.atD s.stns stn {}
  let due := x.sumAll || decide (s.liveEntries stn < x.sumRel) || Tab.ex s.tables (fun _ t => t.mayClear && t.clear.any (fun i => t.stnOf i == stn))
  if due && s.stnUp stn then
    { s with
      stns := Tab.put s.stns stn (x.swapSum (s.summaryOf stn))
      tables := Tab.mapV s.tables (fun _ t =>
        if t.mayClear then
          { t with
            inUse := (t.clear.filter (fun i => t.stnOf i == stn)).foldl (fun u i => Tab.put u i (t.used i)) t.inUse
            clear := t.clear.filter (fun i => t.stnOf i != stn) }
        else t) }
  else s

/-- UPDATE_ROWS (R160). -/
def execUpdateRows (q seq : Nat) (s : State) : Out := .next (s.start q seq (fun c => c.opcode == 0x18) State.doUpdate)
/-- UPDATE_ACCUM (R161). -/
def execUpdateAccum (q seq : Nat) (s : State) : Out := .next (s.start q seq (fun c => c.opcode == 0x19) State.doUpdate)
/-- TABLE_SWITCH MODE 0 (R166), and the undefined MODE 3. -/
def execTableSwitchPublish (q seq : Nat) (s : State) : Out :=
  .next (s.start q seq (fun c => c.opcode == 0x1A && (c.tmode == 0 || c.tmode == 3)) State.doSwitch)
/-- TABLE_SWITCH MODE 1 (R166). -/
def execTableSwitchNewBase (q seq : Nat) (s : State) : Out :=
  .next (s.start q seq (fun c => c.opcode == 0x1A && c.tmode == 1) State.doNewBase)
/-- TABLE_SWITCH MODE 2 (R167). -/
def execTableSwitchDiscard (q seq : Nat) (s : State) : Out :=
  .next (s.start q seq (fun c => c.opcode == 0x1A && c.tmode == 2) State.doSwitch)
/-- SWITCH_POINT (R168). -/
def execSwitchPoint (tid : Nat) (s : State) : Out := .next (s.switchPoint tid)
/-- VERSION_RETIRE (R171). -/
def execVersionRetire (tid ver : Nat) (s : State) : Out := .next ((s.versionRetire tid ver).settleTable tid)
/-- TABLE_RETIRE MODE 0 (R172), and the undefined modes. -/
def execTableRetireWait (q seq : Nat) (s : State) : Out :=
  .next (s.start q seq (fun c => c.opcode == 0x1B && c.tmode != 1) State.doRetire)
/-- TABLE_RETIRE MODE 1 (R172). -/
def execTableRetireTable (q seq : Nat) (s : State) : Out :=
  .next (s.start q seq (fun c => c.opcode == 0x1B && c.tmode == 1) State.doRetire)
/-- TABLE_COMPACT MODE 0 (R175), and the undefined modes. -/
def execTableCompactCopy (q seq : Nat) (s : State) : Out :=
  .next (s.start q seq (fun c => c.opcode == 0x1C && c.tmode != 1) State.doCompact)
/-- COPY_INSTALL (R175). -/
def execCopyInstall (q seq : Nat) (s : State) : Out := .next (s.copyInstall (ckey q seq))
/-- SUMMARY_REBUILD (R157). -/
def execSummaryRebuild (stn : Nat) (s : State) : Out := .next (s.summaryRebuild stn)

end Sys2Proof.Machine
end

