-- ==== Sys2Proof/Machine/Stream.lean ====
section
/-! DEFINITION. Sys2Proof/Machine/Stream.lean: streams (R182-R203, R494): opening, appending, gathering, trimming and
closing, in acceptance order on each stream. -/
namespace Sys2Proof.Machine

/-- Bytes of a stream's element, and ESTRIDE (R184). -/
def Stream.elemB (x : Stream) : Nat := if x.row then rowBytes x.fmt x.width else 8
def Stream.estride (x : Stream) : Nat := if x.row then up64 x.elemB else 8
/-- V, the lowest visible position (R187). -/
def Stream.low (x : Stream) : Nat := max x.first (x.total - x.cap)
/-- Byte offset of a position's slot (R187). -/
def Stream.offset (x : Stream) (p : Nat) : Nat := p % x.cap * x.estride
/-- Changes a stream. -/
def State.updStream (s : State) (sid : Nat) (f : Stream → Stream) : State := { s with streams := Tab.upd s.streams sid f }

/-- The station's own part of the region: what lies elsewhere counts as unmapped (R89, R494). -/
def Stream.mine (x : Stream) : List Piece :=
  x.ext.map (fun p => { p with tgt := p.tgt.bind (fun t => if t.host || t.stn != x.stn then none else some t) })

/-- The first sector of positions' elements that the station cannot reach: address offset in the region, fault type and
physical address (R494). -/
def Stream.hole (x : Stream) (ps : List Nat) : Option (Nat × Nat × Nat) :=
  (ps.filterMap (fun p => (rowFault x.stn x.elemB (cutPieces x.ext (alignDown (x.offset p) 64) (x.offset p % 64 + x.elemB))).map
    (fun f => (alignDown (x.offset p) 64 + f.1, f.2.1, f.2.2)))).head?

/-! ### STREAM_OPEN (R182-R185) -/

/-- Fields of a stream descriptor (R183). -/
def sKindRow (d : List Byte) : Bool := lf d 2 1 0 1 == 1
def sFmt (d : List Byte) : Nat := rd d 6 1
def sWidth (d : List Byte) : Nat := lf d 8 2 0 13
def sCap (d : List Byte) : Nat := lf d 12 4 0 25
def sEsize (d : List Byte) : Nat := if sKindRow d then up64 (rowBytes (sFmt d) (sWidth d)) else 8

/-- Reserved and input-zero fields of a descriptor are zero, and its fields lie in their ranges (R183, R185). -/
def streamOk (d : List Byte) : Bool :=
  zeroOutside 0 d [(0, 2), (2, 1), (3, 1), (4, 2), (6, 1), (8, 2), (12, 4), (16, 8), (32, 16)] &&
  lf d 0 2 14 2 == 0 && lf d 2 1 3 5 == 0 && lf d 3 1 6 2 == 0 && lf d 8 2 13 3 == 0 && lf d 12 4 25 7 == 0 &&
  decide (1 ≤ sCap d ∧ sCap d ≤ 2 ^ 24) && rd d 16 8 % 64 == 0 &&
  (if sKindRow d then rd d 4 2 == 0 && fmtDefined (sFmt d) && decide (1 ≤ sWidth d ∧ sWidth d ≤ 4096) && decide (rowBytes (sFmt d) (sWidth d) ≤ 16384)
   else sFmt d == 0 && sWidth d == 0)

/-- The checks of R185 on a descriptor that was read: the region's extents. Reserved envelope fields and a misaligned DESC_PTR count at
the ST_BAD_OPERAND check (R261, R271). -/
def State.streamChecks (s : State) (cl : Client) (c : Cmd) (d : List Byte) : Chk (List Piece) := do
  let cid := s.cidOf c
  let stn := lf d 3 1 0 6
  need (!(sKindRow d && fmtMx (sFmt d)) || s.build.mx) stUnitAbsent
  need (c.clean && c.num 24 8 % 64 == 0 && streamOk d) stBadOperand
  let t := Tab.at? s.tables (rd d 4 2)
  need (sKindRow d || (match t with | some t => !t.retiring | none => false)) stBadTable
  need (s.owns (s.pidOf cid) stn && (sKindRow d || (match t with | some t => s.mayRead cid t | none => false))) stNotPermitted
  let ps ← s.mapAll cl c cid true (rd d 16 8) (sCap d * sEsize d)
  need (decide (extents ps ≤ 1024) && !elsewhere stn ps) stBadOperand
  need ((Tab.freeFrom s.streams 0 16384).isSome) stNoStream
  pure ps

/-- STREAM_OPEN with its descriptor read (R182, R185): the lowest free SID is taken (log entry 7). -/
def State.openStream (s : State) (cl : Client) (c : Cmd) : State :=
  let d := s.rangeBytes c 0 64
  s.checked cl (s.streamChecks cl c d) fun ps =>
    match Tab.freeFrom s.streams 0 16384 with
    | none => s
    | some sid =>
      let cid := s.cidOf c
      let x : Stream := { pid := s.pidOf cid, row := sKindRow d, strict := lf d 2 1 1 1 == 1, shared := lf d 2 1 2 1 == 1,
                          stn := lf d 3 1 0 6, tid := rd d 4 2, fmt := sFmt d, width := sWidth d, cap := sCap d, base := rd d 16 8,
                          owner := cid, raw := d, ext := ps }
      ({ s.touchRanges cl cid [(true, rd d 16 8, sCap d * sEsize d)] with streams := Tab.put s.streams sid x }).finish cl stOk sid 0

/-- STREAM_OPEN (R182, R271): its descriptor is translated and read before any other check (R262). -/
def State.doStreamOpen (cl : Client) (c : Cmd) (s : State) : State :=
  let cid := s.cidOf c
  if c.stage = 0 then
    s.checked cl (s.mapAll cl c cid false (c.num 24 8) 64) fun ps =>
      let s := (s.touchRanges cl cid [(false, c.num 24 8, 64)]).updCmd cl (fun c => { c with ranges := [ps] })
      s.fetchThen cl cid 1 (itemsOf true ps) (fun cl c s => s.withOperands cl c (fun c s => s.openStream cl c))
  else s.withOperands cl c (fun c s => s.openStream cl c)

/-! ### The order on a stream (R200) -/

/-- A command of a stream has been applied. -/
def State.popOrder (s : State) (sid : Nat) (cl : Client) : State := s.updStream sid (fun x => { x with order := x.order.filter (· != cl) })
/-- A command takes its place in a stream's order. -/
def State.joinOrder (s : State) (sid : Nat) (cl : Client) : State :=
  s.updStream sid (fun x => { x with order := x.order ++ [cl], users := x.users.filter (fun u => (s.cmd u).isSome) ++ [cl] })

/-- Writes the elements of an append and commits it (R191, R192, R494). -/
def State.commitAppend (s : State) (cl : Client) (c : Cmd) (sid skip n : Nat) : State :=
  match Tab.at? s.streams sid with
  | none => s.finish cl stOk 0 0
  | some x =>
    let cid := s.cidOf c
    let src := (c.ranges[0]?).getD []
    let st := if c.num 16 4 = 0 then x.estride else c.num 16 4
    let els := (List.range n).map (fun i =>
      let o := (skip + i) * st
      (x.offset (x.total + i), s.brought c.items src o x.elemB ++ zeros (x.estride - x.elemB), s.arrivedBad c.items src o x.elemB))
    let f := x.hole ((List.range n).map (fun i => x.total + i))
    let put := fun (s : State) (e : Nat × List Byte × Bool) => s.pwrite cl cid x.mine e.1 e.2.1 e.2.2
    let s := (els.filter (fun e => !e.2.2)).foldl put s
    let s := (els.filter (fun e => e.2.2)).foldl put s
    let s := match f with
      | some f => s.postFor (s.pidOf cid) { s.rowRec c x.owner x.stn x.base f with write := true }
      | none => s
    let tot := min (x.total + n) (2 ^ 64 - 1)
    let s := (s.updStream sid (fun x => { x with total := tot })).popOrder sid cl
    (s.updCmd cl (fun c => { c with poison := c.poison || els.any (fun e => e.2.2) })).finish cl (if f.isSome then stFault else stOk) n (tot % 2 ^ 32)

/-- Applies a TRIM (R201). -/
def State.applyTrim (s : State) (cl : Client) (sid keep : Nat) : State :=
  match Tab.at? s.streams sid with
  | none => s.finish cl stOk 0 0
  | some x =>
    let x' := { x with first := max x.first (x.total - keep) }
    ((s.updStream sid (fun _ => x')).popOrder sid cl).finish cl stOk (x'.total - x'.low) (x'.total % 2 ^ 32)

/-! ### STREAM_GATHER (R194-R199) -/

def Cmd.gG (c : Cmd) : Nat := c.fld 8 4 0 17
def Cmd.gK (c : Cmd) : Nat := c.fld 12 4 0 17
def Cmd.gOffset (c : Cmd) : Nat := c.fld 16 4 0 24
def Cmd.gAlign (c : Cmd) : Nat := c.fld 16 4 24 2
/-- The gather's destination (R272). -/
def Cmd.gDest (c : Cmd) : DestOp := ⟨c.fld 16 4 26 1 == 1, c.num 20 4, c.num 48 8, c.num 56 8⟩
def Cmd.gOfmt (c : Cmd) : Nat := c.num 32 1

/-- The positions a sequence takes with the slot of each (R195). -/
def Stream.fill (x : Stream) (k off align : Nat) : List (Nat × Nat) :=
  let e := x.total - off
  let n := if k = 0 ∨ x.total ≤ off ∨ e ≤ x.low then 0 else min k (e - x.low)
  (List.range n).map (fun i => (e - n + i, if align = 0 then k - n + i else n - 1 - i))

/-- The SIDs of a gather, in order. -/
def State.gSids (s : State) (c : Cmd) : List Nat := numsOf 2 (s.rangeBytes c 0 (2 * c.gG))
/-- The output-pointer block (R272): LEN, POS and ATTR pointers. -/
def State.gAux (s : State) (c : Cmd) : List Byte := if c.num 40 8 = 0 then zeros 32 else s.rangeBytes c 1 32

/-- Elements a width means for a gather's rows: of the bound table, or of the streams. -/
def State.gWidth (s : State) (x : Stream) : Nat := if x.row then x.width else ((Tab.at? s.tables x.tid).map (·.width)).getD 0

/-- The width of a gather's rows where the streams give one: that of the first which is not orphaned, whose table is still the one it was
bound to (R200). -/
def State.rowWidth (s : State) (xs : List Stream) : Option Nat := (xs.find? (fun x => x.row || !x.orphaned)).map s.gWidth
/-- A stream takes commands other than STREAM_CLOSE: its owner is not detached (R203). -/
def State.takes (s : State) (x : Stream) : Bool :=
  match Tab.at? s.ctxs x.owner with
  | some o => !o.detached
  | none => true

/-- The rest of R199 once the SID list and block are read: the streams and the ranges LEN, POS, ATTR, output, flags. A
stream whose owner is detached gives ST_NOT_PERMITTED (log entry 98). -/
def State.gatherChecks (s : State) (cl : Client) (c : Cmd) : Chk (List Stream × List (Bool × Nat × Nat)) := do
  let cid := s.cidOf c
  let pid := s.pidOf cid
  let sids := s.gSids c
  let aux := s.gAux c
  let n := c.gG * c.gK
  need (sids.all (fun i => decide (i < 16384)) && rd aux 24 8 == 0) stBadOperand
  let xs ← sids.mapM (fun i => match Tab.at? s.streams i with
    | some x => if x.pid = pid ∧ x.closing = false then .ok x else .error (.fail stBadStream none)
    | none => .error (.fail stBadStream none))
  need (xs.all (fun x => (x.shared || x.owner == cid) && s.takes x) && (!c.gDest.eng || s.ownsEp cid c.gDest.out)) stNotPermitted
  match xs.head? with
  | none => .error (.fail stBadOperand none)
  | some x0 =>
    let size := rowBytes (ofCode c.gOfmt) (s.gWidth x0)
    need (xs.all (fun x => x.row == x0.row && x.tid == x0.tid && x.fmt == x0.fmt && x.width == x0.width) &&
      !(x0.row && rd aux 16 8 != 0) && (c.gDest.stride == 0 || (match s.rowWidth xs with
        | some w => decide (rowBytes (ofCode c.gOfmt) w ≤ c.gDest.stride)
        | none => true))) stBadOperand
    need (x0.row || xs.all (fun x => !x.orphaned)) stBadTable
    let opt := fun (p len : Nat) => (true, p, if p = 0 then 0 else len)
    let out := c.gDest.ranges n size c.gG
    let rs := [out[0]?.getD (true, 0, 0), opt (rd aux 0 8) (4 * c.gG), opt (rd aux 8 8) (4 * n), opt (rd aux 16 8) (4 * n), out[1]?.getD (true, 0, 0)]
    let _ ← s.mapRanges cl c cid rs
    pure (xs, rs)

/-- Accepts a gather: it pins the bound table and takes its place on its streams (R197, R200). While a REBASE of the table
runs the pin waits for its end (R158). -/
def State.gatherAccept (s : State) (cl : Client) (c : Cmd) : State :=
  if s.behind c then s else
  let cid := s.cidOf c
  s.checked cl (do let r ← s.gatherChecks cl c; let ps ← s.mapRanges cl c cid r.2; pure (r, ps)) fun r =>
    let tids := (r.1.1.filter (fun x => !x.row)).map (·.tid)
    let held := tids.any (fun t => ((Tab.at? s.tables t).bind (·.rebase)).isSome)
    let sids := (s.gSids c).eraseDups
    let s := s.touchRanges cl cid r.1.2
    let s := if held then s else s.pinAll cl tids
    let s := s.updCmd cl (fun c => { c with stage := 3, items := [], ranges := c.ranges.take 2 ++ r.2, work := .gather sids false })
    sids.foldl (fun s i => s.joinOrder i cl) s

/-- A gather of KIND ROW: the rows of the tensor with their poison (R195, R196). -/
def rowTensor (k ofmt width : Nat) (seqs : List (List (Nat × List Word × Bool))) : List (List Byte × Bool) :=
  seqs.flatMap (fun q => (List.range k).map (fun r =>
    match q.find? (fun e => e.1 == r) with
    | some e => (pad64 (encodeRow (ofCode ofmt) (ofSat ofmt) (if e.2.2 then List.replicate width 0 else e.2.1)), e.2.2)
    | none => (pad64 (encodeRow (ofCode ofmt) (ofSat ofmt) (List.replicate width 0)), false)))

/-- One sequence of a gather as it is served: its stream and the positions and slots it takes. -/
abbrev Seq := Stream × List (Nat × Nat)

/-- Writes the counts, ages and attributes of a gather (R194, R195): `elem` gives the bytes of an element, those stored where it
arrived poisoned and zeros where its sector is unmapped (log entry 104). -/
def State.gatherMeta (s : State) (cl : Client) (cid : Nat) (c : Cmd) (seqs : List Seq) (elem : Stream → Nat → List Byte) : State :=
  let k := c.gK
  let put := fun (s : State) (i : Nat) (vs : List Nat) =>
    let ps := (c.ranges[i]?).getD []
    if ps = [] then s else s.pwrite cl cid ps 0 (vs.flatMap (leBytes 4)) false
  let slot := fun (q : Seq) (f : Nat → Nat) (d : Nat) => (List.range k).map (fun r => match q.2.find? (fun e => e.2 == r) with
    | some e => f e.1
    | none => d)
  let s := put s 3 (seqs.map (fun q => q.2.length))
  let s := put s 4 (seqs.flatMap (fun q => slot q (fun p => q.1.total - 1 - p) (2 ^ 32 - 1)))
  put s 5 (seqs.flatMap (fun q => slot q (fun p => bits (leNat (elem q.1 p)) 40 24) 0))

/-- A gather's element reads are back: its turn on its streams ends, and its rows are made (R195, R196). -/
def State.gatherServe (s : State) (cl : Client) (c : Cmd) (sids : List Nat) : State :=
  let cid := s.cidOf c
  let k := c.gK
  let seqs : List Seq := ((s.gSids c).filterMap (Tab.at? s.streams)).map (fun x => (x, x.fill k c.gOffset c.gAlign))
  match seqs.head? with
  | none => s
  | some q0 =>
    let x0 := q0.1
    let elem := fun (x : Stream) (p : Nat) => s.brought c.items x.mine (x.offset p) x.elemB
    let bad := fun (x : Stream) (p : Nat) => (x.hole [p]).isSome || s.arrivedBad c.items x.mine (x.offset p) x.elemB
    let holes := seqs.filterMap (fun q => (q.1.hole (q.2.map (·.1))).map (fun f => (q.1, f)))
    let fbits : Tab Nat := (seqs.zipIdx).map (fun q => (q.2, poolFlags (q.1.2.any (fun e => bad q.1.1 e.1)) (q.1.2 == []) false))
    let po := fbits.any (fun f => bit f.2 0)
    let em := fbits.any (fun f => bit f.2 1)
    let s := match holes.head? with
      | some (x, f) => s.postFor (s.pidOf cid) (s.rowRec c x.owner x.stn x.base f)
      | none => s
    let s := s.gatherMeta cl cid c seqs elem
    let s := sids.foldl (fun s i => s.popOrder i cl) s
    let n := c.gG * k
    let dst : Dest := s.mkDest c [0] n (rowBytes (ofCode c.gOfmt) (s.gWidth x0)) (s.gWidth x0) 2 c.gDest
    let dst := { dst with flags := (c.ranges[6]?).getD [], nflags := c.gG, group := max k 1, fbits := fbits }
    let run := fun (s : State) (w : LookW) =>
      (s.updCmd cl (fun c => { c with stage := 8, items := [], work := .look w })).nextBlock cl cid 2
    let w0 : LookW := { subs := [], dests := [], shares := [], count := n, poison := po, empty := em, fault := holes != [] }
    if x0.row then
      let rows := rowTensor k c.gOfmt x0.width (seqs.map (fun q => q.2.map (fun e => (e.2, decodeRow x0.fmt x0.width (elem q.1 e.1), bad q.1 e.1))))
      let s := match dst.ep with
        | none => (rows.zipIdx).foldl (fun (s : State) (r : (List Byte × Bool) × Nat) => s.pwrite cl cid dst.out (r.2 * dst.stride) r.1.1 false) s
        | some _ => s
      let s := s.putFlags cl cid { w0 with dests := [dst] }
      run (s.updCmd cl (fun c => { c with left := true })) { w0 with written := n, rows := match dst.ep with
        | some e => (rows.zipIdx).map (fun r => ⟨e, r.2, r.1.1, r.1.2⟩)
        | none => [] }
    else
      match Tab.at? s.tables x0.tid, (c.pins.find? (fun p => p.1 == x0.tid)) with
      | some t, some pin =>
        let mark := 2 ^ 40 - 1
        let spoiled := (seqs.zipIdx).flatMap (fun q => (q.1.2.filter (fun e => bad q.1.1 e.1)).map (fun e => q.2 * k + e.2))
        let pools := (seqs.zipIdx).flatMap (fun q => (q.1.2.filter (fun e => !bad q.1.1 e.1)).map (fun e =>
          (q.2 * k + e.2, [(bits (leNat (elem q.1.1 e.1)) 0 40, (0x3F800000 : Word))])))
        let (sb, occs) := splitSub t pin.2 7 c.gOfmt 0 0 mark x0.tid pools
        let occs := occs.mergeSort (fun a b => a.pool ≤ b.pool)
        run s { w0 with spoiled := spoiled, subs := [sb], dests := [dst], shares := sharesOf t 0 occs }
      | _, _ => s.finish cl stBadTable 0 0

/-- The element reads of a gather (R195, R200). -/
def State.gatherReads (s : State) (c : Cmd) : List Item :=
  ((s.gSids c).filterMap (Tab.at? s.streams)).flatMap (fun x =>
    (x.fill c.gK c.gOffset c.gAlign).flatMap (fun e => itemsOf false (cutPieces x.mine (x.offset e.1) x.elemB)))

/-- The table that a gather of KIND INDEX names. -/
def State.gTid (s : State) (sids : List Nat) : Option Nat :=
  (sids.head?.bind (Tab.at? s.streams)).bind (fun x => if x.row then none else some x.tid)
/-- A gather whose pin a REBASE holds back takes it when the REBASE has ended (R158). -/
def State.pinLate (s : State) : State :=
  s.cmds.foldl (fun s e => match e.2.work with
    | .gather sids _ => match s.gTid sids with
      | some t =>
        if e.2.phase = .running ∧ e.2.pins = [] ∧ ((Tab.at? s.tables t).bind (·.rebase)).isNone then s.pinAll e.1 [t] else s
      | none => s
    | _ => s) s

/-- A station takes a command's stream work as its next unit (R83). -/
def State.strTurn (s : State) (cl : Client) (c : Cmd) (stn : Nat) : Bool := s.stnUp stn && !s.outranked cl c stn

/-- The command at the head of a stream's order is applied when it can be (R83, R200): none where it must wait. -/
def State.streamStep (s : State) (sid : Nat) : Option State :=
  match Tab.at? s.streams sid with
  | none => none
  | some x =>
    match x.order.head? with
    | none => none
    | some cl =>
      match s.cmd cl with
      | none => some (s.popOrder sid cl)
      | some c =>
        if c.cancel.isSome ∨ c.phase ≠ .running then none else
        match c.work with
        | .append _ skip n => if c.allBack ∧ s.strTurn cl c x.stn then some (s.commitAppend cl c sid skip n) else none
        | .trim _ keep => if s.strTurn cl c x.stn then some (s.applyTrim cl sid keep) else none
        | .gather sids served =>
          let head := fun (i : Nat) => match Tab.at? s.streams i with
            | some y => y.order.head? == some cl && s.strTurn cl c y.stn
            | none => true
          if served then (if c.allBack then some (s.gatherServe cl c sids) else none)
          else if sids.all head && ((s.gTid sids).isNone || c.pins != []) then
            some ((s.updCmd cl (fun c => { c with work := .gather sids true })).fetchItems cl (s.cidOf c) 4 (s.gatherReads c))
          else none
        | _ => none

/-- Applies what can be applied on the streams, in order (R200). -/
def State.runStreams : Nat → State → State
  | 0, s => s
  | fuel + 1, s =>
    match s.streams.findSome? (fun e => s.streamStep e.1) with
    | some s' => s'.runStreams fuel
    | none => s

/-- Applies what the streams' orders allow. -/
def State.settleStreams (s : State) : State :=
  s.runStreams (3 * (s.streams.map (fun e => e.2.order.length)).foldl (· + ·) 0 + 1)

/-- STREAM_GATHER (R194, R199): the SID list and output-pointer block are read first (stage 1). -/
def State.doGather (cl : Client) (c : Cmd) (s : State) : State :=
  let cid := s.cidOf c
  if c.stage = 0 then
    s.checked cl (do
      need (!fmtMx (ofCode c.gOfmt) || s.build.mx) stUnitAbsent
      need (c.clean && decide (1 ≤ c.gG ∧ c.gG ≤ 65536 ∧ c.gK ≤ 65536 ∧ c.gG * c.gK ≤ 2 ^ 24 ∧ c.gAlign < 2) && fmtOutput (ofCode c.gOfmt) &&
        destOk c.gDest.eng c.gDest.stride c.gDest.out && c.num 24 8 % 2 == 0 && c.num 40 8 % 32 == 0) stBadOperand
      let rs := [(false, c.num 24 8, 2 * c.gG), (false, c.num 40 8, if c.num 40 8 = 0 then 0 else 32)]
      let ps ← s.mapRanges cl c cid rs
      pure (rs, ps)) fun r =>
      let s := (s.touchRanges cl cid r.1).updCmd cl (fun c => { c with ranges := r.2 })
      s.fetchThen cl cid 1 (r.2.flatMap (itemsOf true)) (fun cl c s => s.withOperands cl c (fun c s => (s.gatherAccept cl c).settleStreams))
  else if c.stage = 1 then s.withOperands cl c (fun c s => (s.gatherAccept cl c).settleStreams)
  else s.settleStreams

/-! ### STREAM_APPEND, STREAM_CLOSE (R188-R193, R201) -/

/-- Steps 2 and 3 of R193. -/
def State.ownStream (s : State) (c : Cmd) : Chk Stream := do
  let cid := s.cidOf c
  match Tab.at? s.streams (c.fld 8 2 0 14) with
  | none => .error (.fail stBadStream none)
  | some x =>
    need (x.pid == s.pidOf cid && !x.closing) stBadStream
    need (x.owner == cid) stNotPermitted
    pure x

/-- The stream once the appends and trims accepted and not cancelled have been applied in their order (R188, R200, R201). -/
def State.projected (s : State) (x : Stream) : Stream :=
  x.order.foldl (fun x cl => match s.cmd cl with
    | some c =>
      if c.cancel.isSome then x else
      match c.work with
      | .append _ _ n => { x with total := x.total + n }
      | .trim _ keep => { x with first := max x.first (x.total - keep) }
      | _ => x
    | none => x) x

/-- Source elements skipped and written, and whether the append is cut (R188): `x` as the commands accepted before leave it. -/
def Stream.plan (x : Stream) (n : Nat) : Nat × Nat × Bool :=
  if x.strict then
    let room := x.cap - (x.total - max x.first (x.total - x.cap))
    (0, min n room, decide (room < n))
  else (n - x.cap, min n x.cap, decide (x.cap < n))

/-- STREAM_APPEND (R189-R193). -/
def State.doAppend (cl : Client) (c : Cmd) (s : State) : State :=
  if c.stage ≠ 0 then s.settleStreams else
  let cid := s.cidOf c
  let n := c.fld 12 4 0 25
  let st := c.num 16 4
  let sid := c.fld 8 2 0 14
  s.checked cl (do
    need (c.clean && decide (n ≤ 2 ^ 24) && st % 64 == 0) stBadOperand
    let x ← s.ownStream c
    need (if x.row then st == 0 || decide (x.elemB ≤ st) else st == 0) stBadOperand
    let es := if st = 0 then x.estride else st
    let rs := [(false, c.num 24 8, if n = 0 then 0 else (n - 1) * es + x.elemB)]
    let ps ← s.mapRanges cl c cid rs
    need (!(x.strict && ((s.projected x).plan n).2.2 && !bit c.flags 1)) stStreamFull
    pure (x, rs, ps)) fun r =>
    let (skip, m, cut) := (s.projected r.1).plan n
    let es := if st = 0 then r.1.estride else st
    let s := (s.touchRanges cl cid r.2.1).updCmd cl (fun c => { c with ranges := r.2.2, trunc := cut, work := .append sid skip m })
    let s := s.joinOrder sid cl
    (s.fetchItems cl cid 3 (itemsOf false (cutPieces ((r.2.2[0]?).getD []) (skip * es) (if m = 0 then 0 else (m - 1) * es + r.1.elemB)))).settleStreams

/-- Closes that have nothing left to wait for (R201). -/
def State.settleCloses (s : State) : State :=
  (s.cmds.filter (fun e => e.2.phase == .running)).foldl (fun s e => match e.2.work with
    | .close sid cls =>
      if cls.any (fun u => (s.cmd u).isSome) then s
      else
        let tot := ((Tab.at? s.streams sid).map (·.total)).getD 0
        ({ s with streams := Tab.del s.streams sid }).finish e.1 stOk 0 (tot % 2 ^ 32)
    | _ => s) s

/-- STREAM_CLOSE and its MODE 1 TRIM (R201). -/
def State.doClose (cl : Client) (c : Cmd) (s : State) : State :=
  if c.stage ≠ 0 then s.settleStreams.settleCloses else
  let sid := c.fld 8 2 0 14
  s.checked cl (do need (c.clean && decide (c.tmode < 2)) stBadOperand; s.ownStream c) fun x =>
    if c.tmode = 1 then
      ((s.updCmd cl (fun c => { c with phase := .running, stage := 3, items := [], work := .trim sid (c.fld 12 4 0 25) })).joinOrder sid cl).settleStreams
    else
      ((s.updStream sid (fun x => { x with closing := true })).updCmd cl (fun c =>
        { c with phase := .running, stage := 3, items := [], work := .close sid (x.users.filter (· != cl)) })).settleCloses

/-- STREAM_OPEN (R182). -/
def execStreamOpen (q seq : Nat) (s : State) : Out := .next (s.start q seq (fun c => c.opcode == 0x20) State.doStreamOpen)

end Sys2Proof.Machine
end

