-- ==== Sys2Proof/Machine/Scan.lean ====
section
/-! DEFINITION. Sys2Proof/Machine/Scan.lean: the similarity scan unit (R205-R223): SCAN_LUT_BUILD and SCAN_PQ. -/
namespace Sys2Proof.Machine

/-! ### Units of work and LUT banks (R219, R226) -/

/-- Changes the work of a scan. -/
def State.updScan (s : State) (cl : Client) (f : ScanW → ScanW) : State :=
  s.updCmd cl (fun c => match c.work with
    | .scan w => { c with work := .scan (f w) }
    | _ => c)
/-- The work of a scan. -/
def Cmd.scanW (c : Cmd) : ScanW := match c.work with | .scan w => w | _ => { per := [] }
/-- Changes a station's part of a scan. -/
def State.updPart (s : State) (cl : Client) (stn : Nat) (f : ScanS → ScanS) : State :=
  s.updScan cl (fun w => { w with per := w.per.map (fun x => if x.stn = stn then f x else x) })

/-- Another command that waits for a LUT bank of the station goes first (R83, R219). -/
def State.bankOutranked (s : State) (cl : Client) (c : Cmd) (stn : Nat) : Bool :=
  Tab.ex s.cmds (fun k d => k != cl && d.phase == .running && d.cancel.isNone &&
    (decide (c.prio < d.prio) || (c.prio == d.prio && decide (d.order < c.order))) &&
    (match d.work with
    | .scan w => w.per.any (fun x => x.stn == stn && !x.bank && !x.sent)
    | _ => false))
/-- A LUT bank of the station is free for the command (R219). -/
def State.bankFree (s : State) (cl : Client) (c : Cmd) (stn : Nat) : Bool :=
  decide (s.banksHeld stn < 2) && s.stnUp stn && s.arithOk stn && !s.bankOutranked cl c stn
/-- A segment or build of the command may start on the station: none is in flight there, and no other command's unit goes first (R226). -/
def State.unitFree (s : State) (cl : Client) (c : Cmd) (stn : Nat) : Bool :=
  s.stnUp stn && s.arithOk stn && !s.scanning stn && !s.outranked cl c stn

/-! ### Operands (R205, R273, R274) -/

def Cmd.sQ (c : Cmd) : Nat := c.fld 8 4 0 5
def Cmd.sM (c : Cmd) : Nat := c.fld 8 4 5 7
/-- Codes of a subspace, E (R205). -/
def Cmd.sE (c : Cmd) : Nat := if c.fld 8 4 12 1 = 1 then 16 else 256
/-- Bytes of a vector's codes, CB (R205). -/
def Cmd.sCB (c : Cmd) : Nat := if c.fld 8 4 12 1 = 1 then ceilDiv c.sM 2 else c.sM
def Cmd.sK (c : Cmd) : Nat := c.fld 8 4 13 11
def Cmd.sNl (c : Cmd) : Nat := c.fld 12 4 0 17
/-- OUT_STRIDE of a scan (R214, R273). -/
def Cmd.sStride (c : Cmd) : Nat := if c.fld 12 4 17 15 = 0 then up64 (16 * c.sK) else 64 * c.fld 12 4 17 15
/-- Bytes of the LUT buffer (R209). -/
def Cmd.lutB (c : Cmd) : Nat := 2 * (c.sQ * c.sM * c.sE)

/-! ### SCAN_LUT_BUILD (R210-R212) -/

def Cmd.bDsub (c : Cmd) : Nat := c.fld 8 4 16 13
def Cmd.bInner (c : Cmd) : Bool := c.fld 8 4 13 1 == 1
def Cmd.bStn (c : Cmd) : Nat := c.fld 12 1 0 6
def Cmd.bFmt (c : Cmd) : Nat := c.num 13 1
def Cmd.bShift (c : Cmd) : Int := toSigned 8 (c.num 14 1)

/-- One entry before conversion (R211). -/
def lutEntry (inner : Bool) (shift : Int) (xs ys : List Word) : Word :=
  let acc := (xs.zip ys).foldl (fun acc p =>
    if inner then ffma p.1 p.2 acc else let d := fsub p.1 p.2; ffma d d acc) 0
  fscale (if inner then fneg acc else acc) shift

/-- The FP16 entry and whether it saturated or became NaN (R211). -/
def lutCode (acc : Word) : List Byte × Bool :=
  let bs := encodeRow 0x03 true [acc]
  let open_ := encodeRow 0x03 false [acc]
  (bs, isNan acc || leNat open_ % 2 ^ 15 == 0x7C00)

/-- The entries of a LUT buffer, in buffer order (R209, R211). -/
def State.lutAll (s : State) (c : Cmd) : List (List Byte × Bool) :=
  let d := c.sM * c.bDsub
  let es := elemBytes c.bFmt 1
  let qs := (numsOf 4 (s.rangeBytes c 0 (4 * (c.sQ * d)))).map (BitVec.ofNat 32)
  let ys := decodeRow c.bFmt (c.sM * c.sE * c.bDsub) (s.rangeBytes c 1 (es * (c.sM * c.sE * c.bDsub)))
  (List.range c.sQ).flatMap (fun q => (List.range c.sM).flatMap (fun m => (List.range c.sE).map (fun k =>
    lutCode (lutEntry c.bInner c.bShift ((qs.drop (q * d + m * c.bDsub)).take c.bDsub) ((ys.drop ((m * c.sE + k) * c.bDsub)).take c.bDsub)))))

/-- The build's reads are back: the buffer is written, or the build stops on a bad operand or a cancellation with each entry old or new
(R211, R212, log entry 4). -/
def State.lutWrite (s : State) (cl : Client) (c : Cmd) : State :=
  let es := s.lutAll c
  let put := fun (s : State) (e : (List Byte × Bool) × Nat) => s.pwrite cl (s.cidOf c) ((c.ranges[2]?).getD []) (2 * e.2) e.1.1 false
  let part := fun (s : State) => ((es.zipIdx).filter (fun e => Config.done s.fresh e.2)).foldl put s.draw
  if c.cancel.isSome then
    let t := (part s).updCmd cl (fun c => { c with stage := 8 })
    if t.busy cl then t else t.finish cl stAborted 0 0
  else if c.operandBad then ((part s).updCmd cl (fun c => { c with poison := true })).finish cl stAborted 0 0
  else (s.pwrite cl (s.cidOf c) ((c.ranges[2]?).getD []) 0 (es.flatMap (·.1)) false).finish cl stOk (c.sQ * c.sM * c.sE) (es.filter (·.2)).length

/-- A build takes a LUT bank and reads its operands when it is its turn on the station (R213, R219, R226). -/
def State.lutStart (s : State) (cl : Client) (c : Cmd) : State :=
  if s.bankFree cl c c.bStn && s.unitFree cl c c.bStn then
    (s.updPart cl c.bStn (fun x => { x with bank := true, busy := some (0, 0) })).fetchThen cl (s.cidOf c) 3 ((c.ranges.take 2).flatMap (itemsOf true))
      (fun cl c s => s.lutWrite cl c)
  else s

/-- SCAN_LUT_BUILD (R210-R212). -/
def State.doLutBuild (cl : Client) (c : Cmd) (s : State) : State :=
  let cid := s.cidOf c
  if c.stage = 0 then
    s.checked cl (do
      need s.build.scan stUnitAbsent
      need (c.clean && decide (1 ≤ c.sQ ∧ c.sQ ≤ 16 ∧ 1 ≤ c.sM ∧ c.sM ≤ 64 ∧ 1 ≤ c.bDsub ∧ c.bDsub ≤ 4096 ∧ c.sM * c.bDsub ≤ 4096 ∧
        -64 ≤ c.bShift ∧ c.bShift ≤ 63) && [1, 2, 3].contains c.bFmt && c.num 32 8 % 64 == 0) stBadOperand
      need (s.owns (s.pidOf cid) c.bStn) stNotPermitted
      let rs := [(false, c.num 16 8, 4 * (c.sQ * (c.sM * c.bDsub))), (false, c.num 24 8, elemBytes c.bFmt 1 * (c.sM * c.sE * c.bDsub)), (true, c.num 32 8, c.lutB)]
      let ps ← s.mapRanges cl c cid rs
      pure (rs, ps)) fun r =>
      let s := (s.touchRanges cl cid r.1).updCmd cl (fun c =>
        { c with phase := .running, stage := 2, items := [], ranges := r.2, work := .scan { per := [{ stn := c.bStn, seg := some (0, 0) }] } })
      s.lutStart cl { c with ranges := r.2 }
  else if c.stage = 2 then s.lutStart cl c
  else s.lutWrite cl c

/-! ### SCAN_PQ (R214-R222) -/

/-- Fields of a list entry (R206). -/
def lCodes (e : List Byte) : Nat := rd e 0 8
def lCount (e : List Byte) : Nat := rd e 8 4
def lStn (e : List Byte) : Nat := lf e 12 1 0 6
def lIdArr (e : List Byte) : Bool := lf e 13 1 0 1 == 1
def lMask (e : List Byte) : Nat := rd e 14 2
def lIds (e : List Byte) : Nat := rd e 16 8
/-- An entry that gives no work (R207). -/
def lNone (e : List Byte) : Bool := lCount e == 0 || lMask e == 0

/-- Step 4 of R218 for one entry. -/
def listOk (q : Nat) (e : List Byte) : Bool :=
  lf e 12 1 6 2 == 0 && lf e 13 1 1 7 == 0 && rd e 24 8 == 0 && lCodes e % 64 == 0 && (!lIdArr e || lIds e % 8 == 0) && decide (lMask e < 2 ^ q)

/-- The list array of a scan. -/
def State.scanLists (s : State) (c : Cmd) : List (List Byte) := chunksOf 32 c.sNl (s.rangeBytes c 0 (32 * c.sNl))

/-- The two ranges of a list (R217). -/
def listRanges (cb : Nat) (e : List Byte) : List (Bool × Nat × Nat) :=
  if lNone e then [] else
  [(false, lCodes e, up64 (lCount e * cb)), (false, lIds e, if lIdArr e then 8 * lCount e else 0)]

/-- A list's ranges translated: its pieces, or the record of the first sector that is not mapped in its station (R217). -/
def State.mapList (s : State) (cl : Client) (c : Cmd) (e : List Byte) : Chk (List (List Piece) × Option FaultRec) := do
  let cid := s.cidOf c
  let rs ← (listRanges c.sCB e).mapM (fun r => do let sps ← s.spans cl cid false r.2.1 r.2.2; pure (r.2.1, sps))
  let bad := rs.findSome? (fun r => r.2.find? (fun p => match p.tgt with
    | none => true
    | some t => t.host || t.stn != lStn e))
  let rec_ := bad.map (fun p => match p.tgt with
    | none => { s.faultRec c cid 3 false p with stn := lStn e }
    | some t => { s.faultRec c cid 3 false { p with type := 4 } with stn := lStn e, phys := alignDown t.addr 64 })
  pure (rs.map (fun r => piecesOf r.1 r.2), rec_)

/-- Key order of R221. -/
def candLt (a b : Cand) : Bool :=
  flt a.score b.score || (!flt b.score a.score && (decide (a.id < b.id) || (a.id == b.id && decide (a.list < b.list))))

/-- Puts a candidate into a list in key order, after those with its key. -/
def candInsert (x : Cand) : List Cand → List Cand
  | [] => [x]
  | y :: ys => if candLt x y then x :: y :: ys else y :: candInsert x ys

/-- The K smallest keys in order (R221, R222). -/
def topK (k : Nat) (l : List Cand) : List Cand := l.foldl (fun r x => (candInsert x r).take k) []

/-- Code `m` of a vector's bytes (R205). -/
def codeOf (nib : Bool) (bs : List Byte) (m : Nat) : Nat := if nib then bits (rd bs (m / 2) 1) (4 * (m % 2)) 4 else rd bs m 1

/-- What two parts of a scan gave, together: each query keeps its K smallest keys (R221). -/
def Tally.join (k : Nat) (qs : List Nat) (a b : Tally) : Tally :=
  { kept := qs.flatMap (fun q => topK k ((a.kept ++ b.kept).filter (fun x => x.q == q))), excl := a.excl + b.excl, bad := (a.bad ++ b.bad).eraseDups }

/-- The LUT entries and biases as read (R219). -/
def State.lutOf (s : State) (c : Cmd) : List Word := decodeRow 0x03 (c.sQ * c.sM * c.sE) (s.rangeBytes c 1 c.lutB)
def State.biasOf (s : State) (c : Cmd) : List Word :=
  if c.num 32 8 = 0 then [] else (numsOf 4 (s.rangeBytes c 2 (4 * (c.sNl * c.sQ)))).map (BitVec.ofNat 32)

/-- A score (R215). -/
def scoreOf (c : Cmd) (lut biases : List Word) (q list : Nat) (codes : List Byte) : Word :=
  (List.range c.sM).foldl (fun a m => fadd a ((lut[(q * c.sM + m) * c.sE + codeOf (c.sE == 16) codes m]?).getD 0)) ((biases[list * c.sQ + q]?).getD 0)

/-- Codes and identifiers of list `i`. -/
def Cmd.codes (c : Cmd) (i : Nat) : List Piece := (c.ranges[6 + 2 * i]?).getD []
def Cmd.ids (c : Cmd) (i : Nat) : List Piece := (c.ranges[7 + 2 * i]?).getD []

/-- Vector `i` of a list scored for each of its queries (R215, R216). -/
def State.scoreVec (s : State) (c : Cmd) (lut biases : List Word) (l : ScanL) (i : Nat) : Tally :=
  let qs := (List.range c.sQ).filter (bit (lMask l.raw))
  if s.arrivedBad c.items (c.codes l.idx) (i * c.sCB) c.sCB then { excl := qs.length, bad := qs }
  else
    let bs := s.brought c.items (c.codes l.idx) (i * c.sCB) c.sCB
    let id := if lIdArr l.raw then leNat (s.pread (c.ids l.idx) (8 * i) 8) else (lIds l.raw + i) % 2 ^ 64
    let all := qs.map (fun q => ({ q := q, score := scoreOf c lut biases q l.idx bs, id := id, list := l.idx, pos := i } : Cand))
    { kept := all.filter (fun x => !isNan x.score), excl := (all.filter (fun x => isNan x.score)).length }

/-- Vectors of a scan segment (R226). -/
abbrev segLen : Nat := 65536
/-- The vectors of list `l` that the segment at vector `v` holds. -/
def segN (l : ScanL) (v : Nat) : Nat := min segLen (lCount l.raw - v)

/-- The segment of a list at vector `v`, whose codes are read, scored (R215, R216). -/
def State.scoreSeg (s : State) (c : Cmd) (l : ScanL) (v : Nat) : Tally :=
  (runFrom v (segN l v)).foldl (fun t i => t.join c.sK (List.range c.sQ) (s.scoreVec c (s.lutOf c) (s.biasOf c) l i)) {}

/-- Some of the reads that a unit waits for are still out. -/
def Cmd.waitsFor (c : Cmd) (b : Nat × Nat) : Bool := ((c.items.drop b.1).take b.2).any (fun i => !i.back)
/-- Reads whose data is used are emptied. -/
def Cmd.spent (c : Cmd) (b : Nat × Nat) : Cmd :=
  { c with items := (c.items.zipIdx).map (fun x => if b.1 ≤ x.2 ∧ x.2 < b.1 + b.2 then { x.1 with len := 0, data := [], bad := [] } else x.1) }

/-- A list entry of the array as read (R219). -/
def ScanW.list (w : ScanW) (i : Nat) : ScanL := (w.lists[i]?).getD ⟨i, [], true⟩

/-- A list is skipped: its record is posted, and the command will end with ST_FAULT (R217). -/
def State.skipList (s : State) (cl : Client) (i : Nat) (r : FaultRec) : State :=
  (s.postFor r.pid r).updScan cl (fun w => { w with fault := true, lists := w.lists.map (fun l => if l.idx = i then { l with skip := true } else l) })

/-- A station reads for its part of a scan: its unit in flight waits for these reads. -/
def State.scanRead (s : State) (cl : Client) (c : Cmd) (stn : Nat) (its : List Item) (f : ScanS → ScanS) : State :=
  (s.updPart cl stn (fun x => { f x with busy := some (c.items.length, its.length) })).fetchMore cl (s.cidOf c) 5 its

/-- The hub sends a station its next list, translated as it is sent (R217). -/
def State.sendList (s : State) (cl : Client) (c : Cmd) (x : ScanS) (i : Nat) : State :=
  let l := c.scanW.list i
  let pop := fun (s : State) (v : Option (Nat × Nat)) => s.updPart cl x.stn (fun x => { x with todo := x.todo.drop 1, seg := v, cur := {} })
  match s.mapList cl c l.raw with
  | .error e => s.stop cl e
  | .ok (_, some r) => (pop s none).skipList cl i r
  | .ok (ps, none) =>
    (pop (s.touchRanges cl (s.cidOf c) (listRanges c.sCB l.raw)) (some (i, 0))).updCmd cl (fun c =>
      { c with ranges := setNth (setNth c.ranges (6 + 2 * i) ((ps[0]?).getD [])) (7 + 2 * i) ((ps[1]?).getD []) })

/-- A station's segment is read: its vectors are scored, and the list goes on or ends (R215, R216, R220). -/
def State.segDone (s : State) (cl : Client) (c : Cmd) (x : ScanS) (b : Nat × Nat) (i v : Nat) : State :=
  let l := c.scanW.list i
  let qs := List.range c.sQ
  let cur := x.cur.join c.sK qs (s.scoreSeg c l v)
  let s := s.updCmd cl (fun c => c.spent b)
  if l.skip then s.updPart cl x.stn (fun x => { x with busy := none, seg := none, cur := {} })
  else if v + segN l v < lCount l.raw then s.updPart cl x.stn (fun x => { x with busy := none, seg := some (i, v + segN l v), cur := cur })
  else (s.countBy 0x2105 3 (lCount l.raw)).updPart cl x.stn (fun x => { x with busy := none, seg := none, cur := {}, all := x.all.join c.sK qs cur })

/-- A survivor with its identifier as read (R220), and whether that arrived poisoned or its sector is no longer mapped (log entry 95). -/
def State.candId (s : State) (c : Cmd) (x : Cand) : Cand × Bool :=
  if lIdArr (c.scanW.list x.list).raw then
    ({ x with id := leNat (s.brought c.items (c.ids x.list) (8 * x.pos) 8) },
     s.arrivedBad c.items (c.ids x.list) (8 * x.pos) 8 || (partsOf (c.ids x.list) (8 * x.pos) 8).any (·.1.isNone))
  else (x, false)

/-- A station sends its final lists and gives up its LUT bank (R219, R220). -/
def State.sendFinal (s : State) (cl : Client) (c : Cmd) (x : ScanS) : State :=
  let ks := x.all.kept.map (s.candId c)
  s.updPart cl x.stn (fun x => { x with
    busy := none, sent := true, bank := false
    all := { x.all with kept := ks.map (·.1), bad := (x.all.bad ++ (ks.filter (·.2)).map (fun k => k.1.q)).eraseDups } })

/-- One step of a station's part of a scan (R217, R219, R220, R226); none: it waits. -/
def State.scanStep (s : State) (cl : Client) (c : Cmd) (x : ScanS) : Option State :=
  if x.sent then none
  else if !x.bank then (if s.bankFree cl c x.stn then some (s.updPart cl x.stn (fun x => { x with bank := true })) else none)
  else match x.busy, x.seg, x.todo with
    | some b, some (i, v), _ => if c.waitsFor b then none else some (s.segDone cl c x b i v)
    | some b, none, _ => if c.waitsFor b then none else some (s.sendFinal cl c x)
    | none, some (i, v), _ =>
      let l := c.scanW.list i
      if l.skip then some (s.updPart cl x.stn (fun x => { x with seg := none, cur := {} }))
      else if s.unitFree cl c x.stn then
        some (s.scanRead cl c x.stn (itemsOf false (cutPieces (c.codes i) (v * c.sCB) (segN l v * c.sCB))) id)
      else none
    | none, none, i :: _ => some (s.sendList cl c x i)
    | none, none, [] => some (s.scanRead cl c x.stn (x.all.kept.flatMap (fun k =>
        if lIdArr (c.scanW.list k.list).raw then itemsOf false (cutPieces (c.ids k.list) (8 * k.pos) 8) else [])) (fun x => { x with ids := true }))

/-- A station's part of a scan goes as far as it can. A list that waits for a walk leaves it where it is. -/
def State.scanStn (cl : Client) (stn : Nat) : Nat → State → State
  | 0, s => s
  | fuel + 1, s =>
    match s.cmd cl with
    | none => s
    | some c =>
      match c.scanW.per.find? (fun x => x.stn == stn) with
      | none => s
      | some x =>
        match s.scanStep cl c x with
        | none => s
        | some t => if (t.cmd cl).map (·.work) = some c.work then t else State.scanStn cl stn fuel t

/-- A result entry and a padding entry (R221). -/
def candBytes (x : Cand) : List Byte := leBytes 4 x.score.toNat ++ leBytes 2 x.list ++ zeros 2 ++ leBytes 8 x.id
def padBytes : List Byte := leBytes 4 0x7FC00000 ++ leBytes 2 0xFFFF ++ zeros 2 ++ leBytes 8 (2 ^ 64 - 1)

/-- The hub merges the stations' lists: what it keeps in all (R221, R222). -/
def Cmd.merged (c : Cmd) : Tally := c.scanW.per.foldl (fun t x => t.join c.sK (List.range c.sQ) x.all) {}
/-- A query's results in key order (R221). -/
def Cmd.topOf (c : Cmd) (q : Nat) : List Cand := c.merged.kept.filter (fun x => x.q == q)

/-- The hub writes the results (R221, R222). -/
def State.scanFinish (s : State) (cl : Client) (c : Cmd) : State :=
  let top := (List.range c.sQ).map c.topOf
  let po := fun (q : Nat) => c.merged.bad.contains q
  let put := fun (s : State) (i o : Nat) (bs : List Byte) => s.pwrite cl (s.cidOf c) ((c.ranges[i]?).getD []) o bs false
  let s := (top.zipIdx).foldl (fun s t => put s 3 (t.2 * c.sStride)
    (t.1.flatMap candBytes ++ (List.replicate (c.sK - t.1.length) padBytes).flatten)) s
  let s := put s 4 0 (top.flatMap (fun t => leBytes 4 t.length))
  let s := put s 5 0 ((top.zipIdx).map (fun t => BitVec.ofNat 8 (poolFlags (po t.2) (t.1.length == 0) false)))
  (s.updCmd cl (fun c => { c with
    poison := c.poison || (List.range c.sQ).any po
    empty := top.any (fun t => t.length == 0) })).finish cl (if c.scanW.fault then stFault else stOk)
      ((top.map List.length).foldl (· + ·) 0) c.merged.excl

/-- A scan goes on: each station's part, and the merge once every station has sent its lists (R219-R221). One of whose stations must wake
or return first waits as a whole before it has begun (R223, R115). -/
def State.scanGo (s : State) (cl : Client) (c : Cmd) : State :=
  let w := c.scanW
  if w.per.all (fun x => !x.bank && !x.sent) && w.per.any (fun x => !s.stnUp x.stn) then s
  else
    let s := w.per.foldl (fun s x => State.scanStn cl x.stn (w.lists.length + 8) s) s
    match s.cmd cl with
    | some c => if c.phase = .running ∧ c.scanW.per.all (·.sent) then s.scanFinish cl c else s
    | none => s

/-- The LUT buffer and biases are read: the lists go to their stations (R219). -/
def State.scanSend (s : State) (cl : Client) (c : Cmd) : State :=
  (s.updCmd cl (fun c => { c with stage := 5 })).scanGo cl { c with stage := 5 }

/-- Steps 4 and 5 of R218; then the LUT buffer and the biases are read (R219). -/
def State.scanPlan (s : State) (cl : Client) (c : Cmd) : State :=
  let cid := s.cidOf c
  let es := s.scanLists c
  s.checked cl (do
    need (es.all (listOk c.sQ)) stBadOperand
    need (es.all (fun e => lNone e || s.owns (s.pidOf cid) (lStn e))) stNotPermitted) fun _ =>
    let lists := (es.zipIdx).map (fun x => (⟨x.2, x.1, lNone x.1⟩ : ScanL))
    let use := lists.filter (fun l => !l.skip)
    let w : ScanW := { lists := lists, per := ((use.map (fun l => lStn l.raw)).eraseDups).map (fun n =>
      { stn := n, todo := (use.filter (fun l => lStn l.raw == n)).map (·.idx) }) }
    let s := s.updCmd cl (fun c => { c with work := .scan w, ranges := c.ranges.take 6 ++ List.replicate (2 * es.length) [] })
    s.fetchThen cl cid 3 (((c.ranges.drop 1).take 2).flatMap (itemsOf true)) (fun cl c s => s.withOperands cl c (fun c s => s.scanSend cl c))

/-- The output blocks of a scan, as one range with gaps where OUT_STRIDE leaves them (R214, R221). -/
def outBlocks (stride : Nat) (ps : List (List Piece)) : List Piece :=
  (ps.zipIdx).flatMap (fun x => x.1.map (fun p => { p with off := p.off + x.2 * stride }))

/-- SCAN_PQ (R214, R218): the list array is read first (stage 1), then LUT and biases (3); then its stations work (5). -/
def State.doScan (cl : Client) (c : Cmd) (s : State) : State :=
  let cid := s.cidOf c
  match c.stage with
  | 0 =>
    s.checked cl (do
      need s.build.scan stUnitAbsent
      need (c.clean && decide (1 ≤ c.sQ ∧ c.sQ ≤ 16 ∧ 1 ≤ c.sM ∧ c.sM ≤ 64 ∧ 1 ≤ c.sK ∧ c.sK ≤ 1024 ∧ c.sNl ≤ 65536) &&
        c.num 16 8 % 32 == 0 && c.num 24 8 % 64 == 0 && c.num 32 8 % 4 == 0 && c.num 40 8 % 64 == 0 && decide (16 * c.sK ≤ c.sStride)) stBadOperand
      let opt := fun (p len : Nat) => (true, p, if p = 0 then 0 else len)
      let rs := [(false, c.num 16 8, 32 * c.sNl), (false, c.num 24 8, c.lutB), (false, c.num 32 8, if c.num 32 8 = 0 then 0 else 4 * (c.sNl * c.sQ))] ++
        (List.range c.sQ).map (fun q => (true, c.num 40 8 + q * c.sStride, 16 * c.sK)) ++ [opt (c.num 48 8) (4 * c.sQ), opt (c.num 56 8) c.sQ]
      let ps ← s.mapRanges cl c cid rs
      pure (rs, ps.take 3 ++ [outBlocks c.sStride ((ps.drop 3).take c.sQ)] ++ ps.drop (3 + c.sQ))) fun r =>
      let s := (s.touchRanges cl cid r.1).updCmd cl (fun c => { c with ranges := r.2 })
      s.fetchThen cl cid 1 (itemsOf true ((r.2[0]?).getD [])) (fun cl c s => s.withOperands cl c (fun c s => s.scanPlan cl c))
  | 1 => s.withOperands cl c (fun c s => s.scanPlan cl c)
  | 3 => s.withOperands cl c (fun c s => s.scanSend cl c)
  | 5 => if c.cancel.isSome then (if s.busy cl then s else s.finish cl stAborted 0 0) else s.scanGo cl c
  | _ => s

/-- Scans and LUT builds that waited for their turn on a station go on (R219, R226). -/
def State.settleScans (s : State) : State :=
  (s.cmds.filter (fun e => e.2.phase == .running && e.2.cancel.isNone && ((e.2.opcode == 0x28 && e.2.stage == 5) || (e.2.opcode == 0x29 && e.2.stage == 2)))).foldl (fun s e => match s.cmd e.1 with
    | some c => if c.phase ≠ .running then s else if c.opcode = 0x28 then s.scanGo e.1 c else if c.stage = 2 then s.lutStart e.1 c else s
    | none => s) s

/-- SCAN_LUT_BUILD (R211). -/
def execScanLutBuild (q seq : Nat) (s : State) : Out := .next (s.start q seq (fun c => c.opcode == 0x29) State.doLutBuild)
/-- SCAN_PQ (R214). -/
def execScanPq (q seq : Nat) (s : State) : Out := .next (s.start q seq (fun c => c.opcode == 0x28) State.doScan)

end Sys2Proof.Machine
end

