-- ==== Sys2Proof/Machine/Engine.lean ====
section
/-! DEFINITION. Sys2Proof/Machine/Engine.lean: engine ports (R357-R363), DISPATCH (R247-R254), RESULT transfers (R361), and
the engine step's effect on a port (R404, R433). -/
namespace Sys2Proof.Machine

/-- Changes an engine port. -/
def State.updEp (s : State) (ep : Nat) (f : Ep → Ep) : State := { s with eps := Tab.upd s.eps ep f }
/-- The port sends: built, engine ready, not in a reset, not OUT, its station up (R252, R357, R404, R433). -/
def State.epLive (s : State) (ep : Nat) : Bool :=
  match Tab.at? s.eps ep with
  | some e => e.rdy && e.rstN && !e.out && !e.inReset && !e.qreq && s.stnUp (s.build.epStn ep)
  | none => false
/-- Sends one beat, which costs a credit (R357). -/
def State.beat (s : State) (ep type xid : Nat) (data : List Byte) (poison last : Bool) : State :=
  (s.updEp ep (fun e => { e with credits := e.credits - 1 })).emit (.beat ep type xid data poison last)

/-! ### The work of a dispatch -/

/-- Changes the work of a DISPATCH. -/
def State.updDisp (s : State) (cl : Client) (f : DispW → DispW) : State :=
  s.updCmd cl (fun c => match c.work with
    | .disp w => { c with work := .disp (f w) }
    | _ => c)
/-- The work of a DISPATCH. -/
def State.disp (s : State) (cl : Client) : Option (Cmd × DispW) :=
  match s.cmd cl with
  | some c => match c.work with
    | .disp w => some (c, w)
    | _ => none
  | none => none
/-- A descriptor that makes a transfer (R248). -/
def Desc.live (d : Desc) : Bool := d.kind == 2 || d.len != 0

/-- START, HEADER and END beats (R359). -/
def startBeat (did cid nx eng : Nat) (c : Cmd) : List Byte :=
  recBytes 64 [(0, 8, did), (8, 3, c.prio), (16, 12, cid), (32, 15, c.q), (48, 13, nx), (64, 64, eng), (128, 32, c.tag), (160, 48, c.seq)]
def headBeat (d : Desc) (did cid : Nat) : List Byte :=
  recBytes 64 [(0, 8, d.kind), (8, 8, did), (16, 12, d.idx), (32, 32, if d.kind = 2 then 64 else d.len), (64, 128, leNat d.user), (192, 12, cid)]
def endBeat (did : Nat) (w : DispW) : List Byte :=
  recBytes 64 [(0, 8, did), (16, 13, w.made), (32, 1, b2n w.poisonSent), (33, 1, b2n w.unmapped)]
/-- HEADER of a RESULT transfer (R359, R361). -/
def resultBeat (c : Cmd) (cid len rowB first n : Nat) (final : Bool) : List Byte :=
  recBytes 64 [(0, 8, 3), (32, 32, len), (192, 12, cid), (208, 15, c.q), (224, 32, c.tag), (256, 48, c.seq), (304, 8, c.opcode),
    (312, 1, b2n final), (320, 32, rowB), (352, 32, first), (384, 32, n)]

/-- An engine protocol error (R363): an error record is written, and the port's engine step falls due (R402, R414). -/
def State.protErr (s : State) (ep : Nat) : State :=
  let n := s.build.epStn ep
  (s.elog { kind := 7, pid := (s.ownerOf n).getD 0x3F, stn := n, ep := ep - s.build.epFirst n }).ask 2 ep

/-- The port's inputs count: it is not held in reset, nor without power (R346, R357, R434). -/
def State.epIn (s : State) (ep : Nat) (e : Ep) : Bool :=
  let x := Tab.atD s.stns (s.build.epStn ep) {}
  e.rstN && x.pwr != 2 && x.pwr != 3

/-- A DISPATCH that has everything R254 names completes. -/
def State.dispEnd (s : State) (cl : Client) : State :=
  match s.disp cl with
  | some (c, w) =>
    match w.doneStat with
    | some (st, res) =>
      if w.endSent && c.phase == .running && !Tab.ex s.eps (fun _ e => Tab.ex e.xids (fun _ x => x.client == cl)) then
        (s.updCmd cl (fun c => { c with poison := c.poison || w.poisonSent })).finish cl
          (if st ≠ 0 then stEngineError else if w.unmapped then stFault else stOk) (w.made % 2 ^ 24 + st % 256 * 2 ^ 24) res
      else s
    | none => s
  | none => s

/-! ### Input and output (R251, R253, R358) -/

/-- Issues the reads of an INPUT transfer: at most 64 KiB ahead of the beats the credits admit (R253). -/
def State.readAhead (s : State) (ep xid : Nat) : State :=
  match Tab.at? s.eps ep with
  | none => s
  | some e =>
    match Tab.at? e.xids xid with
    | none => s
    | some x =>
      if x.kind ≠ 0 then s else
      match s.cmd x.client with
      | none => s
      | some c =>
        let upto := min x.len (64 * (x.beats + e.credits) + 65536)
        let its := itemsOf false (cutPieces x.pieces x.issued (upto - x.issued))
        let cid := s.cidOf c
        let offs := (cutPieces x.pieces x.issued (upto - x.issued)).flatMap (fun p => match p.tgt with
          | some t => (itemsOf false [{ p with off := 0 }]).map (fun i => x.issued + p.off + (i.tgt.addr - t.addr))
          | none => [])
        let ok := fun (i : Item) => !(i.tgt.host && !s.fnOk (s.reqId cid).1)
        let todo := (its.zip offs)
        let s := s.updEp ep (fun e => { e with xids := Tab.put e.xids xid { x with
          issued := max x.issued upto
          out := x.out ++ (todo.filter (fun t => ok t.1)).map (fun t => (t.2, t.1.len))
          badAt := x.badAt ++ (todo.filter (fun t => !ok t.1)).map (fun t => (t.2, t.1.len)) } })
        (todo.filter (fun t => ok t.1)).foldl (fun s t =>
          s.issue { (s.itemReq x.client cid 0 t.1) with pur := .input ep xid t.2 }) s

/-- A read of an INPUT transfer came back (R251, R351). -/
def State.inputBack (s : State) (ep xid off : Nat) (r : Req) (bad : List (Nat × Nat)) : State :=
  let t : Tgt := ⟨r.stn.isNone, r.stn.getD 0, r.addr⟩
  let bad := bad ++ s.storedBad t r.len
  let bs := if r.iso then zeros r.len else s.tread t r.len
  s.updEp ep (fun e => { e with xids := Tab.upd e.xids xid (fun x =>
    { x with
      out := x.out.filter (fun o => o.1 != off)
      input := x.input ++ [(off, bs)]
      badAt := x.badAt ++ bad.map (fun b => (off + (b.1 - r.addr), b.2 - (r.addr - b.1))) }) })

/-- The next beat of an INPUT or INLINE transfer, where its data is back: bytes and poison (R251). -/
def Xfer.inBeat (x : Xfer) : Option (List Byte × Bool) :=
  if x.kind ≠ 0 then x.data[x.beats]?
  else
    let o := 64 * x.beats
    if x.issued < o + 64 ∨ x.out.any (fun r => overlaps (o, 64) r) then none
    else
      let hole := (cutPieces x.pieces o 64).any (fun p => p.tgt.isNone)
      some (if hole then zeros 64 else x.input.foldl (fun bs i => overlay bs o i.2 i.1) (zeros 64), hole || hits x.badAt o 64)

/-- Grants upstream credits for the port's OUTPUT transfers (R358). -/
def State.grantUp (s : State) (ep : Nat) : State :=
  match Tab.at? s.eps ep with
  | none => s
  | some e =>
    (e.xids.filter (fun x => x.2.kind == 1)).foldl (fun s x =>
      let g := ((Tab.at? s.eps ep).map (·.granted)).getD 0
      let n := min (x.2.len / 64 - x.2.issued) (1024 - g)
      if n = 0 then s
      else (s.updEp ep (fun e => { e with granted := e.granted + n, xids := Tab.upd e.xids x.1 (fun y => { y with issued := y.issued + n }) })).emit (.grant ep n)) s

/-! ### Choosing and sending (R252, R361) -/

/-- Commands are served by PRIO, then by admission order (R83). -/
def Cmd.before (a b : Cmd) : Bool := decide (b.prio < a.prio) || (a.prio == b.prio && decide (a.order < b.order))
/-- The first of the commands under R83. -/
def firstCmd : List (Client × Cmd) → Option (Client × Cmd)
  | [] => none
  | x :: xs => match firstCmd xs with
    | some y => if y.2.before x.2 then some y else some x
    | none => some x

/-- Lookups and gathers whose next row goes to the port (R361). -/
def State.resultsFor (s : State) (ep : Nat) : List (Client × Cmd) :=
  s.cmds.filter (fun e => e.2.phase == .running && e.2.cancel.isNone && (match e.2.work with
    | .look w => (w.rows.head?.map (·.ep)) == some ep
    | _ => false))
/-- Dispatches that wait to start on the port. -/
def State.dispFor (s : State) (ep : Nat) : List (Client × Cmd) :=
  s.cmds.filter (fun e => e.2.phase == .running && e.2.cancel.isNone && (match e.2.work with
    | .disp w => w.ep == ep && w.did.isNone
    | _ => false))

/-- Rows of one RESULT transfer: whole rows of one size, in order, at most 64 KiB or one row (R361). -/
def takeRows (ep size : Nat) : Nat → List RRow → List RRow
  | _, [] => []
  | room, r :: rs => if r.ep = ep ∧ r.bytes.length = size ∧ size ≤ room then r :: takeRows ep size (room - size) rs else []

/-- More rows for an engine port are still to be made. -/
def LookW.moreRows (w : LookW) : Bool := ((w.dests.zipIdx).drop w.d).any (fun x => x.1.ep.isSome && decide ((if x.2 = w.d then w.first else 0) < x.1.p))

/-- A RESULT transfer begins with its HEADER (R361). -/
def State.startResult (s : State) (ep : Nat) (cl : Client) (c : Cmd) (w : LookW) : State :=
  match w.rows with
  | [] => s
  | r :: rs =>
    let size := r.bytes.length
    let rows := r :: takeRows ep size (65536 - size) rs
    let rest := w.rows.drop rows.length
    let beats := rows.flatMap (fun r => (chunksOf 64 r.bytes.length r.bytes).map (fun b => (b, r.poison)))
    let len := size * rows.length
    let s := s.beat ep 2 7 (resultBeat c (s.cidOf c) len size r.idx rows.length (rest == [] && !w.moreRows)) false false
    let s := s.updLook cl (fun w => { w with rows := rest })
    s.updEp ep (fun e => { e with res := some { client := cl, kind := 3, len := len, data := beats } })

/-- The lowest free identifier for a dispatch from the next in turn on (R360). -/
def Ep.did (e : Ep) : Nat := (((List.range 256).map (fun i => (e.nextDid + i) % 256)).find? (fun d => !Tab.has e.dids d)).getD 0

/-- A dispatch starts on the port (R252, R360); its fault records are written (R251). -/
def State.startDisp (s : State) (ep : Nat) (cl : Client) (c : Cmd) (w : DispW) : State :=
  match Tab.at? s.eps ep with
  | none => s
  | some e =>
    let d := e.did
    let s := s.beat ep 1 0 (startBeat d (s.cidOf c) ((w.descs.filter Desc.live).length) w.engOp c) false false
    let s := s.updEp ep (fun e => { e with dids := Tab.put e.dids d cl, nextDid := (d + 1) % 256, cur := some cl })
    let s := w.faults.foldl (fun s r => s.postFor r.pid r) s
    (s.updDisp cl (fun w => { w with did := some d })).updCmd cl (fun c => { c with left := true })

/-- The dispatch in progress goes on: its next transfer's HEADER, or its END (R252, R253, R360). -/
def State.contDisp (s : State) (ep : Nat) (cl : Client) (c : Cmd) (w : DispW) : Option State :=
  let did := w.did.getD 0
  match (w.descs.drop w.next).find? Desc.live with
  | none =>
    let s := s.beat ep 3 0 (endBeat did w) false false
    some (((s.updEp ep (fun e => { e with cur := none })).updDisp cl (fun w => { w with endSent := true })).dispEnd cl)
  | some d =>
    match (Tab.at? s.eps ep).bind (fun e => Tab.freeFrom e.xids 0 6) with
    | none => none
    | some xid =>
      let s := s.beat ep 2 xid (headBeat d did (s.cidOf c)) false false
      let s := s.updDisp cl (fun w => { w with next := d.idx + 1, made := w.made + 1 })
      let x : Xfer := { client := cl, kind := d.kind, len := if d.kind = 2 then 64 else d.len, pieces := d.pieces,
                        data := if d.kind = 2 then [(d.data ++ zeros 32, false)] else [] }
      let s := s.updEp ep (fun e => { e with xids := Tab.put e.xids xid x, ended := e.ended.filter (· != xid) })
      some (if d.kind = 1 then s.grantUp ep else s.readAhead ep xid)

/-- The beat that follows of the transfer being sent (R360, R361). -/
def State.nextBeat (s : State) (ep : Nat) (e : Ep) : Option State :=
  match e.res with
  | some x =>
    match x.data[x.beats]? with
    | some b =>
      let last := x.beats + 1 == x.data.length
      let s := s.beat ep 0 7 b.1 b.2 last
      if last then some ((s.updEp ep (fun e => { e with res := none })).lookEnd x.client)
      else some (s.updEp ep (fun e => { e with res := some { x with beats := x.beats + 1 } }))
    | none => some ((s.updEp ep (fun e => { e with res := none })).lookEnd x.client)
  | none =>
    match e.xids.find? (fun x => x.2.kind != 1) with
    | some (xid, x) =>
      let s := s.readAhead ep xid
      match ((Tab.at? s.eps ep).bind (fun e => Tab.at? e.xids xid)) with
      | none => none
      | some x' =>
        match x'.inBeat with
        | none => none
        | some b =>
          let last := 64 * (x.beats + 1) == x.len
          let s := s.beat ep 0 xid b.1 b.2 last
          let s := if b.2 then s.updDisp x.client (fun w => { w with poisonSent := true }) else s
          some (s.updEp ep (fun e => { e with xids := if last then Tab.del e.xids xid else Tab.put e.xids xid { x' with beats := x.beats + 1 } }))
    | none => none

/-- A transfer is being sent: nothing else may be chosen until it ends (R360). -/
def Ep.sending (e : Ep) : Bool := e.res.isSome || e.xids.any (fun x => x.2.kind != 1)

/-- Choice at a transfer boundary: RESULT or dispatch, by PRIO and admission order (R361). -/
def State.choose (s : State) (ep : Nat) (e : Ep) : Option State :=
  let rs := s.resultsFor ep
  let ds := match e.cur with
    | some cl => ((s.cmd cl).map (fun c => [(cl, c)])).getD []
    | none => if e.dids.length < 16 then s.dispFor ep else []
  match firstCmd (rs ++ ds) with
  | none => none
  | some (cl, c) =>
    match c.work with
    | .look w => some (s.startResult ep cl c w)
    | .disp w =>
      if e.cur = some cl then
        match s.contDisp ep cl c w with
        | some s' => some s'
        | none => match firstCmd rs with
          | some (rl, rc) => match rc.work with
            | .look rw => some (s.startResult ep rl rc rw)
            | _ => none
          | none => none
      else some (s.startDisp ep cl c w)
    | _ => none

/-- Some write of an OUTPUT transfer is not acknowledged at its memory port (R253). -/
def State.writing (s : State) (x : Xfer) : Bool :=
  let mine := fun (r : Req) => r.client == x.client && (match r.pur with
    | .write _ => true
    | _ => false) && x.pieces.any (fun p => match p.tgt with
    | some t => !t.host && r.stn == some t.stn && decide (r.addr < t.addr + p.len ∧ t.addr < r.addr + r.len)
    | none => false)
  Tab.ex s.tags (fun _ r => mine r) || s.waiting.any mine

/-- OUTPUT transfers that have every beat, and whose last write is ordered, are no longer outstanding (R253). -/
def State.freeOuts (s : State) (ep : Nat) : State :=
  match Tab.at? s.eps ep with
  | none => s
  | some e =>
    let ended := fun (x : Xfer) => x.kind == 1 && decide (x.len ≤ 64 * x.beats) && !s.writing x
    let gone := e.xids.filter (fun x => ended x.2)
    if gone = [] then s
    else gone.foldl (fun s x => s.dispEnd x.2.client) (s.updEp ep (fun e => { e with xids := e.xids.filter (fun x => !ended x.2) }))

/-- Sends what the port can send. -/
def State.pump (ep : Nat) : Nat → State → State
  | 0, s => s
  | fuel + 1, s =>
    match Tab.at? s.eps ep with
    | none => s
    | some e =>
      if !s.epLive ep || e.credits == 0 then s
      else match (if e.sending then s.nextBeat ep e else match e.ends with
          | b :: bs => some ((s.beat ep 3 0 b false false).updEp ep (fun e => { e with ends := bs }))
          | [] => s.choose ep e) with
        | some s' => s'.pump ep fuel
        | none => s

/-- Sends what every port can send: each beat costs one of at most 4,095 credits. -/
def State.pumpAll (s : State) : State := (s.eps.map (·.1)).foldl (fun s ep => (s.freeOuts ep).pump ep 8192) s

/-! ### What arrives (R357, R358, R363) -/

/-- A port back from the engine step is in service once its engine is ready and has granted credits (R404 step 5). -/
def State.epReturn (s : State) (ep : Nat) : State :=
  s.updEp ep (fun e => if e.inReset && e.rdy && e.credits != 0 then { e with inReset := false } else e)

/-- Franking credits come back (R357). -/
def State.franking (s : State) (ep n : Nat) : State :=
  match Tab.at? s.eps ep with
  | none => s
  | some e =>
    if !s.epIn ep e then s
    else if 4095 < e.credits + n then s.protErr ep
    else ((s.updEp ep (fun e => { e with credits := e.credits + n })).epReturn ep).pump ep 8192

/-- An upstream beat (R251, R358, R362, R363); a poisoned one makes a poisoned result (R394). -/
def State.upBeat (s : State) (ep xid : Nat) (data : List Byte) (poison : Bool) : State :=
  match Tab.at? s.eps ep with
  | none => s
  | some e =>
    if !s.epIn ep e then s else
    match Tab.at? e.xids xid with
    | some x =>
      if x.kind ≠ 1 ∨ e.granted = 0 ∨ x.len ≤ 64 * x.beats then s.protErr ep
      else
        match s.cmd x.client with
        | none => s
        | some c =>
          let s := s.pwrite x.client (s.cidOf c) x.pieces (64 * x.beats) data poison
          let s := if poison then s.updCmd x.client (fun c => { c with poison := true }) else s
          let s := s.updEp ep (fun e => { e with granted := e.granted - 1, xids := Tab.put e.xids xid { x with beats := x.beats + 1 } })
          ((s.freeOuts ep).grantUp ep).pump ep 8192
    | none => if e.ended.contains xid then s else s.protErr ep

/-- The END of dispatch `did` has been sent (R360): that of one which was ended early may still wait for a credit. -/
def State.ended (s : State) (e : Ep) (did : Nat) (cl : Client) : Bool :=
  match s.disp cl with
  | some (_, w) => w.endSent
  | none => !e.ends.any (fun b => rd b 0 1 == did)

/-- A done response (R254, R360, R363); that of a dispatch which was ended early is discarded (R403 step 3). -/
def State.doneResp (s : State) (ep did stat res : Nat) : State :=
  match Tab.at? s.eps ep with
  | none => s
  | some e =>
    if !s.epIn ep e then s else
    match Tab.at? e.dids did with
    | none => s.protErr ep
    | some cl =>
      if s.ended e did cl then
        (((s.updEp ep (fun e => { e with dids := Tab.del e.dids did })).updDisp cl (fun w => { w with doneStat := some (stat % 256, res) })).dispEnd cl).pump ep 8192
      else s.protErr ep

/-- A started dispatch of the port has no done response yet, or a transfer is outstanding. -/
def Ep.busy (e : Ep) : Bool := e.dids != [] || e.xids != [] || e.res.isSome

/-- A dispatch of the port has started and is not complete: it has no done response yet, or a transfer of it is outstanding (R254). -/
def Ep.started (e : Ep) : Bool := e.dids != [] || e.xids != []

/-- EP_ENG_RDY changes (R357, R404). -/
def State.engRdy (s : State) (ep : Nat) (up : Bool) : State :=
  match Tab.at? s.eps ep with
  | none => s
  | some e =>
    let s := s.updEp ep (fun e => { e with rdy := up })
    if up then (s.epReturn ep).pump ep 8192
    else if e.rdy && e.started then s.ask 2 ep else s

/-! ### The engine step (R404) and the idle request (R433) -/

/-- The port's protocol state after EP_RST_N has been held at 0 (R357, R404 step 4, R434). -/
def Ep.cleared (e : Ep) : Ep :=
  { e with credits := 0, granted := 0, nextDid := 0, dids := [], xids := [], res := none, cur := none, ended := [], ends := [], qreq := false, rstN := true, out := false }

/-- Requests of an engine port are withdrawn: responses that still come are dead letters (R404 step 2). -/
def State.dropInputs (s : State) (ep : Nat) : State :=
  s.dropReqs (fun r => match r.pur with | .input p _ _ => p == ep | _ => false)

/-- Commands that the engine step of a port ends: started dispatches (one whose done response came may still wait for beats, R363), and lookups whose RESULT transfer is cut
(R404 step 3). -/
def Ep.cut (e : Ep) : List Client := ((e.dids.map (·.2)) ++ (e.xids.map (·.2.client)) ++ (e.res.map (·.client)).toList ++ e.cur.toList).eraseDups

/-- The engine step on one port, steps 1 to 4 of R404; a dispatch that expired keeps its status. -/
def State.engineStepAt (s : State) (ep : Nat) : State :=
  match Tab.at? s.eps ep with
  | none => s
  | some e =>
    let cut := e.cut
    let s := (s.dropInputs ep).updEp ep (fun e => { e.cleared with inReset := true })
    let s := s.emits [.epReset ep false, .epReset ep true]
    cut.foldl (fun s cl => match s.cmd cl with
      | some c => if c.phase = .done then s
          else (s.updCmd cl (fun c => { c with work := .idle, poison := c.left, cancel := some (c.cancel.getD stAborted) })).finish cl stAborted 0 0
      | none => s) s

/-- EP_QACK rises (R433): the port is held in reset (step 4). For its own restart it is released at once (step 6); where its station is
entering Sleep or Off it stays held. -/
def State.qack (s : State) (ep : Nat) : State :=
  let n := s.build.epStn ep
  match Tab.at? s.eps ep with
  | some e =>
    if !e.qreq then s
    else if (Tab.atD s.stns n {}).pwr = 4 then
      ({ (s.updEp ep (fun e => { e.cleared with rstN := false })) with
        stns := Tab.upd s.stns n (fun x => { x with idleReq := x.idleReq.filter (· != ep) }) }).emits [.epReset ep false, .epQreq ep false]
    else (s.updEp ep Ep.cleared).emits [.epReset ep false, .epQreq ep false, .epReset ep true]
  | none => s

/-! ### DISPATCH (R247-R250) -/

/-- Descriptors of a chain that was read. -/
def State.chain (s : State) (c : Cmd) : List (List Byte) := chunksOf 64 (c.fld 12 4 0 13) (s.rangeBytes c 0 (64 * c.fld 12 4 0 13))

/-- Step 4 of R250 for one descriptor. -/
def descOk (d : List Byte) : Bool :=
  let k := lf d 0 1 0 4
  decide (k < 3) && lf d 0 1 4 4 == 0 && rd d 1 3 == 0 && rd d 8 8 % 64 == 0 && rd d 4 4 % 64 == 0 &&
  (if k = 2 then rd d 4 4 == 0 && rd d 8 8 == 0 else !anyByte ((d.drop 32).take 32))

/-- A descriptor translated, with its fault record where some sector of it is unmapped (R249, R251). -/
def State.mapDesc (s : State) (cl : Client) (c : Cmd) (i : Nat) (d : List Byte) : Chk (Desc × Option FaultRec) := do
  let k := lf d 0 1 0 4
  let sps ← s.spans cl (s.cidOf c) (k == 1) (rd d 8 8) (rd d 4 4)
  let bad := sps.find? (fun p => p.tgt.isNone)
  pure (⟨i, k, rd d 4 4, (d.drop 16).take 16, (d.drop 32).take 32, (piecesOf (rd d 8 8) sps).map (fun p => { p with wr := k == 1 })⟩,
    bad.map (fun p => s.faultRec c (s.cidOf c) (if k = 1 then 5 else 4) (k == 1) p))

/-- Steps 4 and 5 of R250 over the chain that was read: what the DISPATCH will do. -/
def State.dispWork (s : State) (cl : Client) (c : Cmd) : Chk DispW := do
  let ds := s.chain c
  need (ds.all descOk) stBadOperand
  let ms ← (ds.zipIdx).mapM (fun x => s.mapDesc cl c x.2 x.1)
  need (decide ((ms.map (fun m => extents m.1.pieces)).foldl (· + ·) 0 ≤ 16384)) stBadOperand
  pure { ep := c.fld 8 2 0 10, engOp := c.num 24 8, descs := ms.map (·.1), unmapped := ms.any (fun m => m.2.isSome), faults := ms.filterMap (·.2) }

/-- The cache hits of a chain's descriptors. -/
def State.touchChain (s : State) (cl : Client) (c : Cmd) : State :=
  s.touchRanges cl (s.cidOf c) ((s.chain c).map (fun d => (lf d 0 1 0 4 == 1, rd d 8 8, rd d 4 4)))

/-- The DISPATCH has passed its checks and waits for its port. -/
def State.dispAccept (s : State) (cl : Client) (w : DispW) : State :=
  ((s.count 0x2105 4).updCmd cl (fun c => { c with phase := .running, stage := 8, work := .disp w })).pump w.ep 8192

/-- Steps 4 and 5 of R250; the DISPATCH is accepted. -/
def State.dispPlan (s : State) (cl : Client) (c : Cmd) : State :=
  s.checked cl (s.dispWork cl c) fun w => (s.touchChain cl c).dispAccept cl w

/-- Steps 1 and 2 of R250. -/
def State.dispFields (s : State) (c : Cmd) : Chk Unit := do
  let n := c.fld 12 4 0 13
  let ep := c.fld 8 2 0 10
  need (c.clean && decide (1 ≤ n ∧ n ≤ 4096 ∧ ep < s.build.nep) && c.num 16 8 % 64 == 0) stBadOperand
  need (s.ownsEp (s.cidOf c) ep) stNotPermitted

/-- Step 3 of R250: the chain's own range. -/
def State.mapChain (s : State) (cl : Client) (c : Cmd) : Chk (List Piece) :=
  s.mapAll cl c (s.cidOf c) false (c.num 16 8) (64 * c.fld 12 4 0 13)

/-- DISPATCH (R247, R250): the chain is read first (stage 1), where it has not been read ahead (R249). -/
def State.doDispatch (cl : Client) (c : Cmd) (s : State) : State :=
  let cid := s.cidOf c
  let plan := fun (cl : Client) (c : Cmd) (s : State) => s.withOperands cl c (fun c s => s.dispPlan cl c)
  if c.stage ≠ 0 then plan cl c s
  else s.checked cl (s.dispFields c) fun _ =>
    match c.work with
    | .disp w => s.dispAccept cl w
    | _ =>
      if c.ranges ≠ [] then
        let s := s.updCmd cl (fun c => { c with phase := .running, stage := 1 })
        if c.allBack then plan cl c s else s
      else s.checked cl (s.mapChain cl c) fun ps =>
        let s := (s.touchRanges cl cid [(false, c.num 16 8, 64 * c.fld 12 4 0 13)]).updCmd cl (fun c => { c with ranges := [ps] })
        s.fetchThen cl cid 1 (itemsOf true ps) plan

/-! ### Chains read ahead of admission (R249) -/

/-- A DISPATCH that has not started is one whose chain is being read ahead. -/
def Cmd.ahead (c : Cmd) : Bool := c.pre == 1 && c.phase != .running && c.phase != .done

/-- The reads of a chain ahead of admission, in the order of R250's checks; a chain that fails one is left to be checked at admission (log
entry 102). -/
def State.preRead (s : State) (cl : Client) (c : Cmd) : State :=
  let cid := s.cidOf c
  match s.dispFields c, s.mapChain cl c with
  | .ok _, .ok ps =>
    let its := s.ready? cid (itemsOf true ps)
    let s := (s.touchRanges cl cid [(false, c.num 16 8, 64 * c.fld 12 4 0 13)]).updCmd cl (fun c => { c with ranges := [ps], items := its })
    (its.zipIdx.filter (fun x => !x.1.back)).foldl (fun s x => s.issue (s.itemReq cl cid x.2 x.1)) s
  | .ok _, .error (.miss cid a) => s.miss cl cid a
  | _, _ => s.updCmd cl (fun c => { c with pre := 3 })

/-- A chain that has been read is translated (R249). -/
def State.preMap (s : State) (cl : Client) (c : Cmd) : State :=
  if c.operandBad then s.updCmd cl (fun c => { c with pre := 3 }) else
  match s.dispWork cl c with
  | .ok w => ((s.touchChain cl c).updCmd cl (fun c => { c with work := .disp w, pre := 2 })).dropNotes cl
  | .error (.miss cid a) => s.miss cl cid a
  | .error (.fail _ _) => s.updCmd cl (fun c => { c with pre := 3 })

/-- Chains that are read ahead go on: first their reads, then their translation. -/
def State.settleChains (s : State) : State :=
  let ahead := fun (s : State) => Tab.keys s.cmds (fun _ c => c.ahead)
  let go := fun (read : Bool) (s : State) (cl : Client) => match s.cmd cl with
    | some c => if read ∧ c.ranges = [] then s.preRead cl c else if !read && c.ranges != [] && c.allBack then s.preMap cl c else s
    | none => s
  let s := (ahead s).foldl (go true) s
  (ahead s).foldl (go false) s

/-- DISPATCH (R247). -/
def execDispatch (q seq : Nat) (s : State) : Out := .next (s.start q seq (fun c => c.opcode == 0x30) State.doDispatch)
/-- FRANKING_CREDIT_RETURN (R357). -/
def execFrankingCreditReturn (ep n : Nat) (s : State) : Out := .next (s.franking ep n)
/-- UPSTREAM_BEAT (R358); an early EP_UP_LAST ends nothing (R363). -/
def execUpstreamBeat (ep xid : Nat) (data : BitVec 512) (poison _last : Bool) (s : State) : Out :=
  .next (s.upBeat ep xid (leBytes 64 data.toNat) poison)
/-- DONE_RESPONSE (R254). -/
def execDoneResponse (ep did stat : Nat) (res : BitVec 32) (s : State) : Out := .next (s.doneResp ep did stat res.toNat)
/-- ENG_RDY_CHANGE (R404). -/
def execEngRdyChange (ep : Nat) (up : Bool) (s : State) : Out := .next (s.engRdy ep up)
/-- ENGINE_QUIESCE_ACK (R433). -/
def execEngineQuiesceAck (ep : Nat) (s : State) : Out := .next (s.qack ep)
/-- ENGINE_RETURN_TIMEOUT (R404). -/
def execEngineReturnTimeout (ep : Nat) (s : State) : Out :=
  .next (s.updEp ep (fun e => if e.inReset then { e with out := true, inReset := false } else e))
/-- STATION_FINAL_REPORT (R110). -/
def execStationFinalReport (q seq stn : Nat) (s : State) : Out := .next (s.finalReport (ckey q seq) stn).pumpAll
/-- STREAM_APPEND (R189). -/
def execStreamAppend (q seq : Nat) (s : State) : Out := .next (s.start q seq (fun c => c.opcode == 0x21) State.doAppend).pumpAll
/-- STREAM_GATHER (R194). -/
def execStreamGather (q seq : Nat) (s : State) : Out := .next (s.start q seq (fun c => c.opcode == 0x22) State.doGather).pumpAll
/-- STREAM_CLOSE MODE 0 (R201), and the undefined modes. -/
def execStreamClose (q seq : Nat) (s : State) : Out :=
  .next (s.start q seq (fun c => c.opcode == 0x23 && c.tmode != 1) State.doClose).pumpAll
/-- STREAM_CLOSE MODE 1 TRIM (R201). -/
def execStreamTrim (q seq : Nat) (s : State) : Out :=
  .next (s.start q seq (fun c => c.opcode == 0x23 && c.tmode == 1) State.doClose).pumpAll

end Sys2Proof.Machine
end

