-- ==== Sys2Proof/Machine/Copy.lean ====
section
/-! DEFINITION. Sys2Proof/Machine/Copy.lean: COPY (R276). -/
namespace Sys2Proof.Machine

/-- Moves sector `k` of a COPY; a sector that arrived poisoned is written poisoned (R276). -/
def State.copySector (s : State) (cl : Client) (c : Cmd) (k : Nat) : State :=
  let src := (c.ranges[0]?).getD []
  let bad := s.arrivedBad c.items src (64 * k) 64
  let s := s.pwrite cl (s.cidOf c) ((c.ranges[1]?).getD []) (64 * k) (s.brought c.items src (64 * k) 64) bad
  if bad then s.updCmd cl (fun c => { c with poison := true }) else s

/-- The sectors are back: they are written, in rising order (log entry 14). Of a cancelled COPY each sector is copied or
left as before (log entry 4), and RESULT_COUNT gives the sectors copied (R281). -/
def State.copyMove (s : State) (cl : Client) (c : Cmd) : State :=
  let n := c.num 8 8 / 64
  match c.cancel with
  | none => ((List.range n).foldl (fun s k => s.copySector cl c k) s).finish cl stOk n 0
  | some _ =>
    let ks := (List.range n).filter (Config.done s.fresh)
    let s := ks.foldl (fun s k => s.copySector cl c k) s.draw
    (s.updCmd cl (fun c => { c with left := c.left || ks != [], count := ks.length })).finish cl stAborted 0 0

/-- COPY (R276): the source is read first (stage 1). -/
def State.doCopy (cl : Client) (c : Cmd) (s : State) : State :=
  let cid := s.cidOf c
  let n := c.num 8 8
  if c.stage = 0 then
    s.checked cl (do
      need (c.clean && n % 64 == 0 && decide (n ≤ 2 ^ 32) && c.num 16 8 % 64 == 0 && c.num 24 8 % 64 == 0 &&
        !decide (c.num 16 8 < c.num 24 8 + n ∧ c.num 24 8 < c.num 16 8 + n)) stBadOperand
      s.mapRanges cl c cid [(false, c.num 16 8, n), (true, c.num 24 8, n)]) fun ps =>
      let s := (s.touchRanges cl cid [(false, c.num 16 8, n), (true, c.num 24 8, n)]).updCmd cl (fun c => { c with ranges := ps })
      s.fetchThen cl cid 1 (itemsOf false ((ps[0]?).getD [])) (fun cl c s => s.copyMove cl c)
  else s.copyMove cl c

/-- COPY (R276). -/
def execCopy (q seq : Nat) (s : State) : Out := .next (s.start q seq (fun c => c.opcode == 0x31) State.doCopy)

end Sys2Proof.Machine
end

