-- ==== Sys2Proof/Machine/Census.lean ====
section
/-! DEFINITION. Sys2Proof/Machine/Census.lean: CENSUS and its records (R283-R291). -/
namespace Sys2Proof.Machine

/-- MQI_QSTAT.STATE (R60). -/
def QState.code : QState → Nat
  | .idle => 1
  | .active => 2
  | .stopping => 3
  | .resetting => 4
  | .stopped => 5
  | .draining => 6

/-- A census record: type, identifier and bytes (R285). -/
structure CRec where
  type : Nat
  id : Nat
  bytes : List Byte
  deriving DecidableEq, Repr

/-- The record of `units` times 64 bytes with its common bytes 0, 1 and 4 to 7 (R285). -/
def cRec (type units id : Nat) (fs : List Fld) (tail : List Byte) : CRec :=
  let head := recBytes (64 * units - tail.length) ([(0, 8, type), (8, 8, units), (32, 32, id)] ++ fs)
  ⟨type, id, head ++ tail⟩

/-- QUEUE (R287). -/
def State.cQueue (s : State) (qid : Nat) (q : Queue) : CRec :=
  cRec 1 1 qid [(16, 3, q.st.code), (20, 4, q.cause), (24, 2, q.cls), (26, 2, q.kwLevel),
    (64, 17, posEnc q.n q.h), (81, 17, posEnc q.n q.f), (98, 17, posEnc q.n q.t), (115, 5, q.log2),
    (128, 17, posEnc q.n q.c), (145, 17, posEnc q.n q.k), (162, 12, q.cid), (174, 9, q.dbs),
    (192, 48, q.nextSeq), (240, 16, s.received qid), (256, 64, q.sq), (320, 64, q.cq), (384, 26, q.timeout),
    (416, 16, q.kwHold), (432, 11, q.vec), (448, 8, q.icnt - 1), (464, 10, q.itime), (480, 16, q.stale), (496, 16, q.drop)] []

/-- CONTEXT (R288). -/
def State.cCtx (s : State) (cid : Nat) (c : Ctx) : CRec :=
  cRec 2 1 cid [(16, 1, b2n c.pasid.isSome), (17, 1, b2n c.detached), (18, 1, b2n c.faultLost), (24, 6, c.key),
    (64, 9, c.fn), (80, 6, c.pid.getD 0x3F), (96, 20, c.pasid.getD 0), (128, 12, c.dbp),
    (144, 10, Tab.cnt s.queues (fun _ q => q.cid == cid)),
    (160, 16, packF (c.segs.map (fun g => (g.1, 1, b2n (g.2.len != 0)))))] []

/-- SEGMENT (R285). -/
def cSeg (cid i : Nat) (g : Seg) : CRec := cRec 3 2 (16 * cid + i) [] g.raw

/-- PARTITION (R288). -/
def State.cPart (s : State) (pid : Nat) (p : Part) : CRec :=
  cRec 4 7 pid [(16, 2, p.st), (64, 48, packF (p.stns.map (fun n => (n, 1, 1)))), (128, 8, p.weight), (160, 26, p.defTmo),
    (192, 19, p.quota), (224, 19, s.fencesOf (some pid)), (256, 32, packF (p.progs.map (fun g => (g.1, 1, 1))))]
    ((List.range 48).flatMap (fun n => leBytes 8 (if p.stns.contains n then Tab.atD p.bays n 0 else 0)))

/-- Commands waiting on a fence: parked heads and running FENCE_WAITs (R289). -/
def State.waitersOf (s : State) (fid : Nat) : Nat :=
  Tab.cnt s.cmds (fun _ c => (c.phase == .parked && c.waits.any (fun w => w.1 == fid && s.waitSt w.1 w.2.1 == .unmet)) ||
    (c.phase == .running && c.opcode == 0x02 && c.fid == fid))

/-- FENCE (R289). -/
def State.cFence (s : State) (fid : Nat) (f : Fence) : CRec :=
  cRec 5 1 fid [(16, 1, b2n f.err), (17, 1, b2n f.shared), (18, 1, b2n f.pid.isNone), (24, 6, f.pid.getD 0x3F),
    (64, 64, f.value), (128, 64, if f.err then f.errVal else 0), (192, 12, f.owner), (224, 32, s.waitersOf fid),
    (256, 32, Tab.cnt s.edges (fun _ e => e.src == fid))] []

/-- EDGE (R285). -/
def cEdge (i : Nat) (e : Edge) : CRec := cRec 6 1 i [(64, 32, e.src), (96, 32, e.dst), (128, 64, e.sv), (192, 64, e.dv)] []

/-- TABLE (R290). -/
def cTable (tid : Nat) (t : Table) : CRec :=
  let shs := List.range t.nshard
  let vs := (t.vers.mergeSort (fun a b => a.ver ≤ b.ver)).flatMap (fun v =>
    leBytes 8 v.base ++ leBytes 4 v.ver ++ leBytes 4 v.floor ++ leBytes 4 v.pins ++ zeros 4)
  cRec 7 6 tid [(16, 4, t.vers.length), (20, 1, b2n (t.incomplete.contains t.s)), (21, 1, b2n t.retiring), (22, 1, b2n t.rebase.isSome),
    (64, 32, t.cur), (96, 32, t.s),
    (128, 32, (shs.map (fun i => t.ovlSlots - t.used i)).foldl min t.ovlSlots),
    (160, 32, (shs.map (fun i => Tab.atD t.inUse i 0)).foldl max 0)]
    (t.raw.take 128 ++ zeros (128 - t.raw.length) ++ (vs ++ zeros (192 - vs.length)).take 192)

/-- A stream's stored descriptor, with the fields of its stored copy (R183). -/
def Stream.stored (sid : Nat) (x : Stream) : List Byte :=
  leBytes 2 (sid + leNat (x.raw.take 2) / 16384 * 16384) ++ (x.raw.drop 2).take 22 ++ leBytes 2 x.owner ++
    leBytes 1 (b2n x.closing + 2 * b2n x.orphaned) ++ zeros 5 ++ leBytes 8 x.total ++ leBytes 8 x.first ++ zeros 16

/-- STREAM (R285). -/
def cStream (sid : Nat) (x : Stream) : CRec := cRec 8 2 sid [] (x.stored sid)

/-- KEYSLOT (R289). -/
def State.cKey (s : State) (k : Nat) (x : KeySlot) : CRec :=
  cRec 9 1 k [(16, 1, b2n (x.st == .loaded)), (17, 1, b2n (x.st == .scrubbing)), (24, 6, x.pid.getD 0x3F), (64, 32, x.epoch),
    (96, 12, Tab.cnt s.ctxs (fun _ c => c.key == k)), (128, 64, s.keyTags k)] []

/-- FAULT: a record in the staging buffer of a partition's postbag (R285, R309). -/
def State.cFault (s : State) (pid : Nat) (r : FaultRec) : CRec :=
  cRec 10 2 pid [] (r.bytes (phaseOf (s.pb pid).n (s.pb pid).tail))

/-- RESET (R289). -/
def State.cReset (s : State) : CRec :=
  cRec 11 1 0 ((64, 32, s.rst.cause) :: (List.range 5).map (fun i => (128 + 32 * i, 32, Tab.atD s.rcv.cnt i 0))) []

/-- Key slot `k`. -/
def State.keySlot (s : State) (k : Nat) : KeySlot := Tab.atD s.keys k {}

/-- The records of a scope, in ascending type and identifier (R284, R285): the contexts in it, the partitions, and
whether it is the whole block. -/
def State.cRecs (s : State) (cids pids : List Nat) (block : Bool) : List CRec :=
  let inC := fun (cid : Nat) => cids.contains cid
  let qs := s.queues.filter (fun e => inC e.2.cid || (block && e.1 == 0))
  let cs := s.ctxs.filter (fun e => inC e.1)
  let fs := s.fences.filter (fun e => (e.2.pid.isSome && inC e.2.owner) || (e.2.pid.isNone && (block || inC 0)))
  let own := fun (fid : Nat) => fs.any (fun e => e.1 == fid)
  let ks := (if s.build.keys then runFrom 0 64 else [0]).filter (fun k => match (s.keySlot k).pid with
    | some p => pids.contains p
    | none => block)
  qs.map (fun e => s.cQueue e.1 e.2) ++ cs.map (fun e => s.cCtx e.1 e.2) ++
  cs.flatMap (fun e => e.2.segs.map (fun g => cSeg e.1 g.1 g.2)) ++
  (s.parts.filter (fun e => pids.contains e.1)).map (fun e => s.cPart e.1 e.2) ++
  fs.map (fun e => s.cFence e.1 e.2) ++
  (s.edges.filter (fun e => own e.2.src || own e.2.dst)).map (fun e => cEdge e.1 e.2) ++
  (s.tables.filter (fun e => inC e.2.owner)).map (fun e => cTable e.1 e.2) ++
  (s.streams.filter (fun e => inC e.2.owner)).map (fun e => cStream e.1 e.2) ++
  ks.map (fun k => s.cKey k (s.keySlot k)) ++
  pids.flatMap (fun p => (s.pb p).staged.map (s.cFault p)) ++
  (if block then [s.cReset] else [])

/-- The scope's contexts and partitions (R283, R284). -/
def State.cScope (s : State) (c : Cmd) : List Nat × List Nat × Bool :=
  let sel := if c.q = 0 then c.fld 10 2 0 12 else s.cidOf c
  match c.fld 8 1 0 2 with
  | 0 => ([sel], [], false)
  | 1 => ((s.ctxs.filter (fun e => e.2.pid == some sel)).map (·.1), [sel], false)
  | _ => ((s.ctxs.filter (fun e => e.2.pid.isSome)).map (·.1), s.parts.map (·.1), true)

/-- HEADER (R286). -/
def cHeader (n scope mask first last need : Nat) : List Byte :=
  recBytes 64 [(0, 8, 0), (8, 8, 1), (32, 32, n), (64, 16, 0x0401), (80, 8, scope), (96, 32, mask), (128, 40, first), (192, 40, last), (256, 64, need)]

/-- The records that fit `n` bytes, in order (R286). -/
def fitRecs : Nat → List CRec → List CRec
  | _, [] => []
  | n, r :: rs => if r.bytes.length ≤ n then r :: fitRecs (n - r.bytes.length) rs else []

/-- CENSUS (R283-R286): no other state changes. Slot 0, which exists without inline encryption too, is one that is never bound (R316, R319). -/
def State.doCensus (cl : Client) (c : Cmd) (s : State) : State :=
  let scope := c.fld 8 1 0 2
  let sel := c.fld 10 2 0 12
  let buf := c.num 24 8
  let len := c.num 32 8
  let cid := s.cidOf c
  s.checked cl (do
    need (c.clean && decide (scope < 3) && buf % 64 == 0 && len % 64 == 0 &&
      (if c.q = 0 then
        decide (buf + len ≤ 2 ^ 64) && (scope != 0 || Tab.has s.ctxs sel) && (scope != 1 || Tab.has s.parts sel)
       else sel == 0)) stBadOperand
    need (c.q == 0 || scope == 0) stNotPermitted
    s.mapRanges cl c cid [(true, buf, len)]) fun ps =>
    let (cids, pids, block) := s.cScope c
    let mask := if c.fld 12 4 1 11 = 0 then 0xFFF else c.fld 12 4 0 12
    let rs := (s.cRecs cids pids block).filter (fun r => bit mask r.type)
    let bytes := 64 + (rs.map (fun r => r.bytes.length)).foldl (· + ·) 0
    let out := if len = 0 then [] else fitRecs (len - 64) rs
    let n := if len = 0 then 0 else out.length + 1
    let hdr := if len = 0 then [] else
      cHeader n scope (mask ||| 1) (Config.stamp s.fresh).toNat (Config.stamp (s.fresh + 1)).toNat bytes
    let s := (s.touchRanges cl cid [(true, buf, len)]).draw.draw.pwrite cl cid ((ps[0]?).getD []) 0 (hdr ++ out.flatMap (·.bytes)) false
    (s.updCmd cl (fun c => { c with trunc := decide (len < bytes) })).finish cl stOk n (bytes / 64)

/-- CENSUS (R283). -/
def execCensus (q seq : Nat) (s : State) : Out := .next (s.start q seq (fun c => c.opcode == 0x38) State.doCensus)

end Sys2Proof.Machine
end

