-- ==== Sys2Proof/Machine/Crypto.lean ====
section
/-! DEFINITION. Sys2Proof/Machine/Crypto.lean: SHA-384 and ECDSA over P-384, which R474, R477 and R491 name for images and
challenges (FIPS 180-4 and FIPS 186-4; log entry 13). -/
namespace Sys2Proof

/-! ### SHA-384 -/

/-- The largest `r` below `acc + 2 ^ bits` with `r ^ k ≤ n`, found bit by bit from the top. -/
def rootBits (k n : Nat) : (bits acc : Nat) → Nat
  | 0, acc => acc
  | b + 1, acc => rootBits k n b (if (acc + 2 ^ b) ^ k ≤ n then acc + 2 ^ b else acc)

/-- The first 64 bits of the fraction of the `k`-th root of `p` (FIPS 180-4 derives every SHA-384 constant so). -/
def rootFraction (k p : Nat) : DWord := BitVec.ofNat 64 (rootBits k (p * 2 ^ (64 * k)) 70 0)

/-- The primes below 410: the first 80 primes. -/
def shaPrimes : List Nat :=
  (List.range 410).filter (fun n => decide (2 ≤ n) && (List.range 21).all (fun d => decide (d < 2 ∨ n ≤ d ∨ n % d ≠ 0)))

/-- The 80 round constants: cube roots of the first 80 primes. -/
def shaK : List DWord := shaPrimes.map (rootFraction 3)

/-- The initial hash value: square roots of the 9th to the 16th prime. -/
def shaIv : List DWord := ((shaPrimes.drop 8).take 8).map (rootFraction 2)

/-- The number that big-endian bytes spell. -/
def beNat (bs : List Byte) : Nat := leNat bs.reverse
/-- `n` big-endian bytes of `v`. -/
def beBytes (n v : Nat) : List Byte := (leBytes n v).reverse

/-- The XOR of a word turned right by each amount of a list. -/
def turns (amounts : List Nat) (x : DWord) : DWord := amounts.foldl (fun acc n => acc ^^^ x.rotateRight n) 0

/-- The padded message of SHA-384: a 1 bit, zeros, and the length in bits as a 16-byte number, to whole 128-byte blocks. -/
def shaPad (m : List Byte) : List Byte :=
  let fill := (239 - m.length % 128) % 128
  m ++ 0x80 :: (zeros fill ++ beBytes 16 (m.length * 8))

/-- The word of the schedule that follows 16 earlier ones. -/
def shaNext (w : List DWord) : DWord :=
  ([(0, [], 64), (1, [1, 8], 7), (9, [], 64), (14, [19, 61], 6)] : List (Nat × List Nat × Nat)).foldl (fun acc t =>
    let x := w.getD t.1 0
    acc + (if t.2.1.isEmpty then x else turns t.2.1 x ^^^ x >>> t.2.2)) 0

/-- The words of the schedule, `n` of them, from the 16 given. -/
def shaSchedule : (n : Nat) → List DWord → List DWord
  | n + 1, x :: rest => x :: shaSchedule n (rest ++ [shaNext (x :: rest)])
  | _, _ => []

/-- The working variables of a block, a to h. -/
structure ShaVars where
  upper : DWord × DWord × DWord × DWord
  lower : DWord × DWord × DWord × DWord

/-- What a bit triple chooses: the second where the first is 1, else the third. -/
def shaChoose (x y z : DWord) : DWord := z ^^^ (x &&& (y ^^^ z))
/-- What two of three bits agree on. -/
def shaMost (x y z : DWord) : DWord := (x &&& (y ||| z)) ||| (y &&& z)

/-- One round, with its constant plus schedule word. -/
def ShaVars.round (v : ShaVars) (kw : DWord) : ShaVars :=
  match v.upper, v.lower with
  | (a, b, c, d), (e, f, g, h) =>
    let fresh := kw + h + shaChoose e f g + turns [14, 18, 41] e
    { upper := (fresh + (shaMost a b c + turns [28, 34, 39] a), a, b, c), lower := (d + fresh, e, f, g) }

/-- The working variables that hold a hash value. -/
def ShaVars.load (h : List DWord) : ShaVars :=
  let word := fun i => h.getD i 0
  { upper := (word 0, word 1, word 2, word 3), lower := (word 4, word 5, word 6, word 7) }

/-- The working variables as the eight words of a hash value. -/
def ShaVars.words (v : ShaVars) : List DWord :=
  match v.upper, v.lower with
  | (a, b, c, d), (e, f, g, h) => a :: b :: c :: d :: e :: f :: g :: [h]

/-- The hash value after one block of 128 bytes. -/
def shaBlock (h : List DWord) (blk : List Byte) : List DWord :=
  let first := (chunksOf 8 16 blk).map (fun bs => BitVec.ofNat 64 (beNat bs))
  let mixed := (List.zipWith (· + ·) shaK (shaSchedule 80 first)).foldl ShaVars.round (ShaVars.load h)
  List.zipWith (· + ·) mixed.words h

/-- SHA-384 of a message: the first 48 bytes of the last hash value. -/
def sha384 (m : List Byte) : List Byte :=
  let padded := shaPad m
  let final := (chunksOf 128 padded.length padded).foldl shaBlock shaIv
  (final.flatMap (fun w => beBytes 8 w.toNat)).take 48

/-! ### ECDSA over P-384 -/

/-- The field, the order, the coefficient b and the base point of P-384. -/
def p384p : Nat := 2 ^ 384 - 2 ^ 128 - 2 ^ 96 + 2 ^ 32 - 1
def p384n : Nat := 0xffffffffffffffffffffffffffffffffffffffffffffffffc7634d81f4372ddf581a0db248b0a77aecec196accc52973
def p384b : Nat := 0xb3312fa7e23ee7e4988e056be3f82d19181d9c6efe8141120314088f5013875ac656398d8a2ed19d2a85c8edd3ec2aef
def p384g : Nat × Nat :=
  (0xaa87ca22be8b05378eb1c71ef320ad746e1d3b628ba79b9859f741e082542a385502f25dbf55296c3a545e3872760ab7,
   0x3617de4a96262c6f5d9e98bf9292dc29f8f41dbd289a147ce9da3113b5f0b8c00a60b1ce1d7e819d7a431d7c90ea0e5f)

/-- `b ^ e` modulo `m`, over `fuel` bits of `e`. -/
def powMod (m : Nat) : Nat → Nat → Nat → Nat
  | 0, _, _ => 1 % m
  | fuel + 1, b, e => (if e % 2 = 1 then b * powMod m fuel (b * b % m) (e / 2) else powMod m fuel (b * b % m) (e / 2)) % m

/-- The inverse modulo a prime below 2^384. -/
def invMod (m a : Nat) : Nat := powMod m 384 (a % m) (m - 2)

/-- `a - b` modulo the field. -/
def subP (a b : Nat) : Nat := (a + (p384p - b % p384p)) % p384p

/-- A point in Jacobian coordinates; Z = 0 is the point at infinity. -/
abbrev JPt := Nat × Nat × Nat

/-- Twice a point. -/
def jDouble (q : JPt) : JPt :=
  let (x, y, z) := q
  let ysq := y * y % p384p
  let s := 4 * x * ysq % p384p
  let zz := z * z % p384p
  let m := 3 * subP x zz * (x + zz) % p384p
  let x3 := subP (m * m) (2 * s)
  (x3, subP (m * subP s x3) (8 * ysq * ysq), 2 * y * z % p384p)

/-- The sum of two points. -/
def jAdd (q r : JPt) : JPt :=
  if q.2.2 = 0 then r else if r.2.2 = 0 then q else
  let z1 := q.2.2 * q.2.2 % p384p
  let z2 := r.2.2 * r.2.2 % p384p
  let u1 := q.1 * z2 % p384p
  let u2 := r.1 * z1 % p384p
  let s1 := q.2.1 * r.2.2 * z2 % p384p
  let s2 := r.2.1 * q.2.2 * z1 % p384p
  if u1 = u2 then (if s1 = s2 then jDouble q else (1, 1, 0))
  else
    let h := subP u2 u1
    let t := subP s2 s1
    let hh := h * h % p384p
    let hhh := h * hh % p384p
    let v := u1 * hh % p384p
    let x3 := subP (subP (t * t) hhh) (2 * v)
    (x3, subP (t * subP v x3) (s1 * hhh), h * q.2.2 * r.2.2 % p384p)

/-- `k` times a point, over `fuel` bits. -/
def jMul : Nat → Nat → JPt → JPt
  | 0, _, _ => (1, 1, 0)
  | fuel + 1, k, q => if k % 2 = 1 then jAdd q (jMul fuel (k / 2) (jDouble q)) else jMul fuel (k / 2) (jDouble q)

/-- The public key is a point of the curve. -/
def onP384 (x y : Nat) : Bool :=
  decide (x < p384p ∧ y < p384p) && (y * y) % p384p == (x * x * x + p384b + 3 * (p384p - x)) % p384p

/-- ECDSA P-384: `sig` (r, s) and `key` (x, y) are 48-byte big-endian integers each, over SHA-384 of the message. -/
def ecdsaOk (key sig msg : List Byte) : Bool :=
  let r := beNat (sig.take 48)
  let s := beNat ((sig.drop 48).take 48)
  let x := beNat (key.take 48)
  let y := beNat ((key.drop 48).take 48)
  decide (0 < r ∧ r < p384n ∧ 0 < s ∧ s < p384n) && onP384 x y &&
    (let e := beNat (sha384 msg)
     let w := invMod p384n s
     let q := jAdd (jMul 384 (e * w % p384n) (p384g.1, p384g.2, 1)) (jMul 384 (r * w % p384n) (x, y, 1))
     let zi := invMod p384p q.2.2
     q.2.2 != 0 && (q.1 * (zi * zi)) % p384p % p384n == r)

/-! ### Public keys that a signature fits (R491) -/

/-- The point with this x coordinate and parity of y, where the curve has one. -/
def liftX (x par : Nat) : Option (Nat × Nat) :=
  let a := (x * x * x + p384b + 3 * (p384p - x % p384p)) % p384p
  let y := powMod p384p 384 a ((p384p + 1) / 4)
  if p384p ≤ x ∨ y * y % p384p ≠ a then none else some (x, if y % 2 = par then y else p384p - y)

/-- The keys for which (r, s) may be a signature over the message, as x then y of 48 bytes: at most four. -/
def ecdsaKeys (r s : Nat) (msg : List Byte) : List (List Byte) :=
  let e := beNat (sha384 msg) % p384n
  let ri := invMod p384n r
  ([r, r + p384n].flatMap (fun x => [0, 1].filterMap (liftX x))).map (fun (a : Nat × Nat) =>
    let q := jAdd (jMul 384 (s * ri % p384n) (a.1, a.2, 1)) (jMul 384 ((p384n - e) * ri % p384n) (p384g.1, p384g.2, 1))
    let zi := invMod p384p q.2.2
    beBytes 48 (q.1 * (zi * zi) % p384p) ++ beBytes 48 (q.2.1 * (zi * zi * zi) % p384p))

end Sys2Proof
end

