-- ==== Sys2Proof/Machine/Image.lean ====
section
/-! DEFINITION. Sys2Proof/Machine/Image.lean: firmware and program images, the fuses and the lifecycle state
(R386, R474-R479). -/
namespace Sys2Proof.Machine

/-! ### Fuses (R386, R477-R479) -/

/-- Fuse word `w`. -/
def State.fuse (s : State) (w : Nat) : Nat := Tab.atD s.fuses w 0
/-- The lifecycle state (R478): 0 DEVELOPMENT, 1 PRODUCTION, 2 and 3 DECOMMISSIONED. -/
def State.lc (s : State) : Nat := bits (s.fuse 76) 0 2
/-- The 48 bytes of the hash of key `id` (R386, R477). -/
def State.keyHash (s : State) (id : Nat) : List Byte := (List.range 12).flatMap (fun k => leBytes 4 (s.fuse (12 * id + k)))
/-- Consecutive 1 bits from bit 0 of word `w` on, over `n` bits (R479). -/
def State.thermo (s : State) (w n : Nat) : Nat := ((List.range n).takeWhile (fun i => bit (s.fuse (w + i / 32)) (i % 32))).length
/-- The firmware counter and the program counter (R479). -/
def State.fwCounter (s : State) : Nat := s.thermo 36 1024
def State.progCounter (s : State) : Nat := s.thermo 68 256

/-! ### Headers (R474) -/

def hMagic : Nat := 0x46344B50
/-- VERSION, SVN, MIN_PROG_SVN, FLAGS, IMG_LEN, STATE_FMT and NSEG of an image. -/
def iVersion (m : List Byte) : Nat := rd m 8 4
def iSvn (m : List Byte) : Nat := rd m 12 2
def iMinProg (m : List Byte) : Nat := rd m 14 2
def iFlags (m : List Byte) : Nat := rd m 18 2
def iLen (m : List Byte) : Nat := rd m 20 4
def iFmt (m : List Byte) : Nat := rd m 24 4
def iNseg (m : List Byte) : Nat := rd m 28 2
def iKey (m : List Byte) : Nat := rd m 7 1
/-- BLOCK_REV suits the block's revision 4.1 (R6, R474). -/
def iRevOk (m : List Byte) : Bool := rd m 17 1 == 4 && decide (rd m 16 1 ≤ 1)

/-- Bytes of a segment's target (R475). -/
def targetSize (t : Nat) : Nat := if t < 16 then 131072 else if t < 20 then 65536 else 0

/-- The layout of a FIRMWARE image (R475). -/
def fwLayoutOk (m : List Byte) : Bool :=
  let es := (List.range (iNseg m)).map (fun i => (m.drop (272 + 16 * i)).take 16)
  decide (1 ≤ iNseg m ∧ iNseg m ≤ 47 ∧ iLen m ≤ 2098176) &&
  es.all (fun e => decide (rd e 0 1 < 20 ∧ 1024 ≤ rd e 4 4 ∧ rd e 4 4 + rd e 8 4 ≤ iLen m ∧ rd e 12 4 + rd e 8 4 ≤ targetSize (rd e 0 1)) &&
    rd e 1 3 == 0 && rd e 4 4 % 64 == 0) &&
  decide ((es.map (fun e => rd e 8 4)).foldl (· + ·) 0 ≤ 2097152)

/-- Fields of a PROGRAM image's descriptor (R476). -/
def pKind (m : List Byte) : Nat := rd m 272 1
def pCost (m : List Byte) : Nat := rd m 282 2
def pCode (m : List Byte) : Nat := rd m 296 4
def pConst (m : List Byte) : Nat := rd m 300 4

/-- The layout of a PROGRAM image and the limits of R143 that its header shows (R476). -/
def progLayoutOk (m : List Byte) : Bool :=
  let n := rd m 273 1
  let body := (List.range 4).map (fun i => rd m (274 + 2 * i) 2)
  decide (pKind m < 2 ∧ 1 ≤ n ∧ n ≤ 4) && (body.drop n).all (· == 0) &&
  body.foldl (· + ·) 0 == pCost m && decide (1 ≤ pCost m ∧ pCost m ≤ 256) && rd m 293 3 == 0 &&
  pCode m % 64 == 0 && pConst m % 64 == 0 && decide (pCode m ≤ 16384 ∧ pConst m ≤ 16384) &&
  !anyByte ((m.drop 304).take 3792) && iLen m == 4096 + pCode m + pConst m

/-! ### Verification (R477, R479) -/

/-- Check 1 of R477. `kind`: 1 FIRMWARE, 2 PROGRAM; the image is all of `m`. -/
def headerOk (kind : Nat) (m : List Byte) : Bool :=
  rd m 0 4 == hMagic && rd m 4 2 == 1 && rd m 6 1 == kind && iRevOk m && iLen m == m.length && iLen m % 64 == 0 &&
  (if kind = 1 then fwLayoutOk m else progLayoutOk m)

/-- Check 2 of R477. -/
def State.keyOk (s : State) (kind : Nat) (m : List Byte) : Bool :=
  let id := iKey m
  let h := s.keyHash id
  (if kind = 1 then decide (id < 2) else id == 2) && !(id == 0 && bit (s.fuse 76) 8) &&
  (if anyByte h then sha384 ((m.drop 80).take 96) == h else s.lc == 0)

/-- The first check of R477 and R479 that an image fails, 1 to 5; 0 when it verifies. -/
def State.imageCheck (s : State) (kind : Nat) (m : List Byte) : Nat :=
  if !headerOk kind m then 1
  else if !s.keyOk kind m then 2
  else if !ecdsaOk ((m.drop 80).take 96) ((m.drop 176).take 96) (m.take 176) then 3
  else if sha384 (m.drop 272) != (m.drop 32).take 48 then 4
  else if iSvn m < (if kind = 1 then s.fwCounter else s.progCounter) then 5
  else 0

end Sys2Proof.Machine
end

