-- ==== Sys2Proof/Machine/Program.lean ====
section
/-! DEFINITION. Sys2Proof/Machine/Program.lean: PROGRAM: pooling programs loaded and unloaded (R140-R145, R277). -/
namespace Sys2Proof.Machine

/-- MODE, HANDLE, IMG_LEN of PROGRAM (R277). -/
def Cmd.pmode (c : Cmd) : Nat := c.fld 8 1 0 1
def Cmd.phandle (c : Cmd) : Nat := c.fld 9 1 0 5

/-- A running command of the partition names the handle (R141). -/
def State.progNamed (s : State) (pid h : Nat) : Bool :=
  Tab.ex s.cmds (fun _ c => match c.work with
    | .look w => s.pidOf (s.cidOf c) == pid && w.subs.any (fun b => b.prog == h)
    | _ => false)

/-- Handles being unloaded that no command names any more are freed (R141). -/
def State.freeProgs (s : State) : State :=
  { s with parts := Tab.mapV s.parts (fun pid p => { p with progs := Tab.keep p.progs (fun h g => !(g.unloading && !s.progNamed pid h)) }) }

/-- The image was read: it is verified and loaded (R140, R143, R479). -/
def State.progLoad (s : State) (cl : Client) (c : Cmd) : State :=
  let m := s.rangeBytes c 0 (c.num 12 4)
  let pid := s.pidOf (s.cidOf c)
  if s.imageCheck 2 m ≠ 0 then s.finish cl stBadSignature 0 0
  else match Tab.at? s.parts pid with
    | none => s.finish cl stNoSpace 0 0
    | some p =>
      let used := fun (f : Prog → Nat) => (p.progs.map (fun g => f g.2)).foldl (· + ·) 0
      match Tab.freeFrom p.progs 1 31 with
      | some h =>
        if used (fun g => g.code.length) + pCode m ≤ 65536 ∧ used (fun g => g.const.length) + pConst m ≤ 49152 then
          let g : Prog := { kind := pKind m, cost := pCost m, code := (m.drop 4096).take (pCode m), const := (m.drop (4096 + pCode m)).take (pConst m),
                            fmts := rd m 284 8, ops := rd m 292 1 }
          ({ s with parts := Tab.upd s.parts pid (fun p => { p with progs := Tab.put p.progs h g }) }).finish cl stOk h 0
        else s.finish cl stNoSpace 0 0
      | none => s.finish cl stNoSpace 0 0

/-- PROGRAM LOAD (R277): the image is read first (stage 1). -/
def State.doProgLoad (cl : Client) (c : Cmd) (s : State) : State :=
  let cid := s.cidOf c
  let n := c.num 12 4
  if c.stage = 0 then
    s.checked cl (do
      need (c.clean && c.phandle == 0 && n % 64 == 0 && decide (64 ≤ n ∧ n ≤ 36864) && c.num 16 8 % 64 == 0) stBadOperand
      s.mapRanges cl c cid [(false, c.num 16 8, n)]) fun ps =>
      let s := (s.touchRanges cl cid [(false, c.num 16 8, n)]).updCmd cl (fun c => { c with ranges := ps })
      s.fetchThen cl cid 1 (itemsOf true ((ps[0]?).getD [])) (fun cl c s => s.withOperands cl c (fun c s => s.progLoad cl c))
  else s.withOperands cl c (fun c s => s.progLoad cl c)

/-- PROGRAM UNLOAD (R141, R277): it completes at once; the handle is freed when nothing names it. -/
def State.doProgUnload (cl : Client) (c : Cmd) (s : State) : State :=
  let pid := s.pidOf (s.cidOf c)
  let h := c.phandle
  s.checked cl (need (c.clean && decide (1 ≤ h) && c.num 12 4 == 0 && c.num 16 8 == 0 &&
      (match (Tab.at? s.parts pid).bind (fun p => Tab.at? p.progs h) with
        | some g => !g.unloading
        | none => false)) stBadOperand) fun _ =>
    let f := fun (p : Part) => { p with progs := Tab.upd p.progs h (fun g => { g with unloading := true }) }
    (({ s with parts := Tab.upd s.parts pid f }).freeProgs).finish cl stOk h 0

/-- PROGRAM_LOAD (R140). -/
def execProgramLoad (q seq : Nat) (s : State) : Out := .next (s.start q seq (fun c => c.opcode == 0x3F && c.pmode == 0) State.doProgLoad)
/-- PROGRAM_UNLOAD (R141). -/
def execProgramUnload (q seq : Nat) (s : State) : Out := .next (s.start q seq (fun c => c.opcode == 0x3F && c.pmode == 1) State.doProgUnload)

end Sys2Proof.Machine
end

