-- ==== Sys2Proof/Machine/Admin.lean ====
section
/-! DEFINITION. Sys2Proof/Machine/Admin.lean: the administrative commands of contexts, queues, tables and partitions
(R51, R53, R69, R86, R155, R278-R280, R302), segments (R292, R293) and invalidation (R304-R306). -/
namespace Sys2Proof.Machine

/-- A partition that exists and is not being removed (R321). -/
def State.partOk (s : State) (pid : Nat) : Bool := match Tab.at? s.parts pid with
  | some p => p.st == 0
  | none => false

/-- Steps 1 to 3 of R279 for a command that names one block in host memory by a bus address (R260): the checks `pre`, then
the block of `n` bytes at `a` is read (stage 1), then `k` runs with the block as range 0. -/
def State.admBlock (s : State) (cl : Client) (c : Cmd) (pre : Chk Unit) (a n : Nat) (k : Client → Cmd → State → State) : State :=
  if c.stage = 0 then
    s.checked cl (do pre; need (c.clean && decide (a + n ≤ 2 ^ 64)) stBadOperand; s.mapAll cl c 0 false a n) fun ps =>
      (s.updCmd cl (fun c => { c with ranges := [ps] })).fetchThen cl 0 1 (itemsOf true ps) (fun cl c s => s.withOperands cl c (k cl))
  else s.withOperands cl c (k cl)

/-- A command that waits: it stays in stage 8 with its work. -/
def State.waitFor (s : State) (cl : Client) (w : Work) : State :=
  s.updCmd cl (fun c => { c with phase := .running, stage := 8, items := [], work := w })

/-! ### CONTEXT_CREATE (R51, R278-R280) -/

/-- Step 2 of R279 for CONTEXT_CREATE. -/
def ctxFields (c : Cmd) : Bool :=
  c.clean && decide (c.fld 8 2 0 9 ≤ 256) && (c.fld 10 1 0 1 == 1 || c.fld 12 4 0 20 == 0) && (c.fld 8 2 0 9 != 0 || c.fld 16 2 0 12 != 0)

/-- The binding and page are free in the function (R51); CID 0 is outside the rule. -/
def State.bindingFree (s : State) (fn : Nat) (pasid : Option Nat) (dbp : Nat) : Bool :=
  !Tab.ex s.ctxs (fun i x => i != 0 && x.fn == fn && (x.pasid == pasid || x.dbp == dbp))

/-- CONTEXT_CREATE (R51): the lowest free CID is taken (log entry 7). -/
def State.doCtxCreate (cl : Client) (c : Cmd) (s : State) : State :=
  let fn := c.fld 8 2 0 9
  let pasid := if c.fld 10 1 0 1 = 1 then some (c.fld 12 4 0 20) else none
  let pid := c.fld 11 1 0 6
  let dbp := c.fld 16 2 0 12
  let key := c.fld 18 1 0 6
  let x := s.keySlot key
  s.checked cl (do
    need (key == 0 || s.build.keys) stUnitAbsent
    need (ctxFields c) stBadOperand
    need (((Tab.at? s.fns fn).map (·.en)).getD false && s.bindingFree fn pasid dbp) stBadOperand
    need (s.partOk pid && (key == 0 || (x.st == .loaded && x.pid == some pid))) stNotPermitted) fun _ =>
    match Tab.freeFrom s.ctxs 1 4095 with
    | some cid => ({ s with ctxs := Tab.put s.ctxs cid { fn := fn, pasid := pasid, pid := some pid, dbp := dbp, key := key } }).pushIso.finish cl stOk cid 0
    | none => s.finish cl stNoContext 0 0

/-! ### Queues (R69, R75, R280) -/

/-- Step 2 of R279 for QUEUE_CREATE. -/
def queueFields (c : Cmd) : Bool :=
  let lg := c.fld 10 1 0 5
  c.clean && decide (4 ≤ lg ∧ lg ≤ 16 ∧ (c.fld 11 1 0 2 = 3 → lg ≤ 8) ∧ c.fld 11 1 2 2 ≤ 2 ∧ c.fld 32 4 0 26 ≤ 60000000) &&
  c.num 16 8 % 4096 == 0 && c.num 24 8 % 4096 == 0

/-- Two addresses lie in one segment of a context. -/
def State.oneSeg (s : State) (cid a b : Nat) : Bool := match Tab.at? s.ctxs cid with
  | some x => match x.segOf a, x.segOf b with
    | some i, some j => i.1 == j.1
    | _, _ => false
  | none => false

/-- The checks of R69 in their order. -/
def State.queueChecks (s : State) (cl : Client) (c : Cmd) : Chk Unit := do
  let cid := c.fld 8 2 0 12
  let n := 2 ^ c.fld 10 1 0 5
  need (queueFields c) stBadOperand
  need (cid != 0 && (match Tab.at? s.ctxs cid with
    | some x => !x.detached
    | none => false)) stBadContext
  need (!Tab.ex s.queues (fun _ q => q.cid == cid && q.dbs == c.fld 12 2 0 9) && decide (Tab.cnt s.queues (fun _ q => q.cid == cid) < 512)) stBadOperand
  let _ ← s.mapAll cl c cid false (c.num 16 8) (64 * n)
  let _ ← s.mapAll cl c cid true (c.num 24 8) (32 * n)
  need (s.oneSeg cid (c.num 16 8) (c.num 16 8 + 64 * n - 1) && s.oneSeg cid (c.num 24 8) (c.num 24 8 + 32 * n - 1)) stBadOperand

/-- The queue that QUEUE_CREATE makes (R69, R75, R278). -/
def newQueue (c : Cmd) : Queue :=
  { st := .idle, cls := c.fld 11 1 0 2, cid := c.fld 8 2 0 12, dbs := c.fld 12 2 0 9, sq := c.num 16 8, cq := c.num 24 8,
    log2 := c.fld 10 1 0 5, timeout := c.fld 32 4 0 26, kwLevel := c.fld 11 1 2 2, kwHold := c.num 14 2, vec := c.fld 36 2 0 11,
    icnt := c.num 38 1 + 1, itime := c.fld 40 2 0 10 }

/-- QUEUE_CREATE (R69): the lowest free QID is taken (log entry 7). -/
def State.doQueueCreate (cl : Client) (c : Cmd) (s : State) : State :=
  s.checked cl (s.queueChecks cl c) fun _ =>
    let n := 2 ^ c.fld 10 1 0 5
    let s := s.touchRanges cl (c.fld 8 2 0 12) [(false, c.num 16 8, 64 * n), (true, c.num 24 8, 32 * n)]
    match Tab.freeFrom s.queues 1 32767 with
    | some qid => ({ s with queues := Tab.put s.queues qid (newQueue c) }).finish cl stOk qid 0
    | none => s.finish cl stNoQid 0 0

/-- A queue enters DRAINING (R75). -/
def State.drainQueue (s : State) (qid : Nat) : State := (s.updQ qid (fun q => { q with st := .draining })).endFetch qid

/-- QUEUE_DESTROY (R280). -/
def State.doQueueDestroy (cl : Client) (c : Cmd) (s : State) : State :=
  let qid := c.fld 8 2 0 15
  s.checked cl (do need (c.clean && qid != 0) stBadOperand; need (Tab.has s.queues qid) stBadOperand) fun _ =>
    (s.drainQueue qid).waitFor cl (.obj qid)

/-! ### SEGMENT_SET's descriptor (R292, R293) -/

/-- A segment as its descriptor gives it (R292). -/
def segOfDesc (d : List Byte) : Seg :=
  { base := rd d 0 8, len := bits (rd d 8 8) 0 47, paged := bit (rd d 16 1) 0, wr := bit (rd d 16 1) 1, host := bit (rd d 16 1) 2,
    stn := bits (rd d 17 1) 0 6, phys := rd d 24 8, raw := d }

/-- The first row of R293, of which a disabled segment is held only to the reserved fields and the alignment. -/
def segFields (d : List Byte) : Bool :=
  let g := segOfDesc d
  zeroOutside 0 d [(0, 18), (24, 8)] && rd d 8 8 < 2 ^ 47 && bits (rd d 16 1) 3 5 == 0 && bits (rd d 17 1) 6 2 == 0 &&
  g.base % 65536 == 0 && g.len % 65536 == 0 && g.phys % (if g.paged then 4096 else 65536) == 0 && decide (g.len ≤ 2 ^ 46) &&
  (g.len == 0 || decide (g.base + g.len ≤ 2 ^ 64))

/-- The checks of R279 and R293 on a descriptor. While the context's partition is being removed the command fails as for no
such partition (R321). -/
def State.segChecks (s : State) (cid i : Nat) (d : List Byte) : Chk Unit := do
  let g := segOfDesc d
  match Tab.at? s.ctxs cid with
  | none => .error (.fail stBadContext none)
  | some x =>
    need (cid != 0 && !x.detached) stBadContext
    need (segFields d) stBadOperand
    need (g.len == 0 || !x.segs.any (fun e => e.1 != i && e.2.len != 0 && overlaps (g.base, g.len) (e.2.base, e.2.len))) stBadOperand
    let pid := x.pid.getD 0x3F
    need (s.partOk pid && (g.len == 0 || g.host || s.owns pid g.stn)) stNotPermitted
    need (g.len == 0 || g.paged || g.host || decide (g.phys + g.len ≤ s.build.memBytes g.stn)) stBadOperand

/-! ### Invalidation (R304-R306) -/

/-- Two requests are the same but for what happened to them since. -/
def Req.same (a b : Req) : Bool := { a with lane := 0, swept := false, bad := [], got := 0 } == { b with lane := 0, swept := false, bad := [], got := 0 }
/-- The request is outstanding or waits for a tag. -/
def State.inFlight (s : State) (r : Req) : Bool := s.tags.any (fun e => e.2.same r) || s.waiting.any (fun x => x.same r)
/-- Requests outstanding or waiting that satisfy `p`. -/
def State.reqs (s : State) (p : Req → Bool) : List Req := ((s.tags.map (·.2)) ++ s.waiting).filter p
/-- A hub access: an item of a command, slots of a ring, or a write. -/
def Req.isHub (r : Req) : Bool := match r.pur with
  | .item _ => true
  | .write _ => true
  | .fetch _ _ _ _ => true
  | _ => false
/-- A station's access to rows or elements. -/
def Req.isList (r : Req) : Bool := match r.pur with
  | .item _ => true
  | .write _ => true
  | .row _ _ _ => true
  | _ => false

/-- A piece that lies partly in the range. -/
def Piece.hits (lo len : Nat) (p : Piece) : Bool := decide (p.ca < lo + len ∧ lo < p.ca + p.len)

/-- Translates again the part of a piece that lies in the range. -/
def State.repieceOne (s : State) (cl : Client) (cid lo len : Nat) (p : Piece) : Chk (List Piece) :=
  let a := max p.ca lo
  let b := min (p.ca + p.len) (lo + len)
  if a < b then
    match s.spans cl cid p.wr a (b - a) with
    | .error e => .error e
    | .ok sps =>
      let o := b - p.ca
      .ok ((if p.ca < a then [{ p with len := a - p.ca }] else []) ++
        (piecesOf a sps).map (fun q => { q with off := q.off + (a - p.ca) + p.off, wr := p.wr }) ++
        (if o < p.len then [{ p with off := p.off + o, len := p.len - o, ca := b, tgt := p.tgt.map (fun t => { t with addr := t.addr + o }) }] else []))
  else .ok [p]

/-- Translates a list of pieces again where it lies in the range (R304 steps 2 and 3). -/
def State.repiece (s : State) (cl : Client) (cid lo len : Nat) (ps : List Piece) : Chk (List Piece) :=
  match ps.mapM (s.repieceOne cl cid lo len) with
  | .ok r => .ok r.flatten
  | .error e => .error e

/-- Translates the lists of a table of pieces again. -/
def State.repieceTab (s : State) (cl : Client) (cid lo len : Nat) (t : Tab (List Piece)) : Chk (Tab (List Piece)) :=
  t.mapM (fun e => do let p ← s.repiece cl cid lo len e.2; pure (e.1, p))

/-- The extent lists of a table of the context, built again (R304 step 3). -/
def State.relistTable (s : State) (cl : Client) (cid lo len : Nat) (t : Table) : Chk Table :=
  if t.owner = cid then do
    let ext ← s.repieceTab cl cid lo len t.ext
    let ovl ← s.repieceTab cl cid lo len t.ovl
    let d ← s.repiece cl cid lo len t.dext
    pure { t with ext := ext, ovl := ovl, dext := d }
  else pure t

/-- Bytes `o` to `o + n` of the old pieces, within the new ones: the reads under way keep the translation they were issued under. -/
def splicePieces (new old : List Piece) (o n len : Nat) : List Piece :=
  cutPieces new 0 o ++ (cutPieces old o n).map (fun p => { p with off := p.off + o }) ++
    (cutPieces new (o + n) (len - (o + n))).map (fun p => { p with off := p.off + (o + n) })

/-- The bytes of list `i`'s codes that are being read, and whether its identifiers are. -/
def Cmd.listReads (c : Cmd) (i : Nat) : (Nat × Nat) × Bool :=
  let l := c.scanW.list i
  match c.scanW.per.find? (fun x => x.stn == lStn l.raw) with
  | some x => (match x.busy, x.seg with
      | some _, some (j, v) => if j = i then (v * c.sCB, segN l v * c.sCB) else (0, 0)
      | _, _ => (0, 0), x.ids)
  | none => ((0, 0), false)

/-- A list that a station scans is translated again; one that is not whole any more is dropped with its fault record (R217, log entry 95). -/
def Cmd.relistOne (c : Cmd) (i : Nat) (m : List (List Piece) × Option FaultRec) : Cmd × List FaultRec :=
  let l := c.scanW.list i
  let r := c.listReads i
  let codes := splicePieces ((m.1[0]?).getD []) (c.codes i) r.1.1 r.1.2 (up64 (lCount l.raw * c.sCB))
  let ids := if r.2 then c.ids i else (m.1[1]?).getD []
  let c := { c with ranges := setNth (setNth c.ranges (6 + 2 * i) codes) (7 + 2 * i) ids }
  if m.2.isSome ∧ c.scanW.per.any (fun x => x.seg.any (fun g => g.1 == i)) then
    let w := c.scanW
    ({ c with work := .scan { w with fault := true, lists := w.lists.map (fun x => if x.idx = i then { x with skip := true } else x) } }, m.2.toList)
  else (c, [])

/-- The lists of a scan that lie in the range and have been sent, translated again. -/
def State.relistScan (s : State) (cl : Client) (lo len : Nat) (c : Cmd) : Chk (Cmd × List FaultRec) :=
  (c.scanW.lists.filter (fun l => !l.skip && (c.codes l.idx ++ c.ids l.idx).any (Piece.hits lo len))).foldlM (fun a l => do
    let m ← s.mapList cl c l.raw
    let r := a.1.relistOne l.idx m
    pure (r.1, a.2 ++ r.2)) (c, [])

/-- A range whose reads have been issued: they keep their translation (R304 step 2). -/
def Cmd.isRead (c : Cmd) (ps : List Piece) : Bool :=
  !ps.any (·.wr) && c.items.any (fun i => ps.any (fun p => match p.tgt with
    | some t => i.tgt.host == t.host && (i.tgt.host || i.tgt.stn == t.stn) && decide (i.tgt.addr < t.addr + p.len ∧ t.addr < i.tgt.addr + i.len)
    | none => false))

/-- What a command of the context holds and has not used yet is translated again: its ranges, the destinations of a lookup, the lists of a
scan, and the descriptors of a DISPATCH that has not started; one not yet admitted drops its descriptors instead (R304 steps 2 and 4). -/
def State.relistCmd (s : State) (cl : Client) (cid lo len : Nat) (c : Cmd) : Chk (Cmd × List FaultRec) :=
  if s.cidOf c = cid ∧ c.q ≠ 0 then do
    let n := if c.opcode = 0x28 then 6 else c.ranges.length
    let rs ← (c.ranges.take n).mapM (fun ps => if c.isRead ps then pure ps else s.repiece cl cid lo len ps)
    let c := { c with ranges := rs ++ c.ranges.drop n }
    match c.work with
    | .look w => do
      let ds ← w.dests.mapM (fun d => do
        let o ← s.repiece cl cid lo len d.out
        let f ← s.repiece cl cid lo len d.flags
        pure { d with out := o, flags := f })
      pure ({ c with work := .look { w with dests := ds } }, [])
    | .disp w =>
      if w.did.isSome ∨ !w.descs.any (fun d => d.pieces.any (Piece.hits lo len)) then pure (c, [])
      else if c.phase = .running then do
        let w ← s.dispWork cl c
        pure ({ c with work := .disp w }, [])
      else pure ({ c with work := .idle, pre := 3 }, [])
    | .scan _ => s.relistScan cl lo len c
    | _ => pure (c, [])
  else pure (c, [])

/-- Everything that was built from the range is built again. -/
def State.relist (s : State) (cl : Client) (w : InvW) : Chk State := do
  let ts ← s.tables.mapM (fun e => do let t ← s.relistTable cl w.cid w.lo w.len e.2; pure (e.1, t))
  let xs ← s.streams.mapM (fun e => do
    let p ← if e.2.owner = w.cid then s.repiece cl w.cid w.lo w.len e.2.ext else pure e.2.ext
    pure (e.1, { e.2 with ext := p }))
  let cs ← s.cmds.mapM (fun e => do let c ← s.relistCmd cl w.cid w.lo w.len e.2; pure (e.1, c))
  pure ((cs.flatMap (·.2.2)).foldl (fun s r => s.postFor r.pid r) { s with tables := ts, streams := xs, cmds := cs.map (fun e => (e.1, e.2.1)) })

/-- The stations that hold an extent list built from the range. -/
def State.listStns (s : State) (w : InvW) : List Nat :=
  let hit := fun (ps : List Piece) => ps.any (Piece.hits w.lo w.len)
  ((s.tables.filter (fun e => e.2.owner == w.cid)).flatMap (fun e =>
      let t := e.2
      (t.ext.filter (fun x => hit x.2)).map (fun x => t.stnOf (x.1 % 64)) ++ (t.ovl.filter (fun x => hit x.2)).map (fun x => t.stnOf x.1) ++
        (if hit t.dext then [t.stnOf 0] else [])) ++
    (s.streams.filter (fun e => e.2.owner == w.cid && hit e.2.ext)).map (·.2.stn)).eraseDups

/-- A port holds a transfer, begun or still to come of a started DISPATCH of the context, that uses an extent in the range. -/
def State.epHolds (s : State) (w : InvW) (e : Ep) : Bool :=
  let mine := fun (cl : Client) => match s.cmd cl with
    | some c => s.cidOf c == w.cid
    | none => false
  e.xids.any (fun x => mine x.2.client && x.2.pieces.any (Piece.hits w.lo w.len)) ||
  e.dids.any (fun d => mine d.2 && (match s.disp d.2 with
    | some (_, p) => (p.descs.drop p.next).any (fun d => d.live && d.pieces.any (Piece.hits w.lo w.len))
    | none => false))

/-- Steps 1 and 2 of R304. -/
def State.invBegin (s : State) (cl : Client) (cid lo len : Nat) : State :=
  let w : InvW := { cid := cid, lo := lo, len := len, hub := s.reqs (fun r => r.cid == cid && r.isHub) }
  (s.invalCache cid lo len).updCmd cl (fun c => { c with phase := .running, stage := 2, items := [], work := .inv w })

/-- Everything the invalidation waits for is done. -/
def State.invDone (s : State) (w : InvW) : Bool := w.stns == [] && w.ports == [] && !w.hub.any s.inFlight

/-- Invalidations that have nothing left to wait for complete (R304 step 5); of a CONTEXT_DESTROY the CID is then free (R280). -/
def State.settleInv (s : State) : State :=
  (s.cmds.filter (fun e => e.2.phase == .running && e.2.stage == 8 && e.2.cancel.isNone)).foldl (fun s e => match e.2.work with
    | .inv w =>
      if s.invDone w then
        if e.2.opcode = 0x48 then s.finish e.1 stOk w.acked 0
        else if e.2.opcode = 0x47 then s.finish e.1 stOk 0 0
        else ({ s with ctxs := Tab.del s.ctxs w.cid }).pushIso.finish e.1 stOk w.cid 0
      else s
    | _ => s) s

/-- Steps 3 and 4 of R304: the lists are built again, and the stations and ports that must acknowledge are noted. -/
def State.invGo (cl : Client) (c : Cmd) (s : State) : State :=
  match c.work with
  | .inv w =>
    let stns := s.listStns w
    let ports := Tab.keys s.eps (fun _ e => s.epHolds w e)
    let old := s.reqs (fun r => r.isList && (match r.stn with
      | some n => stns.contains n
      | none => false))
    s.checked cl (s.relist cl w) fun s =>
      (s.updCmd cl (fun c => { c with stage := 8, work := .inv { w with stns := stns, ports := ports, old := old } })).settleInv
  | _ => s

/-- Runs an invalidation of a range; an empty one completes at once. -/
def State.invalidate (s : State) (cl : Client) (cid lo len : Nat) : State :=
  if len = 0 then s.finish cl stOk 0 0
  else
    let s := s.invBegin cl cid lo len
    match s.cmd cl with
    | some c => State.invGo cl c s
    | none => s

/-- The descriptor was read: the slot is set, and its old range invalidated (R293). -/
def State.segStore (cl : Client) (c : Cmd) (s : State) : State :=
  let d := s.rangeBytes c 0 64
  let cid := c.fld 8 2 0 12
  let i := c.fld 10 1 0 4
  let old := (Tab.at? s.ctxs cid).bind (fun x => Tab.at? x.segs i)
  s.checked cl (s.segChecks cid i d) fun _ =>
    let s := { s with ctxs := Tab.upd s.ctxs cid (fun x => { x with segs := Tab.put x.segs i (segOfDesc d) }) }
    s.invalidate cl cid ((old.map (·.base)).getD 0) ((old.map (·.len)).getD 0)

/-- SEGMENT_SET (R293). -/
def State.doSegmentSet (cl : Client) (c : Cmd) (s : State) : State :=
  if c.stage ≤ 1 then s.admBlock cl c (.ok ()) (c.num 16 8) 64 State.segStore else State.invGo cl c s

/-- INVALIDATE_RANGE (R279, R304); a detached context accepts none (R55). -/
def State.doInvalidate (cl : Client) (c : Cmd) (s : State) : State :=
  let cid := c.fld 8 2 0 12
  if c.stage = 0 then
    s.checked cl (do
      need (c.clean && cid != 0 && c.num 16 8 % 65536 == 0 && c.num 24 8 % 65536 == 0 && decide (c.num 16 8 + c.num 24 8 ≤ 2 ^ 64)) stBadOperand
      need (match Tab.at? s.ctxs cid with
        | some x => !x.detached
        | none => false) stBadContext) fun _ => s.invalidate cl cid (c.num 16 8) (c.num 24 8)
  else State.invGo cl c s

/-- The work of an invalidation that waits for acknowledgements. -/
def State.invWork (s : State) (cl : Client) : Option InvW :=
  match s.cmd cl with
  | some c => match c.work with
    | .inv w => if c.stage = 8 ∧ c.phase = .running then some w else none
    | _ => none
  | none => none

/-- A station acknowledges once nothing under an older generation is outstanding; a port once it holds no extent of the range
(R304 steps 3 and 4). -/
def State.extentAck (s : State) (cl : Client) (isPort : Bool) (id : Nat) : State :=
  match s.invWork cl with
  | none => s
  | some w =>
    let set := fun (w : InvW) => (s.updCmd cl (fun c => { c with work := .inv w })).settleInv
    if isPort then
      if w.ports.contains id && !(match Tab.at? s.eps id with
        | some e => s.epHolds w e
        | none => false) then set { w with ports := w.ports.erase id, acked := w.acked + 1 } else s
    else if w.stns.contains id && !w.old.any (fun r => r.stn == some id && s.inFlight r) then set { w with stns := w.stns.erase id } else s

/-- The engine step on a port ends what it holds: invalidations go on without counting it (R305). -/
def State.invDropPort (s : State) (ep : Nat) : State :=
  { s with cmds := Tab.mapV s.cmds (fun _ c => match c.work with
    | .inv w => { c with work := .inv { w with ports := w.ports.erase ep } }
    | _ => c) }.settleInv

/-- INVALIDATE_ACK_TIMEOUT (R305): the port is taken through the engine step. -/
def State.invTimeout (s : State) (cl : Client) (ep : Nat) : State :=
  match s.invWork cl with
  | some w => if w.ports.contains ep then s.ask 2 ep else s
  | none => s

/-! ### Objects that end when nothing uses them (R172, R201, R233) -/

/-- Streams that are closing and no CLOSE waits for, and retired tables that no TABLE_RETIRE waits for, are freed once nothing
uses them (R172, R201). -/
def State.settleFreed (s : State) : State :=
  let waited := fun (p : Work → Bool) => Tab.ex s.cmds (fun _ c => c.phase == .running && c.cancel.isNone && p c.work)
  { s with
    streams := Tab.keep s.streams (fun i x => !(x.closing && !x.users.any (fun u => (s.cmd u).isSome) &&
      !waited (fun w => match w with
        | .close sid _ => sid == i
        | _ => false)))
    tables := Tab.keep s.tables (fun i t => !(t.retiring && t.vers.all (fun x => x.pins == 0) && t.writers == [] && t.pend == [] && t.copying.isNone &&
      !waited (fun w => match w with
        | .table tid _ => tid == i
        | _ => false))) }

/-- A table is retired as TABLE_RETIRE MODE 1 does: its streams are orphaned (R172, R200). -/
def State.retireTable (s : State) (tid : Nat) : State :=
  { s.updTable tid (fun t => { t with retiring := true }) with
    streams := Tab.mapV s.streams (fun _ x => if !x.row && x.tid == tid then { x with orphaned := true } else x) }

/-! ### CONTEXT_DESTROY (R280) -/

/-- Contexts being destroyed whose queues are FREE and whose census tags are gone: their segments are cleared as an invalidation
would clear them. -/
def State.settleCtxs (s : State) : State :=
  (s.cmds.filter (fun e => e.2.phase == .running && e.2.stage == 8 && e.2.opcode == 0x41 && e.2.cancel.isNone)).foldl (fun s e => match e.2.work with
    | .obj cid =>
      if !Tab.ex s.queues (fun _ q => q.cid == cid) && s.ctxTags cid == 0 then
        ({ s with ctxs := Tab.upd s.ctxs cid (fun x => { x with segs := [] }) }).invalidate e.1 cid 0 (2 ^ 64)
      else s
    | _ => s) s

/-- What administrative commands wait for is looked at again. -/
def State.settleAdmin (s : State) : State := s.settleFreed.settleCtxs.settleInv

/-- Closes, destroys and retires what a context owns, and drains its queues (R280). -/
def State.endContext (s : State) (cid : Nat) : State :=
  let s := (Tab.keys s.queues (fun _ q => q.cid == cid)).foldl (fun s q => s.drainQueue q) s
  let s := { s with streams := Tab.mapV s.streams (fun _ x => if x.owner = cid then { x with closing := true } else x) }
  let s := (Tab.keys s.fences (fun _ f => f.owner == cid && f.pid.isSome)).foldl (fun s f => s.destroyFence f) s
  (Tab.keys s.tables (fun _ t => t.owner == cid)).foldl (fun s t => s.retireTable t) s.freeFences

/-- CONTEXT_DESTROY (R280). -/
def State.doCtxDestroy (cl : Client) (c : Cmd) (s : State) : State :=
  let cid := c.fld 8 2 0 12
  s.checked cl (do need (c.clean && cid != 0) stBadOperand; need (Tab.has s.ctxs cid) stBadContext) fun _ =>
    ((s.endContext cid).waitFor cl (.obj cid)).settleAdmin

/-- Census tags of a queue: requests of its rings and of its commands (R75). -/
def State.queueTags (s : State) (qid : Nat) : Bool :=
  let mine := fun (r : Req) => r.client == ringClient qid || (decide (r.client < ckey 32768 0) && r.client / 2 ^ 48 == qid)
  Tab.ex s.tags (fun _ r => mine r) || s.waiting.any mine

/-- QUEUE_DRAINED (R75): the queue is FREE, and commands that waited for it go on. -/
def State.queueDrained (s : State) (qid : Nat) : State :=
  match Tab.at? s.queues qid with
  | none => s
  | some q =>
    if q.st = .draining ∧ s.received qid = 0 ∧ s.queueTags qid = false then
      let s := ({ s with queues := Tab.del s.queues qid }).dropNotes (ringClient qid)
      let s := (s.cmds.filter (fun e => e.2.phase == .running && e.2.opcode == 0x43 && e.2.work == .obj qid)).foldl
        (fun s e => s.finish e.1 stOk qid 0) s
      s.settleAdmin.settleSteps
    else s

/-! ### TABLE_CREATE (R85, R86, R155) -/

/-- The largest local row count of any shard (R87). -/
def maxLocal (block : Bool) (rows shift nshard : Nat) : Nat :=
  if block then
    let last := (rows - 1) / 2 ^ shift
    if last % nshard = 0 then last / nshard * 2 ^ shift + (rows - last * 2 ^ shift) else (last / nshard + 1) * 2 ^ shift
  else min rows (2 ^ shift)

/-- The table a descriptor describes, without its extents (R85, R149, R154). -/
def tableOf (d : List Byte) : Table :=
  let row := rowBytes (rd d 3 1) (lf d 4 2 0 13)
  let st := lf d 16 2 0 9
  { pid := lf d 2 1 0 6, fmt := rd d 3 1, width := lf d 4 2 0 13, owner := lf d 6 2 0 12, shared := lf d 6 2 12 1 == 1,
    rows := lf d 8 8 0 41, stride := if st = 0 then up64 row else 64 * st, block := lf d 18 1 0 2 == 1, shift := rd d 20 1,
    nshard := rd d 19 1, dmode := lf d 21 1 0 2, shardBytes := rd d 24 8, daddr := rd d 40 8, ovlBase := rd d 48 8,
    ovlSlots := lf d 56 4 0 24, stns := ((d.drop 64).take 48).map (·.toNat), raw := d, vers := [⟨1, rd d 32 8, 1, 0⟩] }

/-- The rows of R86 that read the descriptor alone, after the MX row. -/
def tableFields (d : List Byte) : Bool :=
  let t := tableOf d
  let row := rowBytes t.fmt t.width
  zeroOutside 0 d [(0, 22), (24, 36), (64, 48)] && lf d 2 1 6 2 == 0 && lf d 4 2 13 3 == 0 && lf d 6 2 13 3 == 0 && lf d 8 8 41 23 == 0 &&
  lf d 16 2 9 7 == 0 && lf d 18 1 2 6 == 0 && lf d 21 1 2 6 == 0 && lf d 56 4 24 8 == 0 && decide (lf d 18 1 0 2 < 2 ∧ t.dmode < 3) && fmtDefined t.fmt &&
  decide (1 ≤ t.width ∧ t.width ≤ 4096 ∧ row ≤ 16384 ∧ 1 ≤ t.rows ∧ t.rows ≤ 2 ^ 40) &&
  decide (up64 row ≤ t.stride ∧ t.stride ≤ 64 * 256 ∧ 1 ≤ t.nshard ∧ t.nshard ≤ 48 ∧ t.shift ≤ (if t.block then 32 else 40)) &&
  (t.block || decide (t.rows ≤ t.nshard * 2 ^ t.shift)) && t.shardBytes % 65536 == 0 &&
  decide (maxLocal t.block t.rows t.shift t.nshard * t.stride ≤ t.shardBytes)

/-- An address outside every segment of the context fails with a NO_SEGMENT record (R86, R308). -/
def State.inSeg (s : State) (c : Cmd) (cid a : Nat) : Chk Unit :=
  if ((Tab.at? s.ctxs cid).bind (fun x => x.segOf a)).isSome then .ok ()
  else .error (.fail stFault (some (s.faultRec c cid 2 false { lo := a, hi := a + 1, tgt := none, type := 1 })))

/-- A range that lies partly outside the context's segments fails likewise (R155). -/
def State.spansInSeg (s : State) (c : Cmd) (cid : Nat) (sps : List Span) : Chk Unit :=
  match sps.find? (fun p => p.tgt.isNone && p.type == 1) with
  | some p => .error (.fail stFault (some (s.faultRec c cid 2 false p)))
  | none => .ok ()

/-- R86 and R155 on a descriptor that was read: the table with its extent lists. -/
def State.tableChecks (s : State) (cl : Client) (c : Cmd) (d : List Byte) : Chk Table := do
  let t := tableOf d
  let base := rd d 32 8
  need (!fmtMx t.fmt || s.build.mx) stUnitAbsent
  need (tableFields d) stBadOperand
  need (s.partOk t.pid && (match Tab.at? s.ctxs t.owner with
    | some x => x.pid == some t.pid && !x.detached
    | none => false) && (t.stns.take t.nshard).all (s.owns t.pid)) stNotPermitted
  s.inSeg c t.owner base
  s.inSeg c t.owner (base + t.nshard * t.shardBytes - 1)
  if t.dmode = 2 then s.inSeg c t.owner t.daddr else pure ()
  let side ← s.sideSpans cl t
  s.spansInSeg c t.owner side.1.flatten
  let sps ← s.baseSpans cl t.owner base t.nshard t.shardBytes
  let ext := (sps.zipIdx).map (fun x => piecesOf (base + x.2 * t.shardBytes) x.1)
  let t := t.withSides side
  need (ext.all (fun x => decide (extents x ≤ 1024)) &&
    t.ovl.all (fun x => decide (extents x.2 ≤ 1024) && !elsewhere (t.stnOf x.1) x.2 && x.2.all (fun p => p.tgt.isSome))) stBadOperand
  need ((Tab.freeFrom s.tables 0 65536).isSome) stNoTable
  pure (t.pushExt base ext)

/-- TABLE_CREATE with its descriptor read: the lowest free TID is taken (log entry 7), and the directories are set to all ones
(R155). -/
def State.tableStore (cl : Client) (c : Cmd) (s : State) : State :=
  let d := s.rangeBytes c 0 128
  s.checked cl (s.tableChecks cl c d) fun t =>
    match Tab.freeFrom s.tables 0 65536 with
    | none => s.finish cl stNoTable 0 0
    | some tid =>
      let s := { s with tables := Tab.put s.tables tid { t with raw := leBytes 2 tid ++ d.drop 2 } }
      (t.ovl.foldl (fun s o => s.pwrite cl t.owner o.2 0 (List.replicate (32 * t.ovlSlots) 0xFF) false) s).finish cl stOk tid 0

/-- TABLE_CREATE (R86). -/
def State.doTableCreate (cl : Client) (c : Cmd) (s : State) : State :=
  s.admBlock cl c (need (c.num 24 8 % 64 == 0) stBadOperand) (c.num 24 8) 128 State.tableStore

/-! ### PARTITION_CREATE (R53, R104, R278-R280, R302) -/

/-- The stations a mask names. -/
def maskStns (m : Nat) : List Nat := (List.range 48).filter (bit m)
/-- Bay of a station in the array that was read (R278). -/
def bayAt (d : List Byte) (n : Nat) : Nat := rd d (8 * n) 8

/-- PARTITION_CREATE with its bays read. -/
def State.partStore (cl : Client) (c : Cmd) (s : State) : State :=
  let d := s.rangeBytes c 0 384
  let pid := c.fld 8 1 0 6
  let ns := maskStns (c.fld 16 8 0 48)
  let free := fun (n : Nat) => decide (n < s.build.nstn) && (Tab.atD s.stns n {}).state == 0 && (s.ownerOf n).isNone
  s.checked cl (do
    need (!Tab.has s.parts pid && ns != []) stBadOperand
    need (ns.all free) stNotPermitted
    need (ns.all (fun n => bayAt d n % 65536 == 0 && decide (bayAt d n + 2 ^ 28 ≤ s.build.memBytes n))) stBadOperand
    need s.freeSlice.isSome stNoSpace) fun _ =>
    let sl := s.freeSlice.getD 0
    let w := c.num 9 1
    let tmo := c.fld 12 4 0 26
    let p : Part := { stns := ns, weight := if w = 0 then 1 else w, defTmo := if tmo = 0 then 50000 else tmo, quota := c.fld 24 4 0 19,
                      bays := ns.map (fun n => (n, bayAt d n)), ways := 2 ^ (sl % 16), banks := 2 ^ (sl / 16) }
    ({ s with parts := Tab.put s.parts pid p, postbags := Tab.put s.postbags pid {} }).pushIso.finish cl stOk pid 0

/-- PARTITION_CREATE (R278, R279). -/
def State.doPartCreate (cl : Client) (c : Cmd) (s : State) : State :=
  s.admBlock cl c (need (decide (c.fld 8 1 0 6 ≤ 47 ∧ c.fld 24 4 0 19 ≤ 262144)) stBadOperand) (c.num 32 8) 384 State.partStore

/-! ### The commands -/

/-- CONTEXT_CREATE (R51). -/
def execContextCreate (q seq : Nat) (s : State) : Out := .next (s.start q seq (fun c => c.opcode == 0x40) State.doCtxCreate)
/-- CONTEXT_DESTROY (R280). -/
def execContextDestroy (q seq : Nat) (s : State) : Out := .next (s.start q seq (fun c => c.opcode == 0x41) State.doCtxDestroy)
/-- QUEUE_CREATE (R69). -/
def execQueueCreate (q seq : Nat) (s : State) : Out := .next (s.start q seq (fun c => c.opcode == 0x42) State.doQueueCreate)
/-- QUEUE_DESTROY (R280). -/
def execQueueDestroy (q seq : Nat) (s : State) : Out := .next (s.start q seq (fun c => c.opcode == 0x43) State.doQueueDestroy)
/-- QUEUE_DRAINED (R75). -/
def execQueueDrained (q : Nat) (s : State) : Out := .next (s.queueDrained q)
/-- TABLE_CREATE (R86). -/
def execTableCreate (q seq : Nat) (s : State) : Out := .next (s.start q seq (fun c => c.opcode == 0x44) State.doTableCreate)
/-- PARTITION_CREATE (R280). -/
def execPartitionCreate (q seq : Nat) (s : State) : Out := .next (s.start q seq (fun c => c.opcode == 0x45) State.doPartCreate)
/-- SEGMENT_SET (R293). -/
def execSegmentSet (q seq : Nat) (s : State) : Out := .next (s.start q seq (fun c => c.opcode == 0x47) State.doSegmentSet)
/-- INVALIDATE_RANGE (R304). -/
def execInvalidateRange (q seq : Nat) (s : State) : Out := .next (s.start q seq (fun c => c.opcode == 0x48) State.doInvalidate)
/-- EXTENT_ACK (R304). -/
def execExtentAck (q seq : Nat) (isPort : Bool) (id : Nat) (s : State) : Out := .next (s.extentAck (ckey q seq) isPort id)
/-- INVALIDATE_ACK_TIMEOUT (R305). -/
def execInvalidateAckTimeout (q seq ep : Nat) (s : State) : Out := .next (s.invTimeout (ckey q seq) ep)

end Sys2Proof.Machine
end

