-- ==== Sys2Proof/Machine/Keys.lean ====
section
/-! DEFINITION. Sys2Proof/Machine/Keys.lean: key slots, scrubs and sweeps (R316-R319, R367, R368). -/
namespace Sys2Proof.Machine

/-- Changes a key slot. -/
def State.updKey (s : State) (k : Nat) (f : KeySlot → KeySlot) : State := { s with keys := Tab.put s.keys k (f (s.keySlot k)) }

/-- The material of a LOAD in beats of 32 bytes, zero-padded (R368). -/
def keyBeats (m : List Byte) : List Byte := m ++ zeros (ceilDiv m.length 32 * 32 - m.length)

/-- KEYSLOT_LOAD with its material read (R279, R280, R317): the lowest free slot is bound, and every station of the partition is sent
the key. PK4 keeps none of it. -/
def State.keyLoad (cl : Client) (c : Cmd) (s : State) : State :=
  let pid := c.fld 8 1 0 6
  let m := s.rangeBytes c 0 (c.fld 12 4 0 7)
  s.checked cl (do
    need (s.partOk pid) stNotPermitted
    need ((runFrom 1 63).any (fun k => (s.keySlot k).st == .free)) stNoKeyslot) fun _ =>
    match (runFrom 1 63).find? (fun k => (s.keySlot k).st == .free) with
    | none => s.finish cl stNoKeyslot 0 0
    | some k =>
      let ns := s.stnsOf pid
      let s := s.updKey k (fun x => { x with st := .loaded, pid := some pid, await := ns, holders := [], erasing := false })
      (s.emits (ns.map (fun n => .keyOp n 0 k (some m.length) (keyBeats m)))).waitFor cl (.obj k)

/-- KEYSLOT_LOAD (R317). -/
def State.doKeyLoad (cl : Client) (c : Cmd) (s : State) : State :=
  let n := c.fld 12 4 0 7
  s.admBlock cl c (do need s.build.keys stUnitAbsent; need ([16, 32, 48, 64].contains n) stBadOperand) (c.num 16 8) n State.keyLoad

/-- Step 4 of R318: the scrub is over; a KEYSLOT_SCRUB of the slot completes. -/
def State.scrubEnd (s : State) (k : Nat) : State :=
  let s := s.updKey k (fun x => { x with st := .scrubbed, pid := none, epoch := (x.epoch + 1) % 2 ^ 32, sweeps := 0, erasing := false, holders := [] })
  (s.cmds.filter (fun e => e.2.phase == .running && e.2.opcode == 0x4A && e.2.work == .obj k)).foldl
    (fun s e => s.finish e.1 stOk k (s.keySlot k).epoch) s

/-- Step 3 of R318: each inline engine that holds the key is told to erase it. -/
def State.scrubErase (s : State) (k : Nat) : State :=
  let ns := (s.keySlot k).holders
  let s := (s.updKey k (fun x => { x with erasing := true, await := ns })).emits (ns.map (fun n => .keyOp n 1 k none (zeros 32)))
  if ns = [] then s.scrubEnd k else s

/-- Step 1 of R318. -/
def State.scrubBegin (s : State) (k : Nat) : State := s.updKey k (fun x => { x with st := .scrubbing, erasing := false })

/-- The slot waits for its census tags (R318 step 2). -/
def KeySlot.waits (x : KeySlot) : Bool := x.st == .scrubbing && !x.erasing

/-- KEYSLOT_SCRUB (R279, R318): SCRUB_TAGS_DRAINED goes on from here. -/
def State.doKeyScrub (cl : Client) (c : Cmd) (s : State) : State :=
  let k := c.fld 8 1 0 6
  s.checked cl (do
    need s.build.keys stUnitAbsent
    need (c.clean && k != 0) stBadOperand
    need (!Tab.ex s.ctxs (fun _ x => x.key == k && !x.detached)) stNotPermitted) fun _ =>
    (s.scrubBegin k).waitFor cl (.obj k)

/-- An inline engine acknowledges (R317, R318, R368). -/
def State.keyAck (s : State) (stn k op : Nat) : State :=
  let x := s.keySlot k
  if !x.await.contains stn || (op == 1) != x.erasing then s
  else
    let s := s.updKey k (fun x => { x with await := x.await.erase stn, holders := if op = 0 then x.holders ++ [stn] else x.holders })
    if (s.keySlot k).await ≠ [] then s
    else if op = 1 then s.scrubEnd k
    else (s.cmds.filter (fun e => e.2.phase == .running && e.2.opcode == 0x49 && e.2.work == .obj k)).foldl
      (fun s e => s.finish e.1 stOk k (s.keySlot k).epoch) s

/-! ### Sweeps (R319, R367) -/

/-- A lane still has a request from before the sweep. -/
def State.laneBusy (s : State) (l : Nat × Nat) : Bool :=
  Tab.ex s.tags (fun _ r => r.swept && r.pur != .marker && r.stn == some l.1 && r.lane == l.2)

/-- A sweep that has completed at every port raises the epochs (R319). -/
def State.sweepEnd (s : State) : State :=
  { s with
    xlt := { s.xlt with sweep := none, epoch := (s.xlt.epoch + 1) % 2 ^ 32 }
    keys := Tab.mapV s.keys (fun _ x => if x.st = .scrubbed then
      { x with epoch := (x.epoch + 1) % 2 ^ 32, sweeps := x.sweeps + 1, st := if 2 ≤ x.sweeps + 1 then .free else .scrubbed } else x) }

/-- Lanes whose earlier requests are all answered or retired count as returned (R367). -/
def State.settleSweep (s : State) : State :=
  match s.xlt.sweep with
  | none => s
  | some ls =>
    let ls := ls.filter s.laneBusy
    let s := { s with xlt := { s.xlt with sweep := some ls } }
    if ls = [] then s.sweepEnd else s

/-- The marker of a lane returned. -/
def State.markerBack (s : State) (r : Req) : State :=
  if r.swept then s
  else ({ s with xlt := { s.xlt with sweep := s.xlt.sweep.map (fun (ls : List (Nat × Nat)) => ls.filter (· != (r.stn.getD 0, r.lane))) } }).settleSweep

/-- A sweep starts: a MARKER goes down every lane of every memory port (R319, R367). A port that takes no requests now holds its
markers, and a later sweep's take their place. -/
def State.sweepStart (s : State) : State :=
  if s.xlt.sweep.isSome || !s.up then s else
  let ls := (List.range s.build.nstn).flatMap (fun n => (List.range 16).map (fun l => (n, l)))
  let s := { s with waiting := s.waiting.filter (fun r => r.pur != Purpose.marker), tags := Tab.mapV s.tags (fun _ r => if r.stn.isSome then { r with swept := true } else r), xlt := { s.xlt with sweep := some ls } }
  (ls.foldl (fun (s : State) l => s.issue { stn := some l.1, client := 0, cid := 0, key := 0, fn := 0, pasid := none, addr := 0, len := 0, pur := .marker, lane := l.2 }) s).settleSweep

/-- KEYSLOT_LOAD (R317). -/
def execKeyslotLoad (q seq : Nat) (s : State) : Out := .next (s.start q seq (fun c => c.opcode == 0x49) State.doKeyLoad)
/-- KEYSLOT_SCRUB (R318). -/
def execKeyslotScrub (q seq : Nat) (s : State) : Out := .next (s.start q seq (fun c => c.opcode == 0x4A) State.doKeyScrub)
/-- SWEEP_START (R319). -/
def execSweepStart (s : State) : Out := .next s.sweepStart
/-- KEY_ACK_TIMEOUT (R368): a missing acknowledgement leads to the chip step. -/
def execKeyAckTimeout (stn slot : Nat) (s : State) : Out :=
  .next (if (s.keySlot slot).await.contains stn then s.ask 4 0 else s)

end Sys2Proof.Machine
end

