-- ==== Sys2Proof/Machine/Nvm.lean ====
section
/-! DEFINITION. Sys2Proof/Machine/Nvm.lean: what PK4 keeps in the SPI NOR and the retention SRAM: option bytes (R426, R427, R457),
slot state logs (R480), the lifetime log and counters (R460-R462), the margin summary (R460); and fuse
programming (R386). -/
namespace Sys2Proof.Machine

/-! ### CRC-32 (R370) -/

/-- One bit of the checksum, least significant first. -/
def crcBit (c : Nat) : Nat := if c % 2 = 1 then (c / 2) ^^^ 0xEDB88320 else c / 2
/-- One byte of the checksum. -/
def crcByte (c b : Nat) : Nat := (List.range 8).foldl (fun c _ => crcBit c) (c ^^^ b)
/-- CRC-32 of IEEE 802.3 (R370). -/
def crc32 (bs : List Byte) : Nat := (bs.foldl (fun c b => crcByte c b.toNat) 0xFFFFFFFF) ^^^ 0xFFFFFFFF

/-! ### The SPI NOR (R387) -/

/-- A byte of the NOR: erased bytes read 0xFF. -/
def State.nvmByte (s : State) (a : Nat) : Byte := 0xFF ^^^ Tab.atD s.nvm a 0
/-- `n` bytes of the NOR; without a device nothing answers (R427; its commands on the pins, log entry 105). -/
def State.nvmRead (s : State) (a n : Nat) : List Byte := if s.spi then (runFrom a n).map s.nvmByte else List.replicate n 0xFF
/-- Sets bits in cells. -/
def cellsOr : List Host.Cell → Nat → List Byte → List Host.Cell
  | c, _, [] => c
  | c, a, b :: bs => cellsOr (cellPut c a (Tab.atD c a 0 ||| b)) (a + 1) bs
/-- A command to the device and its 4-byte address, the most significant byte first (R387). -/
def spiCmd (op a : Nat) : List Byte := leBytes 1 op ++ (leBytes 4 a).reverse
/-- Write Enable, a command that changes the device, and Read Status Register (R387). -/
def State.spiWrite (s : State) (cmd : List Byte) : State := s.emits [.spi [0x06] false, .spi cmd false, .spi [0x05] false]
/-- The pages that a program of `bs` at `a` falls into: 256 bytes each, the first to the end of its page. -/
def spiPages (a : Nat) (bs : List Byte) : List (Nat × List Byte) :=
  let k := 256 - a % 256
  if bs.isEmpty then [] else
  (a, bs.take k) :: ((chunksOf 256 bs.length (bs.drop k)).zipIdx).map (fun x => (a + k + 256 * x.2, x.1))
/-- Page Program: it can only clear bits. A device that does not answer is a failed operation (R462). -/
def State.nvmProgram (s : State) (a : Nat) (bs : List Byte) : State :=
  if s.spi then
    { ((spiPages a bs).foldl (fun (s : State) x => s.spiWrite (spiCmd 0x12 x.1 ++ x.2)) s) with nvm := cellsOr s.nvm a (bs.map (fun b => 0xFF ^^^ b)) }
  else s.count 0x2109 2
/-- 4 KiB Sector Erase (R387, R462). -/
def State.nvmErase (s : State) (a : Nat) : State :=
  if s.spi then { (s.spiWrite (spiCmd 0x21 a)) with nvm := s.nvm.filter (fun e => e.1 / 4096 != a / 4096) }.count 0x2109 1 else s.count 0x2109 2
/-- A read over four lines, as after the release of the hub fabric (R387). What it answers is `nvmRead`. -/
def State.spiQuad (s : State) (a : Nat) : State := s.emit (.spi (spiCmd 0x6C a) true)
/-- Erases the sectors of a range. -/
def State.nvmEraseRange (s : State) (a n : Nat) : State :=
  (List.range (ceilDiv n 4096)).foldl (fun s k => s.nvmErase (a + 4096 * k)) s

/-! ### Fuse programming (R386) -/

/-- Programs fuse bits and reads them back: the state and whether it succeeded. FUSE_ERR is a free choice (log entry 15). -/
def State.fuseSet (s : State) (w v : Nat) (ok : Bool) : State × Bool :=
  if ok then ({ s with fuses := Tab.put s.fuses w (s.fuse w ||| (v % 2 ^ 32)) }, true) else (s, false)

/-! ### Slot state logs (R480) -/

/-- Base of a firmware slot: 0 A, 1 B (R387). -/
def slotBase (x : Nat) : Nat := if x = 0 then 0x400000 else 0x1400000
/-- Address of record `i` of a slot's state log. -/
def slotLog (x i : Nat) : Nat := slotBase x + 0xFFF000 + 16 * i

/-- A record of a slot's log: SEQ, STATE, TRIED. -/
structure SlotRec where
  seq : Nat
  st : Nat
  tried : Nat
  deriving DecidableEq, Repr

/-- The 16 bytes of a record. -/
def SlotRec.bytes (r : SlotRec) : List Byte :=
  let b := leBytes 4 0x54534C53 ++ leBytes 4 r.seq ++ leBytes 1 r.st ++ leBytes 1 r.tried ++ zeros 2
  b ++ leBytes 4 (crc32 b)
/-- A record that is valid. -/
def slotRecOf (b : List Byte) : Option SlotRec :=
  if rd b 0 4 = 0x54534C53 ∧ rd b 12 4 = crc32 (b.take 12) then some ⟨rd b 4 4, rd b 8 1, rd b 9 1⟩ else none
/-- The last valid record of a slot. -/
def State.slotRec (s : State) (x : Nat) : Option SlotRec :=
  ((List.range 256).filterMap (fun i => slotRecOf (s.nvmRead (slotLog x i) 16))).getLast?
/-- The bytes of the image a slot holds, by its header's length; the header alone where that is longer than an image can be (R475). -/
def State.slotImage (s : State) (x : Nat) : List Byte :=
  let h := s.nvmRead (slotBase x) 272
  if iLen h ≤ 2098176 then s.nvmRead (slotBase x) (iLen h) else h
/-- The first check of R477 and R479 that the slot's image fails; 0 when it verifies. -/
def State.slotCheck (s : State) (x : Nat) : Nat := s.imageCheck 1 (s.slotImage x)
/-- A slot's STATE: 0 EMPTY, and the states of R480; a slot being written boots as EMPTY (R482). -/
def State.slotState (s : State) (x : Nat) : Nat :=
  match s.slotRec x with
  | some r => r.st
  | none => if s.slotCheck x = 0 then 3 else 0
/-- A slot's SEQ. -/
def State.slotSeq (s : State) (x : Nat) : Nat := ((s.slotRec x).map (·.seq)).getD 0

/-- Appends a record to a slot's log; a full sector is erased and rewritten with its last record (R480). -/
def State.slotPut (s : State) (x : Nat) (r : SlotRec) : State :=
  let blank := fun (i : Nat) => (s.nvmRead (slotLog x i) 16).all (· == 0xFF)
  match (List.range 256).find? (fun i => (List.range 256).all (fun j => decide (j < i) || blank j)) with
  | some i => s.nvmProgram (slotLog x i) r.bytes
  | none =>
    let old := s.slotRec x
    let s := s.nvmErase (slotLog x 0)
    match old with
    | some o => (s.nvmProgram (slotLog x 0) o.bytes).nvmProgram (slotLog x 1) r.bytes
    | none => s.nvmProgram (slotLog x 0) r.bytes

/-! ### Lifetime counters and log (R460-R463) -/

/-- Subindices of each counter entry of R462, from 0x2100 on. -/
def lifeSubs : List Nat := [6, 6, 5, 4, 5, 5, 3, 4, 3, 2, 2]
/-- The keys of the counters, in table order. -/
def lifeKeys : List Nat := (lifeSubs.zipIdx).flatMap (fun x => (List.range x.1).map (fun i => 8 * x.2 + i + 1))
/-- The live total of a counter (R461). -/
def State.lifeTotal (s : State) (k : Nat) : Nat := satAdd 64 (Tab.atD s.life k 0) (Tab.atD s.incr k 0)
/-- Operating seconds. -/
def State.opSecs (s : State) : Nat := s.lifeTotal 1

/-- Address of unit `u` of the lifetime ring. -/
def logAddr (u : Nat) : Nat := 0x12000 + 64 * u
/-- Units of the ring. -/
def logUnits : Nat := 1006 * 64
/-- The records of a sector of the ring: first unit and TYPE, in order. -/
def State.sectorRecs (s : State) (k : Nat) : Nat → Nat → List (Nat × Nat)
  | 0, _ => []
  | fuel + 1, u =>
    if 64 ≤ u then [] else
    let b := s.nvmRead (logAddr (64 * k + u)) 2
    if rd b 0 1 = 0xFF then [] else (64 * k + u, rd b 0 1) :: s.sectorRecs k fuel (u + max 1 (rd b 1 1))
/-- The ring's sectors from the one being written back to the oldest. -/
def State.logSectors (s : State) : List Nat := (List.range 1006).map (fun i => ((s.logAt + logUnits - 1) % logUnits / 64 + 1006 - i) % 1006)
/-- The k-th newest record's first unit, searched sector by sector. -/
def State.logFind (s : State) (k : Nat) : List Nat → Option Nat
  | [] => none
  | x :: xs =>
    let rs := (s.sectorRecs x 64 0).reverse
    if k < rs.length then (rs[k]?).map (·.1) else if rs = [] then none else (State.logFind s (k - rs.length) xs)
/-- 64 bytes of the k-th newest record, or all 0xFF (R463). -/
def State.logRecord (s : State) (k : Nat) : List Byte :=
  match s.logFind k s.logSectors with
  | some u => s.nvmRead (logAddr u) 64
  | none => List.replicate 64 0xFF

/-- The sector that holds the newest COUNTERS record. -/
def State.countersAt (s : State) : Option Nat := s.logSectors.find? (fun k => (s.sectorRecs k 64 0).any (fun r => r.2 == 1))

/-- Writes a record at the ring's place (R460). A record lies in one sector (log entry 16). -/
def State.logPut (s : State) (type : Nat) (body : List Byte) : State :=
  let n := ceilDiv (32 + body.length) 64
  let r := leBytes 1 type ++ leBytes 1 n ++ zeros 6 ++ leBytes 8 s.logSeq ++ leBytes 8 s.opSecs ++ leBytes 8 s.mgt.wall ++ body
  { s.nvmProgram (logAddr s.logAt) (r ++ zeros (64 * n - r.length)) with logAt := (s.logAt + n) % logUnits, logSeq := s.logSeq + 1 }

/-- The body of a COUNTERS record: every counter in table order (log entry 16). -/
def State.countersBody (s : State) : List Byte := lifeKeys.flatMap (fun k => leBytes 8 (s.lifeTotal k))
/-- A COUNTERS record was written: the entries read its values, and the companions return to zero (R461). Without a device nothing was
written. -/
def State.foldCounters (s : State) : State := if s.spi then { s with life := lifeKeys.map (fun k => (k, s.lifeTotal k)), incr := [] } else s

/-- Makes room for `n` units: the rest of a sector too small is left blank, and a sector to be used again is erased; when it held
the newest COUNTERS record a fresh one is written before the record (R460). -/
def State.logRoom (s : State) (n : Nat) : State :=
  let s := if s.logAt % 64 + n ≤ 64 then s else { s with logAt := (s.logAt / 64 + 1) % 1006 * 64 }
  if s.logAt % 64 ≠ 0 ∨ (s.nvmRead (logAddr s.logAt) 4096).all (· == 0xFF) then s
  else
    let fresh := s.countersAt == some (s.logAt / 64)
    let s := s.nvmErase (logAddr s.logAt)
    if fresh then (s.logPut 1 s.countersBody).foldCounters else s

/-- Appends a record to the lifetime log (R460). -/
def State.logAppend (s : State) (type : Nat) (body : List Byte) : State :=
  (s.logRoom (ceilDiv (32 + body.length) 64)).logPut type body

/-- Writes a COUNTERS record (R461). -/
def State.commitCounters (s : State) : State :=
  let s := s.logRoom 7
  { (s.logPut 1 s.countersBody).foldCounters with mgt := { s.mgt with toCommit := 3600 } }

/-- A record whose body the spec does not lay out: 32 free bytes (log entry 16). -/
def State.logFree (s : State) (type : Nat) : State := s.draw.logAppend type ((List.range 32).map (Config.recByte s.fresh))

/-! ### Margin summary (R460) -/

/-- Offset and step of a domain as the running state has them. -/
def State.dom (s : State) (d : Nat) : Dom := Tab.atD s.age.doms d {}
/-- Address of a copy of the summary. -/
def marginAt (k : Nat) : Nat := 0x10000 + 0x1000 * k
/-- SEQ of a valid copy. -/
def State.marginSeq (s : State) (k : Nat) : Option Nat :=
  let b := s.nvmRead (marginAt k) 128
  if rd b 0 4 = 0x59474D41 ∧ rd b 124 4 = crc32 (b.take 124) then some (rd b 4 4) else none
/-- The valid copy with the higher SEQ. -/
def State.marginCopy (s : State) : Option Nat :=
  match s.marginSeq 0, s.marginSeq 1 with
  | some a, some b => some (if a < b then 1 else 0)
  | some _, none => some 0
  | none, some _ => some 1
  | none, none => none
/-- Writes a new summary into the older copy's sector. -/
def State.marginSave (s : State) : State :=
  let k := 1 - s.marginCopy.getD 1
  let q := ((s.marginCopy.bind s.marginSeq).getD 0 + 1) % 2 ^ 32
  let b := leBytes 4 0x59474D41 ++ leBytes 4 q ++ (List.range 49).flatMap (fun d => leBytes 1 (s.dom d).off) ++
    (List.range 49).flatMap (fun d => leBytes 1 (s.dom d).fstep) ++ zeros 18
  (s.nvmErase (marginAt k)).nvmProgram (marginAt k) (b ++ leBytes 4 (crc32 b))
/-- The option loader takes offsets and steps from the summary; zero where no copy is valid. -/
def State.marginLoad (s : State) : State :=
  let b := match s.marginCopy with
    | some k => s.nvmRead (marginAt k) 128
    | none => zeros 128
  { s with age := { s.age with doms := (List.range 49).map (fun d => (d, { s.dom d with off := rd b (8 + d) 1, fstep := rd b (57 + d) 1 })) } }

/-! ### Option bytes (R426, R427, R457) -/

/-- An option field: byte, bytes, bits kept, lowest and highest value, and what an out-of-range value loads as. -/
structure OptFld where
  at_ : Nat
  n : Nat
  w : Nat
  lo : Nat
  hi : Nat
  bad : Nat
  deriving DecidableEq, Repr

/-- The fields of R426 and R457 in the order of OD 0x2600 (R458). -/
def optFlds : List OptFld :=
  [⟨6, 1, 4, 0, 8, 8⟩, ⟨7, 1, 3, 0, 4, 0⟩, ⟨8, 1, 3, 0, 6, 0⟩, ⟨9, 1, 1, 0, 1, 0⟩, ⟨10, 2, 16, 0, 65535, 20⟩, ⟨12, 2, 16, 0, 65535, 10⟩,
   ⟨14, 2, 16, 0, 65535, 0⟩, ⟨64, 1, 6, 1, 63, 1⟩, ⟨65, 1, 1, 0, 1, 1⟩, ⟨66, 2, 16, 0, 65535, 600⟩, ⟨68, 1, 8, 5, 100, 25⟩, ⟨69, 1, 8, 10, 100, 30⟩,
   ⟨70, 1, 8, 0, 50, 50⟩, ⟨71, 1, 8, 0, 4, 4⟩, ⟨72, 2, 16, 1, 65534, 180⟩, ⟨74, 1, 8, 10, 255, 50⟩, ⟨75, 1, 1, 0, 1, 1⟩]

/-- Value of option `i` (0 GROUP_BITS to 16 AUTO_REPLAN). -/
def Opts.val (o : Opts) (i : Nat) : Nat := (o.fields[i]?).getD 0

/-- The 256 option bytes of a shadow (R426, R458). -/
def Opts.bytes (o : Opts) : List Byte :=
  let b := recBytes 88 ([(0, 32, 0x344B504F), (32, 16, 1)] ++ (optFlds.zip o.fields).map (fun x => (8 * x.1.at_, 8 * x.1.n, x.2))) ++
    o.rails.flatten ++ zeros 4
  b ++ leBytes 4 (crc32 b)

/-- The option loader (R427): loaded options, and BAD, SPI_FAIL and RANGE. -/
def State.optLoad (s : State) : State :=
  let s := s.emits [.spi [0x9F] false, .spi (spiCmd 0x13 0) false]
  let b := s.nvmRead 0 256
  let o := if !s.spi ∨ rd b 0 4 ≠ 0x344B504F ∨ rd b 4 2 ≠ 1 ∨ rd b 252 4 ≠ crc32 (b.take 252) then none
    else some (optFlds.map (fun f => (bits (rd b f.at_ f.n) 0 f.w, f)))
  let inR := fun (x : Nat × OptFld) => decide (x.2.lo ≤ x.1 ∧ x.1 ≤ x.2.hi)
  let opts := match o with
    | none => Opts.default
    | some fs => { fields := fs.map (fun x => if inR x then x.1 else x.2.bad), rails := (List.range 32).map (fun r => (b.drop (88 + 5 * r)).take 5) }
  { s with
    opts := opts, shadow := opts
    rst := { s.rst with bad := o.isNone, spiFail := !s.spi, range := match o with
      | some fs => fs.any (fun x => !inR x)
      | none => false } }.marginLoad

end Sys2Proof.Machine
end

