-- ==== Sys2Proof/Machine/Firmware.lean ====
section
/-! DEFINITION. Sys2Proof/Machine/Firmware.lean: firmware slots: staging, activation, confirmation, boot and live update
(R279, R479-R487). -/
namespace Sys2Proof.Machine

/-- VERSION of the image in a slot. -/
def State.slotVersion (s : State) (x : Nat) : Nat := iVersion (s.slotImage x)
/-- The running slot is in TRIAL (R454). -/
def State.inTrial (s : State) : Bool := ((s.slotRec s.fw.slot).map (·.st)) == some 2
/-- CONFIRM_S, as loaded (R457). -/
def State.confirmS (s : State) : Nat := s.opts.val 9

/-! ### Staging (R482) -/

/-- Writes an image into a slot and reads it back: the slot is WRITING, and whether what the NOR holds verifies (R482 steps 2, 3). -/
def State.slotWrite (s : State) (x : Nat) (m : List Byte) : State × Bool :=
  let s := s.slotPut x ⟨s.slotSeq x, 5, 0⟩
  let s := (s.nvmEraseRange (slotBase x) m.length).nvmProgram (slotBase x) m
  (s, s.nvmRead (slotBase x) m.length == m && s.imageCheck 1 (s.slotImage x) == 0)

/-- The image was read (R279, R482). -/
def State.stageImage (cl : Client) (c : Cmd) (s : State) : State :=
  let x := c.fld 8 1 0 1
  let m := s.rangeBytes c 0 (c.num 12 4)
  let k := s.imageCheck 1 m
  s.checked cl (do
    need (x != s.fw.slot) stBusy
    need (k == 0 || k == 5) stBadSignature
    need (k == 0) stRollback) fun _ =>
    let (s, ok) := s.slotWrite x m
    if ok then
      let s := s.slotPut x ⟨max (s.slotSeq 0) (s.slotSeq 1) + 1, 1, 0⟩
      (s.raise 777 (iVersion m)).finish cl stOk (iVersion m) 0
    else (s.raise 774 1).finish cl stBadSignature 0 0

/-- FIRMWARE_STAGE (R482). -/
def State.doFwStage (cl : Client) (c : Cmd) (s : State) : State :=
  s.admBlock cl c (.ok ()) (c.num 16 8) (c.num 12 4) State.stageImage

/-! ### Confirmation (R479, R484) -/

/-- Raises a thermometer counter of `n` bits from word `w` on to `v` (R479); a fuse failure leaves it and raises source 774. -/
def State.raiseThermo (s : State) (w n v : Nat) : State :=
  if v ≤ s.thermo w n then s
  else if Config.fuseErr s.fresh then s.draw.raise 774 2
  else (List.range (n / 32)).foldl (fun s i => (s.fuseSet (w + i) (2 ^ min 32 (v - 32 * i) - 1) true).1) s.draw

/-- The running slot in TRIAL is confirmed (R484). -/
def State.confirm (s : State) : State :=
  match s.slotRec s.fw.slot with
  | some r =>
    if r.st ≠ 2 then s
    else
      let m := s.slotImage s.fw.slot
      let s := s.slotPut s.fw.slot { r with st := 3 }
      let s := if bit (iFlags m) 0 then s.raiseThermo 36 1024 (iSvn m) else s
      let s := (s.raiseThermo 68 256 (iMinProg m)).logFree 5
      ({ s with fw := { s.fw with toConfirm := 0 } }).raise 779 s.fw.version
  | none => s

/-! ### Activation (R483) -/

/-- The slot holds a verified image. -/
def State.slotGood (s : State) (x : Nat) : Bool := s.slotCheck x == 0 && s.slotState x != 0 && s.slotState x != 5

/-- A lifetime commit (R461): a COUNTERS record, and source 773 with its SEQ (R453). -/
def State.lifeCommit (s : State) : State :=
  let s := s.commitCounters
  s.raise 773 ((s.logSeq - 1) % 2 ^ 32)

/-- Counts an activation, writes a COUNTERS record and raises source 778 (R461, R462, R483). -/
def State.activated (s : State) (v : Nat) : State := ((s.count 0x2107 1).lifeCommit).raise 778 v

/-- FIRMWARE_ACTIVATE with LIVE 0 (R483). -/
def State.doFwActivate (cl : Client) (c : Cmd) (s : State) : State :=
  let x := c.fld 8 1 0 1
  s.checked cl (do need c.clean stBadOperand; need (s.slotGood x) stBadOperand) fun _ =>
    let v := s.slotVersion x
    let s := if x = s.fw.slot then s.confirm
      else if s.slotState x = 2 then s
      else s.slotPut x ⟨s.slotSeq s.fw.slot + 1, 2, 0⟩
    (s.activated v).finish cl stOk v 0

/-- What an image puts into a target (R475). -/
def imageCells (m : List Byte) (t : Nat) : List Host.Cell :=
  (((List.range (iNseg m)).map (fun i => (m.drop (272 + 16 * i)).take 16)).filter (fun e => rd e 0 1 == t)).flatMap
    (fun e => (((m.drop (rd e 4 4)).take (rd e 8 4)).zipIdx).map (fun x => (rd e 12 4 + x.2, x.1)))

/-- The cores of the hub, and the two of each station, with the instruction memory and the data memory that an image gives them (R29,
R475); a live update leaves data memories as they are (R485). -/
def State.loadCores (s : State) (m : List Byte) (live : Bool) : Tab Core :=
  let put := fun (t : Tab Core) (x : Nat × Nat × Nat) =>
    let c := Tab.atD t x.1 {}
    Tab.put t x.1 { c with code := imageCells m x.2.1, data := if live then c.data else imageCells m x.2.2 }
  ((List.range 8).map (fun k => (k, k, 8 + k)) ++
    (List.range s.build.nstn).flatMap (fun n => [(stnCore n 0, 16, 17), (stnCore n 1, 18, 19)])).foldl put s.cores

/-- A booted image: what the running state keeps of it (R454, R477), and what the cores are loaded with. -/
def State.running (s : State) (x : Nat) (live : Bool) : State :=
  let m := s.slotImage x
  let s := s.spiQuad (slotBase x)
  { s with cores := s.loadCores m live
           fw := { s.fw with slot := x, live := live, untrusted := !anyByte (s.keyHash (iKey m)), version := iVersion m, fmt := iFmt m,
                             toConfirm := if ((s.slotRec x).map (·.st)) = some 2 then s.confirmS else 0 } }

/-- The cores in the order of a live update (R485). -/
def liveOrder : List Nat := [7, 6, 5, 1, 0, 3, 2, 4]

/-- Idle requests to hub cores, in order (R431, R485). -/
def State.askCores (s : State) (ks : List Nat) : State :=
  { (s.emits (ks.map (fun k => .idleReq 4 k))) with
    mgt := { s.mgt with asked := s.mgt.asked.filter (fun a => a.1 != 4) ++ ks.map (fun k => (4, k)) } }

/-- FIRMWARE_ACTIVATE with LIVE 1 (R485): the cores are reloaded one by one within the step; each is stopped by an idle request. -/
def State.doLive (cl : Client) (c : Cmd) (s : State) : State :=
  let x := c.fld 8 1 0 1
  let m := s.slotImage x
  s.checked cl (do
    need c.clean stBadOperand
    need (s.slotGood x && bit (iFlags m) 1 && iFmt m == s.fw.fmt && iRevOk m) stBadOperand) fun _ =>
    let prev := s.fw.slot
    let s := s.askCores liveOrder
    let s := { s with cores := liveOrder.foldl (fun t k => Tab.put t k { Tab.atD t k {} with loaded := some s.mgt.uptime }) s.cores }
    let s := (s.slotPut x ⟨s.slotSeq prev + 1, 2, 1⟩).running x true
    let s := { s with fw := { s.fw with update := some (cl, prev) } }
    let v := iVersion m
    (((s.count 0x2107 3).activated v).raise 784 v).finish cl stOk v 0

/-- A live update is reverted (R486): the cores run the previous image again. -/
def State.revertLive (s : State) : State :=
  match s.fw.update with
  | none => s
  | some (cl, prev) =>
    let x := s.fw.slot
    let v := s.fw.version
    let s := s.askCores liveOrder.reverse
    let s := (s.slotPut x ⟨s.slotSeq x, 4, 1⟩).running prev true
    let s := { s with fw := { s.fw with live := false } }
    let s := { s with fw := { s.fw with update := none }, cores := Tab.mapV s.cores (fun _ k => { k with loaded := none }) }
    ((s.count 0x2107 4).updCmd cl (fun c => if c.phase = .done then { c with status := stAborted, count := 0 } else c)).raise 785 v

/-- TRIAL_CONFIRM_TIMER (R484): the seconds of operation have passed. -/
def State.trialTimer (s : State) : State := if s.inTrial ∧ s.confirmS ≠ 0 ∧ s.fw.toConfirm = 0 then s.confirm else s

/-! ### Boot (R481) -/

/-- Trials that never confirmed are rejected. -/
def State.rejectTrials (s : State) : State :=
  [0, 1].foldl (fun s x => match s.slotRec x with
    | some r =>
      if r.st = 2 ∧ r.tried = 1 then
        let v := s.slotVersion x
        { (s.slotPut x { r with st := 4 }).count 0x2107 2 with fw := { s.fw with rejected := s.fw.rejected ++ [v] } }
      else s
    | none => s) s

/-- The boot ROM's choice of a slot (R481, R478): the state after it, and whether some slot was loaded. -/
def State.boot (s : State) : State × Bool :=
  let s := s.rejectTrials
  let trial := [0, 1].find? (fun x => s.slotState x == 2 && s.slotCheck x == 0)
  let good := fun (x : Nat) => (s.slotState x == 3 || s.slotState x == 1) && s.slotCheck x == 0
  if 2 ≤ s.lc then (s, false)
  else match trial with
    | some x => ((s.slotPut x ⟨s.slotSeq x, 2, 1⟩).running x false, true)
    | none =>
      if good 0 && (!good 1 || decide (s.slotSeq 1 ≤ s.slotSeq 0)) then (s.running 0 false, true)
      else if good 1 then (s.running 1 false, true)
      else (s, false)

/-! ### Lifecycle (R478) -/

/-- An advance of the lifecycle state: 0 OK, or the result code of R447 it gives: LOCKED (7), RANGE (6) or NVM_FAIL. `unlocked` stands
for an unlocked monitor. -/
def State.lcCheck (s : State) (v : Nat) (unlocked : Bool) : Nat :=
  if v ≠ 1 ∧ v ≠ 3 then 6
  else if v ≤ s.lc ∨ 2 ≤ s.lc then 6
  else if v = 1 then
    if (anyByte (s.keyHash 0) || anyByte (s.keyHash 1)) && anyByte (s.keyHash 2) then 0 else 7
  else if unlocked then 0 else 7

/-- FIRMWARE_STAGE (R482). -/
def execFirmwareStage (q seq : Nat) (s : State) : Out := .next (s.start q seq (fun c => c.opcode == 0x4B) State.doFwStage)
/-- FIRMWARE_ACTIVATE (R483). -/
def execFirmwareActivate (q seq : Nat) (s : State) : Out := .next (s.start q seq (fun c => c.opcode == 0x4C && c.fld 9 1 0 1 == 0) State.doFwActivate)
/-- LIVE_UPDATE (R485). -/
def execLiveUpdate (q seq : Nat) (s : State) : Out := .next (s.start q seq (fun c => c.opcode == 0x4C && c.fld 9 1 0 1 == 1) State.doLive)
/-- TRIAL_CONFIRM_TIMER (R484). -/
def execTrialConfirmTimer (s : State) : Out := .next s.trialTimer

end Sys2Proof.Machine
end

