-- ==== Sys2Proof/Machine/Finish.lean ====
section
/-! DEFINITION. Sys2Proof/Machine/Finish.lean: what comes back through LTP-H and the memory ports (R297, R314, R315, R351,
R364-R367), and how commands go on when their reads are back. -/
namespace Sys2Proof.Machine

/-- A command whose reads are back goes on with its next stage. -/
def State.goOn (s : State) (cl : Client) (c : Cmd) : State :=
  match c.opcode with
  | 0x10 => State.doLookup false cl c s
  | 0x11 => State.doLookup true cl c s
  | 0x12 => State.doMulti cl c s
  | 0x18 => State.doUpdate cl c s
  | 0x19 => State.doUpdate cl c s
  | 0x20 => State.doStreamOpen cl c s
  | 0x21 => State.doAppend cl c s
  | 0x22 => State.doGather cl c s
  | 0x28 => State.doScan cl c s
  | 0x29 => State.doLutBuild cl c s
  | 0x30 => State.doDispatch cl c s
  | 0x31 => State.doCopy cl c s
  | 0x3F => State.doProgLoad cl c s
  | 0x44 => State.doTableCreate cl c s
  | 0x45 => State.doPartCreate cl c s
  | 0x47 => State.doSegmentSet cl c s
  | 0x49 => State.doKeyLoad cl c s
  | 0x4B => State.doFwStage cl c s
  | _ => s

/-- A cancelled command none of whose requests is outstanding completes (R77 step 3): a COPY or LUT build that was moving its data
ends with part of it carried out, and a switch completes once its version is released (R168). -/
def State.cancelled (s : State) (cl : Client) (c : Cmd) : State :=
  if s.busy cl then s
  else if c.opcode = 0x31 ∧ c.stage = 1 then s.copyMove cl c
  else if c.opcode = 0x29 ∧ c.stage = 3 then s.lutWrite cl c
  else if Tab.ex s.tables (fun _ t => t.pend.any (fun p => p.client == cl)) then s.settleTables
  else s.finish cl stAborted 0 0

/-- A command one of whose requests has ended goes on, where nothing else is outstanding. -/
def State.advance (s : State) (cl : Client) : State :=
  match s.cmd cl with
  | some c =>
    if c.phase ≠ .running then s
    else if c.cancel.isSome then s.cancelled cl c
    else if (c.allBack && 1 ≤ c.stage && c.stage < 8 && c.items != []) || (c.opcode == 0x28 && c.stage == 5) then s.goOn cl c else s
  | none => s

/-- An acknowledgement of a write was bad: every sector of it counts as arriving poisoned (R365 rule 5), and so its command's POISON
is set (log entry 90). -/
def State.writeBad (s : State) (r : Req) (bad : List (Nat × Nat)) : State :=
  if bad = [] then s else (s.updMemOf r.stn (fun m => m.spoil r.addr r.len)).updCmd r.client (fun c => { c with poison := true })

/-- A request of the block is over: `bad` is what of it arrived poisoned or failed. -/
def State.consume (s : State) (r : Req) (bad : List (Nat × Nat)) : State :=
  match r.pur with
  | .fetch q pos n drop => s.fetchDone r q pos n drop bad
  | .item i => (s.itemBack r.client i r.iso bad).advance r.client
  | .row sub stn k => (s.rowBack r.client sub stn k bad).advance r.client
  | .dir sub stn k => (s.dirBack r.client sub stn k bad).advance r.client
  | .spill sub stn => (s.spillBack r.client sub stn bad).advance r.client
  | .walk k => (Tab.keys s.queues (fun _ q => q.st == .stopping)).foldl (fun s q => s.settleQueue q) (s.walkDone r k bad)
  | .input ep xid off => s.inputBack ep xid off r bad
  | .marker => s.markerBack r
  | .write _ => (s.writeBad r bad).advance r.client

/-- The command's lists are read and nothing but the order of acceptance, or a REBASE of its table, keeps it from being accepted. -/
def Cmd.held (c : Cmd) : Bool :=
  c.phase == .running && c.cancel.isNone && c.allBack && c.work == .idle &&
  (([0x10, 0x11, 0x12].contains c.opcode && c.stage == 2) || ([0x18, 0x19, 0x22].contains c.opcode && c.stage == 1))

/-- Commands whose acceptance a REBASE or the order in their queue held back are accepted, and gathers take their pins (R72, R158). -/
def State.resumeHeld (s : State) : State :=
  (s.cmds.filter (fun e => e.2.held)).foldl (fun s e => match s.cmd e.1 with
    | some c => if c.held then s.goOn e.1 c else s
    | none => s) s.pinLate

/-- What the end of a request lets go on: updates and streams in their order, administrative commands, the sweep, the ports. -/
def State.settleReads (s : State) : State :=
  let s := s.resumeHeld
  let s := (s.tables.map (·.1)).foldl (fun s t => s.applyUpdates t (s.cmds.length + 1)) s
  s.settleStreams.settleScans.settleChains.settleAdmin.settleSweep.settleSteps.pumpAll

/-- Reads that failed the check of R313 are answered with poisoned zeros. -/
def State.settleIso (s : State) : State :=
  let rs := s.waiting.filter (·.iso)
  rs.foldl (fun s r => s.consume r r.whole) { s with waiting := s.waiting.filter (fun r => !r.iso) }

/-- A live request is over: its tag is freed and its data used. `bad`: all of it counts as failed, and otherwise what its answer
marked. -/
def State.answer (s : State) (id : Nat) (bad : Bool) : State :=
  match Tab.at? s.tags id with
  | some r => ((s.retire id).consume r (if bad then r.whole else r.bad)).settleIso.settleReads
  | none => s

/-- Requests are ended with error responses: those outstanding are retired, those that wait are given up, but for those of them that `k`
keeps (R314, R431). -/
def State.endReqsBut (s : State) (p k : Req → Bool) : State :=
  let s := (Tab.keys s.tags (fun _ r => p r)).foldl (fun s id => s.answer id true) s
  let rs := s.waiting.filter (fun r => p r && !k r)
  (rs.foldl (fun (s : State) r => s.consume r r.whole) { s with waiting := s.waiting.filter (fun r => !(p r && !k r)) }).settleReads
/-- All such requests are ended. -/
def State.endReqs (s : State) (p : Req → Bool) : State := s.endReqsBut p (fun _ => false)

/-- A part of a live request is answered, from offset `o` on: `n` bytes, of which `data` is shown (bytes it does not give are as the
memory holds them, log entry 91), and `bad` arrived poisoned or failed. -/
def State.part (s : State) (id o n : Nat) (data : List Byte) (bad : List (Nat × Nat)) : State :=
  match Tab.at? s.tags id with
  | some r =>
    { s.updMemOf r.stn (fun m => m.show (r.addr + o) (data.take (min n (r.len - o)))) with
      tags := Tab.upd s.tags id (fun r => { r with got := max r.got (o + n), bad := r.bad ++ bad }) }
  | none => s

/-! ### Memory ports (R314, R315, R364-R367, R401) -/

/-- The key of a station's tag. -/
def stnTag (stn tag : Nat) : Nat := 65536 * (stn + 1) + tag

/-- Changes a station. -/
def State.updStn (s : State) (n : Nat) (f : Stn → Stn) : State := { s with stns := Tab.put s.stns n (f (Tab.atD s.stns n {})) }

/-- A response answers the request: it echoes CID and KEY (R314) and is of a type that answers it (R364); a MARKER is answered on
its lane (R367). -/
def Req.answeredBy (r : Req) (lane cid key type : Nat) : Bool :=
  r.cid == cid && r.key == key && (match r.pur with
    | .marker => type == 2 && r.lane == lane
    | .write _ => type == 1 || type == 3
    | _ => type == 0 || type == 3)

/-- A memory port's trouble goes into the error log (R414, log entry 101). -/
def State.mpRecord (s : State) (stn : Nat) (r : ERec) : State := s.elog { r with kind := 8, pid := (s.ownerOf stn).getD 0x3F, stn := stn }

/-- A poisoned or ERROR response is counted (R401, R462). -/
def State.mpBad (s : State) (stn : Nat) (r : Req) : State :=
  (((s.mpRecord stn { kind := 8, cid := r.cid, addr := r.addr }).updStn stn (fun x => { x with mpPoison := satAdd 16 x.mpPoison 1 })).count 0x2106 2).raise (160 + stn) 1

/-- What of a request a response beat marks (R364, R365): a READ beat carries the next two sectors with a poison bit each, and an
ERROR counts for every sector. -/
def Req.beatBad (r : Req) (type poison : Nat) : List (Nat × Nat) :=
  if type = 3 then r.whole
  else if type = 0 then ((List.range 2).filter (bit poison)).map (fun i => (r.addr + r.got + 64 * i, 64)) else []

/-- A response beat of a memory port is taken in (log entry 91). -/
def State.mpBeat (s : State) (id : Nat) (r : Req) (type : Nat) (data : List Byte) (poison : Nat) : State :=
  s.part id r.got 128 (if type = 0 then data else []) (r.beatBad type poison)

/-- A memory port is held in reset: during a hub reset until its station is released, and in Sleep or Off (R346, R428, R434). -/
def State.portHeld (s : State) (stn : Nat) : Bool :=
  let x := Tab.atD s.stns stn {}
  x.pwr == 2 || x.pwr == 3 || s.rst.rel == .hold || s.rst.rel == .clocks || s.rst.rel == .failed

/-- A response beat of a memory port (R314, R364, R365); one that is held in reset takes none (R346). -/
def State.memResponse (s : State) (stn lane tag cid key type : Nat) (data : List Byte) (poison : Nat) (last : Bool) : State :=
  let id := stnTag stn tag
  if s.portHeld stn then s else
  match Tab.at? s.tags id with
  | some r =>
    if r.answeredBy lane cid key type then
      let t := s.mpBeat id r type data poison
      if last then (if r.bad ++ r.beatBad type poison ≠ [] then t.mpBad stn r else t).answer id false else t
    else s.deadLetter
  | none => s.deadLetter

/-! ### LTP-H (R351) -/

/-- The tag is a read of PK4 through LTP-H. -/
def State.ltpTag (s : State) (tag : Nat) : Bool :=
  match Tab.at? s.tags tag with
  | some r => r.stn.isNone
  | none => false

/-- What is left of a live request has failed: its tag is freed. -/
def State.failRest (s : State) (id : Nat) : State :=
  match Tab.at? s.tags id with
  | some r => (s.part id r.got (r.len - r.got) [] (if r.got < r.len then [(r.addr + r.got, r.len - r.got)] else [])).answer id false
  | none => s

/-- LTP-H is held in reset with the hub (R346, R428). -/
def State.ltpHeld (s : State) : Bool := s.rst.rel == .hold || s.rst.rel == .clocks

/-- A completion of a read (R347, R351), which LTP-H takes unless it is held in reset (R346): `len` bytes from offset `coff` of the request. One with an error status fails what is left of
the request. -/
def State.ltpCompletion (s : State) (tag coff len status : Nat) (data : List Byte) (poison last : Bool) : State :=
  if s.ltpHeld then s else
  match Tab.at? s.tags tag with
  | some r =>
    if r.stn.isSome then s.deadLtp
    else if status ≠ 0 then
      let t := s.part tag coff (r.len - coff) [] [(r.addr + coff, r.len - coff)]
      if last then t.answer tag false else t
    else
      let t := s.part tag coff len data (if poison then [(r.addr + coff, len)] else [])
      if last then t.failRest tag else t
  | none => s.deadLtp

/-- LTP_COMPLETION (R351). -/
def execLtpCompletion (tag : Nat) (cpl : Completion) (poison last : Bool) (s : State) : Out :=
  .next (s.ltpCompletion tag cpl.coff cpl.len cpl.status cpl.data poison last)
/-- LTP_READ_TIMEOUT (R351): what has not come by T_ltp has failed. -/
def execLtpReadTimeout (tag : Nat) (s : State) : Out := .next (if s.ltpTag tag then s.failRest tag else s)
/-- WALK_READ_RESPONSE (R297): `tag` is the request's number in `tags`. -/
def execWalkReadResponse (tag status : Nat) (entry : EntryRead) (s : State) : Out :=
  .next (match Tab.at? s.tags tag with
    | some r => match r.pur with
      | .walk _ =>
        let bad := entry.poison || status != 0
        let s := s.part tag 0 8 entry.data []
        (match r.stn with
          | some n => if bad then s.mpBad n r else s
          | none => s).answer tag bad
      | _ => s
    | none => s.deadLtp)

end Sys2Proof.Machine
end

