-- ==== Sys2Proof/Machine/Complete.lean ====
section
/-! DEFINITION. Sys2Proof/Machine/Complete.lean: COMMAND_COMPLETION (R43, R44, R70) and what a completion lets go on. -/
namespace Sys2Proof.Machine

/-- What the end of a command lets go on: tables, closes, streams, scans, programs, administrative commands, ports. -/
def State.settleAfter (s : State) : State := s.resumeHeld.settleTables.settleCloses.settleStreams.settleScans.settleChains.freeProgs.settleAdmin.settleSteps.pumpAll

/-- The record of command `cl` is written where it may be (R43, R73). -/
def State.completeCmd (s : State) (cl : Client) : State :=
  match s.cmd cl with
  | some c => (s.complete cl c).settleAfter
  | none => s

/-- COMMAND_COMPLETION (R43). -/
def execCommandCompletion (q seq : Nat) (s : State) : Out := .next (s.completeCmd (ckey q seq))

/-- TABLE_COMPACT MODE 1 (R179). -/
def execTableCompactRebase (q seq : Nat) (s : State) : Out :=
  .next (let t := s.start q seq (fun c => c.opcode == 0x1C && c.tmode == 1) State.doRebase; t.resumeHeld.settleStreams)

end Sys2Proof.Machine
end

