-- ==== Sys2Proof/Machine/Cancel.lean ====
section
/-! DEFINITION. Sys2Proof/Machine/Cancel.lean: commands cancelled (R77, R115, R165, R168, R176, R191, R201, R212, R223), the
guilty-queue reset (R77-R79), command timeouts (R245, R395-R398) and function resets (R55, R334, R424). -/
namespace Sys2Proof.Machine

/-! ### What becomes of a command's work -/

/-- A switch, discard or install of the client ends before its switch point: its version is discarded (R168). -/
def State.pendDiscard (s : State) (cl : Client) : State :=
  { s with tables := Tab.mapV s.tables (fun _ t => { t with
      pend := t.pend.map (fun p => if p.client = cl then { p with discard := true, nb := none } else p)
      writers := t.writers.map (fun w => if w.client = cl then { w with applied := true } else w)
      copying := if (t.copying.map (·.1)) = some cl then none else t.copying
      rebase := if t.rebase = some cl then none else t.rebase }) }

/-- Rows of a cancelled update whose turn on the table had come are each written or left (R165, log entry 4). -/
def State.cancelUpdate (s : State) (cl : Client) (c : Cmd) (u : UpdW) : State :=
  let rows := u.rows.eraseDups
  let mine := (Tab.at? s.tables u.tid).bind (fun t => t.writers.find? (fun w => w.client == cl))
  if (mine.map (·.applied)).getD true then s.updCmd cl (fun c => { c with count := rows.length, aux := u.post, left := true })
  else
    let first := ((Tab.at? s.tables u.tid).bind (fun t => t.writers.find? (fun w => !w.applied))).map (·.client)
    let n := s.fresh
    let ws := if first = some cl then ((rows.zipIdx).filter (fun r => Config.done n r.2)).map (·.1) else []
    let s := ws.foldl (fun s r => s.writeRow cl c u r) s.draw
    s.updCmd cl (fun c => { c with count := ws.length, aux := u.post, left := c.left || ws != [] })

/-- A REBASE whose stations have begun is not stopped part-way: the renumbering is made, and RESULT_COUNT tells so (R179). -/
def State.cancelRebase (s : State) (cl : Client) (c : Cmd) (tid : Nat) : State :=
  if c.opcode = 0x1C ∧ c.tmode = 1 ∧ c.stage = 2 then (s.rebaseEnd tid).updCmd cl (fun c => { c with count := 1 }) else s

/-- Rows that a cancelled COPY of a table had written stay (R176, log entry 4). -/
def State.cancelCompact (s : State) (cl : Client) (c : Cmd) (tid vc : Nat) : State :=
  match Tab.at? s.tables tid with
  | some t =>
    if (t.copying.map (·.1)) = some cl ∧ c.stage = 7 ∧ c.items.any (·.back) then
      let n := s.fresh
      ((List.range t.rows).filter (Config.done n)).foldl (fun s r => s.copyRow cl c tid vc (c.num 16 8) r) s.draw
    else s
  | none => s

/-- Elements that a cancelled append had written at its turn: it is not committed, and in CIRCULAR mode FIRST passes every
position whose slot was overwritten (R191, log entry 4). -/
def State.cancelAppend (s : State) (cl : Client) (c : Cmd) (sid skip n : Nat) : State :=
  match Tab.at? s.streams sid with
  | none => s
  | some x =>
    let s := if x.order.head? = some cl ∧ s.stnUp x.stn then
        let f := s.fresh
        let src := (c.ranges[0]?).getD []
        let st := if c.num 16 4 = 0 then x.estride else c.num 16 4
        let ks := (List.range n).filter (Config.done f)
        let s := ks.foldl (fun s i =>
          let o := (skip + i) * st
          s.pwrite cl (s.cidOf c) x.mine (x.offset (x.total + i)) (s.brought c.items src o x.elemB ++ zeros (x.estride - x.elemB)) (s.arrivedBad c.items src o x.elemB)) s.draw
        let top := ks.foldl (fun m i => max m (x.total + i + 1)) 0
        if x.strict then s else s.updStream sid (fun x => { x with first := max x.first (top - x.cap) })
      else s
    s.popOrder sid cl

/-- An input read of a command whose DISPATCH was ended: it is waited for, and what it brings goes nowhere. -/
def Req.endInput (cl : Client) (r : Req) : Req :=
  match r.pur with
  | .input _ _ _ => if r.client = cl then { r with pur := .item (2 ^ 20) } else r
  | _ => r

/-- A DISPATCH that has started is ended at its port for itself alone (R77 step 3, R403 step 3). -/
def State.endDisp (s : State) (cl : Client) (w : DispW) : State :=
  match w.did with
  | none => s
  | some did =>
    let s := { s with tags := Tab.mapV s.tags (fun _ r => r.endInput cl), waiting := s.waiting.map (Req.endInput cl) }
    s.updEp w.ep (fun e =>
      let mine := e.xids.filter (fun x => x.2.client == cl)
      let outs := mine.filter (fun x => x.2.kind == 1 && decide (64 * x.2.beats < x.2.len))
      { e with
        xids := e.xids.filter (fun x => x.2.client != cl)
        ended := e.ended ++ outs.map (·.1)
        granted := e.granted - (outs.map (fun x => x.2.issued - x.2.beats)).foldl (· + ·) 0
        ends := if w.endSent then e.ends else e.ends ++ [endBeat did w]
        cur := if e.cur = some cl then none else e.cur })

/-- Ends what a running command has begun. `part`: pieces of it that could have been carried out are carried out or not (log entry
4); otherwise none is. -/
def State.endWork (s : State) (cl : Client) (c : Cmd) (part : Bool) : State :=
  let s := { s with eps := Tab.mapV s.eps (fun _ e => if e.res.any (fun (x : Xfer) => x.client == cl) then { e with res := none } else e) }
  let s := match c.work with
    | .look w => (s.updCmd cl (fun c => { c with work := .idle, count := w.written }))
    | .disp w => (s.endDisp cl w).updCmd cl (fun c => { c with work := .idle })
    | .upd u => if part then s.cancelUpdate cl c u else s.updCmd cl (fun c => { c with aux := u.post })
    | .append sid skip n => if part then s.cancelAppend cl c sid skip n else s.popOrder sid cl
    | .gather sids _ => sids.foldl (fun s i => s.popOrder i cl) s
    | .trim sid _ => s.popOrder sid cl
    | .table tid vc => (if part then s.cancelCompact cl c tid vc else s).cancelRebase cl c tid
    | _ => s
  let s := s.pendDiscard cl
  (List.range s.build.nstn).foldl (fun s n => s.closeEnded n) s

/-- Reads of the client that are not issued yet are given up; writes still go out. -/
def State.dropWaiting (s : State) (cl : Client) : State :=
  { s with waiting := s.waiting.filter (fun r => r.client != cl || (match r.pur with
      | .write _ => true
      | _ => false)) }

/-- Cancels a command with a status (R77 steps 2 and 3): one that has not been started completes at once, a running one when its
requests have been answered or retired. A cancelled command that expires completes with ST_TIMEOUT in place of ST_ABORTED (R397). `part`
as in `endWork`. -/
def State.cancelBy (s : State) (cl : Client) (st : Nat) (part : Bool) : State :=
  match s.cmd cl with
  | none => s
  | some c =>
    if c.phase = .done then s
    else if c.phase ≠ .running then s.finish cl st 0 0
    else if c.cancel.isSome then (if c.cancel = some stTimeout then s else s.updCmd cl (fun c => { c with cancel := some st }))
    else
      let s := (s.dropWaiting cl).updCmd cl (fun c => { c with cancel := some st })
      (s.endWork cl c part).advance cl
/-- A command is cancelled that may have done part of its work. -/
def State.cancelCmd (s : State) (cl : Client) (st : Nat) : State := s.cancelBy cl st true

/-- The commands of a queue that are not completed. -/
def State.cmdsOf (s : State) (qid : Nat) : List Client := Tab.keys s.cmds (fun _ c => c.q == qid)

/-! ### The guilty-queue reset (R77-R79) -/

/-- Steps 1 to 3 of R77. -/
def State.resetQueue (s : State) (qid cause : Nat) : State :=
  match Tab.at? s.queues qid with
  | some q =>
    if q.st = .idle ∨ q.st = .active ∨ q.st = .stopping ∨ q.st = .stopped then
      let s := (s.updQ qid (fun q => { q with st := .resetting, cause := cause })).endFetch qid
      ((s.cmdsOf qid).foldl (fun s cl => s.cancelCmd cl stAborted) s).settleAfter
    else s
  | none => s

/-- MQI_QCTL RESET (R58, R75). -/
def State.qctlReset (s : State) (fn qid : Nat) : State :=
  match s.queueOf fn qid with
  | none => s.badQctl fn
  | some _ => s.resetQueue qid 6

/-- The reset waits for something other than completion-ring space (R79). -/
def State.resetLate (s : State) (qid : Nat) : Bool :=
  match Tab.at? s.queues qid with
  | some q => q.st == .resetting && Tab.ex s.cmds (fun k c => c.q == qid && (c.phase != .done || s.busy k))
  | none => false

/-! ### Timeouts (R245, R395-R398) -/

/-- The timeouts of TMO_CLASS 1 to 8, in µs (R395). -/
def classTmo (k : Nat) : Nat := if k = 8 then 60000000 else 10 ^ k
/-- A command's timeout in µs (R395). -/
def State.timeoutOf (s : State) (c : Cmd) : Nat :=
  let def_ := ((Tab.at? s.parts (s.pidOf (s.cidOf c))).map (·.defTmo)).getD 0
  let q := ((Tab.at? s.queues c.q).map (·.timeout)).getD 0
  if c.tmo = 0 ∨ c.tmo = 15 then (if c.q = 0 then 60000000 else if c.tmo = 0 ∧ q ≠ 0 then q else def_) else classTmo c.tmo

/-- Every expiry writes an error record (R397). -/
def State.tmoRecord (s : State) (c : Cmd) : State :=
  s.elog { kind := 2, pid := s.pidOf (s.cidOf c), cid := s.cidOf c, qid := c.q, detail := s.timeoutOf c, seq := c.seq, opcode := c.opcode }

/-- The command has done nothing, and waits for a station to wake or return, or for an engine port out of service (R397). -/
def State.waitsStn (s : State) (cl : Client) (c : Cmd) : Bool :=
  let down := fun (n : Nat) => !s.stnUp n
  let strm := fun (i : Nat) => match Tab.at? s.streams i with
    | some x => down x.stn
    | none => false
  (match c.work with
    | .look w => s.lookHeld w
    | .upd u => !s.updUp u && ((Tab.at? s.tables u.tid).map (fun t => t.writers.any (fun w => w.client == cl && !w.applied))).getD false
    | .scan w => w.per.all (fun x => !x.bank) && w.stns.any down
    | .append sid _ _ => strm sid
    | .gather sids served => !served && sids.any strm
    | .trim sid _ => strm sid
    | .table tid _ => ((Tab.at? s.tables tid).map (fun t => (t.copying.map (·.1)) == some cl && c.items.all (fun i => !i.back) && t.stations.any down)).getD false
    | _ => false) ||
  (!c.left && !Tab.ex s.tags (fun _ r => r.client == cl) && s.waiting.any (fun r => r.client == cl && (match r.stn with
    | some n => down n
    | none => false)))

/-- A started DISPATCH waits on PK4's reads of its own input (R397). -/
def State.onInput (s : State) (cl : Client) (w : DispW) : Bool :=
  match Tab.at? s.eps w.ep with
  | some e => e.credits != 0 && e.xids.any (fun x => x.2.client == cl && x.2.kind == 0 && x.2.inBeat.isNone)
  | none => false

/-- A started DISPATCH waits on its engine: for credits, for beats of an OUTPUT or for the done response (R397). -/
def State.onEngine (s : State) (cl : Client) (w : DispW) : Bool :=
  !w.endSent || w.doneStat.isNone || (match Tab.at? s.eps w.ep with
    | some e => e.xids.any (fun x => x.2.client == cl && x.2.kind == 1 && decide (64 * x.2.beats < x.2.len))
    | none => false)

/-- The queue's state does not change any more: an expiry cancels the command alone (R397). -/
def State.ending (s : State) (qid : Nat) : Bool := match Tab.at? s.queues qid with
  | some q => q.st == .draining || q.st == .resetting
  | none => true

/-- The command timed out; its queue is marked guilty where its state lets it be (R397, R75). -/
def State.guilty (s : State) (cl : Client) (c : Cmd) : State := (s.cancelCmd cl stTimeout).resetQueue c.q 5

/-- A table switch before its switch point, or a publishing update whose rows are all written (R397). -/
def State.beforeSwitch (s : State) (cl : Client) (c : Cmd) : Bool :=
  Tab.ex s.tables (fun _ t => t.pend.any (fun p => p.client == cl) &&
    (c.opcode == 0x1A || t.writers.any (fun w => w.client == cl && w.applied)))

/-- An admitted command that has not begun times out (R397): a FENCE_WAIT, a switch before its switch point and a DISPATCH that waits for its
port do not make their queue guilty. -/
def State.expireIdle (s : State) (cl : Client) (c : Cmd) : State :=
  if [0x02, 0x1A, 0x30].contains c.opcode then s.cancelCmd cl stTimeout else s.guilty cl c

/-- A command times out whose status is decided but whose record waits for its writes: it is not yet complete (R396, R397). -/
def State.expireDone (s : State) (cl : Client) (c : Cmd) : State :=
  (s.updCmd cl (fun c => { c with status := stTimeout, poison := c.poison || c.left })).resetQueue c.q 5

/-- A command's timeout expires (R397). -/
def State.expire (s : State) (cl : Client) (c : Cmd) : State :=
  let s := s.tmoRecord c
  let s := match c.phase with
    | .done => s.expireDone cl c
    | .received => s
    | .parked => s.guilty cl c
    | .admitted => s.expireIdle cl c
    | .running =>
      if c.opcode = 0x02 then s.finish cl stTimeout 0 0
      else if s.beforeSwitch cl c then s.cancelCmd cl stTimeout
      else if s.waitsStn cl c then s.cancelBy cl stTimeout false
      else match c.work with
        | .disp w =>
          if w.did.isNone then s.cancelCmd cl stTimeout
          else if s.onInput cl w || !s.onEngine cl w then s.guilty cl c
          else if s.ending c.q then s.cancelCmd cl stTimeout
          else (s.updCmd cl (fun c => { c with cancel := some stTimeout })).ask 2 w.ep
        | _ => s.guilty cl c
  s.settleAfter

/-- COMMAND_TIMEOUT for a command that is timed: admitted, and its record not held back by ring space alone (R396). -/
def State.cmdTimeout (s : State) (cl : Client) : State :=
  match s.cmd cl with
  | some c => if c.phase = .admitted ∨ c.phase = .running ∨ (c.phase = .done ∧ s.busy cl) then s.expire cl c else s
  | none => s

/-- PARKED_HEAD_TIMEOUT (R245). -/
def State.headTimeout (s : State) (qid : Nat) : State :=
  match (s.unadmitted qid).head? with
  | some c => if c.phase = .parked then s.expire (ckey qid c.seq) c else s
  | none => s

/-! ### Function resets (R55, R334, R424) -/

/-- A queue is FREE: a QUEUE_DESTROY that waits for it completes (R75). -/
def State.queueFreed (s : State) (qid : Nat) : State :=
  let s := ({ (s.endFetch qid) with queues := Tab.del s.queues qid }).dropNotes (ringClient qid)
  (s.cmds.filter (fun e => e.2.phase == .running && e.2.opcode == 0x43 && e.2.work == .obj qid)).foldl (fun s e => s.finish e.1 stOk qid 0) s

/-- A command is discarded: nothing more is written for it, and its signals are error signals (R55). -/
def State.discardCmd (s : State) (cl : Client) : State :=
  match s.cmd cl with
  | none => s
  | some c =>
    let s := if c.phase = .running then s.endWork cl c false else s
    let s := ({ s with cmds := Tab.del s.cmds cl, waiting := s.waiting.filter (fun r => r.client != cl) }).dropNotes cl
    (((s.signalAll { c with status := stAborted }).releasePins c).endWriter cl { c with status := stAborted }).freeFences

/-- Discards a queue with its commands. -/
def State.discardQueue (s : State) (qid : Nat) : State := ((s.cmdsOf qid).foldl (fun s cl => s.discardCmd cl) s).queueFreed qid

/-- The contexts of a function but the management context. -/
def State.ctxsOf (s : State) (fn : Nat) : List Nat := Tab.keys s.ctxs (fun i x => i != 0 && x.fn == fn)

/-- An FLR of a function begins (R55, R334); QID 0 is not one of its queues here. -/
def State.flrOf (s : State) (fn : Nat) : State :=
  let cs := s.ctxsOf fn
  let s := (Tab.keys s.queues (fun i q => i != 0 && cs.contains q.cid)).foldl (fun s q => s.discardQueue q) s
  let s := { s with
    ctxs := Tab.mapV s.ctxs (fun i x => if cs.contains i then { x with detached := true } else x)
    fns := Tab.upd s.fns fn (fun f => { f with badDb := 0, badQctl := 0, qsel := 0, held := [], flr := true }) }
  (s.evFlr fn).settleAfter

/-- A request belongs to a context of the function; an FLR of the PF is of every function (R424). -/
def State.reqOf (s : State) (fn : Nat) (r : Req) : Bool := r.pur != .marker && (fn == 0 ||
  match Tab.at? s.ctxs r.cid with
    | some x => x.fn == fn
    | none => false)

/-- FLR_COMPLETE (R55). -/
def State.flrDone (s : State) (fn : Nat) : State :=
  match Tab.at? s.fns fn with
  | some f =>
    if f.flr && !Tab.ex s.tags (fun _ r => s.reqOf fn r) && !s.waiting.any (s.reqOf fn) then
      ({ s with fns := Tab.upd s.fns fn (fun f => { f with flr := false }) }).emit (.flrd fn)
    else s
  | none => s

/-- FLR_ISOLATION_TIMEOUT (R55): the isolation wrapper completes the function's work. -/
def State.flrIsolate (s : State) (fn : Nat) : State :=
  if ((Tab.at? s.fns fn).map (·.flr)).getD false then s.endReqs (s.reqOf fn) else s

/-- QID 0 and its fences go (R424). -/
def State.dropMgq (s : State) : State :=
  let s := if Tab.has s.queues 0 then s.discardQueue 0 else s
  let s := (Tab.keys s.fences (fun _ f => f.pid.isNone)).foldl (fun s f => s.destroyFence f) s
  let s := { s with fences := Tab.keep s.fences (fun _ f => f.pid.isSome) }
  { s with mqi := {}, ctxs := Tab.del s.ctxs 0, postbags := Tab.put s.postbags 48 {} }

/-- An FLR of the PF (R55, R334, R424). -/
def State.pfReset (s : State) : State :=
  let s := (s.fns.map (·.1)).foldl (fun s f => s.flrOf f) s.dropMgq
  ({ s with
    rst := { s.rst with cause := s.rst.cause ||| 8 }
    fns := Tab.mapV s.fns (fun i f => { f with flr := i == 0 }) }).count 0x2101 6

/-- During a hub reset an FLR is answered at once (R425). -/
def State.flrStart (s : State) (fn : Nat) (f : State → State) : State := if s.up then f s else s.emit (.flrd fn)

/-! ### The commands -/

/-- QCTL_RESET (R77). -/
def execQctlReset (fn q : Nat) (s : State) : Out := .next (s.mmioOf fn (fun s => s.qctlReset fn q))
/-- GUILTY_RESET_BOUND_EXPIRY (R79): the context step falls due. -/
def execGuiltyResetBoundExpiry (q : Nat) (s : State) : Out :=
  .next (if s.resetLate q then s.ask 1 (((Tab.at? s.queues q).map (·.cid)).getD 0) else s)
/-- COMMAND_TIMEOUT (R397). -/
def execCommandTimeout (q seq : Nat) (s : State) : Out := .next (s.cmdTimeout (ckey q seq))
/-- PARKED_HEAD_TIMEOUT (R245). -/
def execParkedHeadTimeout (q : Nat) (s : State) : Out := .next (s.headTimeout q)
/-- FLR (R55): of function 0, the PF function reset. -/
def execFlr (fn : Nat) (s : State) : Out := .next (s.flrStart fn (fun s => if fn = 0 then s.pfReset else s.flrOf fn))
/-- FLR_COMPLETE (R55). -/
def execFlrComplete (fn : Nat) (s : State) : Out := .next (s.flrDone fn)
/-- FLR_ISOLATION_TIMEOUT (R55). -/
def execFlrIsolationTimeout (fn : Nat) (s : State) : Out := .next (s.flrIsolate fn)
/-- PF_FUNCTION_RESET (R424). -/
def execPfFunctionReset (s : State) : Out := .next (s.flrStart 0 State.pfReset)

end Sys2Proof.Machine
end

