-- ==== Sys2Proof/Machine/Removal.lean ====
section
/-! DEFINITION. Sys2Proof/Machine/Removal.lean: removing a partition (R280, R321, R322) and the scrubs that wait for the census
(R318). -/
namespace Sys2Proof.Machine

/-- A request of a context of the partition. -/
def State.reqPart (s : State) (pid : Nat) (r : Req) : Bool := r.pur != .marker && s.pidOf r.cid == pid
/-- The partition's commands that are in flight. -/
def State.cmdsPart (s : State) (pid : Nat) : List Client := Tab.keys s.cmds (fun _ c => c.q != 0 && s.pidOf (s.cidOf c) == pid)
/-- The queues of a partition's contexts. -/
def State.queuesPart (s : State) (pid : Nat) : List Nat := Tab.keys s.queues (fun i q => i != 0 && s.pidOf q.cid == pid)

/-- The isolation wrapper ends commands: those cancelled end their transfers, and hub tags are released; memory-port tags are
waited for (R321 step 3, R403 step 3). A command that expired keeps its status. -/
def State.wrapCmds (s : State) (cls : List Client) : State :=
  let s := cls.foldl (fun s cl => match s.cmd cl with
    | some c => if c.cancel.isSome then (s.endWork cl c true).advance cl else s.cancelCmd cl stAborted
    | none => s) s
  (s.endReqs (fun r => r.stn.isNone && cls.contains r.client)).settleAfter

/-- A station's reset clears its engine ports and its copies (R321 step 6, R404 step 4). -/
def State.stnReset (s : State) (n : Nat) : State :=
  let eps := (List.range (s.build.epCount n)).map (fun i => s.build.epFirst n + i)
  let s := eps.foldl (fun s ep => if Tab.has s.eps ep then (s.updEp ep (fun e => { e.cleared with inReset := false })).emits [.epReset ep false, .epReset ep true] else s) s
  s.updStn n (fun x => { x with missed := 0, stalled := [], silent := [], sumAll := false, sumRel := 0, sumA := [], sumB := [], sumSel := false, sortBank := 0, iso := [] })

/-- Everything class P that a partition holds is freed; its commands and what they hold go with it (R321 step 6, R405 step 5). -/
def State.clearPart (s : State) (pid : Nat) : State :=
  let cs := Tab.keys s.ctxs (fun _ x => x.pid == some pid)
  let fs := Tab.keys s.fences (fun _ f => f.pid == some pid)
  let cls := s.cmdsPart pid
  let s := s.dropReqs (fun r => cs.contains r.cid && r.pur != .marker)
  let s := { s with
    cmds := Tab.keep s.cmds (fun k _ => !cls.contains k)
    queues := Tab.keep s.queues (fun i q => i == 0 || !cs.contains q.cid)
    tables := Tab.keep s.tables (fun _ t => t.pid != pid)
    streams := Tab.keep s.streams (fun _ x => x.pid != pid)
    fences := Tab.keep s.fences (fun i _ => !fs.contains i)
    edges := Tab.keep s.edges (fun _ e => !fs.contains e.src && !fs.contains e.dst)
    ctxs := Tab.keep s.ctxs (fun i _ => !cs.contains i)
    xlt := { s.xlt with
      walkers := Tab.keep s.xlt.walkers (fun _ w => w.pid != pid)
      misses := s.xlt.misses.filter (fun m => m.pid != pid)
      xfaults := s.xlt.xfaults.filter (fun x => !cs.contains x.cid) }
    arb := { s.arb with credit := Tab.del s.arb.credit pid, express := Tab.del s.arb.express pid, pat := Tab.del s.arb.pat pid,
                        lastQ := Tab.keep s.arb.lastQ (fun k _ => k / 4 != pid) } }
  ((s.stnsOf pid).foldl (fun s n => s.stnReset n) s).pushIso

/-- A removal whose scrubs are over ends (R321 steps 6 and 7). -/
def State.removeEnd (s : State) (pid : Nat) : State :=
  let aux := b2n (((Tab.at? s.parts pid).map (·.wrapped)).getD false)
  let s := { s with parts := Tab.upd s.parts pid (fun p => { p with st := 2 }) }.clearPart pid
  let s := { s with parts := Tab.del s.parts pid, postbags := Tab.del s.postbags pid }.pushIso
  (s.cmds.filter (fun e => e.2.phase == .running && e.2.opcode == 0x46 && e.2.work == .obj pid)).foldl (fun s e => s.finish e.1 stOk pid aux) s

/-- A partition step ends (R405 steps 5 and 6): the partition is ACTIVE and empty. -/
def State.partStepEnd (s : State) (pid : Nat) : State :=
  let s := s.clearPart pid
  { s with
    parts := Tab.upd s.parts pid (fun p => { p with st := 0, progs := [], cache := [], hits := 0, misses := 0, lowsig := 0, wmapErr := false,
                                                    wrapped := false, scrubbing := false })
    postbags := Tab.put s.postbags pid {}
    rcv := { s.rcv with running := s.rcv.running.filter (· != (3, pid)) } }

/-- A removal or partition step whose scrubs are over ends; a removal that a step overtook ends as a removal (R409). -/
def State.partEnd (s : State) (pid : Nat) : State :=
  if s.rcv.running.contains (3, pid) && !Tab.ex s.cmds (fun _ c => c.phase == .running && c.opcode == 0x46 && c.work == .obj pid) then s.partStepEnd pid
  else ({ s with rcv := { s.rcv with running := s.rcv.running.filter (· != (3, pid)) } }).removeEnd pid

/-- Removals and partition steps that wait for their scrubs alone are looked at again. -/
def State.settleRemovals (s : State) : State :=
  (Tab.keys s.parts (fun i p => p.scrubbing && !Tab.ex s.keys (fun _ x => x.pid == some i))).foldl (fun s i => s.partEnd i) s

/-- Steps 4 and 5 of R321 (R405 step 4). -/
def State.removeScrub (s : State) (pid : Nat) : State :=
  let s := { (s.pbBatch pid) with parts := Tab.upd s.parts pid (fun p => { p with scrubbing := true }) }
  (Tab.keys s.keys (fun _ x => x.pid == some pid)).foldl (fun s k => (s.scrubBegin k).scrubErase k) s

/-- Nothing of the partition is left: no tag and no command but, after T_DRAIN, completed ones without room for their records
(log entry 18). -/
def State.drained (s : State) (pid : Nat) : Bool :=
  let p := (Tab.at? s.parts pid).getD { stns := [], defTmo := 0, quota := 0, bays := [], ways := 0, banks := 0 }
  p.st == 1 && !p.scrubbing && !Tab.ex s.tags (fun _ r => s.reqPart pid r) && !s.waiting.any (s.reqPart pid) &&
  (s.cmdsPart pid).all (fun cl => p.wrapped && ((s.cmd cl).map (fun c => c.phase == .done)).getD true)

/-- A reset queue whose commands have all their records writes its marker (R77 step 6). -/
def State.resetDone (s : State) (q : Nat) : State :=
  match Tab.at? s.queues q with
  | some x => if x.st = .resetting ∧ s.received q = 0 then s.marker q x stQueueReset else s
  | none => s

/-- Records and markers that a partition step can still write are written (R405 step 3). -/
def State.stepMarkers (s : State) (pid : Nat) : State :=
  if s.rcv.running.contains (3, pid) then
    (s.queuesPart pid).foldl (fun s q => s.resetDone q) ((s.cmdsPart pid).foldl (fun s cl => s.completeCmd cl) s)
  else s

/-- PARTITION_DRAINED (R321, R405). -/
def State.partDrained (s : State) (pid : Nat) : State :=
  if s.drained pid then ((s.stepMarkers pid).removeScrub pid).settleRemovals else s

/-- PARTITION_REMOVE (R279, R280, R321 step 1). -/
def State.doPartRemove (cl : Client) (c : Cmd) (s : State) : State :=
  let pid := c.fld 8 1 0 6
  s.checked cl (do
    need (c.clean && Tab.has s.parts pid) stBadOperand
    need (s.partOk pid) stBusy) fun _ =>
    let s := { s with parts := Tab.upd s.parts pid (fun p => { p with st := 1, wrapped := false, scrubbing := false }) }
    (((s.queuesPart pid).foldl (fun s q => s.drainQueue q) s).notifyPart pid 1).waitFor cl (.obj pid)

/-- T_DRAIN_EXPIRY (R321 step 3). -/
def State.drainExpiry (s : State) (pid : Nat) : State :=
  match Tab.at? s.parts pid with
  | some p =>
    if p.st = 1 ∧ !p.scrubbing ∧ !s.drained pid then
      ({ s with parts := Tab.upd s.parts pid (fun p => { p with wrapped := true }) }.wrapCmds (s.cmdsPart pid)).endReqs
        (fun r => r.stn.isNone && s.reqPart pid r)
    else s
  | none => s

/-! ### Scrubs (R318) -/

/-- The commands of a key slot's contexts that have engine-port transfers in flight. -/
def State.epClients (s : State) (k : Nat) : List Client :=
  ((s.eps.flatMap (fun e => e.2.xids.map (·.2.client) ++ (e.2.res.map (·.client)).toList)).eraseDups).filter
    (fun cl => (s.cmd cl).any (fun c => s.keyOf (s.cidOf c) == k))

/-- The tags of a slot are gone, or at T_mem are retired, those of its engine-port transfers with their commands (R318 step 2). -/
def State.scrubDrained (s : State) (k : Nat) (late : Bool) : State :=
  if (s.keySlot k).waits then
    let s := if late then (s.wrapCmds (s.epClients k)).endReqs (fun r => r.pur != .marker && r.key == k) else s
    if s.keyTags k = 0 then (s.scrubErase k).settleRemovals else s
  else s

/-- PARTITION_REMOVE (R321). -/
def execPartitionRemove (q seq : Nat) (s : State) : Out := .next (s.start q seq (fun c => c.opcode == 0x46) State.doPartRemove)
/-- PARTITION_DRAINED (R321). -/
def execPartitionDrained (pid : Nat) (s : State) : Out := .next (s.partDrained pid)
/-- T_DRAIN_EXPIRY (R321). -/
def execTDrainExpiry (pid : Nat) (s : State) : Out := .next (s.drainExpiry pid)
/-- SCRUB_TAGS_DRAINED (R318). -/
def execScrubTagsDrained (slot : Nat) (late : Bool) (s : State) : Out := .next (s.scrubDrained slot late)
/-- KEY_ACK (R368). -/
def execKeyAck (stn slot op : Nat) (s : State) : Out := .next (s.keyAck stn slot op).settleRemovals

end Sys2Proof.Machine
end

