-- ==== Sys2Proof/Machine/Dump.lean ====
section
/-! DEFINITION. Sys2Proof/Machine/Dump.lean: crash dumps in the retention SRAM (R413, R415-R418). -/
namespace Sys2Proof.Machine

/-- Where dump slot k lies (R413). -/
def dumpAt (k : Nat) : Nat := 0x4000 + 0x1E000 * k
/-- FLAGS of a dump slot's header (R415). -/
def State.dumpFlags (s : State) (k : Nat) : Nat := rd (s.rsRead (dumpAt k) 64) 3 1 % 16
/-- Sets flags of a dump slot. -/
def State.setDumpFlags (s : State) (k f : Nat) : State := s.rsWrite (dumpAt k + 3) (leBytes 1 (s.dumpFlags k ||| f))

/-- The slot a new dump takes (R415): RELEASED, else COPIED, else the one that holds the older dump. -/
def State.dumpSlot (s : State) : Nat :=
  let has := fun (b : Nat) => (List.range 2).find? (fun k => bit (s.dumpFlags k) b)
  match has 2, has 1 with
  | some k, _ => k
  | none, some k => k
  | none, none => if rd (s.rsRead (dumpAt 0) 64) 8 8 ≤ rd (s.rsRead (dumpAt 1) 64) 8 8 then 0 else 1

/-- Unit codes of a station's sections (R416). -/
def stnUnits (n : Nat) : List Nat := (List.range 8).map (fun u => 0x100 + 8 * n + u)

/-- Largest body of a section (R416). -/
def unitMax (u : Nat) : Nat :=
  if u = 1 then 32768 else if u = 2 then 16384 else if u = 3 ∨ u = 5 then 2048 else if u < 0x100 then 1024 else 128

/-- Whole records that fit, in order. -/
def fitBytes (n : Nat) (rs : List CRec) : List Byte := (fitRecs n rs).flatMap (·.bytes)

/-- The event controller's section (R416): PENDING and ACTIVE words, and the ring positions, head and tail of each hub ring and of each
function ring that is enabled; how they follow one another is not given (log entry 19). -/
def State.evcBody (s : State) : List Byte :=
  let words := fun (f : Src → Bool) => (List.range 32).flatMap (fun i => leBytes 4 (s.srcWord f i))
  let hubs := (List.range 4).flatMap (fun r => leBytes 2 (s.hring r).head ++ leBytes 2 (s.hring r).tail)
  let fns := (s.fns.filter (fun f => f.2.evEn)).flatMap (fun f => leBytes 2 f.2.evHead ++ leBytes 2 f.2.evTail)
  (words (·.pending) ++ words (·.active) ++ hubs ++ fns).take 1024

/-- The engine ports' section (R416): for each port 16 bytes, of which the order is not given (log entry 19): credits held, outstanding XIDs
as a mask, and the DIDs that await a done response. -/
def State.epBody (s : State) (n : Nat) : List Byte :=
  (List.range (s.build.epCount n)).flatMap (fun i => match Tab.at? s.eps (s.build.epFirst n + i) with
    | some e => (leBytes 2 e.credits ++ leBytes 1 (packF (e.xids.map (fun x => (x.1, 1, 1)))) ++ leBytes 1 e.dids.length ++
        (e.dids.map (fun d => BitVec.ofNat 8 d.1)) ++ zeros 16).take 16
    | none => zeros 16)

/-- The body of a section (R416): queues with received commands, fences with waiters or pending edges; of the units for which the spec gives
no body it is free bytes. -/
def State.sectBody (s : State) (u : Nat) (pid : Option Nat) : List Byte :=
  if u = 1 then fitBytes 32768 ((s.queues.filter (fun e => s.received e.1 != 0 && (pid.isNone || s.pidOf e.2.cid == pid.getD 0x3F))).map
    (fun e => s.cQueue e.1 e.2))
  else if u = 2 then fitBytes 16384 ((s.fences.filter (fun e => (s.waitersOf e.1 != 0 || Tab.ex s.edges (fun _ x => x.src == e.1 || x.dst == e.1)) &&
    (pid.isNone || e.2.pid == pid))).map (fun e => s.cFence e.1 e.2))
  else if u = 4 then s.evcBody
  else if 0x100 ≤ u ∧ u % 8 = 5 then s.epBody ((u - 0x100) / 8)
  else (List.range (Config.dumpLen s.fresh u % (unitMax u + 1))).map (Config.dumpByte s.fresh u)

/-- A unit does not answer debug reads (R417): a unit or hub core found hung, any of a station that answers nothing. -/
def State.unitSilent (s : State) (u : Nat) : Bool :=
  let x := Tab.atD s.stns ((u - 0x100) / 8) {}
  if 0x100 ≤ u then x.silent.contains (u % 8) || x.pwr == 2 || x.pwr == 3
  else 0x10 ≤ u && (Tab.atD s.cores (u - 0x10) {}).hung

/-- Writes a section at the position reached, and goes past it to the next 16-byte boundary. READS counts the reads that were completed. -/
def State.putSect (s : State) (c : Coll) (u flags : Nat) (body : List Byte) : State × Coll :=
  let h := recBytes 16 [(0, 16, u), (16, 8, flags), (32, 32, body.length), (64, 32, ceilDiv body.length 64)]
  (s.rsWrite (dumpAt c.slot + c.pos) (h ++ body),
   { c with todo := c.todo.drop 1, pos := c.pos + 16 + ceilDiv body.length 16 * 16, nsect := c.nsect + 1 })

/-- The header of a dump as far as it is known (R415). -/
def State.putHead (s : State) (c : Coll) (flags serial first last : Nat) : State :=
  s.rsWrite (dumpAt c.slot) (recBytes 64 [(0, 16, 0x0401), (16, 8, c.step), (24, 8, flags), (32, 32, s.rst.cause), (64, 64, serial),
    (128, 40, first), (192, 40, last), (256, 16, c.nsect), (288, 32, c.pos)])

/-- Copies that may go to the host go (R418): as the PF without a PASID, while its BME is 1. -/
def State.settleCopies (s : State) : State :=
  if s.rcv.dumpEn && s.fnOk 0 then
    let s := s.rcv.copies.foldl (fun s k =>
      let n := rd (s.rsRead (dumpAt k) 64) 36 4
      (s.hostWrite 0 none (s.rcv.dumpBase + 122880 * k) (s.rsRead (dumpAt k) n) false).setDumpFlags k 2) s
    { s with rcv := { s.rcv with copies := [] } }
  else s

/-- A dump is complete (R415, R418); an error record of KIND DUMP names its slot (R414). -/
def State.dumpDone (s : State) (c : Coll) : State :=
  let h := s.rsRead (dumpAt c.slot) 64
  let s := (s.putHead c 1 (rd h 8 8) (rd h 16 5) (Config.stamp s.fresh).toNat).draw
  let s := { s with rcv := { s.rcv with colls := s.rcv.colls.drop 1, copies := if s.rcv.dumpEn then s.rcv.copies ++ [c.slot] else s.rcv.copies } }
  (s.elog { kind := 10, step := c.step % 6, pid := c.pid.getD 0x3F, detail := c.slot }).settleCopies

/-- Collects sections until a unit is silent (R417). -/
def State.runColl : Nat → State → State
  | 0, s => s
  | fuel + 1, s =>
    match s.rcv.colls with
    | [] => s
    | c :: cs =>
      if c.pos = 0 then
        let c := { c with slot := s.dumpSlot, pos := 64 }
        let s := (s.putHead c 0 c.serial (Config.stamp s.fresh).toNat 0).draw
        { s with rcv := { s.rcv with colls := c :: cs } }.runColl fuel
      else match c.todo with
        | [] => (s.dumpDone c).runColl fuel
        | u :: _ =>
          if s.unitSilent u then s
          else
            let r := s.draw.putSect c u 0 (s.sectBody u c.pid)
            let s' : State := { r.1 with rcv := { r.1.rcv with colls := r.2 :: cs } }
            s'.runColl fuel

/-- Enough turns for every section of every job. -/
def State.collFuel (s : State) : Nat := (s.rcv.colls.map (fun c => c.todo.length + 3)).foldl (· + ·) 1

/-- Begins a dump that the error record `serial` started (R415). -/
def State.dump (s : State) (step : Nat) (units : List Nat) (pid : Option Nat) (serial : Nat) : State :=
  let c : Coll := { slot := 0, step := step, todo := units, pid := pid, serial := serial }
  let s : State := { s with rcv := { s.rcv with colls := s.rcv.colls ++ [c] } }
  s.runColl s.collFuel

/-- A debug-ring read got no answer in 100 µs (R417): the section ends UNREADABLE with the bytes already read, whole reads of 64 bytes short of
its body, how many being free (log entry 19); collection goes on. -/
def State.debugTimeout (s : State) : State :=
  match s.rcv.colls with
  | c :: cs =>
    match c.todo with
    | u :: _ =>
      let body := s.sectBody u c.pid
      let n := Config.dumpLen (s.fresh + 1) u % max 1 (ceilDiv body.length 64)
      let r := s.draw.draw.putSect c u 1 (body.take (64 * n))
      let s : State := { r.1 with rcv := { r.1.rcv with colls := r.2 :: cs } }
      s.runColl s.collFuel
    | [] => s
  | [] => s

/-- Every section, in ascending unit code (R416). -/
def State.allUnits (s : State) : List Nat :=
  [1, 2, 3, 4, 5] ++ (List.range 8).map (fun n => 0x10 + n) ++ (List.range s.build.nstn).flatMap stnUnits

/-- A write of RST_DUMP_REL (R418, R420). -/
def State.dumpRel (s : State) (v : Nat) : State := s.setDumpFlags (bits v 0 1) 4

/-- What a read of RST_RSRAM_DATA returns, and the address after it (R420). -/
def State.rsNext (s : State) : Nat × State :=
  (leNat (s.rsRead (4 * s.rcv.rsAddr) 4), { s with rcv := { s.rcv with rsAddr := (s.rcv.rsAddr + 1) % 65536 } })

/-- DUMP_RELEASE (R418). -/
def execDumpRelease (v : BitVec 32) (s : State) : Out := .next (s.mmio (fun s => s.dumpRel v.toNat))
/-- RSRAM_DATA_READ (R420): answered even while the block recovers (R407). -/
def execRsramDataRead (tag : Nat) (s : State) : Out := .next (s.rsNext.2.emit (.cpl 0 tag 0 4 s.rsNext.1))

end Sys2Proof.Machine
end

