-- ==== Sys2Proof/Machine/Flit.lean ====
section
/-! DEFINITION. Sys2Proof/Machine/Flit.lean: Courier flits, their retry and their credits (R370-R373). -/
namespace Sys2Proof.Machine

/-- A Courier link. -/
def State.link (s : State) (n : Nat) : Link := Tab.atD s.links n {}
/-- Changes a link. -/
def State.updLink (s : State) (n : Nat) (f : Link → Link) : State := { s with links := Tab.put s.links n (f (s.link n)) }
/-- A station slot is built. -/
def State.built (s : State) (n : Nat) : Bool := decide (n < s.build.nstn)

/-- One end of a link. -/
def Link.side (l : Link) (stn : Bool) : LEnd := if stn then l.stn else l.hub
/-- Changes one end of a link. -/
def Link.updSide (l : Link) (stn : Bool) (f : LEnd → LEnd) : Link := if stn then { l with stn := f l.stn } else { l with hub := f l.hub }

/-- The flit with its CRC (R370). -/
def flitOf (body : List Byte) : List Byte := body ++ leBytes 4 (crc32 body)
/-- A flit of an end (R370): type, SEQ, the end's ACK and credit totals, 240 bytes of slots and their classes. -/
def LEnd.flit (e : LEnd) (type seq : Nat) (slots : List Byte) (cls : Nat) : List Byte :=
  flitOf (recBytes 8 [(0, 12, seq), (12, 12, (e.rxNext + 4095) % 4096), (24, 2, type), (28, 12, e.req.crt), (40, 12, e.rsp.crt), (52, 12, e.dbg.crt)] ++
    (slots ++ zeros (240 - slots.length)) ++ leBytes 4 cls)

/-- The traffic of class `k`: 1 requests, 2 responses, 3 debug and management. -/
def LEnd.chan (e : LEnd) (k : Nat) : Chan := if k = 1 then e.req else if k = 2 then e.rsp else e.dbg
/-- Changes the traffic of a class. -/
def LEnd.updChan (e : LEnd) (k : Nat) (f : Chan → Chan) : LEnd :=
  if k = 1 then { e with req := f e.req } else if k = 2 then { e with rsp := f e.rsp } else { e with dbg := f e.dbg }
/-- Slots of a class's receive buffer (R371). -/
def bufSlots (k : Nat) : Nat := if k = 1 then 1024 else if k = 2 then 2048 else 128
/-- Credits left to a sender (R371). -/
def Chan.credits (c : Chan) (k : Nat) : Nat := bufSlots k - (c.sent + 4096 - c.got) % 4096

/-! ### Messages and the hub's switch (R38, R39, R371) -/

/-- Slots of a message, from its header. -/
def msgLen (b : List Byte) : Nat := 1 + bits (rd b 0 8) 8 6
/-- Source after the one served last, of those with a message waiting: round robin (R38). -/
def Chan.next (c : Chan) : Option Nat := ((List.range 64).map (fun i => (c.last + 1 + i) % 64)).find? (fun x => c.queue.any (fun m => m.1 == x))
/-- The oldest message of a source is begun; a message begun is first finished, so that its slots are consecutive in its class (R371). -/
def Chan.load (c : Chan) (src : Nat) : Chan :=
  if c.rest ≠ [] then c else
  match c.queue.find? (fun m => m.1 == src) with
  | some m => { c with rest := m.2, last := src, queue := c.queue.eraseP (fun m => m.1 == src) }
  | none => c
/-- A source's turn comes: it lasts one flit, or to the end of its message (R38; log entry 23). -/
def Chan.turn (c : Chan) : Chan := match c.next with
  | some x => c.load x
  | none => c
/-- Up to `n` slots of the source whose turn it is. -/
def Chan.take : Nat → Chan → Chan × List (List Byte)
  | 0, c => (c, [])
  | n + 1, c =>
    let c := c.load c.last
    match c.rest with
    | [] => (c, [])
    | b :: bs =>
      let r := Chan.take n { c with rest := bs, sent := (c.sent + 1) % 4096 }
      (r.1, b :: r.2)
/-- A class fills what is left of a flit, as far as its credits go. -/
def LEnd.fill (e : LEnd) (k room : Nat) : LEnd × List (Nat × List Byte) :=
  let c := e.chan k
  let r := Chan.take (min room (c.credits k)) c.turn
  (e.updChan k (fun _ => r.1), r.2.map (fun b => (k, b)))
/-- A NULL flit of an end, which carries its ACK and its credits (R370). -/
def State.nullFlit (s : State) (n : Nat) (fromStn : Bool) : State :=
  if (s.link n).st = 5 then s.emit (.flit n fromStn (((s.link n).side fromStn).flit 0 0 [] 0)) else s
/-- Credits go back over a link once its messages have left the hub's switch; the end's own messages hold none. -/
def State.creditBack (s : State) (src k m : Nat) : State :=
  if src = 63 ∨ m = 0 then s
  else (s.updLink src (fun l => { l with hub := l.hub.updChan k (fun c => { c with crt := (c.crt + m) % 4096 }) })).nullFlit src false

/-- Physical lanes of a mask, those of another left out. -/
def lanesIn (mask off : Nat) : List Nat := (List.range 9).filter (fun i => bit mask i && !bit off i)
/-- The physical lane of each logical lane of a direction (R376, R380, R381): logical lane j is carried by lane j, or by the spare, lane 8; a
direction on 4 lanes uses the first 4 that are good (log entry 23). -/
def Link.lanes (l : Link) (toHub : Bool) : List Nat :=
  if (if toHub then l.rxLanes else l.txLanes) = 4 then (lanesIn (if toHub then l.rxGood else l.txGood) 0).take 4
  else (List.range 8).map (fun j => if j = (if toHub then l.rxSpared else l.txSpared) then 8 else j)
/-- A physical lane is good, and in use or in standby, in a direction. -/
def Link.laneUsed (l : Link) (toHub : Bool) (i : Nat) : Bool :=
  bit (if toHub then l.rxGood else l.txGood) i &&
    ((l.lanes toHub).contains i || (i == 8 && (if toHub then l.rxLanes else l.txLanes) == 8 && (if toHub then l.rxSpared else l.txSpared) == 15))
/-- CX_LANE.LANE_OK (R382). -/
def Link.laneOk (l : Link) : Nat :=
  packF (((List.range 9).filter (fun i => l.laneUsed false i && l.laneUsed true i)).map (fun i => (i, 1, 1)))
/-- Flits a sender keeps (R372). -/
def State.keepMax (s : State) (n : Nat) : Nat := if s.build.remote n then 1024 else 256

/-- An end sends the messages that wait, in PAYLOAD flits, while the link carries traffic, its buffer has room and credits are left
(R370-R372): requests first, then responses, then debug and management (log entry 23). -/
def State.cxPump : Nat → State → Nat → Bool → State
  | 0, s, _, _ => s
  | fuel + 1, s, n, fromStn =>
    let l := s.link n
    let e := l.side fromStn
    let a := e.fill 1 15
    let b := a.1.fill 2 (15 - a.2.length)
    let c := b.1.fill 3 (15 - a.2.length - b.2.length)
    let slots := a.2 ++ b.2 ++ c.2
    if l.st != 5 || decide (s.keepMax n ≤ e.kept.length) || slots.isEmpty then s
    else
      let f := e.flit 1 e.txNext (slots.flatMap (·.2)) (packF ((slots.zipIdx).map (fun x => (2 * x.2, 2, x.1.1))))
      let s := (s.updLink n (fun l => l.updSide fromStn (fun _ =>
        { c.1 with txNext := (e.txNext + 1) % 4096, kept := e.kept ++ [(e.txNext, f)] }))).emit (.flit n fromStn f)
      let s := if fromStn then s else
        ((s.creditBack a.1.req.last 1 a.2.length).creditBack b.1.rsp.last 2 b.2.length).creditBack c.1.dbg.last 3 c.2.length
      State.cxPump fuel s n fromStn
/-- Flits enough for what a sender's buffer holds (R372). -/
def State.send (s : State) (n : Nat) (fromStn : Bool) : State := State.cxPump 1024 s n fromStn

/-- An end has a message of a class to send, which came over link `src` (63: its own). -/
def State.queueMsg (s : State) (n : Nat) (fromStn : Bool) (k src : Nat) (m : List (List Byte)) : State :=
  (s.updLink n (fun l => l.updSide fromStn (fun e => e.updChan k (fun c => { c with queue := c.queue ++ [(src, m)] })))).send n fromStn

/-- A control message is sent, but not over a link that is OFF or DOWN: one slot of the debug and management class, whose header's fields
are those of R371. -/
def State.sendMsg (s : State) (n : Nat) (fromStn : Bool) : State :=
  if (s.link n).st = 0 ∨ (s.link n).st = 7 then s
  else
    let free := fun (k w : Nat) => leNat ((List.range w).map (fun i => Config.msgByte s.fresh (k + i)))
    let h := recBytes 16 [(0, 8, free 0 1), (14, 6, if fromStn then n else 63), (20, 6, if fromStn then 63 else n), (26, 13, free 1 2), (64, 64, free 8 8)]
    s.draw.queueMsg n fromStn 3 63 [h]

/-- A link enters INIT, and both its ends send an INIT flit (R373). -/
def State.enterInit (s : State) (n : Nat) : State :=
  let s := s.updLink n (fun l => { l with st := 4, hub := { l.hub with init := false }, stn := { l.stn with init := false } })
  s.emits ([false, true].map (fun stn => .flit n stn (((s.link n).side stn).flit 3 0 ((List.range 240).map (Config.initByte n stn)) 0)))

/-- A link that must train again (R372, R378): sparing in progress is given up. A local link asks its adapter, and without one goes straight
to INIT (R375). -/
def State.retrain (s : State) (n : Nat) : State :=
  if (s.link n).st = 5 then
    let s := (s.updLink n (fun l => { l with
      st := 6, retrains := satAdd 16 l.retrains 1, again := true, tx := none, rx := none
      hub := { l.hub with init := false, resent := 0 }, stn := { l.stn with init := false, resent := 0 } })).count 0x2104 2
    if s.build.remote n then s
    else if s.build.direct.contains n then s.enterInit n
    else s.emit (.ucieRetrain n)
  else s

/-- An end resends every flit it keeps (R372 rule 3); the fourth time for the same oldest flit the link retrains (rule 5). -/
def State.resend (s : State) (n : Nat) (stn : Bool) : State :=
  let e := (s.link n).side stn
  if e.kept = [] ∨ (s.link n).st ≠ 5 then s else
  let s := (((s.updLink n (fun l => { l.updSide stn (fun e => { e with resent := e.resent + 1 }) with retry := satAdd 32 l.retry 1 })).count 0x2104 1).raise
    (112 + n) 1).emits (e.kept.map (fun f => .flit n stn f.2))
  if 4 ≤ e.resent + 1 then s.retrain n else s

/-- Flits that an ACK covers are no longer kept (R372): ACK names one of them. -/
def LEnd.acked (e : LEnd) (ack : Nat) : LEnd :=
  match e.kept.findIdx? (fun f => f.1 == ack) with
  | some i => { e with kept := e.kept.drop (i + 1), resent := 0 }
  | none => e

/-- Slots of a class in a flit. -/
def slotsOf (cls k : Nat) : Nat := ((List.range 15).filter (fun i => bits cls (2 * i) 2 == k)).length

/-- A message that has arrived whole: at a station, or named for the hub, it is taken, which returns its credits; another goes on through
the hub's switch, and its credits return when it leaves (R38, R371). -/
def State.arrive (s : State) (n : Nat) (atStn : Bool) (k : Nat) (m : List (List Byte)) : State :=
  let dest := bits (rd (m.headD []) 0 8) 20 6
  if !atStn && s.built dest then s.queueMsg dest false k n m
  else s.updLink n (fun l => l.updSide atStn (fun e => e.updChan k (fun c => { c with crt := (c.crt + m.length) % 4096 })))

/-- The whole messages of a class's receive buffer arrive, in order (R39). -/
def State.arrivals : Nat → State → Nat → Bool → Nat → State
  | 0, s, _, _, _ => s
  | fuel + 1, s, n, atStn, k =>
    match (((s.link n).side atStn).chan k).buf with
    | [] => s
    | b :: bs =>
      if (b :: bs).length < msgLen b then s
      else
        let s := s.updLink n (fun l => l.updSide atStn (fun e => e.updChan k (fun c => { c with buf := c.buf.drop (msgLen b) })))
        State.arrivals fuel (s.arrive n atStn k ((b :: bs).take (msgLen b))) n atStn k

/-- The slots of a PAYLOAD flit go to the receive buffers of their classes. -/
def State.takeSlots (s : State) (n : Nat) (atStn : Bool) (b : List Byte) : State :=
  let cls := rd b 248 4
  [1, 2, 3].foldl (fun s k =>
    let new := ((List.range 15).filter (fun i => bits cls (2 * i) 2 == k)).map (fun i => (b.drop (8 + 16 * i)).take 16)
    let s := s.updLink n (fun l => l.updSide atStn (fun e => e.updChan k (fun c => { c with buf := c.buf ++ new })))
    State.arrivals 15 s n atStn k) s

/-- Once a PAYLOAD flit is taken an end sends what waits, or a NULL flit, so that its ACK and its credits reach the other end (log entry
23). -/
def State.ackFlit (s : State) (n : Nat) (atStn : Bool) : State :=
  let t := s.send n atStn
  if ((t.link n).side atStn).txNext = ((s.link n).side atStn).txNext then t.nullFlit n atStn else t

/-- A link enters DOWN without its station yet being fenced (R378). -/
def State.markDown (s : State) (n : Nat) : State :=
  ((s.updLink n (fun l => { l with st := 7, downs := satAdd 16 l.downs 1, again := false, tx := none, rx := none })).count 0x2104 4).raise (112 + n) 8

/-- The ACK and the credit totals of a flit are applied (R370, R372). -/
def LEnd.credited (e : LEnd) (h : Nat) : LEnd :=
  let e := e.acked (bits h 12 12)
  { e with req := { e.req with got := bits h 28 12 }, rsp := { e.rsp with got := bits h 40 12 }, dbg := { e.dbg with got := bits h 52 12 } }

/-- A flit of a remote link as its stripes leave it: those of lanes whose codeword could not be corrected are lost, 32 bytes each on 8 lanes
and 64 on 4 (R377, R381). -/
def Link.assemble (l : Link) (atStn : Bool) (fresh : Nat) (lost : List Nat) (b : List Byte) : List Byte :=
  let w := if (if atStn then l.txLanes else l.rxLanes) = 4 then 64 else 32
  (b.zipIdx).map (fun x => if lost.contains (x.2 / w) then Config.lostByte fresh x.2 else x.1)

/-- A flit arrives at an end (R372, R373). True: the link must go down. -/
def State.flitIn (s : State) (n : Nat) (atStn : Bool) (lost : List Nat) (b : List Byte) : State × Bool :=
  let l := s.link n
  let e := l.side atStn
  let lost := if s.build.remote n then lost.filter (fun j => decide (j < if (if atStn then l.txLanes else l.rxLanes) = 4 then 4 else 8)) else []
  let b := if lost = [] then b else l.assemble atStn s.fresh lost b
  let h := rd b 0 8
  let type := bits h 24 2
  let good := lost.isEmpty && b.length == 256 && rd b 252 4 == crc32 (b.take 252)
  if l.st = 4 then
    if good && type == 3 then
      if Config.initAgrees b then
        (s.updLink n (fun l => l.updSide atStn (fun e => { (e.credited h) with kept := e.kept, resent := e.resent, init := true })), false)
      else (s, true)
    else (s, false)
  else if l.st ≠ 5 then (s, false)
  else if type = 1 then
    if good && bits h 0 12 == e.rxNext then
      let s := s.updLink n (fun l => l.updSide atStn (fun e => { (e.credited h) with rxNext := (e.rxNext + 1) % 4096, asking := false }))
      ((s.takeSlots n atStn b).ackFlit n atStn, false)
    else if e.asking then (s, false)
    else ((s.updLink n (fun l => l.updSide atStn (fun e => { e with asking := true }))).emit (.flit n atStn (e.flit 2 0 [] 0)), false)
  else if !good || e.asking || type == 3 then (s, false)
  else
    let s := s.updLink n (fun l => l.updSide atStn (fun e => e.credited h))
    ((if type = 2 then s.resend n atStn else s).send n atStn, false)

/-- REPLAY_TIMEOUT (R372): the oldest kept flit of an end has waited. -/
def execReplayTimeout (slot : Nat) (atStn : Bool) (s : State) : Out := .next (if s.built slot then s.resend slot atStn else s)

end Sys2Proof.Machine
end

