-- ==== Sys2Proof/Machine/Recovery.lean ====
section
/-! DEFINITION. Sys2Proof/Machine/Recovery.lean: stations fenced and returned (R400, R401, R410-R412), the context, engine and
partition steps of the escalation ladder (R402-R405, R409), and watchdogs (R399). -/
namespace Sys2Proof.Machine

/-- A station. -/
def State.stnAt (s : State) (n : Nat) : Stn := Tab.atD s.stns n {}
/-! ### Fences (R410, R411) -/

/-- A command has work on a station, or uses it as its combining site or engine port (R411). -/
def State.usesStn (s : State) (cl : Client) (c : Cmd) (n : Nat) : Bool :=
  let strm := fun (i : Nat) => ((Tab.at? s.streams i).map (·.stn)) == some n
  (match c.work with
    | .look w => w.shares.any (fun x => x.1 % 64 == n) || w.dests.any (fun d => d.site == some n || (d.ep.map s.build.epStn) == some n)
    | .disp w => w.did.isSome && s.build.epStn w.ep == n
    | .upd u => match Tab.at? s.tables u.tid with
      | some t => t.writers.any (fun w => w.client == cl && !w.applied) && u.rows.any (fun r => t.rowStn (some r) == n)
      | none => false
    | .scan w => w.stns.contains n
    | .append sid _ _ => strm sid
    | .gather sids _ => sids.any strm
    | .trim sid _ => strm sid
    | .table tid _ => ((Tab.at? s.tables tid).map (fun t => (t.copying.map (·.1)) == some cl && t.stations.contains n)).getD false
    | _ => false) ||
  Tab.ex s.tags (fun _ r => r.client == cl && r.stn == some n)

/-- A write of the client to the station is not acknowledged. -/
def State.writesStn (s : State) (cl : Client) (n : Nat) : Bool :=
  let w := fun (r : Req) => r.client == cl && r.stn == some n && (match r.pur with
    | .write _ => true
    | _ => false)
  Tab.ex s.tags (fun _ r => w r) || s.waiting.any w

/-- Commands that are not distributed yet and wait for stations (R411). -/
def State.heldCmds (s : State) : List Client := Tab.keys s.cmds (fun k c => c.phase == .running && s.waitsStn k c)

/-- Commands that lose a station end, those too whose results are not all in its memory (R411); those not distributed yet wait for it. -/
def State.loseStn (s : State) (n : Nat) : State :=
  let s : State := { s with cmds := Tab.mapV s.cmds (fun k (c : Cmd) =>
    if c.phase == Phase.done && s.writesStn k n then { c with status := stAborted, poison := c.poison || c.left } else c) }
  (s.cmds.filter (fun e => e.2.phase == .running && s.usesStn e.1 e.2 n && !s.waitsStn e.1 e.2)).foldl (fun s e => s.cancelCmd e.1 stAborted) s

/-- A request that has not been issued goes on waiting for a fenced station: a read of a held command, a ring or a walk (R411). -/
def Req.waits (held : List Client) (r : Req) : Bool :=
  (match r.pur with
    | .write _ => false
    | _ => true) && (held.contains r.client || decide (2 ^ 80 ≤ r.client))

/-- Fences a station (R410); `hung` are units of it that were found hung. Reads of held commands, rings and walks that have not been issued
go on waiting for it. -/
def State.fenceStn (s : State) (n trigger : Nat) (byDriver : Bool) (hung : List Nat) : State :=
  let x := s.stnAt n
  if !s.built n || x.state == 1 || x.state == 3 then s else
  let s := s.updStn n (fun x => { x with state := 1, trigger := trigger, fences := satAdd 16 x.fences 1, byDriver := byDriver, missed := 0, stalled := [],
                                         silent := x.silent ++ hung })
  let s := (s.count 0x2102 4).elog { kind := 4, pid := (s.ownerOf n).getD 0x3F, stn := n, detail := trigger }
  let serial := s.rcv.serial
  let held := s.heldCmds
  let s := (s.loseStn n).endReqsBut (fun r => r.stn == some n) (fun r => r.waits held)
  let s := s.raise (64 + n) 1
  let s := match s.ownerOf n with
    | some p => s.notifyPart p 2
    | none => s
  (s.dump 6 (stnUnits n) none serial).settleAfter

/-! ### Returns (R412) -/

/-- Return attempts of the last hour. -/
def State.attempts (s : State) (n : Nat) : List Nat := (s.stnAt n).attempts.filter (fun t => s.mgt.uptime < t + 3600)

/-- A return that has its link and memory ends: the station is in service, and held commands proceed (R412 steps 4 and 5). -/
def State.settleReturn (s : State) (n : Nat) : State :=
  let x := s.stnAt n
  if x.state == 2 && (s.link n).st == 5 && x.memRdy then
    let s := (s.updStn n (fun x => { x with state := 0, pwr := 0, byDriver := false, fromOut := false, idleReq := [], demand := false, sumAll := true, sumRel := 0, silent := [],
                                            missed := 0, enum := if x.enum = 0 then 1 else x.enum })).count 0x2102 5
    let s := s.pushIso.raise (64 + n) 2
    let s := match s.ownerOf n with
      | some p => s.notifyPart p 2
      | none => s
    (s.refill (some n)).settleReads
  else s

/-- What waits at the hub's port of a link is given up, which returns the credits of the messages that came over other links. -/
def State.dropMsgs (s : State) (n : Nat) : State :=
  [1, 2, 3].foldl (fun s k =>
    let c := (s.link n).hub.chan k
    c.queue.foldl (fun s m => s.creditBack m.1 k m.2.length) (s.creditBack c.last k c.rest.length)) s

/-- The link of a station trains: a remote one from DETECT, a local one with its INIT exchange (R375, R378). Both ends begin anew; lanes
powered down and widths stay as they are (R381). -/
def State.trainLink (s : State) (n : Nat) : State :=
  let s := (s.dropMsgs n).updLink n (fun l => { l with st := if l.disable then 0 else 1, again := false, tx := none, rx := none,
                                                          txGood := 0, rxGood := 0, hub := {}, stn := {} })
  if (s.link n).disable || s.build.remote n then s else s.enterInit n

/-- A service restart gives every direction its 8 lanes again, and a spare (R381; log entry 23). -/
def State.restartLink (s : State) (n : Nat) : State :=
  (s.updLink n (fun l => { l with txSpared := 15, rxSpared := 15, txOff := 0, rxOff := 0, txLanes := 8, rxLanes := 8, degraded := false })).trainLink n

/-- STN_PS_REQ is driven (R440). -/
def State.setPs (s : State) (n level : Nat) : State :=
  if (s.stnAt n).psReq = level then s else (s.updStn n (fun x => { x with psReq := level })).emit (.psReq n level)

/-- A return attempt begins (R412 steps 1 and 2); the station ends Active (R439). -/
def State.startReturn (s : State) (n : Nat) : State :=
  let s := (s.setPs n 0).updStn n (fun x => { x with state := 2, attempts := s.attempts n ++ [s.mgt.uptime] })
  ((s.stnReset n).elog { kind := 5, pid := (s.ownerOf n).getD 0x3F, stn := n }).trainLink n

/-- FAULT1 returns a fenced station, at most 3 times in an hour; then it is OUT (R412, log entry 20). -/
def State.stnReturn (s : State) (n : Nat) : State :=
  let x := s.stnAt n
  if s.up && s.built n && x.state == 1 && !x.byDriver then
    if 3 ≤ (s.attempts n).length then s.updStn n (fun x => { x with state := 3 }) else s.startReturn n
  else s

/-- A return attempt fails (R412): the station stays FENCED, and after the attempts of an hour, or where it was OUT before, it is OUT. A slot that was being
enumerated again is recorded as `enum` (R429). -/
def State.returnFail (s : State) (n enum : Nat) : State :=
  if (s.stnAt n).state = 2 then
    s.updStn n (fun x => { x with state := if x.fromOut || decide (3 ≤ (s.attempts n).length) then 3 else 1, enum := if x.enum = 0 then enum else x.enum })
  else s

/-- STN_HCTL.RETURN: one attempt for a FENCED or OUT station (R412, R420), which enumerates its slot again (R429). -/
def State.driverReturn (s : State) (n : Nat) : State :=
  let x := s.stnAt n
  if s.built n && (x.state == 1 || x.state == 3) then (s.startReturn n).updStn n (fun y => { y with enum := 0, fromOut := x.state == 3 }) else s

/-! ### Heartbeats and memory ports (R400, R401, R369) -/

/-- A heartbeat to one station: fenced where it has not answered three. -/
def State.beatStn (s : State) (n : Nat) : State :=
  let x := s.stnAt n
  if x.state != 0 || x.pwr != 0 then s
  else if 3 ≤ x.missed then s.fenceStn n 1 false (List.range 8)
  else ((s.updStn n (fun x => { x with missed := x.missed + 1 })).emit (.heartbeat n)).sendMsg n false

/-- HEARTBEAT (R400 step 1). -/
def State.heartbeat (s : State) : State := if s.up then (List.range s.build.nstn).foldl (fun s n => s.beatStn n) s else s

/-- A station answers: of each unit whether it had work pending and made no progress. A unit that has not for six heartbeats has
not for at least 5 ms (R400). -/
def State.beatAnswer (s : State) (n : Nat) (us : List (Nat × Bool)) : State :=
  let x := s.stnAt n
  if !s.built n || x.state != 0 || x.pwr != 0 then s
  else
    let st := us.foldl (fun (t : Tab Nat) u => if u.2 then Tab.put t u.1 (Tab.atD t u.1 0 + 1) else Tab.del t u.1) x.stalled
    let s := s.updStn n (fun x => { x with missed := 0, stalled := st })
    let hung := Tab.keys st (fun _ k => decide (6 ≤ k))
    if hung = [] then s else s.fenceStn n 2 false hung

/-- A memory request reaches T_mem (R315, R401). -/
def State.memTimeout (s : State) (n tag : Nat) : State :=
  let id := stnTag n tag
  if !Tab.has s.tags id then s
  else
    let s := s.updStn n (fun x => { x with mpTmo := satAdd 16 x.mpTmo 1, tmoAt := x.tmoAt.filter (· == s.mgt.uptime) ++ [s.mgt.uptime] })
    let r := (Tab.at? s.tags id).map (fun r => (r.cid, r.addr))
    let s := s.mpRecord n { kind := 8, cid := (r.map (·.1)).getD 0, addr := (r.map (·.2)).getD 0 }
    let s := ((s.count 0x2106 1).raise (160 + n) 1).answer id true
    if 256 ≤ (s.stnAt n).tmoAt.length then s.fenceStn n 4 false [] else s

/-- MP_MEM_RDY falls (R369, R412): in service, a memory-port failure. -/
def State.memFall (s : State) (n : Nat) : State :=
  let x := s.stnAt n
  let s := s.updStn n (fun x => { x with memRdy := false, memFell := x.memFell || x.state == 1 || x.state == 3 })
  if x.state == 0 && x.pwr ≤ 1 && s.up then (s.mpRecord n { kind := 8 }).fenceStn n 4 false [] else s

/-! ### The ladder (R402, R409) -/

/-- A step's scope lies in that of a running step (R409). -/
def State.absorbed (s : State) (step id pid : Nat) : Bool :=
  !s.up || s.rcv.running.any (fun r => s.stepLive r && (r == (step, id) || (r.1 == 3 && r.2 == pid)))

/-- A step is no longer due. -/
def State.unask (s : State) (step id : Nat) : State := { s with want := s.want.filter (· != (step, id)) }

/-- Every step is counted and recorded (R402, R414, R420); no code is given for its trigger, nor a place in the record for an
engine port's credits (log entry 21). -/
def State.beginStep (s : State) (step id pid : Nat) (r : ERec) : State :=
  let free := fun (k n : Nat) => leNat ((List.range n).map (fun i => Config.recByte s.fresh (k + i)))
  let s := { s.draw with rcv := { s.rcv with
    escStep := step, escId := id, cnt := Tab.put s.rcv.cnt (step - 1) (satAdd 32 (Tab.atD s.rcv.cnt (step - 1) 0) 1)
    running := s.rcv.running ++ [(step, id)]
    hist := s.rcv.hist.filter (fun (h : Nat × Nat × Nat) => s.mgt.uptime < h.2.2 + 600) ++ [(step, pid, s.mgt.uptime)] } }
  s.elog { r with kind := 6, step := step, pid := pid, detail := free 0 4, addr := if step = 2 then free 4 8 else 0 }

/-- Steps of a kind begun in the running second (R402). -/
def State.stepsNow (s : State) (step : Nat) (pid : Option Nat) : Nat :=
  (s.rcv.hist.filter (fun (h : Nat × Nat × Nat) => h.1 == step && (pid.isNone || pid == some h.2.1) && h.2.2 == s.mgt.uptime)).length

/-- A queue is reset by a ladder step, with CAUSE 5 (R403 step 6, R405 step 3); one that is DRAINING stays so (R75). -/
def State.stepReset (s : State) (q : Nat) : State :=
  (s.updQ q (fun x => if x.st = .draining then x else { x with st := .resetting, cause := 5 })).endFetch q

/-- The context step (R403). -/
def State.ctxStep (s : State) (cid : Nat) : State :=
  let pid := s.pidOf cid
  let due := s.want.contains (1, cid)
  let s := s.unask 1 cid
  if !Tab.has s.ctxs cid || s.absorbed 1 cid pid || !(due || s.up) then s else
  let s := (s.beginStep 1 cid pid { kind := 6, cid := cid }).count 0x2102 1
  let qs := Tab.keys s.queues (fun _ q => q.cid == cid)
  let s := qs.foldl (fun s q => s.stepReset q) s
  let s := s.wrapCmds (Tab.keys s.cmds (fun _ c => qs.contains c.q))
  let s := (s.endReqs (fun r => r.stn.isNone && r.cid == cid && r.pur != .marker)).invalCache cid 0 (2 ^ 64)
  let s := if pid ≠ 0x3F ∧ 3 ≤ s.stepsNow 1 (some pid) then s.ask 3 pid else s
  s.settleSteps

/-- The engine step (R404), which also lets invalidations go on (R305). -/
def State.engStep (s : State) (ep : Nat) : State :=
  let n := s.build.epStn ep
  let pid := (s.ownerOf n).getD 0x3F
  let s := s.unask 2 ep
  if !Tab.has s.eps ep || s.absorbed 2 ep pid then s else
  let s := (s.beginStep 2 (8 * n + (ep - s.build.epFirst n)) pid { kind := 6, stn := n, ep := ep - s.build.epFirst n }).count 0x2102 2
  let s := { s with rcv := { s.rcv with running := s.rcv.running.filter (· != (2, 8 * n + (ep - s.build.epFirst n))) ++ [(2, ep)] } }
  (((s.engineStepAt ep).invDropPort ep).epReturn ep).settleAfter

/-- Step 1 of R405, and the end of what the partition's queues fetch. -/
def State.partStop (s : State) (pid : Nat) : State :=
  (s.queuesPart pid).foldl (fun s q => s.stepReset q)
    { s with parts := Tab.upd s.parts pid (fun p => { p with st := 1, wrapped := true }) }

/-- The partition step (R405); it goes on when the partition's tags are gone. Steps of its contexts and ports stop (R409). -/
def State.partStep (s : State) (pid : Nat) : State :=
  let s := s.unask 3 pid
  if !Tab.has s.parts pid || s.absorbed 3 pid pid then s else
  let s := (s.beginStep 3 pid pid { kind := 6 }).count 0x2102 3
  let serial := s.rcv.serial
  let s := { s with rcv := { s.rcv with running := s.rcv.running.filter (fun (r : Nat × Nat) =>
    !((r.1 == 1 && s.pidOf r.2 == pid) || (r.1 == 2 && s.owns pid (s.build.epStn r.2)))) } }
  let s := (s.stnsOf pid).foldl (fun s n => s.raise (64 + n) 8) s
  let s := (s.notifyPart pid 1).dump 3 ([1, 2] ++ (s.stnsOf pid).flatMap stnUnits) (some pid) serial
  let s := (s.partStop pid).wrapCmds (s.cmdsPart pid)
  let s := s.endReqs (fun r => r.stn.isNone && s.reqPart pid r)
  (if 3 ≤ s.stepsNow 3 none then s.ask 4 33 else s).partDrained pid

/-- A context step that waits for more than completion-ring space (R403). -/
def State.ctxLate (s : State) (cid : Nat) : Bool :=
  s.stepLive (1, cid) && Tab.ex s.cmds (fun k c => s.cidOf c == cid && (c.phase != .done || s.busy k))

/-- A step is past its bound: the next falls due for the scope around it (R402). -/
def State.boundExpiry (s : State) (step id : Nat) : State :=
  match step with
  | 1 => if s.rcv.running.contains (1, id) && s.ctxLate id then (if s.pidOf id = 0x3F then s.ask 4 33 else s.ask 3 (s.pidOf id)) else s
  | 3 => if s.rcv.running.contains (3, id) then s.ask 4 33 else s
  | 4 => if s.rcv.running.contains (4, id) then s.ask 5 0 else s
  | _ => s

/-- EP_RESTART of a station's ports (R420, R432): OUT ports take the engine step, others an idle request once nothing of them is
outstanding (R433). -/
def State.epRestart (s : State) (n : Nat) : State :=
  ((List.range (s.build.epCount n)).map (fun i => s.build.epFirst n + i)).foldl (fun s ep => match Tab.at? s.eps ep with
    | some e => if e.out then s.engStep ep
        else if e.busy || e.qreq || e.inReset then s
        else (s.updEp ep (fun e => { e with qreq := true })).emit (.epQreq ep true)
    | none => s) s

/-! ### Watchdogs of the hub cores (R399) -/

/-- What a core was running is lost with its restart. -/
def State.coreLost (s : State) (core : Nat) : State :=
  let mine := fun (c : Cmd) => c.phase == .running &&
    (if core = 5 then gen0 c.q c.opcode
     else if core = 6 then c.opcode == 0x1C && c.stage == 7
     else core == 7 && c.opcode == 0x3F)
  (Tab.keys s.cmds (fun _ c => mine c)).foldl (fun s cl => s.cancelCmd cl stAborted) s

/-- The monitor's unlock ends (R491): in PRODUCTION the IEEE 1500 wrappers close, a scan under way by an idle request (R492). -/
def State.endUnlock (s : State) : State :=
  let close := s.mgt.test && s.lc == 1
  let s := { s with mgt := { s.mgt with unlocked := false, test := s.mgt.test && !close } }
  if close then ({ s with mgt := { s.mgt with asked := s.mgt.asked.filter (· != (5, 0)) ++ [(5, 0)] } }).emit (.idleReq 5 0) else s

/-- The core that serves a partition's arbitration: SCHED0 the even PIDs and SCHED1 the odd ones, and the other while one hangs (R29, R31). -/
def State.schedOf (s : State) (pid : Nat) : Nat :=
  let c := pid % 2
  if (Tab.atD s.cores c {}).hung then 1 - c else c

/-- A hub core is restarted with its data memory cleared (R399): its claims are free again, and what it was running ends as the table says. -/
def State.restartCore (s : State) (core : Nat) : State :=
  let s := if core = 4 then s.endUnlock else s
  let s := { s with cores := Tab.upd s.cores core (fun x => { x with code := imageCells (s.slotImage s.fw.slot) core, data := [] }) }
  ((s.dropClaims core).coreLost core).settleAfter

/-- A core's watchdog expires (R399): its source is raised, and its observer restarts it; the second time in a second leads to the
chip step. A core that a live update has just loaded turns the update back (R486). -/
def State.watchdog (s : State) (core : Nat) : State :=
  if 8 ≤ core ∨ s.rst.rel ≠ .ready then s else
  let x := Tab.atD s.cores core {}
  let s := (s.setInput (256 + core) true 0).elog { kind := 3, unit := 0x10 + core, detail := core }
  let s := { s with cores := Tab.put s.cores core { x with expired := some s.mgt.uptime } }
  if s.fw.update.isSome ∧ x.loaded = some s.mgt.uptime then (s.dropClaims core).revertLive
  else if x.expired = some s.mgt.uptime then { s with cores := Tab.upd s.cores core (fun x => { x with hung := true }) }.ask 4 16
  else
    s.restartCore core

/-! ### The commands -/

/-- GUILTY_QUEUE_RESET_DONE (R77 steps 6, 7). -/
def execGuiltyQueueResetDone (q : Nat) (s : State) : Out := .next (s.resetDone q).settleSteps
/-- MEMORY_TIMEOUT (R315). -/
def execMemoryTimeout (stn tag : Nat) (s : State) : Out := .next (s.memTimeout stn tag)
/-- MEM_RDY_FALL (R369). -/
def execMemRdyFall (stn : Nat) (s : State) : Out := .next (if s.built stn then s.memFall stn else s)
/-- HEARTBEAT (R400). -/
def execHeartbeat (s : State) : Out := .next s.heartbeat
/-- HEARTBEAT_ANSWER (R400): each unit with whether it had work pending and made no progress. -/
def execHeartbeatAnswer (stn : Nat) (units : List (Nat × Bool)) (s : State) : Out := .next (s.beatAnswer stn units)
/-- STATION_WATCHDOG_EXPIRY (R400): core 0 is SSEQ0, core 1 SSEQ1. -/
def execStationWatchdogExpiry (stn core : Nat) (s : State) : Out := .next (s.fenceStn stn 3 false [6 + core % 2])
/-- STN_HCTL_FENCE (R410, R420). -/
def execStnHctlFence (s : State) : Out := .next (s.mmio (fun s => s.fenceStn s.rcv.hsel 6 true []))
/-- STATION_RETURN (R412). -/
def execStationReturn (stn : Nat) (s : State) : Out := .next (s.stnReturn stn)
/-- STN_HCTL_RETURN (R412). -/
def execStnHctlReturn (s : State) : Out := .next (s.mmio (fun s => s.driverReturn s.rcv.hsel))
/-- EP_RESTART (R404, R420, R432). -/
def execEpRestart (s : State) : Out := .next (s.mmio (fun s => if s.built s.rcv.hsel then s.epRestart s.rcv.hsel else s))
/-- WATCHDOG_EXPIRY (R399). -/
def execWatchdogExpiry (core : Nat) (s : State) : Out := .next (s.watchdog core)
/-- CONTEXT_STEP (R403): one that is due, or the driver's. -/
def execContextStep (cid : Nat) (s : State) : Out := .next (s.ctxStep cid)
/-- ENGINE_STEP (R404): one that is due, or the driver's. -/
def execEngineStep (ep : Nat) (s : State) : Out := .next (s.engStep ep)
/-- PARTITION_STEP (R405): one that is due, or the driver's. -/
def execPartitionStep (pid : Nat) (s : State) : Out := .next (s.partStep pid)
/-- ESCALATION_BOUND_EXPIRY (R402). -/
def execEscalationBoundExpiry (step id : Nat) (s : State) : Out := .next (s.boundExpiry step id)

end Sys2Proof.Machine
end

