-- ==== Sys2Proof/Machine/Courier.lean ====
section
/-! DEFINITION. Sys2Proof/Machine/Courier.lean: Courier links: training, retraining, sparing and loss of lanes (R373, R375,
R378-R382). -/
namespace Sys2Proof.Machine

/-- A slot fails its enumeration (R429). -/
def State.enumFail (s : State) (n : Nat) : State := (s.updStn n (fun x => { x with enum := 3 })).fenceStn n 7 false []

/-- A link enters DOWN, and its station is fenced (R378, R410); during a release its slot fails its enumeration (R429). -/
def State.linkDown (s : State) (n : Nat) : State :=
  let s := s.markDown n
  if !s.up then s.enumFail n
  else (s.updStn n (fun x => { x with enum := if x.state = 2 ∧ x.enum = 0 then 3 else x.enum })).fenceStn n 5 false []

/-- Lanes a direction runs on when `good` of them are good (R378, R381): degraded, it stays on 4. -/
def lanesFor (was good : Nat) : Nat := if good < 4 then 0 else if good < 8 then 4 else was

/-- The logical lane that a direction's spare carries at ALIGN: where the spare, physical lane 8, is good and no lane has been spared, the
logical lane of the first lane that is not good (log entry 23). -/
def spareAt (was : Nat) (good : List Nat) : Nat :=
  if was = 15 ∧ good.contains 8 then ((List.range 8).find? (fun j => !good.contains j)).getD 15 else was

/-- ALIGN ends: logical lanes are assigned to the good lanes of each direction, those powered down left out (R378, R381). -/
def State.linkAlign (s : State) (n tx rx : Nat) : State :=
  let l := s.link n
  let gt := lanesIn tx l.txOff
  let gr := lanesIn rx l.rxOff
  let a := lanesFor l.txLanes gt.length
  let b := lanesFor l.rxLanes gr.length
  if a = 0 ∨ b = 0 then s.linkDown n
  else (s.updLink n (fun l => { l with txLanes := a, rxLanes := b, degraded := a == 4 || b == 4,
                                       spareRdy := decide (gt.length = 9 ∧ gr.length = 9), txGood := packF (gt.map (fun i => (i, 1, 1))),
                                       rxGood := packF (gr.map (fun i => (i, 1, 1))),
                                       txSpared := if a = 8 then spareAt l.txSpared gt else l.txSpared
                                       rxSpared := if b = 8 then spareAt l.rxSpared gr else l.rxSpared })).enterInit n

/-- The INIT exchange is over: each end has had an INIT flit that agrees (R373). -/
def Link.agreed (l : Link) : Bool := l.hub.init && l.stn.init

/-- The link reaches ACTIVE, and what waits goes over it; from RETRAIN it raises RETRAINED (R373, R378). -/
def State.linkActive (s : State) (n : Nat) : State :=
  let l := s.link n
  if !l.agreed then s
  else
    let s := s.updLink n (fun l => { l with st := 5, again := false })
    let s := if l.again then s.raise (112 + n) 4 else s
    ((s.send n false).send n true).settleReturn n

/-- A training state finishes its work (R375, R378): bit l of `tx` and `rx` says that physical lane l was found, or is good, hub to
station and station to hub; of a local link they are the lanes of its module, and `slow` says that its rate is reduced. -/
def State.trainDone (s : State) (n tx rx : Nat) (slow : Bool) : State :=
  let l := s.link n
  if s.build.remote n then
    match l.st with
    | 1 => if 8 ≤ (lanesIn tx 0).length ∧ 8 ≤ (lanesIn rx 0).length then s.updLink n (fun l => { l with st := 2 }) else s
    | 2 => s.updLink n (fun l => { l with st := 3 })
    | 3 => s.linkAlign n tx rx
    | 4 => s.linkActive n
    | 6 => s.linkAlign n tx rx
    | _ => s
  else
    let s := if l.st = 4 ∨ l.st = 6 then s.updLink n (fun l => { l with degraded := slow || decide (tx < 64 ∨ rx < 64) }) else s
    match l.st with
    | 4 => s.linkActive n
    | 6 => s.enterInit n
    | _ => s

/-- A training attempt has failed to reach ACTIVE, and another begins in state `next`; of a retrain, the third within a second takes the
link down (R378). -/
def State.trainFailed (s : State) (n : Nat) (next : Nat) : State :=
  let l := s.link n
  let f := l.failed.filter (· == s.mgt.uptime) ++ [s.mgt.uptime]
  if !l.again then s.updLink n (fun l => { l with st := next })
  else if 3 ≤ f.length then (s.updLink n (fun l => { l with failed := [] })).linkDown n
  else s.updLink n (fun l => { l with st := next, failed := f })

/-- A training state reaches its time limit (R378); where the table names no next state the attempt has failed and the link goes back to
DETECT, a local one to its adapter or to INIT (log entry 22). A RETRAIN past its limit goes on in EQ, and has not failed yet. -/
def State.trainTimeout (s : State) (n : Nat) : State :=
  match (s.link n).st with
  | 1 => s.returnFail n 2
  | 2 => s.trainFailed n 1
  | 3 => s.trainFailed n 1
  | 4 => s.trainFailed n (if s.build.remote n then 1 else if (s.link n).again && !s.build.direct.contains n then 6 else 4)
  | 6 => if s.build.remote n then s.updLink n (fun l => { l with st := 2 }) else s.trainFailed n 6
  | _ => s

/-- CX_CTL.DISABLE is set: the link is OFF and its station fenced (R382, R410). -/
def State.cxDisable (s : State) (n : Nat) : State :=
  if !s.built n || (s.link n).disable then s
  else (s.updLink n (fun l => { l with disable := true, st := 0, again := false, tx := none, rx := none, txGood := 0, rxGood := 0 })).fenceStn n 5 true []

/-- CX_CTL.DISABLE is cleared: the link trains (R378). -/
def State.cxEnable (s : State) (n : Nat) : State :=
  if s.built n && (s.link n).disable then (s.updLink n (fun l => { l with disable := false })).trainLink n else s

/-- CX_CTL.RESTART (R382): from any state but OFF. -/
def State.cxRestart (s : State) (n : Nat) : State := if s.built n && (s.link n).st != 0 then s.restartLink n else s

/-! ### Sparing (R379, R380) -/

/-- The sparing that runs in a direction, and the logical lane the spare carries. -/
def Link.spare (l : Link) (toHub : Bool) : Option Spare := if toHub then l.rx else l.tx
def Link.spared (l : Link) (toHub : Bool) : Nat := if toHub then l.rxSpared else l.txSpared
/-- Sets the sparing of a direction. -/
def Link.setSpare (l : Link) (toHub : Bool) (x : Option Spare) : Link := if toHub then { l with rx := x } else { l with tx := x }

/-- Sparing of a logical lane begins: the receiving end sends a spare request (R380 step 1). -/
def State.startSpare (s : State) (n : Nat) (toHub : Bool) (lane : Nat) : State :=
  let l := s.link n
  if s.build.remote n && l.st == 5 && l.spared toHub == 15 && (l.spare toHub).isNone && decide (lane < 8) then
    (s.updLink n (fun l => l.setSpare toHub (some { lane := lane }))).sendMsg n (!toHub)
  else s

/-- A window of a lane ends at its receiving end (R379, R382). -/
def State.window (s : State) (n : Nat) (toHub : Bool) (lane corrected unc : Nat) : State :=
  if !(s.built n && s.build.remote n) || 9 ≤ lane then s else
  let d := b2n toHub
  let s := s.countBy 0x2104 5 unc
  let s := s.updLink n (fun l => { l with
    fecCorr := if toHub then satAdd 64 l.fecCorr corrected else l.fecCorr
    fecNear := if toHub then satAdd 16 l.fecNear unc else l.fecNear
    fecFar := if toHub then l.fecFar else satAdd 16 l.fecFar unc
    lerr := if toHub then Tab.put l.lerr lane (min corrected (2 ^ 24 - 1)) else l.lerr
    unc := l.unc.filter (fun (u : Nat × Nat × Nat × Nat) => u.2.2.2 == s.mgt.uptime) ++ [(d, lane, unc, s.mgt.uptime)] })
  let l : Link := s.link n
  let sum : Nat := ((l.unc.filter (fun (u : Nat × Nat × Nat × Nat) => u.1 == d && u.2.1 == lane)).map (·.2.2.1)).foldl (· + ·) 0
  if l.thr < corrected ∨ 16 ≤ sum then s.startSpare n toHub lane else s

/-- The receiving end has locked on the spare: it orders the switch 64 codewords ahead (R380 step 3). -/
def State.orderSwitch (s : State) (n : Nat) (toHub : Bool) (now : Nat) : State :=
  match (s.link n).spare toHub with
  | some p => (s.updLink n (fun l => l.setSpare toHub (some { p with locked := true, order := (now + 64) % 4096 }))).sendMsg n (!toHub)
  | none => s

/-- A switch order reaches the transmitter (R380 step 3): one out of reach is ignored, and a new one is sent. -/
def State.takeOrder (s : State) (n : Nat) (toHub : Bool) (lane count now : Nat) : State :=
  match (s.link n).spare toHub with
  | some p =>
    let d := (count + 4096 - now % 4096) % 4096
    if p.lane ≠ lane ∨ ¬p.locked then s
    else if d = 0 ∨ 2048 < d then s.orderSwitch n toHub now
    else s.updLink n (fun l => l.setSpare toHub (some { p with at_ := some count }))
  | none => s

/-- Codeword N is reached: the stripe moves to the spare lane (R380 steps 4-6). -/
def State.switchLane (s : State) (n : Nat) (toHub : Bool) : State :=
  match (s.link n).spare toHub with
  | some p =>
    if p.at_.isNone then s
    else ((s.updLink n (fun l => { (l.setSpare toHub none) with
        spareRdy := false
        txSpared := if toHub then l.txSpared else p.lane
        rxSpared := if toHub then p.lane else l.rxSpared
        txOff := if toHub then l.txOff else setBit l.txOff p.lane
        rxOff := if toHub then setBit l.rxOff p.lane else l.rxOff })).count 0x2104 3).raise (112 + n) 2
  | none => s

/-- The spare has not locked in 100 µs: the sparing is given up, and the link retrains (R380). -/
def State.lockTimeout (s : State) (n : Nat) (toHub : Bool) : State :=
  match (s.link n).spare toHub with
  | some p => if p.locked then s else (s.updLink n (fun l => l.setSpare toHub none)).retrain n
  | none => s

/-- A lane of a direction is lost: the link retrains (R378, R381). -/
def State.laneLost (s : State) (n : Nat) (toHub : Bool) (phys : Nat) : State :=
  if s.built n && s.build.remote n && decide (phys < 9) then
    (s.updLink n (fun l => { l with
      txGood := if toHub then l.txGood else clearBit l.txGood phys
      rxGood := if toHub then clearBit l.rxGood phys else l.rxGood })).retrain n
  else s

/-- A write of CX_CTL (R382): the selected link's fields, then what its bits start. SPARE_DIR is stored for a Courier-D link too
(log entry 104). -/
def State.cxCtl (s : State) (v : Nat) : State :=
  let n := s.cxSel
  if !s.built n then s else
  let x := s.build.remote n
  let s := s.updLink n (fun l => { l with spareLane := if x then bits v 2 3 else 0, spareDir := bit v 5 })
  let s := if bit v 0 then s.cxDisable n else s.cxEnable n
  let s := if bit v 1 then s.cxRestart n else s
  if bit v 6 && x then s.startSpare n (bit v 5) (bits v 2 3) else s

/-! ### The commands -/

/-- FLIT_RECEIVE (R372, R373). -/
def execFlitReceive (slot : Nat) (atStn : Bool) (flit : FlitIn) (s : State) : Out :=
  .next (if s.built slot then
    let r := s.flitIn slot atStn flit.lost flit.bytes
    if r.2 then r.1.linkDown slot else r.1
  else s)
/-- CX_DISABLE (R382). -/
def execCxDisable (s : State) : Out := .next (s.mmio (fun s => s.cxDisable s.cxSel))
/-- CX_DISABLE_CLEAR (R378). -/
def execCxDisableClear (s : State) : Out := .next (s.mmio (fun s => s.cxEnable s.cxSel))
/-- CX_RESTART (R382). -/
def execCxRestart (s : State) : Out := .next (s.mmio (fun s => s.cxRestart s.cxSel))
/-- SPARE_GO (R382): CX_CTL is written; DISABLE and RESTART have rows of their own. -/
def execSpareGo (v : BitVec 32) (s : State) : Out :=
  .next (s.mmio (fun s => if s.built s.cxSel && s.build.remote s.cxSel then
    (s.updLink s.cxSel (fun l => { l with spareLane := bits v.toNat 2 3, spareDir := bit v.toNat 5 })).startSpare s.cxSel (bit v.toNat 5) (bits v.toNat 2 3)
  else s))
/-- SPARE_WINDOW_CHECK (R379). -/
def execSpareWindowCheck (slot : Nat) (toHub : Bool) (lane corrected unc : Nat) (s : State) : Out := .next (s.window slot toHub lane corrected unc)
/-- SPARE_REQUEST (R380 step 2): both ends wake the spare. -/
def execSpareRequest (slot : Nat) (toHub : Bool) (lane : Nat) (s : State) : Out :=
  .next (let l := s.link slot
    if s.built slot && s.build.remote slot && l.st == 5 && l.spared toHub == 15 && (l.spare toHub).isNone && decide (lane < 8) then
      s.updLink slot (fun l => l.setSpare toHub (some { lane := lane }))
    else s)
/-- SPARE_LOCKED (R380 step 3). -/
def execSpareLocked (slot : Nat) (toHub : Bool) (now : Nat) (s : State) : Out := .next (s.orderSwitch slot toHub now)
/-- SWITCH_ORDER (R380 step 3). -/
def execSwitchOrder (slot : Nat) (toHub : Bool) (lane count now : Nat) (s : State) : Out := .next (s.takeOrder slot toHub lane count now)
/-- SPARE_SWITCH_COUNT_REACHED (R380 steps 4-6). -/
def execSpareSwitchCountReached (slot : Nat) (toHub : Bool) (s : State) : Out := .next (s.switchLane slot toHub)
/-- SPARE_LOCK_TIMEOUT (R380). -/
def execSpareLockTimeout (slot : Nat) (toHub : Bool) (s : State) : Out := .next (s.lockTimeout slot toHub)
/-- SPARE_BACKGROUND_RETRAIN (R379): the spare that stands by is trained again and stands by. -/
def execSpareBackgroundRetrain (slot : Nat) (toHub : Bool) (s : State) : Out :=
  .next (if s.built slot && (s.link slot).spareRdy && (s.link slot).spared toHub == 15 then s.updLink slot (fun l => { l with spareRdy := true }) else s)
/-- LANE_LOSS (R381). -/
def execLaneLoss (slot : Nat) (toHub : Bool) (phys : Nat) (s : State) : Out := .next (s.laneLost slot toHub phys)

end Sys2Proof.Machine
end

