-- ==== Sys2Proof/Machine/Power.lean ====
section
/-! DEFINITION. Sys2Proof/Machine/Power.lean: power states of the stations, their timers, demands and policies (R84, R432,
R437-R442). -/
namespace Sys2Proof.Machine

/-! ### Idle stations and demands (R84, R438) -/

/-- The engine ports of a station. -/
def Build.epsOf (b : Build) (n : Nat) : List Nat := (List.range (b.epCount n)).map (fun i => b.epFirst n + i)

/-- A station holds no work and no memory-port tag, and the hub holds no work for it (R438). -/
def State.stnIdle (s : State) (n : Nat) : Bool :=
  !Tab.ex s.cmds (fun k c => c.phase == .running && s.usesStn k c n) && !Tab.ex s.tags (fun _ r => r.stn == some n) &&
  !s.waiting.any (fun r => r.stn == some n) && (s.build.epsOf n).all (fun ep => match Tab.at? s.eps ep with
    | some e => !e.busy && e.ends == []
    | none => true)

/-- A queue's keep-warm level as it applies now (R84). -/
def Queue.kwNow (q : Queue) : Nat := if (q.st = .idle ∨ q.st = .active) ∧ (q.kwHold = 0 ∨ q.kwOn) then q.kwLevel else 0
/-- The keep-warm level in force for a station: the highest of its partition's queues (R84); 0 in no partition (R439). -/
def State.kwLevel (s : State) (n : Nat) : Nat :=
  match s.ownerOf n with
  | some p => (s.queues.map (fun e => if s.pidOf e.2.cid = p ∧ e.1 ≠ 0 then e.2.kwNow else 0)).foldl max 0
  | none => 0

/-- A demand on a station (R438). -/
def State.demanded (s : State) (n : Nat) : Bool := !s.stnIdle n || s.kwLevel n == 2 || (s.stnAt n).policy == 1

/-! ### Entering and leaving the states (R437, R439) -/

/-- Work that waited for a station goes on. -/
def State.stnGo (s : State) (n : Nat) : State := (s.refill (some n)).settleReads

/-- The engine ports of a station leave the reset they entered with it (R433 step 6), or withdraw their idle requests. -/
def State.epsRelease (s : State) (n : Nat) : State :=
  (s.build.epsOf n).foldl (fun s ep => match Tab.at? s.eps ep with
    | some e =>
      if e.qreq then (s.updEp ep (fun e => { e with qreq := false })).emit (.epQreq ep false)
      else if !e.rstN then (s.updEp ep (fun e => { e with rstN := true, credits := 0, granted := 0 })).emit (.epReset ep true)
      else s
    | none => s) s

/-- An entry is given up for `pwr`: 0 Active on a demand, 1 Doze when an idle request timed out (R439). -/
def State.abandon (s : State) (n pwr : Nat) (flag : Bool) : State :=
  ((s.epsRelease n).updStn n (fun x => { x with pwr := pwr, idleReq := [], abandon := x.abandon || flag })).setPs n pwr

/-- Entry begins toward 2 Sleep or 3 Off (R439): idle requests to the ports that run. -/
def State.enter (s : State) (n toward : Nat) : State :=
  let ps := (s.build.epsOf n).filter (fun ep => match Tab.at? s.eps ep with
    | some e => e.rstN && !e.out
    | none => false)
  let s := s.updStn n (fun x => { x with pwr := 4, toward := toward, idleReq := ps, demand := false })
  ps.foldl (fun s ep => (s.updEp ep (fun e => { e with qreq := true })).emit (.epQreq ep true)) s

/-- A wake starts from Sleep (2) or Off (3). -/
def State.wake (s : State) (n from_ : Nat) : State :=
  (s.updStn n (fun x => { x with pwr := 5, wakeFrom := from_, wakeTried := false, demand := false })).setPs n 0

/-- A wake from Doze or Sleep took this long (R442). -/
def State.wokenIn (s : State) (n : Nat) : State :=
  let t := min (Config.wakeTime s.fresh) 65535
  s.draw.updStn n (fun x => { x with wakeLast := t, wakeMax := max x.wakeMax t })

/-- A WAKING station that has its supplies is Active; one from Off trains its link and waits for its memory first (R412, R439). -/
def State.settleWake (s : State) (n : Nat) : State :=
  let x := s.stnAt n
  if x.pwr ≠ 5 ∨ x.state ≠ 0 ∨ x.psAck ≠ 0 then s
  else if x.wakeFrom = 3 then ((s.stnReset n).trainLink n).updStn n (fun x => { x with wakeFrom := 4 })
  else if x.wakeFrom = 4 ∧ ¬((s.link n).st = 5 ∧ x.memRdy) then s
  else
    let s := ((s.epsRelease n).updStn n (fun x => { x with pwr := 0, sumAll := true, sumRel := 0 })).pushIso
    let s := if x.wakeFrom = 2 then s.wokenIn n else s
    (s.raise (64 + n) 4).stnGo n

/-- A demand on a station (R439); a station with FORCE_OFF does not wake. -/
def State.demandStn (s : State) (n : Nat) : State :=
  let x := s.stnAt n
  if x.policy = 3 ∨ x.state ≠ 0 then s
  else match x.pwr with
    | 1 => (((s.updStn n (fun x => { x with pwr := 0 })).setPs n 0).wokenIn n).stnGo n
    | 2 => (s.wake n 2).settleWake n
    | 3 => (s.wake n 3).settleWake n
    | 4 => if x.idleReq = [] then s.updStn n (fun x => { x with demand := true }) else (s.abandon n 0 false).stnGo n
    | _ => s

/-- A station enters Doze (R439). -/
def State.doze (s : State) (n : Nat) : State := (s.updStn n (fun x => { x with pwr := 1, dozes := satAdd 16 x.dozes 1 })).setPs n 1

/-- FORCE_OFF takes effect where the station's state lets it: Active and Doze once it is idle, Sleep at once. A station at a
keep-warm level never enters ENTERING (R439, R441). -/
def State.forceOff (s : State) (n : Nat) : State :=
  let x := s.stnAt n
  if x.policy ≠ 3 ∨ x.state ≠ 0 then s
  else if x.pwr = 4 then s.updStn n (fun x => { x with toward := 3 })
  else if x.pwr ≤ 2 ∧ s.stnIdle n ∧ s.kwLevel n = 0 then s.enter n 3
  else s

/-! ### The events (R439, R440) -/

/-- IDLE_TIMER_DOZE; under FORCE_OFF an idle station goes on toward Off instead. -/
def State.dozeTimer (s : State) (n : Nat) : State :=
  let x := s.stnAt n
  if !s.built n || x.pwr != 0 || x.state != 0 || !s.up then s
  else if x.policy = 3 then s.forceOff n
  else if s.pwr.tDoze != 0 && s.stnIdle n && decide (s.kwLevel n ≤ 1) && x.policy != 1 then s.doze n else s

/-- POLICY as it acts: ALLOW_OFF acts as AUTO on a remote slot (R442). -/
def State.policyOf (s : State) (n : Nat) : Nat :=
  let p := (s.stnAt n).policy
  if s.build.remote n && p == 2 then 0 else p

/-- DOZE_TIMER_SLEEP; under FORCE_OFF the entry toward Off is tried again. -/
def State.sleepTimer (s : State) (n : Nat) : State :=
  let x := s.stnAt n
  if !s.built n || x.pwr != 1 || x.state != 0 || !s.up then s
  else if x.policy = 3 then s.forceOff n
  else if s.pwr.tSleep != 0 && s.kwLevel n == 0 && s.stnIdle n && (s.policyOf n == 0 || s.policyOf n == 2) then s.enter n 2 else s

/-- SLEEP_TIMER_OFF. -/
def State.offTimer (s : State) (n : Nat) : State :=
  let x := s.stnAt n
  if s.built n && x.pwr == 2 && x.state == 0 && s.up && s.pwr.tOff != 0 && s.policyOf n == 2 && s.kwLevel n == 0 then s.enter n 3 else s

/-- ENTRY_COMMIT: every idle request is answered. A demand that came since is met at once. -/
def State.commitEntry (s : State) (n : Nat) : State :=
  let x := s.stnAt n
  if x.pwr ≠ 4 ∨ x.idleReq ≠ [] ∨ x.state ≠ 0 then s
  else
    let s := (s.updStn n (fun x => { x with pwr := x.toward, sleeps := satAdd 16 x.sleeps 1, demand := false, iso := [] })).setPs n x.toward
    let s := if x.toward = 3 then s.updLink n (fun l => { l with st := 0 }) else s
    if x.demand then s.demandStn n else s

/-- An escalation record of STEP 0: the isolation wrapper took over from an idle request (R432); its trigger has no code (log entry
21). -/
def State.idleRecord (s : State) (stn unit ep : Nat) : State :=
  (s.draw).elog { kind := 6, step := 0, pid := (s.ownerOf stn).getD 0x3F, stn := stn, unit := unit, ep := ep,
                  detail := leNat ((List.range 4).map (Config.recByte s.fresh)) }

/-- The idle request of a port times out (R432, R439). -/
def State.epIdleLate (s : State) (ep : Nat) : State :=
  let n := s.build.epStn ep
  match Tab.at? s.eps ep with
  | some e =>
    if !e.qreq then s
    else if (s.stnAt n).pwr = 4 then s.abandon n 1 true
    else ((s.engineStepAt ep).idleRecord n 0 (ep - s.build.epFirst n)).settleAfter
  | none => s

/-- The request to a hub core times out: the core is held in reset, and what it ran is lost (R399, R431, R432). -/
def State.coreIdleLate (s : State) (core : Nat) : State :=
  if s.mgt.asked.contains (4, core) then
    let s := { s with mgt := { s.mgt with asked := s.mgt.asked.filter (· != (4, core)) } }
    (((s.dropClaims core).coreLost core).idleRecord 0x3F (0x10 + core) 0xFF).settleAfter
  else s

/-- The request to a wrapper scan times out (R432, R492). -/
def State.scanIdleLate (s : State) : State :=
  if s.mgt.asked.contains (5, 0) then
    ({ s with mgt := { s.mgt with asked := s.mgt.asked.filter (· != (5, 0)) } }).idleRecord 0x3F 0 0xFF
  else s

/-- IDLE_REQUEST_TIMEOUT. A station, its memory port and its link end have no request of their own but in an entry (R431, R439). -/
def State.idleLate (s : State) (b : IdleBlock) (id : Nat) : State :=
  let entry := fun (s : State) => if (s.stnAt id).pwr = 4 ∧ (s.stnAt id).idleReq ≠ [] then s.abandon id 1 true else s
  match b with
  | .enginePort => s.epIdleLate id
  | .station => entry s
  | .memoryPort => entry s
  | .courierEnd => entry s
  | .hubCore => s.coreIdleLate id
  | .tapScan => s.scanIdleLate

/-- PS_ACK. -/
def State.ackPs (s : State) (n ack : Nat) : State :=
  if s.built n then (s.updStn n (fun x => { x with psAck := ack % 4 })).settleWake n else s

/-- WAKE_ACK_TIMEOUT: the wake is tried once again, then the station is fenced. -/
def State.wakeLate (s : State) (n : Nat) : State :=
  let x := s.stnAt n
  if x.pwr ≠ 5 ∨ x.state ≠ 0 ∨ x.psAck = 0 then s
  else if x.wakeTried then s.fenceStn n 2 false []
  else (s.updStn n (fun x => { x with wakeTried := true })).emit (.psReq n 0)

/-- RETURN_MEM_RDY_TIMEOUT (R412): a return fails; of a wake from Off, which runs the steps of a return, the station is fenced. -/
def State.memRdyLate (s : State) (n : Nat) : State :=
  let x := s.stnAt n
  if x.memRdy ∨ ¬s.built n then s
  else if x.state = 2 then s.returnFail n 3
  else if x.state = 0 ∧ x.pwr = 5 ∧ x.wakeFrom = 4 then
    (s.updStn n (fun x => { x with attempts := s.attempts n ++ [s.mgt.uptime] })).fenceStn n 4 false []
  else s

/-- A write of PWR_STN (R441, R442). -/
def State.pwrStnWrite (s : State) (n v : Nat) : State :=
  if !s.built n then s
  else
    let p := bits v 8 2
    let s := if bit v 3 then s.updStn n (fun x => { x with abandon := false }) else s
    if s.build.remote n && p == 3 then s
    else
      let s := s.updStn n (fun x => { x with policy := p })
      if p = 1 then s.demandStn n else s.forceOff n

/-! ### Doorbells as demands (R441) -/

/-- The submission tail value of a doorbell write, where it has one (R64). -/
def tailPart (off width v : Nat) : Option Nat :=
  if width = 8 then (if off % 8 = 0 then some (v % 2 ^ 32) else none)
  else if width = 4 ∧ off % 8 = 0 then some v else none

/-- The tail doorbell is accepted (R67). -/
def Queue.tailOk (q : Queue) (v : Nat) : Bool :=
  (q.st == .idle || q.st == .active) && (match posDec q.n v with
    | some p => decide (posSub q.n p q.h ≤ q.n) && decide (posSub q.n q.t q.h ≤ posSub q.n p q.h)
    | none => false)

/-- An accepted tail doorbell of a queue with KW_LEVEL 1 or 2 wakes its partition's stations. -/
def State.warm (s : State) (q : Queue) : State :=
  if q.kwLevel = 0 then s
  else (s.stnsOf (s.pidOf q.cid)).foldl (fun s n => if (s.stnAt n).pwr = 3 ∧ q.kwLevel = 1 then s else s.demandStn n) s

/-- A submission doorbell with its effect on the stations' power. -/
def State.sqTail (s : State) (fn off width v : Nat) : State :=
  let s' := s.doorbell fn off width v
  let r := off - 0x01000000
  if !((Tab.at? s.fns fn).map (·.en)).getD false then s'
  else match s.queueAt fn (r / 0x1000) (r % 0x1000 / 8), tailPart off width v with
    | some (_, q), some t => if q.tailOk t then s'.warm q else s'
    | _, _ => s'

/-! ### The commands -/

/-- CQ_HEAD_DOORBELL (R67, R84): a write of 64 bits carries a submission tail too. -/
def execCqHeadDoorbell (fn off width : Nat) (v : BitVec 64) (s : State) : Out := .next (s.mmioOf fn (fun s => s.sqTail fn off width v.toNat))
/-- SQ_TAIL_DOORBELL (R67, R441). -/
def execSqTailDoorbell (fn off width : Nat) (v : BitVec 64) (s : State) : Out := .next (s.mmioOf fn (fun s => s.sqTail fn off width v.toNat))
/-- IDLE_TIMER_DOZE (R439). -/
def execIdleTimerDoze (stn : Nat) (s : State) : Out := .next (s.dozeTimer stn)
/-- DOZE_TIMER_SLEEP (R439). -/
def execDozeTimerSleep (stn : Nat) (s : State) : Out := .next (s.sleepTimer stn)
/-- SLEEP_TIMER_OFF (R439). -/
def execSleepTimerOff (stn : Nat) (s : State) : Out := .next (s.offTimer stn)
/-- ENTRY_COMMIT (R439). -/
def execEntryCommit (stn : Nat) (s : State) : Out := .next (s.commitEntry stn)
/-- IDLE_REQUEST_TIMEOUT (R432). -/
def execIdleRequestTimeout (blk : IdleBlock) (id : Nat) (s : State) : Out := .next (s.idleLate blk id)
/-- STATION_DEMAND (R439): what R438 calls a demand. -/
def execStationDemand (stn : Nat) (s : State) : Out := .next (if s.built stn && s.demanded stn then s.demandStn stn else s)
/-- PS_ACK (R440). -/
def execPsAck (stn ack : Nat) (s : State) : Out := .next (s.ackPs stn ack)
/-- WAKE_ACK_TIMEOUT (R440). -/
def execWakeAckTimeout (stn : Nat) (s : State) : Out := .next (s.wakeLate stn)
/-- POLICY_WRITE (R441): a write of PWR_STN for the slot that PWR_SEL selects. -/
def execPolicyWrite (v : BitVec 32) (s : State) : Out := .next (s.mmio (fun s => s.pwrStnWrite s.pwr.sel v.toNat))
/-- RETURN_MEM_RDY_TIMEOUT (R412). -/
def execReturnMemRdyTimeout (stn : Nat) (s : State) : Out := .next (s.memRdyLate stn)

end Sys2Proof.Machine
end

