-- ==== Sys2Proof/Machine/Reset.lean ====
section
/-! DEFINITION. Sys2Proof/Machine/Reset.lean: hub resets and the release of the block, the chip and power-cycle steps, the TAP, and
changes of function state (R353, R406-R408, R421-R436, R478, R492). -/
namespace Sys2Proof.Machine

/-! ### What a hub reset keeps (R421, R434) -/

/-- Everything outside the always-on domain takes its reset value: classes O, L and A stay, and so does what the pins say. The
memories behind the ports are not part of the block. The bus-off count goes, and of a rail all but its offset (log entry 104). -/
def State.hubReset (s : State) : State :=
  { State.reset with
    pending := s.pending, build := s.build, host := s.host, stnMem := s.stnMem, out := s.out, fresh := s.fresh
    fns := Tab.mapV s.fns (fun _ f => { en := f.en, bme := f.bme })
    xlt := { epoch := s.xlt.epoch }
    eps := (List.range s.build.nep).map (fun i => (i, { }))
    stns := Tab.mapV s.stns (fun _ x => { memRdy := x.memRdy, psAck := x.psAck })
    rst := s.rst
    rcv := { s.rcv with parRep := 0, parPer := 0, rsAddr := 0, hsel := 0, colls := [], running := s.rcv.running.filter (fun r => r.1 == 4) }
    want := s.want.filter (fun w => w.1 == 5)
    opts := s.opts, shadow := s.shadow, nvm := s.nvm, spi := s.spi, logAt := s.logAt, logSeq := s.logSeq, fuses := s.fuses
    fw := { rejected := s.fw.rejected }
    rails := Tab.mapV s.rails (fun _ r => { off := r.off })
    age := { cut := s.age.cut || s.age.running, doms := Tab.mapV s.age.doms (fun _ d => { off := d.off, fstep := d.fstep, last := d.last, ended := d.ended, hist := d.hist }) }
    life := s.life, incr := s.incr
    mgt := { uptime := s.mgt.uptime, wall := s.mgt.wall, wallValid := s.mgt.wallValid, toReplan := s.mgt.toReplan, toCommit := s.mgt.toCommit,
             wrong := s.mgt.wrong, lockout := s.mgt.lockout, tap := s.mgt.tap }
    tray := s.tray, ltpTakes := s.ltpTakes }

/-- Loss of power keeps classes O and L alone (R434). -/
def State.powerLoss (s : State) : State :=
  let t := s.hubReset
  { t with
    fns := [(0, { en := true })], xlt := {}, rst := { clkOut := s.rst.clkOut }, rcv := {}, want := [], incr := []
    rails := [], age := { doms := Tab.mapV s.age.doms (fun _ d => { ended := d.ended, hist := d.hist }) }, mgt := {}, tray := false }

/-! ### The release (R406 steps 4 to 8, R428) -/

/-- The loaded options take effect: the fields whose reset value is NVM (R427). -/
def State.optApply (s : State) : State :=
  let s := s.optLoad
  { s with
    evc := { s.evc with groupBits := s.opts.val 0 }
    pwr := { s.pwr with tDoze := s.opts.val 4, tSleep := s.opts.val 5, tOff := s.opts.val 6 }
    age := { s.age with auto := s.opts.val 16 == 1 }
    mgt := { s.mgt with baud := [115200, 230400, 460800, 921600, 1000000, 2000000, 3000000].getD (s.opts.val 2) 115200 } }

/-- Step 6 for one slot: its station, its engine ports and its link are released. -/
def State.enumStn (s : State) (n : Nat) : State :=
  let s := (s.build.epsOf n).foldl (fun s ep => (s.updEp ep (fun e => { e with rstN := true, credits := 0, granted := 0 })).emit (.epReset ep true)) s
  let f := (s.dom n).fstep
  ((s.updStn n (fun x => { x with fsel := f })).emits [.fsel n f, .psReq n 0]).trainLink n

/-- Step 9: READY. -/
def State.toReady (s : State) : State :=
  let told := s.fw.rejected
  let s := { s with
    evc := { groupBits := s.evc.groupBits, fwEn := s.evc.fwEn }
    rst := { s.rst with rel := .ready, ladder := false, readyAt := s.mgt.uptime }
    rcv := { s.rcv with state := 0, running := s.rcv.running.filter (fun r => r.1 != 4) }
    fw := { s.fw with rejected := [] } }
  (told.foldl (fun (s : State) v => s.raise 780 v) s).settleCopies

/-- A slot's enumeration is over: it is in service, fenced or absent. -/
def State.slotKnown (s : State) (n : Nat) : Bool := (s.stnAt n).enum != 0 || ((s.link n).st == 5 && (s.stnAt n).memRdy)

/-- The release goes past the steps that have ended (R428 steps 7 to 9, R429). -/
def State.settleRelease (s : State) : State :=
  let slots := List.range s.build.nstn
  let s := if s.rst.rel = .links ∧ slots.all (fun n => (s.link n).st == 5 || (s.stnAt n).enum != 0) then { s with rst := { s.rst with rel := .memory } } else s
  if s.rst.rel = .memory ∧ slots.all s.slotKnown then
    (slots.foldl (fun s n => if (s.stnAt n).enum = 0 then s.updStn n (fun x => { x with enum := 1 }) else s) s).toReady
  else s

/-! ### Supply rails (R459) -/

/-- A rail entry of the options. -/
def State.railOpt (s : State) (r : Nat) : List Byte := s.opts.rails.getD r (zeros 5)
def State.railOn (s : State) (r : Nat) : Bool := decide (r < 32) && bit (rd (s.railOpt r) 0 1) 0
def State.railBase (s : State) (r : Nat) : Nat := rd (s.railOpt r) 3 2
/-- The domains a rail feeds. -/
def State.railDoms (s : State) (r : Nat) : List Nat :=
  let b := s.railOpt r
  if bit (rd b 0 1) 1 then [48]
  else (List.range s.build.nstn).filter (fun n => decide (lf b 1 1 0 6 ≤ n ∧ n ≤ lf b 2 1 0 6) && !s.build.remote n)
/-- The offset planned for a rail: the largest of its domains (R459 rule 3). -/
def State.railPlan (s : State) (r : Nat) : Nat := ((s.railDoms r).map (fun d => (s.dom d).off)).foldl max 0
def State.rail (s : State) (r : Nat) : Rail := Tab.atD s.rails r {}

/-- The postmaster sets each enabled rail to V_BASE plus its offset, 5 mV at a time; the integrator brought it up at V_BASE + 50 mV
(R459 rules 1, 2, 4). -/
def State.bootRails (s : State) : State :=
  ((List.range 32).filter s.railOn).foldl (fun s r =>
    let x : Rail := Tab.atD s.rails r { off := 50 }
    let t := min x.off (s.railPlan r)
    let k := (x.off - t + 4) / 5
    { (s.emits ((List.range k).map (fun i => Output.avs r (s.railBase r + max t (x.off - 5 * (i + 1)))))) with
      rails := Tab.put s.rails r { x with off := t } }) s

/-! ### The steps (R428) -/

/-- Steps 4 to 6: the boot ROM, the firmware slot, the stations (R430). -/
def State.bootStep (s : State) : State :=
  let r := s.boot
  if r.2 then
    let s : State := { r.1 with evc := { r.1.evc with fwEn := true }, rst := { r.1.rst with rel := .links } }
    ((List.range s.build.nstn).foldl (fun s n => s.enumStn n) s.bootRails).settleRelease
  else { r.1 with rst := { r.1.rst with rel := .failed }, rcv := { r.1.rcv with state := 3 } }

/-- Step 3: the hub clocks are checked (R428). -/
def State.clockStep (s : State) : State :=
  let s := { s with rst := { s.rst with clk := s.rst.clkOut % 8 + 8 * (s.rst.clk / 8) } }
  if s.rst.clkOut = 0 then s.bootStep else { s with rst := { s.rst with rel := .clocks } }

/-- The release from step 2. -/
def State.release (s : State) : State := ({ s with rcv := { s.rcv with state := 2 } }).optApply.clockStep

/-! ### The hub resets (R421-R425) -/

/-- FLRs that have begun are answered at once (R425). -/
def State.flrdAll (s : State) : State :=
  { (s.emits ((s.fns.filter (fun e => e.2.flr)).map (fun e => .flrd e.1))) with fns := Tab.mapV s.fns (fun _ f => { f with flr := false }) }

/-- Engine ports are held in reset with everything else. -/
def State.holdEps (s : State) : State := s.emits (s.eps.map (fun e => .epReset e.1 false))

/-- R406 step 3 and the steps after it: the causes that are due are set. -/
def State.warmStep3 (s : State) : State :=
  let s := { s.holdEps.hubReset with rst := { s.rst with cause := s.rst.cause ||| s.rst.due, due := 0 } }
  (s.count 0x2101 3).release

/-- R406 step 1: fetching stops, and everything outstanding ends. -/
def State.stopAll (s : State) : State :=
  { s.flrdAll with
    tags := [], waiting := [], xlt := { s.xlt with walkers := [], misses := [], sweep := none }
    cmds := Tab.mapV s.cmds (fun _ c => if c.phase = .done then c else { c with phase := .done, status := stAborted, work := .idle })
    rst := { s.rst with rel := .collect }
    rcv := { s.rcv with state := 1, elapsed := 0, colls := [] } }

/-- A warm reset is triggered (R423, R425): its RST_CAUSE bit, whether it calls for a dump, whether it is a chip step. -/
def State.warmReset (s : State) (cause : Nat) (dump chip : Bool) : State :=
  let t := { s with rst := { s.rst with due := s.rst.due ||| 2 ^ cause, ladder := s.rst.ladder || chip } }
  match s.rst.rel with
  | .hold => t
  | .collect => t
  | .clocks => t.warmStep3
  | .links => t.warmStep3
  | .memory => t.warmStep3
  | _ =>
    let t := { t with rst := { t.rst with due := 2 ^ cause, ladder := chip } }.stopAll
    if dump || s.opts.val 3 == 1 then
      let t := t.dump 4 t.allUnits none t.rcv.serial
      if t.rcv.colls = [] then t.warmStep3 else t
    else t.warmStep3

/-- A power-on reset (R422, R428): the SPI NOR gives its JEDEC ID or does not (R387, R427). -/
def State.powerOn (s : State) : State := (({ s.flrdAll.holdEps.powerLoss with spi := s.build.norAnswers }).count 0x2101 1).release

/-- A brown-out hold begins (R422, R425). -/
def State.brownout (s : State) : State :=
  if s.rst.rel = .hold then s
  else
    let s := s.flrdAll.holdEps.hubReset
    ({ s with
      rst := { s.rst with rel := .hold, cause := s.rst.cause ||| 0x100, holdCnt := satAdd 32 s.rst.holdCnt 1, due := 0, ladder := false }
      rcv := { s.rcv with state := 2, running := [] } }).count 0x2101 2

/-- A brown-out hold ends (R421): warm-reset triggers that came in it set their bits. -/
def State.brownoutEnd (s : State) : State :=
  if s.rst.rel = .hold then ({ s with rst := { s.rst with cause := s.rst.cause ||| s.rst.due, due := 0 } }).release else s

/-! ### The chip and power-cycle steps (R402, R406, R408) -/

/-- Chip steps begun within the last ten minutes (R402). -/
def State.chipSteps (s : State) : Nat := (s.rcv.hist.filter (fun (h : Nat × Nat × Nat) => h.1 == 4 && decide (s.mgt.uptime < h.2.2 + 600))).length

/-- A chip step is triggered: the third within ten minutes is a power cycle (R402). -/
def State.chip (s : State) (cause : Nat) : State :=
  let s := { s with want := s.want.filter (fun w => w.1 != 4) }
  if s.rcv.running.contains (4, 0) then s.warmReset cause true true
  else if 2 ≤ s.chipSteps then s.ask 5 0
  else
    let s := (s.beginStep 4 0 0x3F { kind := 6 }).count 0x2101 4
    let s := { s with rcv := { s.rcv with running := [(4, 0)] } }
    s.warmReset cause true true

/-- CHIP_STEP: one that is due, for the cause it is due for, or the driver's (R406, R420). -/
def State.chipStep (s : State) : State :=
  if s.want.contains (4, 16) then s.chip 4
  else if s.want.contains (4, 32) then s.chip 10
  else if s.want.any (fun w => w.1 == 4) then s.chip 5
  else if s.up then s.chip 5 else s

/-- Both cores of fault handling hang: the reset controller takes the step (R399). -/
def State.coresHung (s : State) : State :=
  if s.up then
    let hang := fun (t : Tab Core) (c : Nat) => Tab.put t c { Tab.atD t c {} with hung := true }
    { s with cores := hang (hang s.cores 2) 3 }.chip 4
  else s

/-- The valid dump with the highest SERIAL (R415). -/
def State.newestDump (s : State) : Option Nat :=
  let ok := fun (k : Nat) => s.dumpFlags k % 2 == 1
  let n := fun (k : Nat) => rd (s.rsRead (dumpAt k) 64) 8 8
  if ok 0 && (!ok 1 || decide (n 1 ≤ n 0)) then some 0 else if ok 1 then some 1 else none

/-- POWER_CYCLE_STEP (R408): one that is due. -/
def State.powerCycle (s : State) : State :=
  if !s.want.contains (5, 0) then s
  else
    let s := (s.unask 5 0).beginStep 5 0 0x3F { kind := 6 }
    let s := (List.range (min 16 s.rcv.elogCnt)).foldr (fun k s => s.logAppend 2 (s.elogAt k)) s
    let s := match s.newestDump with
      | some k => s.logAppend 3 (s.rsRead (dumpAt k) 64)
      | none => s
    let s := (s.count 0x2101 5).lifeCommit
    { (s.emit .tray) with tray := true }

/-! ### Events of a release (R406, R417, R428, R429, R436) -/

/-- A debug read times out (R417): collection goes on, and a warm reset that waited for it with it. -/
def State.debugLate (s : State) : State :=
  let s := s.debugTimeout
  if s.rst.rel = .collect ∧ s.rcv.colls = [] then s.warmStep3 else s

/-- The hub clocks are counted again (R428). -/
def State.clockRetry (s : State) (hub seq ltp : Bool) : State :=
  if s.rst.rel = .clocks then ({ s with rst := { s.rst with clkOut := b2n (!hub) + 2 * b2n (!seq) + 4 * b2n (!ltp) } }).clockStep else s

/-- A hub clock stops in service (R436): which one is not said, and the check fails until it is made again (log entry 24). -/
def State.clockStopped (s : State) : State :=
  if s.up || s.rst.rel == .links || s.rst.rel == .memory then
    let out := Config.clkStopped s.fresh % 8
    let s := s.draw
    ({ s with rst := { s.rst with clk := s.rst.clk ||| 8, clkOut := 8 + out } }).chip 4
  else s

/-- MP_MEM_RDY rises (R369): what waited for it goes on. -/
def State.memRise (s : State) (n : Nat) : State :=
  if s.built n then (((((s.updStn n (fun x => { x with memRdy := true })).settleReturn n).settleWake n).settleRelease).stnGo n) else s

/-- The release's limit for a slot (R406 step 7, R429): without a partner it is ABSENT, otherwise FAILED and fenced. -/
def State.memoryLate (s : State) (n : Nat) : State :=
  if (s.rst.rel = .links ∨ s.rst.rel = .memory) ∧ s.built n ∧ ¬s.slotKnown n then
    (if (s.link n).st = 1 then s.updStn n (fun x => { x with enum := 2, state := 3 }) else s.enumFail n).settleRelease
  else s

/-- What a link's training lets go on. -/
def State.linkSettle (s : State) (n : Nat) : State := (s.settleWake n).settleRelease

/-! ### The TAP (R478, R492) -/

/-- The lifecycle state permits an instruction. -/
def State.tapOk (s : State) (i : TapInstr) : Bool :=
  if s.lc = 1 then (match i with
    | .wrapper1500 => s.mgt.unlocked
    | .sramTest => false
    | .other => false
    | _ => true)
  else true

/-- A JTAG reset of the block (R422). -/
def State.jtagReset (s : State) : State := s.warmReset 9 false false

/-- What TDO shifts out of the data register of an instruction before the bits that go in: BYPASS has one bit, IDCODE the 32 of the
identity code; what the others hold is not given (R389; log entry 25). -/
def State.tapReg (s : State) (i : TapInstr) (n : Nat) : List Bool :=
  match i with
  | .bypass => [false]
  | .idcode => (List.range 32).map (bit s.build.idcode)
  | _ => (List.range n).map (fun k => bit (Config.recByte s.fresh k).toNat 0)

/-- A data scan after an instruction was loaded: `tdi` goes in, and as many bits come out (R389). -/
def State.tapScan (s : State) (i : TapInstr) (tdi : List Bool) : State :=
  if tdi = [] then s else s.draw.emit (.tdo ((s.tapReg i tdi.length ++ tdi).take tdi.length))

/-- An instruction is loaded (R478): IEEE 1500 test mode is entered by an idle request (R431). -/
def State.tapLoad (s : State) (i : TapInstr) (tdi : List Bool) : State :=
  let i := if s.tapOk i then i else .bypass
  let s := s.tapScan i tdi
  let s := { s with mgt := { s.mgt with tap := i, test := i == .wrapper1500 } }
  match i with
  | .wrapper1500 => ({ s with mgt := { s.mgt with asked := s.mgt.asked.filter (· != (5, 0)) ++ [(5, 0)] } }).emit (.idleReq 5 0)
  | .chipReset => s.jtagReset
  | _ => s

/-! ### Function state (R353) -/

/-- A change of a function's enable or Bus Master Enable: interrupt requests that were held are presented (R353). -/
def State.fnUpdate (s : State) (fn : Nat) (en bme : Bool) : State :=
  if 256 < fn then s
  else
    let s := { s with fns := Tab.put s.fns fn { Tab.atD s.fns fn {} with en := en, bme := bme } }
    if s.fnOk fn then
      let held := (Tab.atD s.fns fn {}).held
      ((({ s with fns := Tab.upd s.fns fn (fun f => { f with held := [] }) }).emits (held.map (fun v => .irq fn v)))).settleCopies
    else s

/-! ### The commands -/

/-- MQI_ENABLE (R63): the driver writes 1 to MQI_CTL.EN. -/
def execMqiEnable (s : State) : Out := .next (s.mmio (fun s => s.mqiEnable))
/-- FUNCTION_STATE_UPDATE (R353). -/
def execFunctionStateUpdate (fn : Nat) (en bme : Bool) (s : State) : Out := .next (s.fnUpdate fn en bme)
/-- HOST_HOT_RESET (R422). -/
def execHostHotReset (s : State) : Out := .next (s.warmReset 2 false false)
/-- MEM_RDY_RISE (R369). -/
def execMemRdyRise (stn : Nat) (s : State) : Out := .next (s.memRise stn)
/-- LINK_TRAIN_TIMEOUT (R378). -/
def execLinkTrainTimeout (slot : Nat) (s : State) : Out := .next (if s.built slot then (s.trainTimeout slot).linkSettle slot else s)
/-- LINK_TRAIN_DONE (R378). -/
def execLinkTrainDone (slot : Nat) (lanes : TrainedLanes) (slow : Bool) (s : State) : Out :=
  .next (if s.built slot then (s.trainDone slot lanes.tx lanes.rx slow).linkSettle slot else s)
/-- DEBUG_READ_TIMEOUT (R417). -/
def execDebugReadTimeout (s : State) : Out := .next s.debugLate
/-- FAULT_CORES_HUNG (R399). -/
def execFaultCoresHung (s : State) : Out := .next s.coresHung
/-- CHIP_STEP (R406). -/
def execChipStep (s : State) : Out := .next s.chipStep
/-- POWER_CYCLE_STEP (R408). -/
def execPowerCycleStep (s : State) : Out := .next s.powerCycle
/-- POWER_ON (R428): `jedec` is the JEDEC ID that the SPI NOR answers the option loader with; all zeros or all ones is no device (R427). -/
def execPowerOn (s : State) : Out := .next s.powerOn
/-- BROWNOUT (R422). -/
def execBrownout (s : State) : Out := .next s.brownout
/-- BROWNOUT_RELEASE (R421). -/
def execBrownoutRelease (s : State) : Out := .next s.brownoutEnd
/-- PIN_WARM_RESET (R422). -/
def execPinWarmReset (s : State) : Out := .next (s.warmReset 1 false false)
/-- TRAY_RESET (R384, R422). -/
def execTrayReset (s : State) : Out := .next (s.warmReset 6 false false)
/-- RST_CTL with its key (R442). -/
def State.rstCtl (s : State) (v : Nat) : State := if bits v 8 8 = 0xA5 ∧ bit v 0 then s.warmReset 7 (bit v 1) false else s
/-- SOFTWARE_RESET (R442): a write of RST_CTL. -/
def execSoftwareReset (v : BitVec 32) (s : State) : Out := .next (s.mmio (fun s => s.rstCtl v.toNat))
/-- JTAG_CHIP_RESET (R422). -/
def execJtagChipReset (s : State) : Out := .next s.jtagReset
/-- TAP_RESET (R422): the TAP controller alone; IDCODE is then its instruction (log entry 25). -/
def execTapReset (s : State) : Out := .next { s with mgt := { s.mgt with tap := .idcode, test := false } }
/-- CLOCK_CHECK_RETRY (R428). -/
def execClockCheckRetry (hubOk seqOk ltpOk : Bool) (s : State) : Out := .next (s.clockRetry hubOk seqOk ltpOk)
/-- MEMORY_READY_TIMEOUT (R406). -/
def execMemoryReadyTimeout (stn : Nat) (s : State) : Out := .next (s.memoryLate stn)
/-- HUB_CLOCK_STOPPED (R436). -/
def execHubClockStopped (s : State) : Out := .next s.clockStopped
/-- TAP_INSTRUCTION_LOAD (R492). -/
def execTapInstructionLoad (load : TapLoad) (s : State) : Out := .next (s.tapLoad load.ins load.tdi)

end Sys2Proof.Machine
end

