-- ==== Sys2Proof/Machine/Age.lean ====
section
/-! DEFINITION. Sys2Proof/Machine/Age.lean: ageing re-plans, frequency steps, supply rails and the calendar (R459, R461, R464-R473,
R484). -/
namespace Sys2Proof.Machine

/-! ### Predictions (R470) -/

/-- Slack in fs that `f` frequency steps gain: by how much the period of 2.4 - 0.1f GHz is longer (R468, R470). -/
def stepGain (f : Nat) : Int := [0, 18116, 37879, 59524, 83333].getD f 83333

/-- 32 more binary digits of a logarithm, of a mantissa scaled by 2^64. -/
def lgBits : Nat → Nat → Nat → Nat
  | 0, _, acc => acc
  | fuel + 1, m, acc =>
    let m := m * m / 2 ^ 64
    if 2 ^ 65 ≤ m then lgBits fuel (m / 2) (2 * acc + 1) else lgBits fuel m (2 * acc)
/-- The binary logarithm of a positive number, in units of 2^-32, rounded down (log entry 27). -/
def lg (x : Nat) : Nat := x.log2 * 2 ^ 32 + lgBits 32 (x * 2 ^ 64 / 2 ^ x.log2) 0
/-- The largest number below 2^48 whose logarithm is at most `y`; 0 for none. -/
def antilg (y : Int) : Nat :=
  (List.range 48).foldr (fun k t => if Int.ofNat (lg (t + 2 ^ k)) ≤ y then t + 2 ^ k else t) 0

/-- The usable points of a history: operating seconds and slack lost, of re-plans that show a loss. -/
def lossPoints (first : Int) (hist : List (Nat × Int)) : List (Nat × Nat) :=
  (hist.map (fun (h : Nat × Int) => (h.1, first - h.2))).filterMap (fun (p : Nat × Int) => if 0 < p.1 ∧ 0 < p.2 then some (p.1, p.2.toNat) else none)

/-- Days until a loss of `lim` fs is reached, from the least-squares fit or from the latest re-plan alone; 0xFFFF beyond 65,534. -/
def daysTo (hist : List (Nat × Int)) (lim : Int) : Nat :=
  match hist.head?, hist.getLast? with
  | some a, some z =>
    let loss := a.2 - z.2
    if loss ≤ 0 ∨ z.1 = 0 then 0xFFFF
    else
      let ps := (lossPoints a.2 hist).map (fun (p : Nat × Nat) => (Int.ofNat (lg p.1), Int.ofNat (lg p.2)))
      let n := Int.ofNat ps.length
      let sx := (ps.map (·.1)).foldl (· + ·) 0
      let sy := (ps.map (·.2)).foldl (· + ·) 0
      let p := n * (ps.map (fun x => x.1 * x.2)).foldl (· + ·) 0 - sx * sy
      let q := n * (ps.map (fun x => x.1 * x.1)).foldl (· + ·) 0 - sx * sx
      let t := if lim ≤ 0 then 0
        else if 30 * 86400 ≤ z.1 - a.1 ∧ 2 ≤ n ∧ q ≠ 0 then
          (if p ≤ 0 then 2 ^ 48 else antilg ((q * (n * Int.ofNat (lg lim.toNat) - sy) + p * sx) / (n * p)))
        else z.1 * lim.toNat ^ 4 / loss.toNat ^ 4
      let d := (t - z.1) / 86400
      if 65534 < d then 0xFFFF else d
  | _, _ => 0xFFFF

/-! ### The plan of a domain (R467) -/

/-- Rounds up to a multiple of 5 mV. -/
def ceil5 (num den : Int) : Int := 5 * (-((-num) / (5 * den)))

/-- SRAM rails that feed a domain: their V_BASE. -/
def State.sramBases (s : State) (d : Nat) : List Nat :=
  (s.opts.rails.filter (fun r => bit (rd r 0 1) 0 && bit (rd r 0 1) 2 &&
    (if bit (rd r 0 1) 1 then d == 48 else decide (lf r 1 1 0 6 ≤ d ∧ d ≤ lf r 2 1 0 6) && !s.build.remote d))).map (fun r => rd r 3 2)

/-- The offset that a reading needs. -/
def State.needOf (s : State) (m : Measure) (o : Nat) (slack : Int) : Int :=
  let guard := Int.ofNat (s.opts.val 10)
  let a := if slack < guard then
      (if m.kvFs = 0 then Int.ofNat (Config.needAtZero s.fresh) else Int.ofNat o + ceil5 ((guard - slack) * 1000) (Int.ofNat m.kvFs))
    else Int.ofNat o
  (s.sramBases m.dom).foldl (fun (n : Int) b => max n (ceil5 (Int.ofNat m.vmin + Int.ofNat (s.opts.val 11) - Int.ofNat b) 1)) a

/-- The loop of R467 over the readings: need, step, and whether the margin has ended. -/
def State.planGo (s : State) (m : Measure) (o f : Nat) : List SlackReading → Int × Nat × Bool
  | [] => (Int.ofNat (s.opts.val 12), f, false)
  | r :: rs =>
    let need := s.needOf m o r.ps
    if need ≤ Int.ofNat (s.opts.val 12) then (need, f, false)
    else if r.arith ∧ f < s.opts.val 13 ∧ m.dom ≠ 48 then s.planGo m o (f + 1) rs
    else (Int.ofNat (s.opts.val 12), f, true)

/-- The state that a domain reports (R471). -/
def domState (ended warn : Bool) (f : Nat) : Nat := if ended then 3 else if warn then 1 else if f ≠ 0 then 2 else 0

/-- A domain is measured and planned (R467, R470). -/
def State.planDom (s : State) (m : Measure) : State :=
  match m.slacks with
  | [] => s
  | r :: _ =>
    let d := s.dom m.dom
    let (need, f, ended) := s.planGo m d.off d.fstep m.slacks
    let o := max d.off (min need.toNat (s.opts.val 12))
    let last := (m.slacks[f - d.fstep]?).getD r
    let kv := Int.ofNat m.kvFs
    let hist := d.hist ++ [(s.opSecs, r.ps * 1000 - Int.ofNat d.off * kv - stepGain d.fstep)]
    let base := (hist.head?.map (·.2)).getD 0 + Int.ofNat (s.opts.val 12) * kv - Int.ofNat (s.opts.val 10) * 1000
    let toStep := daysTo hist (base + stepGain f)
    let toEnd := daysTo hist (base + (if m.dom = 48 then 0 else stepGain (s.opts.val 13)))
    let warn := decide (toEnd < s.opts.val 14)
    let s := { s with age := { s.age with doms := Tab.put s.age.doms m.dom { d with
      shift := m.shiftPpm, slack := last.ps, vmin := m.vmin, off := o, plan := f, toStep := toStep, toEnd := toEnd,
      state := domState ended warn f, last := s.opSecs, hist := hist, ended := d.ended || ended } } }
    let s := s.countBy 0x2108 3 (o - s.lifeTotal (8 * 8 + 3))
    let s := if warn ∧ s.opts.val 14 ≤ d.toEnd then s.raise 769 m.dom else s
    let s := if ended ∧ !d.ended then s.raise 771 m.dom else s
    if d.off < o then s.marginSave else s

/-! ### Rails (R459, R465) -/

/-- k_v is measured: the rail of each measured domain is raised by 10 mV and returned (R465), 5 mV at a time. -/
def State.probeRails (s : State) (ms : List Measure) : State :=
  let rs := (List.range 32).filter (fun r => s.railOn r && (s.rail r).status == 0 && (s.railDoms r).any (fun d => ms.any (fun m => m.dom == d)))
  s.emits (rs.flatMap (fun r => [5, 10, 5, 0].map (fun k => Output.avs r (s.railBase r + (s.rail r).off + k))))

/-- A Voltage write and the Status read after it (R459 rules 4 and 5). -/
def State.avsWrite (s : State) (r : Nat) (ans : RailAnswer) (volts : Nat) : State :=
  let x := s.rail r
  let t := s.railPlan r
  if !s.railOn r || x.status != 0 || decide (t ≤ x.off) then s
  else
    let o := min t (x.off + 5)
    let s := s.emit (.avs r (s.railBase r + o))
    match ans with
    | .ok => { s with rails := Tab.put s.rails r { x with off := o, volt := volts } }
    | .statusFault => { s with rails := Tab.put s.rails r { x with off := o, volt := volts, status := 2 } }.raise 772 r
    | .silent => { s with rails := Tab.put s.rails r { x with status := 1 } }.raise 772 r

/-! ### Re-plans (R466, R467, R473) -/

/-- The least DAYS_TO_END of the domains measured, and its domain. -/
def State.least (s : State) : Nat × Nat :=
  (s.age.doms.filter (fun d => d.2.state != 4)).foldl (fun (b : Nat × Nat) d => if d.2.toEnd < b.1 then (d.2.toEnd, d.1) else b) (0xFFFF, 48)

/-- A re-plan ends once its frequency steps are taken. -/
def State.settleReplan (s : State) : State :=
  if s.age.running ∧ s.age.doms.all (fun d => decide (d.2.plan ≤ d.2.fstep)) then
    let l := s.least
    ({ s with age := { s.age with running := false, leastEnd := l.1, leastDom := l.2 } }).raise 768 l.1
  else s

/-- A re-plan is requested; one that runs absorbs it. -/
def State.replanAsk (s : State) : State := { s with age := { s.age with running := true } }

/-- The firmware runs: the postmaster acts. -/
def State.fwUp (s : State) : Bool := s.rst.rel == .ready || s.rst.rel == .links || s.rst.rel == .memory

/-- Stations that are not Active are skipped. -/
def State.skipDoms (s : State) : State :=
  let ns := (List.range s.build.nstn).filter (fun n => !s.stnUp n)
  let ds : Tab Dom := ns.foldl (fun t n => Tab.put t n { Tab.atD t n {} with state := 4 }) s.age.doms
  { s with age := { s.age with doms := ds } }

/-- A re-plan measures and plans (R465-R467). -/
def State.replan (s : State) (ms : List Measure) : State :=
  if !s.fwUp then s
  else
    let ms := ms.filter (fun m => m.dom == 48 || (s.built m.dom && s.stnUp m.dom))
    let s := ((s.replanAsk.count 0x2108 1).probeRails ms).skipDoms
    ((ms.foldl (fun s m => s.planDom m) s).draw.logFree 4).settleReplan

/-- AUTO_REPLAN (R466): it falls due with the calendar, or 60 s after READY when a reset cut one short; REPLAN brings what it measures. -/
def State.autoReplan (s : State) : State :=
  if s.up && s.age.cut && decide (s.rst.readyAt + 60 ≤ s.mgt.uptime) then { s.replanAsk with age := { s.replanAsk.age with cut := false } }
  else if s.up && s.age.auto && s.mgt.toReplan == 0 then { s.replanAsk with mgt := { s.mgt with toReplan := 86400 } }
  else s

/-! ### Frequency steps (R469) -/

/-- The station's arithmetic clock is gated: no window, segment or LUT build (R435). -/
def State.arithIdle (s : State) (n : Nat) : Bool :=
  s.banksHeld n == 0 && !Tab.ex s.cmds (fun _ c => match c.work with
    | .look w => Tab.ex w.shares (fun j sh => j % 64 == n && (sh.win != [] || sh.fetch != []))
    | _ => false)

/-- FREQUENCY_STEP: ARITH_FSEL asks for the next step. -/
def State.freqStep (s : State) (n : Nat) : State :=
  let d := s.dom n
  if s.built n && decide (d.fstep < d.plan) && (s.stnAt n).fstepTo.isNone && s.stnUp n && s.arithIdle n && s.fwUp then
    (s.updStn n (fun x => { x with fsel := d.fstep + 1, fstepTo := some (d.fstep + 1), fTried := false })).emit (.fsel n (d.fstep + 1))
  else s

/-- ARITH_FACK: the echo ends the step. -/
def State.freqDone (s : State) (n f : Nat) : State :=
  if (s.stnAt n).fstepTo = some f then
    let s := { (s.updStn n (fun x => { x with fstepTo := none })) with age := { s.age with doms := Tab.put s.age.doms n { s.dom n with fstep := f } } }
    let s := ((s.count 0x2108 2).raise 770 (n + 256 * f)).marginSave
    s.settleReplan.settleReads
  else s

/-- ARITH_FACK_TIMEOUT: the old step is restored; a second failure fences the station. -/
def State.freqLate (s : State) (n : Nat) : State :=
  let x := s.stnAt n
  let old := (s.dom n).fstep
  match x.fstepTo with
  | none => s
  | some f =>
    if !x.fTried then (s.updStn n (fun x => { x with fTried := true })).emits [.fsel n old, .fsel n f]
    else
      let s := { (s.updStn n (fun x => { x with fstepTo := none, fsel := old })) with age := { s.age with doms := Tab.upd s.age.doms n (fun d => { d with plan := d.fstep }) } }
      ((s.emit (.fsel n old)).fenceStn n 2 false []).settleReplan

/-! ### The calendar (R461, R464, R484) -/

/-- The hub is out of reset. -/
def State.operating (s : State) : Bool := s.fwUp || s.rst.rel == .failed

/-- A second of operation: the counters and countdowns that run on it. Seconds at a step are those at the highest step of any station
(log entry 28). -/
def State.opTick (s : State) : State :=
  let f := ((List.range s.build.nstn).map (fun n => (s.dom n).fstep)).foldl max 0
  let s := (s.count 0x2100 1).count 0x2100 (2 + min f 4)
  { s with
    mgt := { s.mgt with toReplan := s.mgt.toReplan - 1, toCommit := s.mgt.toCommit - 1 }
    fw := { s.fw with toConfirm := if s.up then s.fw.toConfirm - 1 else s.fw.toConfirm } }

/-- UPTIME_TICK. -/
def State.tick (s : State) : State :=
  let s := { s with mgt := { s.mgt with uptime := (s.mgt.uptime + 1) % 2 ^ 64, wall := (s.mgt.wall + 1) % 2 ^ 64 } }
  let s := if s.operating then s.opTick else s
  let s := if !s.up && s.rst.ladder then { s with rcv := { s.rcv with elapsed := satAdd 24 s.rcv.elapsed 1000 } } else s
  (List.range 8).foldl (fun s k => if (s.src (256 + k)).raw then s.setInput (256 + k) false 0 else s) s

/-- WALL is written (R464). -/
def State.wallSet (s : State) (v : Nat) : State := ({ s with mgt := { s.mgt with wall := v, wallValid := true } }).raise 775 0

/-! ### The commands -/

/-- REPLAN (R467): what the monitors measured in a re-plan that was requested. -/
def execReplan (ms : List Measure) (s : State) : Out := .next (s.replan ms)
/-- AUTO_REPLAN (R466). -/
def execAutoReplan (s : State) : Out := .next s.autoReplan
/-- FREQUENCY_STEP (R469). -/
def execFrequencyStep (stn : Nat) (s : State) : Out := .next (s.freqStep stn)
/-- ARITH_FACK (R469). -/
def execArithFack (stn f : Nat) (s : State) : Out := .next (s.freqDone stn f)
/-- ARITH_FACK_TIMEOUT (R469). -/
def execArithFackTimeout (stn : Nat) (s : State) : Out := .next (s.freqLate stn)
/-- AVS_RAIL_WRITE (R459). -/
def execAvsRailWrite (rail : Nat) (ans : RailAnswer) (volts : Nat) (s : State) : Out := .next (if s.fwUp then s.avsWrite rail ans volts else s)
/-- UPTIME_TICK (R464). -/
def execUptimeTick (s : State) : Out := .next s.tick
/-- LIFETIME_COMMIT (R461). -/
def execLifetimeCommit (s : State) : Out := .next (if s.fwUp then s.lifeCommit else s)
/-- WALL_SET (R464): a write of OD 0x2200:02. -/
def execWallSet (v : BitVec 64) (s : State) : Out := .next (if s.fwUp then s.wallSet v.toNat else s)

end Sys2Proof.Machine
end

