-- ==== Sys2Proof/Machine/Regs.lean ====
section
/-! DEFINITION. Sys2Proof/Machine/Regs.lean: what a read of each register returns, and what it clears (R12, R22, R24, R56-R63, R256,
R323, R342-R344, R350, R382, R420, R442, R454, R472). Accessors are numbered: 0 the PF, 1 to 256 the VFs, 512 + c sequencer core c. -/
namespace Sys2Proof.Machine

/-! ### Registers of every function (R12, R56-R62, R342) -/

/-- The function's state. -/
def State.fn (s : State) (fn : Nat) : Fn := Tab.atD s.fns fn {}
/-- The queue MQI_QSEL selects, where it is the function's. -/
def State.selQ (s : State) (fn : Nat) : Option (Nat × Queue) := (s.queueOf fn (s.fn fn).qsel).map (fun q => ((s.fn fn).qsel, q))

/-- 64-bit registers of every function. -/
def State.fnReg64 (s : State) (fn off : Nat) : Option Nat :=
  match off with
  | 0x28 => some (match s.selQ fn with
    | some (_, q) => posEnc q.n q.h + 2 ^ 32 * posEnc q.n q.t
    | none => 0)
  | 0x30 => some (match s.selQ fn with
    | some (_, q) => posEnc q.n q.c + 2 ^ 32 * posEnc q.n q.k
    | none => 0)
  | 0x38 => some (match s.selQ fn with
    | some (_, q) => q.nextSeq
    | none => 0)
  | 0x80 => some (s.fn fn).evBase
  | _ => none

/-- 32-bit registers of every function. -/
def State.fnReg32 (s : State) (fn off : Nat) : Nat :=
  let f := s.fn fn
  match off with
  | 0x00 => s.build.hubId
  | 0x04 => s.build.hubCap
  | 0x08 => s.build.hubCapEp
  | 0x10 => fn % 512 + 512 * b2n (fn == 0)
  | 0x14 => f.badDb + 65536 * f.badQctl
  | 0x20 => f.qsel
  | 0x24 => (match s.selQ fn with
    | some (_, q) => packF [(0, 3, q.st.code), (4, 4, q.cause), (8, 2, q.cls), (10, 6, s.pidOf q.cid), (16, 12, q.cid), (31, 1, 1)]
    | none => 0)
  | 0x40 => (match s.selQ fn with
    | some (_, q) => q.stale + 65536 * q.drop
    | none => 0)
  | 0x88 => packF [(0, 1, b2n f.evEn), (1, 4, f.evLog2), (5, 11, f.evVec)]
  | 0x8C => posEnc f.evN f.evHead
  | 0x90 => posEnc f.evN f.evTail
  | 0x94 => packF [(0, 1, b2n f.evLost), (1, 1, b2n f.evCfgErr), (2, 1, b2n f.evOvf)]
  | 0x98 => f.evLostCnt
  | _ => 0

/-- RC fields of every function are read. -/
def State.fnRc (s : State) (fn off : Nat) : State :=
  match off with
  | 0x14 => { s with fns := Tab.upd s.fns fn (fun f => { f with badDb := 0, badQctl := 0 }) }
  | 0x40 => (match s.selQ fn with
    | some (k, _) => s.updQ k (fun q => { q with stale := 0, drop := 0 })
    | none => s)
  | 0x98 => { s with fns := Tab.upd s.fns fn (fun f => { f with evLostCnt := 0 }) }
  | _ => s

/-! ### MQI, graph and translation registers of the PF (R63, R256, R323) -/

/-- Fences of the selection of GRF_PSEL, its quota and its low signals. -/
def State.grfSel (s : State) : Nat × Nat × Nat :=
  if s.grf.sys then (Tab.cnt s.fences (fun _ f => f.pid.isNone), 262144, s.grf.lowSys)
  else match Tab.at? s.parts s.grf.psel with
    | some p => (Tab.cnt s.fences (fun _ f => f.pid == some s.grf.psel), p.quota, p.lowsig)
    | none => (0, 0, 0)

/-- The partition XLT_PSEL selects. -/
def State.xltPart (s : State) : Option Part := if s.xlt.sys then none else Tab.at? s.parts s.xlt.psel
/-- The postbag XLT_PSEL selects; an empty one where it selects none. -/
def State.pbNow (s : State) : Postbag := (s.pbSel.map s.pb).getD {}

/-- 64-bit registers from 0x1000 to 0x3FFF. -/
def State.xltReg64 (s : State) (off : Nat) : Option Nat :=
  match off with
  | 0x1008 => some s.mqi.sqb
  | 0x1010 => some s.mqi.cqb
  | 0x3008 => some s.pbNow.base
  | 0x3028 => some ((s.xltPart.map (·.hits)).getD 0)
  | 0x3030 => some ((s.xltPart.map (·.misses)).getD 0)
  | _ => none

/-- 32-bit registers from 0x1000 to 0x3FFF. -/
def State.xltReg32 (s : State) (off : Nat) : Nat :=
  match off with
  | 0x1000 => packF [(0, 1, b2n s.mqi.en), (1, 1, b2n s.mqi.rdy), (2, 1, b2n s.mqi.cfgErr)]
  | 0x1018 => packF [(0, 5, s.mqi.log2), (5, 11, s.mqi.vec)]
  | 0x1020 => s.mqi.xcap
  | 0x2000 => packF [(0, 6, s.grf.psel), (6, 1, b2n s.grf.sys)]
  | 0x2004 => s.grfSel.1
  | 0x2008 => s.grfSel.2.1
  | 0x200C => s.grfSel.2.2
  | 0x2010 => s.grf.found + 65536 * s.grf.abandoned
  | 0x2014 => 262144 - s.fences.length
  | 0x2018 => 65536 - s.edges.length
  | 0x3000 => packF [(0, 6, s.xlt.psel), (6, 1, b2n s.xlt.sys)]
  | 0x3010 => packF [(0, 1, b2n s.pbNow.en), (1, 5, s.pbNow.log2), (6, 1, b2n s.pbNow.cfgErr)]
  | 0x3014 => posEnc s.pbNow.n s.pbNow.head
  | 0x3018 => posEnc s.pbNow.n s.pbNow.tail
  | 0x301C => s.pbNow.lostCnt
  | 0x3020 => (match s.xltPart with
    | some p => packF [(0, 16, p.ways), (16, 4, p.banks), (31, 1, b2n p.wmapErr)]
    | none => 0)
  | 0x303C => s.xlt.epoch
  | 0x3040 => s.xlt.dead
  | 0x3044 => s.xlt.iso
  | 0x3048 => s.xlt.ksel
  | 0x304C => s.keyTags s.xlt.ksel
  | _ => if 0x1100 ≤ off ∧ off < 0x11C0 ∧ off % 4 = 0 then ((Tab.at? s.parts ((off - 0x1100) / 4)).map (·.weight)).getD 1 else 0

/-- RC fields from 0x1000 to 0x3FFF are read; the 64-bit ones by a 64-bit read alone (R24). -/
def State.xltRc (s : State) (off : Nat) : State :=
  match off with
  | 0x200C => if s.grf.sys then { s with grf := { s.grf with lowSys := 0 } } else { s with parts := Tab.upd s.parts s.grf.psel (fun p => { p with lowsig := 0 }) }
  | 0x2010 => { s with grf := { s.grf with found := 0, abandoned := 0 } }
  | 0x301C => (match s.pbSel with
    | some p => s.updPb p (fun b => { b with lostCnt := 0 })
    | none => s)
  | 0x3028 => if s.xlt.sys then s else { s with parts := Tab.upd s.parts s.xlt.psel (fun p => { p with hits := 0 }) }
  | 0x3030 => if s.xlt.sys then s else { s with parts := Tab.upd s.parts s.xlt.psel (fun p => { p with misses := 0 }) }
  | 0x3040 => { s with xlt := { s.xlt with dead := 0 } }
  | 0x3044 => { s with xlt := { s.xlt with iso := 0 } }
  | _ => s

/-! ### Event controller (R343, R344) -/

/-- Fields of a source that is built, else zero. -/
def State.srcField (s : State) (f : Src → Nat) : Nat := if s.srcBuilt s.evc.ssel then f (s.src s.evc.ssel) else 0

/-- Event controller registers of the PF and firmware. -/
def State.evcReg (s : State) (off : Nat) : Nat :=
  match off with
  | 0x4000 => packF [(0, 1, b2n s.evc.en), (4, 4, s.evc.groupBits)]
  | 0x4004 => s.evc.ssel
  | 0x4008 => s.srcField (fun x => packF [(0, 2, x.sense), (2, 1, x.mode), (3, 2, x.hring), (8, 8, x.prio), (30, 1, b2n (srcFixed s.evc.ssel)), (31, 1, b2n (srcFw s.evc.ssel))])
  | 0x400C => s.srcField (fun x => packF [(0, 9, x.fn), (16, 8, x.tmask)])
  | 0x4010 => s.srcField (fun x => x.info)
  | _ =>
    let i := (off - 0x4100) % 128 / 4
    if off < 0x4100 ∨ 0x4380 ≤ off ∨ off % 4 ≠ 0 then 0
    else if off < 0x4200 then s.srcWord (·.masked) i
    else if off < 0x4280 then s.srcWord (·.pending) i
    else if off < 0x4300 then s.srcWord (·.active) i
    else s.srcWord (·.raw) i

/-- The registers of firmware alone, as core `c` reads them; a read of EVC_CLAIM returns what it claims (R337). -/
def State.seqReg (s : State) (c off : Nat) : Nat :=
  match off with
  | 0x4400 => b2n s.evc.fwEn
  | 0x4404 => (s.claimRead c).1
  | 0x440C => s.serve c + 512 * (s.claims c).length
  | 0x4410 => b2n (Tab.has s.evc.foreign c) + 2 * b2n (Tab.has s.evc.empty_ c)
  | 0x4414 => packF ((List.range 4).flatMap (fun r => [(r, 1, b2n (s.hring r).lost), (4 + r, 1, b2n (s.hring r).ovf)]))
  | 0x4420 => (s.hring 0).lostCnt
  | 0x4424 => (s.hring 1).lostCnt
  | 0x4428 => (s.hring 2).lostCnt
  | 0x442C => (s.hring 3).lostCnt
  | _ => s.evcReg off

/-- EVC_CLAIM or EVC_HR_LOST is read by core `c`. -/
def State.seqRc (s : State) (c off : Nat) : State :=
  if off = 0x4404 then (s.claimRead c).2
  else if 0x4420 ≤ off ∧ off < 0x4430 ∧ off % 4 = 0 then
    let r := (off - 0x4420) / 4
    s.setHring r { s.hring r with lostCnt := 0 }
  else s

/-! ### Courier, reset, power and recovery registers (R382, R420, R442) -/

/-- A field of the slot a register selects, zero where it is not built. -/
def State.stnField (s : State) (n : Nat) (f : Stn → Nat) : Nat := if s.built n then f (s.stnAt n) else 0

/-- Courier registers. -/
def State.cxReg (s : State) (off : Nat) : Nat :=
  let n := s.cxSel
  let l := s.link n
  let x := s.build.remote n
  let v := match off with
    | 0x5004 => packF [(0, 1, b2n x), (1, 3, l.st), (4, 1, b2n l.degraded), (5, 1, b2n (x && l.spareRdy))]
    | 0x5008 => packF [(0, 1, b2n l.disable), (2, 3, l.spareLane), (5, 1, b2n l.spareDir)]
    | 0x500C => l.retry
    | 0x5010 => l.retrains + 65536 * l.downs
    | 0x5014 => if x then packF [(0, 4, l.txSpared), (4, 4, l.rxSpared), (8, 9, l.laneOk)] else 0
    | 0x5018 => if x then l.thr else 0
    | 0x5028 => l.fecNear + 65536 * l.fecFar
    | _ => if x ∧ 0x5040 ≤ off ∧ off < 0x5064 ∧ off % 4 = 0 then Tab.atD l.lerr ((off - 0x5040) / 4) 0 else 0
  if off = 0x5000 then n else if s.built n then v else 0

/-- An RC field of a link is read. -/
def State.cxRc (s : State) (off : Nat) : State :=
  if !s.built s.cxSel then s else
  match off with
  | 0x500C => s.updLink s.cxSel (fun l => { l with retry := 0 })
  | 0x5010 => s.updLink s.cxSel (fun l => { l with retrains := 0, downs := 0 })
  | 0x5020 => s.updLink s.cxSel (fun l => { l with fecCorr := 0 })
  | 0x5028 => s.updLink s.cxSel (fun l => { l with fecNear := 0, fecFar := 0 })
  | _ => s

/-- STN_EP of a station (R35, R420). -/
def State.stnEp (s : State) (n : Nat) : Nat :=
  let m := fun (f : Ep → Bool) => packF ((s.build.epsOf n).map (fun ep => (ep - s.build.epFirst n, 1, b2n (((Tab.at? s.eps ep).map f).getD false))))
  packF [(0, 8, m (·.out)), (8, 8, m (·.inReset)), (16, 4, s.build.epCount n), (20, 9, s.build.epFirst n)]

/-- Reset, power and recovery registers. -/
def State.rstReg (s : State) (off : Nat) : Nat :=
  match off with
  | 0x6000 => s.rst.cause
  | 0x6008 => packF [(0, 1, b2n s.rst.bad), (1, 1, b2n s.rst.spiFail), (2, 1, b2n s.rst.range)]
  | 0x600C => s.rst.clk
  | 0x6010 => s.rst.holdCnt
  | 0x6400 => s.pwr.tDoze + 65536 * s.pwr.tSleep
  | 0x6404 => s.pwr.tOff
  | 0x6408 => s.pwr.sel
  | 0x640C => s.stnField s.pwr.sel (fun x => packF [(0, 3, x.pwr), (3, 1, b2n x.abandon), (4, 2, x.enum), (8, 2, x.policy), (10, 2, s.kwLevel s.pwr.sel), (12, 2, x.psAck)])
  | 0x6410 => s.stnField s.pwr.sel (fun x => x.dozes + 65536 * x.sleeps)
  | 0x6414 => s.stnField s.pwr.sel (fun x => x.wakeLast + 65536 * x.wakeMax)
  | 0x6804 => packF [(0, 3, s.rcv.escStep), (3, 12, s.rcv.escId), (15, 1, b2n (s.rcv.running.any s.stepLive))]
  | 0x6810 => Tab.atD s.rcv.cnt 0 0
  | 0x6814 => Tab.atD s.rcv.cnt 1 0
  | 0x6818 => Tab.atD s.rcv.cnt 2 0
  | 0x681C => Tab.atD s.rcv.cnt 3 0
  | 0x6820 => Tab.atD s.rcv.cnt 4 0
  | 0x6824 => packF [(0, 2, s.rcv.state), (8, 24, s.rcv.elapsed)]
  | 0x6828 => s.rcv.parRep + 65536 * s.rcv.parPer
  | 0x6838 => s.dumpFlags 0 + 16 * s.dumpFlags 1
  | 0x6840 => 4 * s.rcv.rsAddr
  | 0x6844 => s.rsNext.1
  | 0x6848 => s.rcv.elogCnt
  | 0x6860 => s.rcv.hsel
  | 0x6864 => s.stnField s.rcv.hsel (fun x => packF [(0, 2, x.state), (2, 1, b2n x.memFell), (3, 2, min 3 (s.attempts s.rcv.hsel).length), (8, 8, x.trigger), (16, 16, x.fences)])
  | 0x686C => s.stnField s.rcv.hsel (fun x => x.parRep + 65536 * x.parPer)
  | 0x6870 => s.stnField s.rcv.hsel (fun x => x.mpTmo + 65536 * x.mpPoison)
  | 0x6874 => s.stnField s.rcv.hsel (fun _ => s.stnEp s.rcv.hsel)
  | _ => 0

/-- RC fields of these registers are read; each read of RST_RSRAM_DATA moves its address. -/
def State.rstRc (s : State) (off : Nat) : State :=
  let stn := fun (n : Nat) (f : Stn → Stn) => if s.built n then s.updStn n f else s
  match off with
  | 0x6410 => stn s.pwr.sel (fun x => { x with dozes := 0, sleeps := 0 })
  | 0x6414 => stn s.pwr.sel (fun x => { x with wakeMax := 0 })
  | 0x6828 => { s with rcv := { s.rcv with parRep := 0, parPer := 0 } }
  | 0x6844 => s.rsNext.2
  | 0x6864 => stn s.rcv.hsel (fun x => { x with fences := 0 })
  | 0x686C => stn s.rcv.hsel (fun x => { x with parRep := 0, parPer := 0 })
  | 0x6870 => stn s.rcv.hsel (fun x => { x with mpTmo := 0, mpPoison := 0 })
  | _ => s

/-! ### Management and ageing registers (R454, R472) -/

/-- MGT_BOOT. -/
def State.bootWord (s : State) : Nat :=
  packF [(0, 1, s.fw.slot), (1, 1, b2n s.inTrial), (2, 1, b2n s.fw.untrusted), (3, 1, b2n s.fw.live), (4, 2, s.lc)]
/-- MGT_FW_SLOT. -/
def State.slotWord (s : State) : Nat := packF [(0, 3, s.slotState 0), (4, 3, s.slotState 1)]
/-- A field of the domain AGE_SEL selects. -/
def State.domField (s : State) (f : Dom → Nat) : Nat := if s.age.sel = 48 ∨ s.built s.age.sel then f (s.dom s.age.sel) else 0

/-- Management and ageing registers. -/
def State.mgtReg (s : State) (off : Nat) : Nat :=
  match off with
  | 0x7000 => s.mgt.odAddr
  | 0x7008 => packF [(0, 1, b2n s.mgt.odBusy), (8, 8, s.mgt.odResult), (16, 16, s.mgt.odSize)]
  | 0x7010 => s.bootWord
  | 0x7014 => s.fw.version
  | 0x7018 => s.slotWord
  | 0x7400 => 2 * b2n s.age.auto
  | 0x7404 => packF [(0, 1, b2n s.age.running), (1, 1, b2n (s.age.doms.any (fun d => d.2.state == 3))), (8, 8, s.age.leastDom), (16, 16, s.age.leastEnd)]
  | 0x7408 => s.age.sel
  | 0x740C => s.domField (fun d => packF [(0, 8, d.off), (8, 3, d.fstep), (12, 3, d.state), (16, 16, d.toStep)])
  | 0x7410 => s.domField (fun d => ofSigned 16 d.slack + 65536 * (d.vmin % 65536))
  | _ => if 0x7040 ≤ off ∧ off < 0x7080 ∧ off % 4 = 0 then Tab.atD s.mgt.odData ((off - 0x7040) / 4) 0 else 0

/-! ### Reads (R22, R24, R350) -/

/-- The offset lies in the part of the register space that every function has. -/
def vfPart (off : Nat) : Bool := decide (off < 0x1000)

/-- The 64-bit register at an 8-byte-aligned offset. -/
def State.reg64 (s : State) (who off : Nat) : Option Nat :=
  if off < 0x1000 then (if who < 512 then s.fnReg64 who off else none)
  else if who ≠ 0 then none
  else if off < 0x4000 then s.xltReg64 off
  else if off = 0x5020 then some (if s.built s.cxSel && s.build.remote s.cxSel then (s.link s.cxSel).fecCorr else 0)
  else if off = 0x6830 then some (b2n s.rcv.dumpEn + s.rcv.dumpBase)
  else none

/-- The 32-bit register at a 4-byte-aligned offset; zero where there is none. -/
def State.reg32 (s : State) (who off : Nat) : Nat :=
  if 512 ≤ who then (if 0x4000 ≤ off ∧ off < 0x5000 then s.seqReg (who - 512) off else if 0x08000000 ≤ off ∧ off < 0x08004000 then s.ringWord off else 0)
  else if off < 0x1000 then s.fnReg32 who off
  else if who ≠ 0 then 0
  else if off < 0x4000 then s.xltReg32 off
  else if off < 0x5000 then s.evcReg off
  else if off < 0x6000 then s.cxReg off
  else if off < 0x7000 then s.rstReg off
  else s.mgtReg off

/-- The four bytes at an offset. -/
def State.regWord (s : State) (who off : Nat) : Nat :=
  match s.reg64 who (off / 8 * 8) with
  | some v => if off % 8 = 0 then v % 2 ^ 32 else v / 2 ^ 32
  | none => s.reg32 who off

/-- What a read returns (R350 rules 2 and 3). -/
def State.regRead (s : State) (who off width : Nat) : Nat :=
  if width = 4 ∧ off % 4 = 0 then s.regWord who off
  else if width = 8 ∧ off % 8 = 0 then s.regWord who off + 2 ^ 32 * s.regWord who (off + 4)
  else 0

/-- The RC fields of a 32-bit register, or of a 64-bit one read whole, are cleared (R22). -/
def State.rcAt (s : State) (who off : Nat) : State :=
  if 512 ≤ who then s.seqRc (who - 512) off
  else if off < 0x1000 then s.fnRc who off
  else if who ≠ 0 then s
  else if off < 0x4000 then s.xltRc off
  else if 0x5000 ≤ off ∧ off < 0x6000 then s.cxRc off
  else if 0x6000 ≤ off ∧ off < 0x7000 then s.rstRc off
  else s

/-- What a read clears: a 32-bit read of half a 64-bit register clears nothing (R24). -/
def State.regRc (s : State) (who off width : Nat) : State :=
  if width = 4 ∧ off % 4 = 0 then (if (s.reg64 who (off / 8 * 8)).isSome then s else s.rcAt who off)
  else if width = 8 ∧ off % 8 = 0 then (if (s.reg64 who off).isSome then s.rcAt who off else (s.rcAt who off).rcAt who (off + 4))
  else s

/-! ### Inbound reads (R350, R353, R407) -/

/-- All ones of an access. -/
def allOnes (width : Nat) : Nat := 2 ^ (8 * width) - 1

/-- Registers of the PF that a recovering block answers: RST_REC_STAT and the window of the retention SRAM (R407). -/
def openReg (off : Nat) : Bool := off == 0x6824 || off == 0x6840 || off == 0x6844
/-- What a recovering block answers (R407): all ones but for those registers, the halves of an 8-byte read each on its own. -/
def State.openRead (s : State) (fn off width : Nat) : Nat × State :=
  let half := fun (o : Nat) => if fn == 0 && openReg o then s.regWord 0 o else allOnes 4
  let rc := fun (s : State) (o : Nat) => if fn == 0 && openReg o then s.rcAt 0 o else s
  if width = 4 ∧ off % 4 = 0 then (half off, rc s off)
  else if width = 8 ∧ off % 8 = 0 then (half off + 2 ^ 32 * half (off + 4), rc (rc s off) (off + 4))
  else (allOnes width, s)

/-- An inbound MRD: the data and status of its completion, and the state after it. -/
def State.inbound (s : State) (fn off width : Nat) : Nat × Nat × State :=
  if s.up then
    if (s.fn fn).en then (s.regRead fn off width, 0, s.regRc fn off width) else (0, 1, s)
  else ((s.openRead fn off width).1, 0, (s.openRead fn off width).2)

/-- INBOUND_MMIO_READ (R350): of function `fn`; 512 + c is sequencer core c reading a register of the event controller (R344) or a
hub ring (R335). -/
def execInboundMmioRead (fn off width tag : Nat) (s : State) : Out :=
  .next (if 512 ≤ fn then (s.regRc fn off width).emit (.seqRead (fn - 512) (s.regRead fn off width))
    else
      let r := s.inbound fn off width
      r.2.2.emit (.cpl fn tag r.2.1 width r.1))

end Sys2Proof.Machine
end

