-- ==== Sys2Proof/Machine/Mgmt.lean ====
section
/-! DEFINITION. Sys2Proof/Machine/Mgmt.lean: the object dictionary and the interfaces that reach it but the serial monitor
(R443-R464, R471, R478, R487). Interfaces are numbered: 0 the MMIO mirror, 1 CAN FD, 2 the monitor. -/
namespace Sys2Proof.Machine

/-! ### Entries (R443-R448) -/

/-- Access rights (R445). -/
inductive OdAcc where
  | ro | rw | wo | rwu
  deriving DecidableEq, Repr

/-- An entry: its access right and its bytes as read (of a WO entry, its size alone). -/
structure OdEnt where
  acc : OdAcc
  bytes : List Byte
  deriving DecidableEq, Repr

/-- Read-only entries of `n` bytes. -/
def odRo (n v : Nat) : Option OdEnt := some ⟨.ro, leBytes n v⟩
/-- Other entries of `n` bytes. -/
def odAs (acc : OdAcc) (n v : Nat) : Option OdEnt := some ⟨acc, leBytes n v⟩
/-- A TEXT(16) entry. -/
def odText (t : String) : Option OdEnt := let b := (textBytes t).take 16; some ⟨.ro, b ++ zeros (16 - b.length)⟩

/-- Stations in service, one bit for each slot (R456). -/
def State.inService (s : State) : Nat := packF ((List.range s.build.nstn).map (fun n => (n, 1, b2n ((s.stnAt n).state == 0))))

/-- The CAN FD and monitor entries (R448; types as log entry 29 gives them). -/
def State.odIface (s : State) (idx sub : Nat) : Option OdEnt :=
  if idx = 0x1000 then
    match sub with
    | 1 => odRo 1 (s.opts.val 7)
    | 2 => odRo 1 (s.opts.val 1)
    | 3 => odRo 1 (Config.canState s.fresh 0)
    | 4 => odRo 1 (Config.canState s.fresh 1)
    | 5 => odRo 1 (Config.canState s.fresh 2)
    | 6 => odRo 4 s.mgt.busOff
    | _ => none
  else match sub with
    | 1 => odRo 4 s.mgt.baud
    | 2 => odRo 1 (b2n (s.lc == 1 && !s.mgt.unlocked))
    | _ => none

/-- Identity and capabilities (R13, R456). -/
def State.odIdent (s : State) (idx sub : Nat) : Option OdEnt :=
  let b := s.build
  if idx = 0x2000 then
    match sub with
    | 1 => odText "Lininapen"
    | 2 => odText "Plenkoren PK4"
    | 3 => odRo 4 s.fw.version
    | 4 => odRo 4 s.bootWord
    | 5 => odRo 4 s.slotWord
    | _ => none
  else if idx = 0x2010 then
    match sub with
    | 1 => odRo 4 b.hubId
    | 2 => odRo 4 b.hubCap
    | 3 => odRo 4 b.hubCapEp
    | _ => none
  else
    match sub with
    | 1 => odRo 1 b.nstn
    | 2 => odRo 1 b.ncxp
    | 3 => odRo 2 b.nep
    | 4 => odRo 1 (b2n b.scan)
    | 5 => odRo 1 (b2n b.mx)
    | 6 => odRo 1 (b2n b.canfd)
    | 7 => odRo 1 (b2n b.keys)
    | 8 => odRo 8 s.inService
    | 9 => odRo 1 (s.opts.val 13)
    | _ => none

/-- Lifetime counters, their companions, the log and the calendar (R461-R464). -/
def State.odLife (s : State) (iface idx sub : Nat) : Option OdEnt :=
  if idx = 0x2110 then
    let k := Tab.atD s.mgt.sel iface 0
    match sub with
    | 1 => odAs .rw 4 (ofSigned 32 k)
    | 2 => some ⟨.ro, if k ≤ 0 then s.logRecord (-k).toNat else List.replicate 64 0xFF⟩
    | 3 => odAs .wo 1 0
    | _ => none
  else if idx = 0x2200 then
    match sub with
    | 1 => odRo 8 s.mgt.uptime
    | 2 => odAs .rw 8 s.mgt.wall
    | 3 => odRo 1 (b2n s.mgt.wallValid)
    | 4 => odRo 4 s.mgt.toReplan
    | 5 => odRo 4 s.mgt.toCommit
    | _ => none
  else
    let i := idx % 128
    if 1 ≤ sub ∧ sub ≤ lifeSubs.getD i 0 then odRo 8 (Tab.atD (if idx < 0x2180 then s.life else s.incr) (8 * i + sub) 0) else none

/-- Ageing (R471). -/
def State.odAge (s : State) (idx sub : Nat) : Option OdEnt :=
  if idx = 0x2300 then
    match sub with
    | 1 => odAs .wo 1 0
    | 2 => odRo 1 (b2n s.age.running)
    | 3 => odRo 2 s.age.leastEnd
    | 4 => odRo 1 s.age.leastDom
    | _ => none
  else
    let d := s.dom (if idx = 0x2301 then 48 else idx - 0x2310)
    match sub with
    | 1 => odRo 4 d.shift
    | 2 => odRo 2 (ofSigned 16 d.slack)
    | 3 => odRo 2 d.vmin
    | 4 => odRo 1 d.off
    | 5 => odRo 1 d.fstep
    | 6 => odRo 2 d.toStep
    | 7 => odRo 2 d.toEnd
    | 8 => odRo 1 d.state
    | 9 => odRo 8 d.last
    | _ => none

/-- Rails, firmware and option shadow (R448, R458, R487). -/
def State.odFw (s : State) (idx sub : Nat) : Option OdEnt :=
  if idx < 0x2500 then
    let r := idx - 0x2400
    match sub with
    | 1 => odRo 2 (s.railBase r)
    | 2 => odRo 1 (s.rail r).off
    | 3 => odRo 2 (s.rail r).volt
    | 4 => odRo 1 (s.rail r).status
    | _ => none
  else if idx = 0x2500 then
    match sub with
    | 1 => odRo 1 s.fw.slot
    | 2 => odRo 4 (if s.slotState 0 = 0 then 0 else s.slotVersion 0)
    | 3 => odRo 4 (if s.slotState 1 = 0 then 0 else s.slotVersion 1)
    | 4 => odRo 1 (s.slotState 0)
    | 5 => odRo 1 (s.slotState 1)
    | 6 => odRo 4 (s.fwCounter + 65536 * s.progCounter)
    | 7 => odAs .wo 1 0
    | 8 => odAs .rwu 1 s.lc
    | 9 => odRo 4 s.fw.toConfirm
    | _ => none
  else if idx = 0x2600 then
    match optFlds[sub - 1]? with
    | some f => if sub = 0 then none else odAs .rw f.n (s.shadow.val (sub - 1))
    | none => none
  else if idx = 0x2601 then
    if 1 ≤ sub ∧ sub ≤ 32 then some ⟨.rwu, s.shadow.rails.getD (sub - 1) (zeros 5)⟩ else none
  else if sub = 1 then odAs .wo 1 0 else none

/-- Views of the registers and of the station slots (R35, R448). -/
def State.odView (s : State) (idx sub : Nat) : Option OdEnt :=
  if idx < 0x4000 then
    if 1 ≤ sub ∧ sub ≤ 4 then odRo 4 (s.regWord 0 (16 * (idx - 0x3000) + 4 * (sub - 1))) else none
  else
    let n := idx - 0x4000
    match sub with
    | 1 => odRo 1 (s.stnAt n).pwr
    | 2 => odRo 1 (s.stnAt n).state
    | 3 => odRo 1 (s.stnAt n).enum
    | 4 => odRo 1 ((s.ownerOf n).getD 0x3F)
    | 5 => odRo 1 (s.build.epCount n)
    | 6 => odRo 2 (s.build.epFirst n)
    | _ => none

/-- The highest subindex of an index, or none for an index that is absent, or is of a unit, slot or rail not built (R443, R447, R448). -/
def State.odTop (s : State) (idx : Nat) : Option Nat :=
  if idx = 0x1000 then (if s.build.canfd then some 6 else none)
  else if idx = 0x1001 then some 2
  else if idx = 0x2000 then some 5
  else if idx = 0x2010 then some 3
  else if idx = 0x2011 then some 9
  else if 0x2100 ≤ idx ∧ idx ≤ 0x210A ∨ 0x2180 ≤ idx ∧ idx ≤ 0x218A then some (lifeSubs.getD (idx % 128) 0)
  else if idx = 0x2110 then some 3
  else if idx = 0x2200 then some 5
  else if idx = 0x2300 then some 4
  else if idx = 0x2301 then some 9
  else if 0x2310 ≤ idx ∧ idx < 0x2340 then (if s.built (idx - 0x2310) then some 9 else none)
  else if 0x2400 ≤ idx ∧ idx < 0x2420 then (if s.railOn (idx - 0x2400) then some 4 else none)
  else if idx = 0x2500 then some 9
  else if idx = 0x2600 then some 17
  else if idx = 0x2601 then some 32
  else if idx = 0x2602 then some 1
  else if 0x3000 ≤ idx ∧ idx < 0x3800 then some 4
  else if 0x4000 ≤ idx ∧ idx < 0x4030 then (if s.built (idx - 0x4000) then some 6 else none)
  else none

/-- The entry of an index that is there. -/
def State.odPart (s : State) (iface idx sub : Nat) : Option OdEnt :=
  if idx < 0x2000 then s.odIface idx sub
  else if idx < 0x2100 then s.odIdent idx sub
  else if idx < 0x2300 then s.odLife iface idx sub
  else if idx < 0x2400 then s.odAge idx sub
  else if idx < 0x3000 then s.odFw idx sub
  else s.odView idx sub

/-- The entry, or the result code that it is absent with: 1 no such index, 2 no such subindex (R447). -/
def State.odFind (s : State) (iface idx sub : Nat) : Except Nat OdEnt :=
  match s.odTop idx with
  | none => .error 1
  | some top =>
    if sub = 0 then .ok ⟨.ro, leBytes 1 top⟩
    else match s.odPart iface idx sub with
      | some e => .ok e
      | none => .error 2

/-! ### Reads and writes (R445-R447) -/

/-- A read: result code, size and bytes. -/
def State.odRead (s : State) (iface idx sub : Nat) : Nat × Nat × List Byte :=
  match s.odFind iface idx sub with
  | .error c => (c, 0, [])
  | .ok e => if e.acc = .wo then (4, e.bytes.length, []) else (0, e.bytes.length, e.bytes)

/-- The lifecycle state advances (R478): result code and state. `fuseOk`: the fuse port programs and reads back. -/
def State.lcAdvance (s : State) (v : Nat) (fuseOk : Bool) : State × Nat :=
  let c := s.lcCheck v s.mgt.unlocked
  if c ≠ 0 then (s, c)
  else
    let r := s.fuseSet 76 v fuseOk
    if r.2 then ((r.1.logFree 6).raise 783 v, 0) else (r.1.raise 774 2, 9)

/-- A value that an option field admits (R426, R457). -/
def optIn (i v : Nat) : Bool := match optFlds[i]? with
  | some f => decide (f.lo ≤ v ∧ v ≤ f.hi)
  | none => false

/-- What a write does, its access and length checked: the state and the result code. A commit of the options ends later (R458). -/
def State.odAct (s : State) (iface idx sub : Nat) (b : List Byte) : State × Nat :=
  let v := leNat b
  let one := fun (f : State → State) => if v = 1 then (f s, 0) else (s, 6)
  if idx = 0x2110 ∧ sub = 1 then ({ s with mgt := { s.mgt with sel := Tab.put s.mgt.sel iface (toSigned 32 v) } }, 0)
  else if idx = 0x2110 then one State.lifeCommit
  else if idx = 0x2200 then (s.wallSet v, 0)
  else if idx = 0x2300 then one State.replanAsk
  else if idx = 0x2500 ∧ sub = 7 then one State.confirm
  else if idx = 0x2500 then
    let r := s.draw.lcAdvance v (!Config.fuseErr s.fresh)
    (r.1, r.2)
  else if idx = 0x2600 then
    if optIn (sub - 1) v then ({ s with shadow := { s.shadow with fields := setNth s.shadow.fields (sub - 1) v } }, 0) else (s, 6)
  else if idx = 0x2601 then ({ s with shadow := { s.shadow with rails := setNth s.shadow.rails (sub - 1) b } }, 0)
  else if s.mgt.commit.isSome then (s, 8)
  else one (fun s => { s with mgt := { s.mgt with commit := some (iface, []) } })

/-- A write: the state, the result code and the entry's size. -/
def State.odWrite (s : State) (iface idx sub : Nat) (b : List Byte) : State × Nat × Nat :=
  match s.odFind iface idx sub with
  | .error c => (s, c, 0)
  | .ok e =>
    let n := e.bytes.length
    if e.acc = .ro then (s, 3, n)
    else if e.acc = .rwu ∧ ¬(s.lc = 0 ∨ s.mgt.unlocked) then (s, 7, n)
    else if b.length ≠ n then (s, 5, n)
    else
      let r := s.odAct iface idx sub b
      (r.1, r.2, n)

/-- The write began a commit that ends with OPTION_COMMIT (R451, R458). -/
def State.committing (s : State) (iface idx sub code : Nat) : Bool :=
  idx == 0x2602 && sub == 1 && code == 0 && (s.mgt.commit.map (·.1)) == some iface

/-! ### The mirror (R454, R455) -/

/-- Puts bytes into MGT_OD_DATA from its start. -/
def odPut (t : Tab Nat) (b : List Byte) : Tab Nat :=
  (List.range 16).foldl (fun t i =>
    let old := leBytes 4 (Tab.atD t i 0)
    let new := (b.drop (4 * i)).take 4
    Tab.put t i (leNat (new ++ old.drop new.length))) t

/-- The bytes of MGT_OD_DATA. -/
def State.odBytes (s : State) : List Byte := (List.range 16).flatMap (fun i => leBytes 4 (Tab.atD s.mgt.odData i 0))

/-- The result of a mirror access is posted. -/
def State.odPost (s : State) (code size : Nat) : State := { s with mgt := { s.mgt with odBusy := false, odResult := code, odSize := size } }

/-- A write of MGT_OD_CTL (R454, R455). -/
def State.odCtl (s : State) (v : Nat) : State :=
  let idx := bits s.mgt.odAddr 0 16
  let sub := bits s.mgt.odAddr 16 8
  let len := bits v 8 7
  let o := bits v 16 16
  if s.mgt.odBusy then s
  else match bits v 0 2 with
  | 1 =>
    let r := s.odRead 0 idx sub
    if r.1 = 0 ∧ r.2.1 ≤ o then s.odPost 5 r.2.1
    else { (s.odPost r.1 r.2.1) with mgt := { (s.odPost r.1 r.2.1).mgt with odData := if r.1 = 0 then odPut s.mgt.odData ((r.2.2.drop o).take 64) else s.mgt.odData } }
  | 2 =>
    if len = 0 ∨ 64 < len then s.odPost 5 0
    else
      let r := s.odWrite 0 idx sub (s.odBytes.take len)
      if r.1.committing 0 idx sub r.2.1 then { r.1 with mgt := { r.1.mgt with odBusy := true, odSize := r.2.2 } } else r.1.odPost r.2.1 r.2.2
  | _ => s

/-! ### CAN FD (R449-R452) -/

/-- CAN node number. -/
def State.node (s : State) : Nat := s.opts.val 7
/-- The CAN FD port speaks: it is built and firmware runs (R452, R488). -/
def State.canUp (s : State) : Bool := s.build.canfd && s.fwUp

/-- The bytes of a RESPONSE (R450). -/
def canResp (req : List Byte) (code size : Nat) (data : List Byte) : List Byte :=
  leBytes 1 (rd req 0 1 + 0x80) ++ (req.drop 1).take 4 ++ leBytes 1 code ++ leBytes 2 size ++ data

/-- A RESPONSE is sent and kept for a repetition of its request (R451). -/
def State.canAnswer (s : State) (req resp : List Byte) : State :=
  ({ s with mgt := { s.mgt with lastReq := req, lastResp := resp } }).emit (canFrame s (0x280 + s.node) resp)

/-- A REQUEST is served (R450, R451). -/
def State.canServe (s : State) (req : List Byte) : State :=
  let idx := rd req 2 2
  let sub := rd req 4 1
  let n := rd req 5 1
  if req = s.mgt.lastReq then s.emit (canFrame s (0x280 + s.node) s.mgt.lastResp)
  else match rd req 0 1 with
  | 1 =>
    let r := s.odRead 1 idx sub
    let o := rd req 6 2
    if r.1 = 0 ∧ r.2.1 ≤ o then s.canAnswer req (canResp req 5 r.2.1 [])
    else s.canAnswer req (canResp req r.1 r.2.1 ((r.2.2.drop o).take 56))
  | 2 =>
    if n = 0 ∨ 56 < n ∨ req.length < 8 + n then s.canAnswer req (canResp req 5 0 [])
    else
      let r := s.odWrite 1 idx sub ((req.drop 8).take n)
      if r.1.committing 1 idx sub r.2.1 then { r.1 with mgt := { r.1.mgt with commit := some (1, req) } }
      else r.1.canAnswer req (canResp req r.2.1 r.2.2 [])
  | _ => s.canAnswer req (canResp req 0x0A 0 [])

/-- A frame arrives; a REQUEST is an 11-bit frame with the node's identifier, classic or FD (R388, R449): up to four wait behind the one being served, which takes time only in a commit of its own (R451). -/
def State.canRequest (s : State) (id : Nat) (ext : Bool) (req : List Byte) : State :=
  if !s.canUp || ext || id != 0x200 + s.node || decide (req.length < 8) || decide (64 < req.length) then s
  else if (s.mgt.commit.map (·.1)) == some 1 then
    if 4 ≤ s.mgt.canQ.length then s.emit (canFrame s (0x280 + s.node) (canResp req 8 0 []))
    else { s with mgt := { s.mgt with canQ := s.mgt.canQ ++ [req] } }
  else s.canServe req

/-- Requests that waited are served, until one commits again. -/
def State.canDrain : Nat → State → State
  | 0, s => s
  | fuel + 1, s =>
    match s.mgt.canQ with
    | [] => s
    | r :: rs =>
      if (s.mgt.commit.map (·.1)) == some 1 then s
      else (({ s with mgt := { s.mgt with canQ := rs } }).canServe r).canDrain fuel

/-- A TIME frame writes WALL (R449). -/
def State.canTime (s : State) (id : Nat) (ext : Bool) (f : List Byte) : State := if s.canUp && !ext && id == 0 && f.length == 8 then s.wallSet (leNat f) else s

/-- A HEARTBEAT frame (R452). -/
def State.canBeat (s : State) : State :=
  if s.canUp && s.opts.val 8 == 1 then
    s.emit (canFrame s (0x700 + s.node) (leBytes 1 s.rcv.state ++ leBytes 1 s.lc ++ leBytes 2 s.age.leastEnd ++ leBytes 4 s.mgt.uptime))
  else s

/-- Entry to bus-off (R452). -/
def State.canOff (s : State) : State :=
  if s.canUp then
    let n := satAdd 32 s.mgt.busOff 1
    ({ s with mgt := { s.mgt with busOff := n } }).raise 776 n
  else s

/-! ### Option bytes (R458) -/

/-- The shadow goes to NVM: whether what reads back is what was written. -/
def State.optWrite (s : State) (ok : Bool) : State × Bool :=
  if ok then
    let b := s.shadow.bytes
    let s := (s.nvmErase 0).nvmProgram 0 b
    (s, s.nvmRead 0 256 == b)
  else (s.count 0x2109 2, false)

/-- OPTION_COMMIT: the commit ends, and the interface that asked for it is answered. -/
def State.optCommit (s : State) (ok : Bool) : State :=
  if !s.fwUp then s
  else
    let (s, good) := s.optWrite ok
    let code := if good then 0 else 9
    let s := (if good then s.logFree 7 else s.raise 774 1).raise 782 (b2n (!good))
    let c := s.mgt.commit
    let s := { s with mgt := { s.mgt with commit := none } }
    match c with
    | some (0, _) => s.odPost code 1
    | some (1, req) => let t := s.canAnswer req (canResp req code 1 []); t.canDrain (t.mgt.canQ.length + 1)
    | some (_, _) => s.emit (.text (textBytes (if good then "OK\r\n" else "ERR 09\r\n")))
    | none => s

/-! ### The commands -/

/-- OD_READ (R446): MGT_OD_CTL is written with OP READ. -/
def execOdRead (v : BitVec 32) (s : State) : Out := .next (s.mmio (fun s => if bits v.toNat 0 2 = 1 then s.odCtl v.toNat else s))
/-- OD_WRITE (R445): MGT_OD_CTL is written with OP WRITE. -/
def execOdWrite (v : BitVec 32) (s : State) : Out := .next (s.mmio (fun s => if bits v.toNat 0 2 = 2 then s.odCtl v.toNat else s))
/-- CAN_REQUEST (R450). -/
def execCanRequest (frame : CanFrame) (s : State) : Out := .next (s.canRequest frame.id frame.ext frame.data)
/-- CAN_TIME (R449). -/
def execCanTime (frame : CanFrame) (s : State) : Out := .next (s.canTime frame.id frame.ext frame.data)
/-- CAN_HEARTBEAT (R452). -/
def execCanHeartbeat (s : State) : Out := .next s.canBeat
/-- CAN_BUS_OFF (R452). -/
def execCanBusOff (s : State) : Out := .next s.canOff
/-- OPTION_COMMIT (R458): `nvmOk`: the NVM carries the operations out. -/
def execOptionCommit (nvmOk : Bool) (s : State) : Out := .next (s.optCommit nvmOk)
/-- CONFIRM (R484): OD 0x2500:07 is written with 1. -/
def execConfirm (s : State) : Out := .next (if s.fwUp then s.confirm else s)
/-- LC_ADVANCE (R478): OD 0x2500:08 is written (R487, RWU). -/
def execLcAdvance (v : BitVec 8) (s : State) : Out := .next (if s.fwUp then (s.odWrite 0 0x2500 8 [v]).1 else s)

end Sys2Proof.Machine
end

