-- ==== Sys2Proof/Machine/Mmio.lean ====
section
/-! DEFINITION. Sys2Proof/Machine/Mmio.lean: what a write of each register does (R22, R24, R58, R59, R63, R256, R323, R342-R344, R350,
R382, R420, R442, R454, R472). -/
namespace Sys2Proof.Machine

/-! ### Registers of every function (R58, R59, R342) -/

/-- A write of MQI_QCTL (R58). -/
def State.qctl (s : State) (fn v : Nat) : State :=
  let q := bits v 0 15
  match bits v 16 2 with
  | 1 => s.resume fn q
  | 2 => s.qctlReset fn q
  | _ => if (s.queueOf fn q).isNone then s.badQctl fn else s

/-- 32-bit registers of every function. -/
def State.fnPut32 (s : State) (fn off v : Nat) : State :=
  match off with
  | 0x18 => s.qctl fn v
  | 0x20 => { s with fns := Tab.upd s.fns fn (fun f => { f with qsel := bits v 0 15 }) }
  | 0x88 => s.evFnCfg fn v
  | 0x8C => s.evFnHead fn v
  | 0x94 => if bit v 0 then { s with fns := Tab.upd s.fns fn (fun f => { f with evLost := false }) } else s
  | _ => s

/-! ### MQI, graph and translation registers of the PF (R63, R256, R323) -/

/-- 32-bit registers from 0x1000 to 0x3FFF. -/
def State.xltPut32 (s : State) (off v : Nat) : State :=
  match off with
  | 0x1000 => if bit v 0 then s.mqiEnable else s
  | 0x1018 => if s.mqi.en then s else { s with mqi := { s.mqi with log2 := bits v 0 5, vec := bits v 5 11 } }
  | 0x1020 => { s with mqi := { s.mqi with xcap := bits v 0 16 } }
  | 0x2000 => { s with grf := { s.grf with psel := bits v 0 6, sys := bit v 6 } }
  | 0x3000 => { s with xlt := { s.xlt with psel := bits v 0 6, sys := bit v 6 } }
  | 0x3010 => s.pbCfg v
  | 0x3014 => s.pbHead v
  | 0x3020 => s.wmapWrite v
  | 0x3038 => { s with ctxs := Tab.upd s.ctxs (bits v 0 12) (fun c => { c with faultLost := false }) }
  | 0x3048 => { s with xlt := { s.xlt with ksel := bits v 0 6 } }
  | _ =>
    if 0x1100 ≤ off ∧ off < 0x11C0 ∧ off % 4 = 0 then
      { s with parts := Tab.upd s.parts ((off - 0x1100) / 4) (fun p => { p with weight := if bits v 0 8 = 0 then 1 else bits v 0 8 }) }
    else s

/-- The postbag's base (R323). -/
def State.pbBase (s : State) (v : Nat) : State :=
  match s.pbSel with
  | some p => if (s.pb p).en then s else s.updPb p (fun b => { b with base := alignDown v 4096 })
  | none => s

/-! ### Event controller (R328, R339, R340, R343, R344) -/

/-- Event controller registers, as the PF or firmware (`fw`) writes them. -/
def State.evcPut (s : State) (fw : Bool) (off v : Nat) : State :=
  match off with
  | 0x4000 => { s with evc := { s.evc with en := bit v 0 } }
  | 0x4004 => { s with evc := { s.evc with ssel := bits v 0 10 } }
  | 0x4008 => s.srcCfg fw s.evc.ssel v
  | 0x400C => s.srcRoute fw s.evc.ssel v
  | 0x4014 => if fw ∨ srcFw (bits v 0 10) then s else s.clearActive (bits v 0 10)
  | 0x4018 =>
    let n := bits v 0 10
    if (if fw then 960 ≤ n ∧ n ≤ 1015 else 896 ≤ n ∧ n ≤ 959) then s.raise n (v / 1024 * 1024) else s
  | _ =>
    if off < 0x4100 ∨ 0x4200 ≤ off ∨ off % 4 ≠ 0 then s
    else if off < 0x4180 then s.maskWord fw true ((off - 0x4100) / 4) v
    else s.maskWord fw false ((off - 0x4180) / 4) v

/-- The registers of firmware alone, as core `c` writes them. -/
def State.seqPut (s : State) (c off v : Nat) : State :=
  match off with
  | 0x4400 => { s with evc := { s.evc with fwEn := bit v 0 } }
  | 0x4408 => s.doneClaim c v
  | 0x4410 => { s with evc := { s.evc with foreign := if bit v 0 then Tab.del s.evc.foreign c else s.evc.foreign
                                           empty_ := if bit v 1 then Tab.del s.evc.empty_ c else s.evc.empty_ } }
  | 0x4414 => (List.range 4).foldl (fun s r => if bit v r then s.setHring r { s.hring r with lost := false } else s) s
  | _ => s.evcPut true off v

/-! ### Courier, reset, power and recovery registers (R382, R420, R442) -/

/-- Courier registers. -/
def State.cxPut (s : State) (off v : Nat) : State :=
  match off with
  | 0x5000 => { s with cxSel := bits v 0 6 }
  | 0x5008 => s.cxCtl v
  | 0x5018 => if s.built s.cxSel ∧ s.build.remote s.cxSel then s.updLink s.cxSel (fun l => { l with thr := bits v 0 24 }) else s
  | _ => s

/-- RST_ESC_REQ (R420). -/
def State.escReq (s : State) (v : Nat) : State :=
  let id := bits v 3 12
  match bits v 0 3 with
  | 1 => s.ctxStep id
  | 2 => if id % 8 < s.build.epCount (id / 8) then s.engStep (s.build.epFirst (id / 8) + id % 8) else s
  | 3 => s.partStep id
  | 4 => s.chipStep
  | _ => s

/-- STN_HCTL (R420). -/
def State.stnCtl (s : State) (v : Nat) : State :=
  let n := s.rcv.hsel
  if !s.built n then s
  else
    let s := if bit v 0 then s.fenceStn n 6 true [] else s
    let s := if bit v 1 then s.driverReturn n else s
    if bit v 2 then s.epRestart n else s

/-- Reset, power and recovery registers. -/
def State.rstPut (s : State) (off v : Nat) : State :=
  match off with
  | 0x6000 => { s with rst := { s.rst with cause := s.rst.cause &&& (0x7FF ^^^ (v % 0x800)) } }
  | 0x6004 => s.rstCtl v
  | 0x6400 => { s with pwr := { s.pwr with tDoze := bits v 0 16, tSleep := bits v 16 16 } }
  | 0x6404 => { s with pwr := { s.pwr with tOff := bits v 0 16 } }
  | 0x6408 => { s with pwr := { s.pwr with sel := bits v 0 6 } }
  | 0x640C => s.pwrStnWrite s.pwr.sel v
  | 0x6800 => s.escReq v
  | 0x683C => s.dumpRel v
  | 0x6840 => { s with rcv := { s.rcv with rsAddr := bits v 2 16 } }
  | 0x6860 => { s with rcv := { s.rcv with hsel := bits v 0 6 } }
  | 0x6864 => if bit v 2 ∧ s.built s.rcv.hsel then s.updStn s.rcv.hsel (fun x => { x with memFell := false }) else s
  | 0x6868 => s.stnCtl v
  | _ => s

/-! ### Management and ageing registers (R454, R472) -/

/-- Management and ageing registers. -/
def State.mgtPut (s : State) (off v : Nat) : State :=
  match off with
  | 0x7000 => { s with mgt := { s.mgt with odAddr := bits v 0 24 } }
  | 0x7004 => s.odCtl v
  | 0x7400 =>
    let s := { s with age := { s.age with auto := bit v 1 } }
    if bit v 0 then s.replanAsk else s
  | 0x7408 => { s with age := { s.age with sel := bits v 0 6 } }
  | _ =>
    if 0x7040 ≤ off ∧ off < 0x7080 ∧ off % 4 = 0 then { s with mgt := { s.mgt with odData := Tab.put s.mgt.odData ((off - 0x7040) / 4) v } } else s

/-! ### Writes (R22, R24, R350) -/

/-- A 64-bit register takes a value. -/
def State.put64 (s : State) (who off v : Nat) : State :=
  match off with
  | 0x80 => { s with fns := Tab.upd s.fns who (fun f => if f.evEn then f else { f with evBase := alignDown v 4096 }) }
  | 0x1008 => if s.mqi.en then s else { s with mqi := { s.mqi with sqb := v } }
  | 0x1010 => if s.mqi.en then s else { s with mqi := { s.mqi with cqb := v } }
  | 0x3008 => s.pbBase v
  | 0x6830 => { s with rcv := { s.rcv with dumpEn := bit v 0, dumpBase := alignDown v 4096 } }
  | _ => s

/-- A 32-bit register takes a value. -/
def State.put32 (s : State) (who off v : Nat) : State :=
  if 512 ≤ who then (if 0x4000 ≤ off ∧ off < 0x5000 then s.seqPut (who - 512) off v else s)
  else if off < 0x1000 then s.fnPut32 who off v
  else if who ≠ 0 then s
  else if off < 0x4000 then s.xltPut32 off v
  else if off < 0x5000 then s.evcPut false off v
  else if off < 0x6000 then s.cxPut off v
  else if off < 0x7000 then s.rstPut off v
  else s.mgtPut off v

/-- Four bytes are written: a 32-bit register, or half of a 64-bit one, whose other half stays. -/
def State.putWord (s : State) (who off v : Nat) : State :=
  match s.reg64 who (off / 8 * 8) with
  | some old => if off % 8 = 0 then s.put64 who off (old / 2 ^ 32 * 2 ^ 32 + v) else s.put64 who (off - 4) (old % 2 ^ 32 + 2 ^ 32 * v)
  | none => s.put32 who off v

/-- A write of a size and alignment that acts (R350 rule 2). -/
def State.regWrite (s : State) (who off width v : Nat) : State :=
  if width = 4 ∧ off % 4 = 0 then s.putWord who off (v % 2 ^ 32)
  else if width = 8 ∧ off % 8 = 0 then
    if (s.reg64 who off).isSome then s.put64 who off v else (s.putWord who off (v % 2 ^ 32)).putWord who (off + 4) (v / 2 ^ 32)
  else s

/-- An inbound MWR (R350, R353): the doorbell region goes to the doorbells. -/
def State.inWrite (s : State) (fn off width v : Nat) : State :=
  if !(s.fn fn).en then s
  else if 0x01000000 ≤ off ∧ off < 0x02000000 then s.sqTail fn off width v
  else s.regWrite fn off width v

/-- REGISTER_WRITE (R22): by function `fn`; 512 + c is sequencer core c, whose writes of the event controller do not wait for READY. -/
def execRegisterWrite (fn off width : Nat) (v : BitVec 64) (s : State) : Out :=
  .next (if 512 ≤ fn then s.regWrite fn off width v.toNat else if s.up then s.inWrite fn off width v.toNat else s)

end Sys2Proof.Machine
end

