-- ==== Sys2Proof/Machine/Monitor.lean ====
section
/-! DEFINITION. Sys2Proof/Machine/Monitor.lean: the serial monitor and the boot ROM's commands (R488-R492). The words of the replies
are the model's (log entry 30); each carries the values that the rules name, in hexadecimal. -/
namespace Sys2Proof.Machine

/-! ### Text -/

/-- A hexadecimal digit. -/
def hexDigit (n : Nat) : Byte := BitVec.ofNat 8 (if n < 10 then 48 + n else 55 + n)
/-- Bytes in order, two digits each. -/
def hexBytes (b : List Byte) : List Byte := b.flatMap (fun x => [hexDigit (x.toNat / 16), hexDigit (x.toNat % 16)])
/-- A number of `n` bytes, the most significant first. -/
def hexNum (n v : Nat) : List Byte := hexBytes (leBytes n v).reverse
/-- The end of a line. -/
def crlf : List Byte := [13, 10]
/-- A reply: its lines, then OK or ERR and a code, then the prompt (R489). -/
def reply (lines : List (List Byte)) (code : Nat) : Output :=
  .text (lines.flatMap (· ++ crlf) ++ (if code = 0 then textBytes "OK" else textBytes "ERR " ++ hexNum 1 code) ++ crlf ++ textBytes "pk4> ")
/-- Hexadecimal lines of 64 bytes. -/
def hexLines (b : List Byte) : List (List Byte) := (chunksOf 64 b.length b).map hexBytes

/-- Answers a command. -/
def State.say (s : State) (lines : List (List Byte)) (code : Nat) : State := s.emit (reply lines code)

/-! ### Who may do what (R478, R490) -/

/-- The monitor runs commands marked "Locked: no". -/
def State.open_ (s : State) : Bool := s.lc == 0 || s.mgt.unlocked
/-- A command of the firmware's monitor. -/
def State.mon (s : State) (f : State → State) : State := if s.fwUp then f s else s
/-- A command that a locked monitor refuses. -/
def State.monOpen (s : State) (f : State → State) : State := s.mon (fun s => if s.open_ then f s else s.say [] 7)
/-- A command of the boot ROM's monitor (R488). -/
def State.rom (s : State) (f : State → State) : State := if s.rst.rel = .failed then f s else s
/-- A command that the boot ROM gives in DECOMMISSIONED only. -/
def State.romDiag (s : State) (f : State → State) : State := s.rom (fun s => if 2 ≤ s.lc then f s else s.say [] 7)

/-! ### What the commands print -/

/-- The identity entries of R456. -/
def State.idLines (s : State) : List (List Byte) :=
  ([(0x2000, 5), (0x2010, 3), (0x2011, 9)].flatMap (fun x => (List.range x.2).map (fun i => (x.1, i + 1)))).map
    (fun x => hexBytes (s.odRead 2 x.1 x.2).2.2)
/-- STAT. -/
def State.statLines (s : State) : List (List Byte) :=
  [hexNum 4 (s.regWord 0 0x6824), hexNum 4 s.rst.cause] ++ (List.range s.build.nstn).map (fun n =>
    hexNum 1 n ++ hexNum 1 (s.stnAt n).state ++ hexNum 1 (s.stnAt n).pwr ++ hexNum 1 (s.stnAt n).enum)
/-- Every subindex of an index. -/
def State.odLines (s : State) (idx : Nat) : List (List Byte) :=
  (List.range ((s.odTop idx).getD 0)).map (fun i => hexBytes (s.odRead 2 idx (i + 1)).2.2)
/-- AGE d: without a station of that number, nothing. -/
def State.ageIdx (d : Nat) : Nat := if d = 48 then 0x2301 else 0x2310 + d
/-- The Courier registers of a slot. -/
def State.cxLines (s : State) (n : Nat) : List (List Byte) :=
  let t := { s with cxSel := n }
  ([0x5004, 0x5008, 0x500C, 0x5010, 0x5014, 0x5018, 0x5020, 0x5024, 0x5028] ++ (List.range 9).map (fun i => 0x5040 + 4 * i)).map (fun o => hexNum 4 (t.regWord 0 o))
/-- The health registers of a slot. -/
def State.stnLines (s : State) (n : Nat) : List (List Byte) :=
  let t := { s with rcv := { s.rcv with hsel := n } }
  [0x6864, 0x686C, 0x6870, 0x6874].map (fun o => hexNum 4 (t.regWord 0 o))
/-- The names of the commands. -/
def monNames : List String :=
  ["HELP", "ID", "STAT", "ELOG", "LLOG", "AGE", "CX", "STN", "OD R", "UNLOCK", "LOCK", "OD W", "REPLAN", "BAUD", "DUMP", "PEEK", "POKE", "RESET", "FUSE R", "FUSE P", "LC"]

/-! ### Unlocking (R491) -/

/-- An answer is a signature over the challenge by root key A or B (R477, R491). -/
def State.answerOk (s : State) (r t : Nat) (ch : List Byte) : Bool :=
  decide (0 < r ∧ r < p384n ∧ 0 < t ∧ t < p384n) && (ecdsaKeys r t ch).any (fun k =>
    ecdsaOk k (beBytes 48 r ++ beBytes 48 t) ch && [0, 1].any (fun i =>
      !(i == 0 && bit (s.fuse 76) 8) && (if anyByte (s.keyHash i) then sha384 k == s.keyHash i else s.lc == 0)))

/-- UNLOCK without an answer: a challenge, but not in a lockout. -/
def State.challenge (s : State) : State :=
  if s.mgt.lockout then s.say [] 7
  else
    let c := (List.range 16).map (Config.challenge s.fresh)
    ({ s.draw with mgt := { s.mgt with challenge := some (s.mgt.uptime, c) } }).say [hexBytes c] 0

/-- A wrong answer: the third in a row locks challenges out. -/
def State.wrongAnswer (s : State) : State :=
  let n := s.mgt.wrong + 1
  (({ s with mgt := { s.mgt with challenge := none, wrong := if 3 ≤ n then 0 else n, lockout := s.mgt.lockout || decide (3 ≤ n) } }).count 0x210A 2).say [] 7

/-- The monitor is unlocked: source 781, and a log record of KIND 6 and STEP 0; its SERIAL is not given (log entry 16). -/
def State.unlocked (s : State) : State :=
  let b := ({ kind := 6 } : ERec).bytes (Config.stamp s.fresh).toNat (leNat ((List.range 8).map (Config.recByte s.fresh)))
  let s := { s.draw with mgt := { s.mgt with challenge := none, wrong := 0, unlocked := true } }
  ((((s.count 0x210A 1).raise 781 0).logAppend 2 b)).say [] 0

/-- UNLOCK with an answer. -/
def State.answer_ (s : State) (r t : Nat) : State :=
  match s.mgt.challenge with
  | none => s.wrongAnswer
  | some (at_, c) =>
    if at_ + 60 < s.mgt.uptime then (({ s with mgt := { s.mgt with challenge := none } }).count 0x210A 2).say [] 7
    else if s.answerOk r t c then s.unlocked else s.wrongAnswer

/-! ### Fuses and images -/

/-- FUSE P: words 0 to 35 and 76, in DEVELOPMENT. -/
def State.fuseProg (s : State) (w v : Nat) (ok : Bool) : State :=
  if s.lc ≠ 0 then s.say [] 7
  else if ¬(w < 36 ∨ w = 76) then s.say [] 6
  else
    let r := s.fuseSet w v ok
    if r.2 then r.1.say [] 0 else (r.1.raise 774 2).say [] 9

/-- FUSE R. -/
def State.fuseRead (s : State) (w : Nat) : State := if w ≤ 76 then s.say [hexNum 4 (s.fuse w)] 0 else s.say [] 6

/-- PEEK: a register of the PF, four bytes. -/
def State.peek (s : State) (off : Nat) : State := (s.regRc 0 off 4).say [hexNum 4 (s.regRead 0 off 4)] 0

/-- XLOAD (R488): an image that verifies is written as R482 does; the slot is then in TRIAL. -/
def State.xload (s : State) (x : Nat) (m : List Byte) : State :=
  if 2 ≤ x ∨ s.imageCheck 1 m ≠ 0 then s.say [] 6
  else
    let r := s.slotWrite x m
    if r.2 then (r.1.slotPut x ⟨max (r.1.slotSeq 0) (r.1.slotSeq 1) + 1, 2, 0⟩).say [] 0 else r.1.say [] 9

/-- A slot's line of BOOTLOG: STATE, SEQ, the first check that failed. -/
def State.bootLine (s : State) (x : Nat) : List Byte := hexNum 1 (s.slotState x) ++ hexNum 4 (s.slotSeq x) ++ hexNum 1 (s.slotCheck x)

/-- The UART's rates (R389). -/
def bauds : List Nat := [115200, 230400, 460800, 921600, 1000000, 2000000, 3000000]

/-! ### The commands -/

/-- MONITOR_HELP (R490). -/
def execMonitorHelp (s : State) : Out := .next (s.mon (fun s => s.say (monNames.map textBytes) 0))
/-- MONITOR_ID (R490). -/
def execMonitorId (s : State) : Out := .next (s.mon (fun s => s.say s.idLines 0))
/-- MONITOR_STAT (R490). -/
def execMonitorStat (s : State) : Out := .next (s.mon (fun s => s.say s.statLines 0))
/-- MONITOR_ELOG (R490). -/
def execMonitorElog (n : Nat) (s : State) : Out :=
  .next (s.mon (fun s => s.say ((List.range (min n (min 256 s.rcv.elogCnt))).map (fun k => hexBytes (s.elogAt k))) 0))
/-- MONITOR_LLOG (R490). -/
def execMonitorLlog (n : Nat) (s : State) : Out := .next (s.mon (fun s => s.say ((List.range n).map (fun k => hexBytes (s.logRecord k))) 0))
/-- MONITOR_AGE (R490). -/
def execMonitorAge (d : Nat) (s : State) : Out :=
  .next (s.mon (fun s => if (s.odTop (State.ageIdx d)).isSome ∧ d ≤ 48 then s.say (s.odLines (State.ageIdx d)) 0 else s.say [] 1))
/-- MONITOR_CX (R490). -/
def execMonitorCx (slot : Nat) (s : State) : Out := .next (s.mon (fun s => if s.built slot then s.say (s.cxLines slot) 0 else s.say [] 1))
/-- MONITOR_STN (R490). -/
def execMonitorStn (slot : Nat) (s : State) : Out := .next (s.mon (fun s => if s.built slot then s.say (s.stnLines slot) 0 else s.say [] 1))
/-- MONITOR_OD_READ (R490). -/
def execMonitorOdRead (index sub : Nat) (s : State) : Out :=
  .next (s.mon (fun s => let r := s.odRead 2 index sub; s.say (if r.1 = 0 then [hexBytes r.2.2] else []) r.1))
/-- MONITOR_OD_WRITE (R490): a commit of the options is answered when it ends. -/
def execMonitorOdWrite (index sub : Nat) (bytes : List (BitVec 8)) (s : State) : Out :=
  .next (s.monOpen (fun s =>
    let r := s.odWrite 2 index sub bytes
    if r.1.committing 2 index sub r.2.1 then r.1 else r.1.say [] r.2.1))
/-- UNLOCK (R491). -/
def execUnlock (answer : Option (Nat × Nat)) (s : State) : Out :=
  .next (s.mon (fun s => match answer with
    | none => s.challenge
    | some (r, t) => s.answer_ r t))
/-- LOCK (R491). -/
def execLock (s : State) : Out := .next (s.mon (fun s => s.endUnlock.say [] 0))
/-- UNLOCK_EXPIRY (R491). -/
def execUnlockExpiry (s : State) : Out := .next (if s.mgt.unlocked then s.endUnlock else s)
/-- UNLOCK_LOCKOUT_END (R491). -/
def execUnlockLockoutEnd (s : State) : Out := .next { s with mgt := { s.mgt with lockout := false } }
/-- MONITOR_REPLAN (R490). -/
def execMonitorReplan (s : State) : Out := .next (s.monOpen (fun s => s.replanAsk.say [] 0))
/-- BAUD (R489): the rate changes after the OK. -/
def execBaud (n : Nat) (s : State) : Out :=
  .next (s.monOpen (fun s => if bauds.contains n then { (s.say [] 0) with mgt := { s.mgt with baud := n } } else s.say [] 6))
/-- MONITOR_DUMP (R490). -/
def execMonitorDump (k : Nat) (s : State) : Out := .next (s.monOpen (fun s => if k < 2 then s.say (hexLines (s.rsRead (dumpAt k) 122880)) 0 else s.say [] 6))
/-- PEEK (R490). -/
def execPeek (off : Nat) (s : State) : Out := .next (s.monOpen (fun s => s.peek off))
/-- POKE (R490). -/
def execPoke (off : Nat) (v : BitVec 32) (s : State) : Out := .next (s.monOpen (fun s => (s.regWrite 0 off 4 v.toNat).say [] 0))
/-- MONITOR_RESET (R490). -/
def execMonitorReset (dump : Bool) (s : State) : Out := .next (s.monOpen (fun s => (s.say [] 0).warmReset 7 dump false))
/-- FUSE_READ (R490). -/
def execFuseRead (w : Nat) (s : State) : Out := .next (s.monOpen (fun s => s.fuseRead w))
/-- FUSE_PROGRAM (R490): `fuseOk`: the fuse port programs and reads back. -/
def execFuseProgram (w : Nat) (v : BitVec 32) (fuseOk : Bool) (s : State) : Out := .next (s.monOpen (fun s => s.fuseProg w v.toNat fuseOk))
/-- MONITOR_LC (R490, R478). -/
def execMonitorLc (v : BitVec 8) (fuseOk : Bool) (s : State) : Out :=
  .next (s.monOpen (fun s => let r := s.lcAdvance v.toNat fuseOk; r.1.say [] r.2))
/-- BOOTROM_ID (R488): block revision, lifecycle state, fuse counters. -/
def execBootromId (s : State) : Out :=
  .next (s.rom (fun s => s.say [hexNum 2 (s.build.hubId % 65536), hexNum 1 s.lc, hexNum 2 s.fwCounter, hexNum 2 s.progCounter] 0))
/-- BOOTLOG (R488). -/
def execBootlog (s : State) : Out := .next (s.rom (fun s => s.say ([0, 1].map s.bootLine) 0))
/-- XLOAD (R488). -/
def execXload (slot : Nat) (image : List (BitVec 8)) (s : State) : Out := .next (s.rom (fun s => s.xload slot image))
/-- BOOTROM_RESET (R488). -/
def execBootromReset (s : State) : Out := .next (s.rom (fun s => (s.say [] 0).warmReset 7 false false))
/-- BOOTROM_PEEK (R488). -/
def execBootromPeek (off : Nat) (s : State) : Out := .next (s.romDiag (fun s => s.peek off))
/-- BOOTROM_FUSE_READ (R488). -/
def execBootromFuseRead (w : Nat) (s : State) : Out := .next (s.romDiag (fun s => s.fuseRead w))

end Sys2Proof.Machine
end

