-- ==== Sys2Proof/Machine/Parity.lean ====
section
/-! DEFINITION. Sys2Proof/Machine/Parity.lean: parity errors (R390-R393), and the rows whose words are checked: MEMORY_RESPONSE,
ENVELOPE_RECEIVED and OCCURRENCE. -/
namespace Sys2Proof.Machine

/-- The station a unit belongs to (R416); none for the hub's. -/
def unitStn (u : Nat) : Option Nat := if u < 0x100 then none else some ((u - 0x100) / 8)

/-- Counts replays or persistent errors of a unit (R393, R461). -/
def State.parityCount (s : State) (u n : Nat) (per : Bool) : State :=
  match unitStn u with
  | none =>
    { s with rcv := if per then { s.rcv with parPer := satAdd 16 s.rcv.parPer n } else { s.rcv with parRep := satAdd 16 s.rcv.parRep n } }.countBy
      0x2103 (1 + b2n per) n
  | some k =>
    (s.updStn k (fun x => if per then { x with parPer := satAdd 16 x.parPer n } else { x with parRep := satAdd 16 x.parRep n })).countBy
      0x2103 (3 + b2n per) n

/-- The section of dump slot `k` that byte `a` of the slot lies in, from section `pos` on (R415, R416). -/
def State.sectAt (s : State) (k a : Nat) : Nat → Nat → Option Nat
  | 0, _ => none
  | fuel + 1, pos =>
    let next := pos + 16 + ceilDiv (rd (s.rsRead (dumpAt k + pos) 16) 4 4) 16 * 16
    if a < next then some pos else s.sectAt k a fuel next

/-- Sets the bits of a byte of the retention SRAM. -/
def State.rsMark (s : State) (a v : Nat) : State := s.rsWrite a (leBytes 1 (rd (s.rsRead a 1) 0 1 ||| v))

/-- A word of the retention SRAM is in error: it reads as zero, and the error record or dump section that holds it is marked (R392, R414,
R416). -/
def State.rsFail (s : State) (w : Nat) : State :=
  let a := 4 * w
  let z := s.rsWrite a (zeros 4)
  if a < 0x4000 then z.rsMark (a / 64 * 64 + 1) 0x80
  else
    let k := (a - 0x4000) / 0x1E000
    let o := (a - 0x4000) % 0x1E000
    if o < 64 then z
    else match s.sectAt k o (rd (s.rsRead (dumpAt k) 64) 32 2) 64 with
      | some p => z.rsMark (dumpAt k + p + 2) 4
      | none => z

/-- The event record that is written next is lost (R341). -/
def State.loseEvent (s : State) : State :=
  match s.winner true with
  | none => s
  | some (n, x) =>
    let s := s.setSrc n x.delivered
    if srcFw n then s.hubRingLose x.hring else s.fnRingLose x.fn

/-- What becomes of a word that is still in error, by what it holds (R392). Data, indices and envelopes are the row's own matter. -/
def State.parityHeld (s : State) : ParityWord → State
  | .data => s
  | .index => s
  | .envelope => s
  | .cacheEntry pid k => { s with parts := Tab.upd s.parts pid (fun p => { p with cache := p.cache.eraseIdx k }) }
  | .summary n => s.updStn n (fun x => { x with sumAll := true })
  | .stationCopy => s
  | .faultRecord p =>
    match (s.pb p).staged with
    | [] => s
    | r :: _ => (s.updPb p (fun b => { b with staged := b.staged.drop 1 })).pbLose p r
  | .eventRecord => s.loseEvent
  | .partitionState pid => if Tab.has s.parts pid then s.ask 3 pid else s
  | .globalState => s.ask 4 32
  | .core n => if n < 8 then s.restartCore n else s
  | .alwaysOn => s.ask 4 32
  | .retention w => s.rsFail w

/-- The partition that an error record of a word names. -/
def State.parityPid (s : State) (u : Nat) : ParityWord → Nat
  | .partitionState pid => pid
  | .cacheEntry pid _ => pid
  | _ => ((unitStn u).bind s.ownerOf).getD 0x3F

/-- What the parity checks of a step do (R391-R393). The unit's reliability source is one of 264 to 383 (R325; log entry 88). -/
def State.parity (s : State) : Parity → State
  | .good => s
  | .replayed u n => s.parityCount u n false
  | .persistent u w a h =>
    let s := (s.parityCount u 1 true).elog
      { kind := 1, unit := u, stn := (unitStn u).getD 0x3F, pid := s.parityPid u h, detail := w % 2 ^ 32, addr := a % 2 ^ 64 }
    (s.raise (264 + Config.relSource u % 120) u).parityHeld h

/-- A word of kind `h` is still in error. -/
def parLost (p : Parity) (h : ParityWord) : Bool :=
  match p with
  | .persistent _ _ _ k => k == h
  | _ => false

/-- An index of a command is lost: it stops as under R77 step 3 and completes with ST_ABORTED and POISON set; its queue is not marked
guilty (R392). -/
def State.loseIndex (s : State) (cl : Client) : State := (s.updCmd cl (fun c => { c with poison := true })).cancelCmd cl stAborted

/-- What of a request a persistent error marks (R392): the 64-byte sector that holds the word, of an envelope all of it. -/
def Req.parityBad (r : Req) (par : Parity) : List (Nat × Nat) :=
  match par with
  | .persistent _ _ a h =>
    if h = .envelope then r.whole
    else if h = .data then (if r.addr ≤ a ∧ a < r.addr + r.len then [(a / 64 * 64, 64)] else r.whole)
    else []
  | _ => []

/-- MEMORY_RESPONSE with the outcome of its parity checks, which come when the response is consumed (R365, R391). -/
def State.response (s : State) (stn lane tag cid key type : Nat) (data : List Byte) (poison : Nat) (last : Bool) (par : Parity) : State :=
  let id := stnTag stn tag
  if s.portHeld stn then s else
  match Tab.at? s.tags id with
  | some r =>
    if par = .good ∨ !last ∨ !r.answeredBy lane cid key type then s.memResponse stn lane tag cid key type data poison last
    else
      let t := s.part id r.got 128 (if type = 0 then data else []) (r.beatBad type poison ++ r.parityBad par)
      let s := if r.bad ++ r.beatBad type poison ≠ [] then t.mpBad stn r else t
      let s := if parLost par .index then s.loseIndex r.client else s
      (s.answer id false).parity par
  | none => s.memResponse stn lane tag cid key type data poison last

/-- MEMORY_RESPONSE (R365). -/
def execMemoryResponse (stn lane tag cid key type : Nat) (beat : RespBeat) (last : Bool) (par : Parity) (s : State) : Out :=
  .next (s.response stn lane tag cid key type beat.data beat.poison last par)
/-- ENVELOPE_RECEIVED (R71): `tag` is the request's number in `tags`. An envelope in error is not executed, as after a failed read (R351,
R392). -/
def execEnvelopeReceived (tag : Nat) (par : Parity) (s : State) : Out :=
  .next (match Tab.at? s.tags tag with
    | some r => match r.pur with
      | .fetch _ _ _ _ => (s.answer tag (parLost par .envelope)).parity par
      | _ => s
    | none => s.deadLtp)
/-- OCCURRENCE (R102). -/
def execOccurrence (q seq sub stn : Nat) (par : Parity) (s : State) : Out :=
  .next (match s.look (ckey q seq) with
    | some _ =>
      if parLost par .index then (s.loseIndex (ckey q seq)).settleAfter.parity par else (s.occurrence (ckey q seq) sub stn).parity par
    | none => s)

end Sys2Proof.Machine
end

