-- ==== Sys2Proof/Machine/Dispatch.lean ====
section
/-! DEFINITION. Sys2Proof/Machine/Dispatch.lean: one arm per command. -/
namespace Sys2Proof.Machine

/-- The effect of a command on everything but the queue of waiting commands. -/
def exec (i : Instr) (s : State) : Host.Outcome State Fault Refusal :=
  match i with
  | .sqTailDoorbell fn off width v => Sys2Proof.Machine.execSqTailDoorbell fn off width v s
  | .cqHeadDoorbell fn off width v => Sys2Proof.Machine.execCqHeadDoorbell fn off width v s
  | .queueSelectAndFetch => Sys2Proof.Machine.execQueueSelectAndFetch s
  | .expressWindowEnd => Sys2Proof.Machine.execExpressWindowEnd s
  | .envelopeReceived tag par => Sys2Proof.Machine.execEnvelopeReceived tag par s
  | .commandCompletion q seq => Sys2Proof.Machine.execCommandCompletion q seq s
  | .cqItimeExpiry q => Sys2Proof.Machine.execCqItimeExpiry q s
  | .qctlResume fn q => Sys2Proof.Machine.execQctlResume fn q s
  | .qctlReset fn q => Sys2Proof.Machine.execQctlReset fn q s
  | .guiltyQueueResetDone q => Sys2Proof.Machine.execGuiltyQueueResetDone q s
  | .guiltyResetBoundExpiry q => Sys2Proof.Machine.execGuiltyResetBoundExpiry q s
  | .mqiEnable => Sys2Proof.Machine.execMqiEnable s
  | .registerWrite fn off width v => Sys2Proof.Machine.execRegisterWrite fn off width v s
  | .nop q seq => Sys2Proof.Machine.execNop q seq s
  | .fenceSignal q seq => Sys2Proof.Machine.execFenceSignal q seq s
  | .fenceCreate q seq => Sys2Proof.Machine.execFenceCreate q seq s
  | .fenceDestroy q seq => Sys2Proof.Machine.execFenceDestroy q seq s
  | .fenceClearError q seq => Sys2Proof.Machine.execFenceClearError q seq s
  | .fenceWait q seq => Sys2Proof.Machine.execFenceWait q seq s
  | .graphEdge q seq => Sys2Proof.Machine.execGraphEdge q seq s
  | .lookupPool q seq => Sys2Proof.Machine.execLookupPool q seq s
  | .lookupGather q seq => Sys2Proof.Machine.execLookupGather q seq s
  | .lookupMulti q seq => Sys2Proof.Machine.execLookupMulti q seq s
  | .occurrence q seq sub stn par => Sys2Proof.Machine.execOccurrence q seq sub stn par s
  | .partialArrival q seq sub stn pool => Sys2Proof.Machine.execPartialArrival q seq sub stn pool s
  | .stationFinalReport q seq stn => Sys2Proof.Machine.execStationFinalReport q seq stn s
  | .updateRows q seq => Sys2Proof.Machine.execUpdateRows q seq s
  | .updateAccum q seq => Sys2Proof.Machine.execUpdateAccum q seq s
  | .tableSwitchPublish q seq => Sys2Proof.Machine.execTableSwitchPublish q seq s
  | .tableSwitchNewBase q seq => Sys2Proof.Machine.execTableSwitchNewBase q seq s
  | .tableSwitchDiscard q seq => Sys2Proof.Machine.execTableSwitchDiscard q seq s
  | .switchPoint tid => Sys2Proof.Machine.execSwitchPoint tid s
  | .versionRetire tid ver => Sys2Proof.Machine.execVersionRetire tid ver s
  | .tableRetireWait q seq => Sys2Proof.Machine.execTableRetireWait q seq s
  | .tableRetireTable q seq => Sys2Proof.Machine.execTableRetireTable q seq s
  | .tableCompactCopy q seq => Sys2Proof.Machine.execTableCompactCopy q seq s
  | .copyInstall q seq => Sys2Proof.Machine.execCopyInstall q seq s
  | .tableCompactRebase q seq => Sys2Proof.Machine.execTableCompactRebase q seq s
  | .summaryRebuild stn => Sys2Proof.Machine.execSummaryRebuild stn s
  | .streamOpen q seq => Sys2Proof.Machine.execStreamOpen q seq s
  | .streamAppend q seq => Sys2Proof.Machine.execStreamAppend q seq s
  | .streamGather q seq => Sys2Proof.Machine.execStreamGather q seq s
  | .streamClose q seq => Sys2Proof.Machine.execStreamClose q seq s
  | .streamTrim q seq => Sys2Proof.Machine.execStreamTrim q seq s
  | .scanLutBuild q seq => Sys2Proof.Machine.execScanLutBuild q seq s
  | .scanPq q seq => Sys2Proof.Machine.execScanPq q seq s
  | .dispatch q seq => Sys2Proof.Machine.execDispatch q seq s
  | .copy q seq => Sys2Proof.Machine.execCopy q seq s
  | .census q seq => Sys2Proof.Machine.execCensus q seq s
  | .programLoad q seq => Sys2Proof.Machine.execProgramLoad q seq s
  | .programUnload q seq => Sys2Proof.Machine.execProgramUnload q seq s
  | .contextCreate q seq => Sys2Proof.Machine.execContextCreate q seq s
  | .contextDestroy q seq => Sys2Proof.Machine.execContextDestroy q seq s
  | .queueCreate q seq => Sys2Proof.Machine.execQueueCreate q seq s
  | .queueDestroy q seq => Sys2Proof.Machine.execQueueDestroy q seq s
  | .queueDrained q => Sys2Proof.Machine.execQueueDrained q s
  | .tableCreate q seq => Sys2Proof.Machine.execTableCreate q seq s
  | .partitionCreate q seq => Sys2Proof.Machine.execPartitionCreate q seq s
  | .partitionRemove q seq => Sys2Proof.Machine.execPartitionRemove q seq s
  | .partitionDrained pid => Sys2Proof.Machine.execPartitionDrained pid s
  | .tDrainExpiry pid => Sys2Proof.Machine.execTDrainExpiry pid s
  | .segmentSet q seq => Sys2Proof.Machine.execSegmentSet q seq s
  | .invalidateRange q seq => Sys2Proof.Machine.execInvalidateRange q seq s
  | .extentAck q seq isPort id => Sys2Proof.Machine.execExtentAck q seq isPort id s
  | .invalidateAckTimeout q seq ep => Sys2Proof.Machine.execInvalidateAckTimeout q seq ep s
  | .keyslotLoad q seq => Sys2Proof.Machine.execKeyslotLoad q seq s
  | .keyslotScrub q seq => Sys2Proof.Machine.execKeyslotScrub q seq s
  | .scrubTagsDrained slot late => Sys2Proof.Machine.execScrubTagsDrained slot late s
  | .keyAck stn slot op => Sys2Proof.Machine.execKeyAck stn slot op s
  | .keyAckTimeout stn slot => Sys2Proof.Machine.execKeyAckTimeout stn slot s
  | .firmwareStage q seq => Sys2Proof.Machine.execFirmwareStage q seq s
  | .firmwareActivate q seq => Sys2Proof.Machine.execFirmwareActivate q seq s
  | .liveUpdate q seq => Sys2Proof.Machine.execLiveUpdate q seq s
  | .trialConfirmTimer => Sys2Proof.Machine.execTrialConfirmTimer s
  | .confirm => Sys2Proof.Machine.execConfirm s
  | .commandTimeout q seq => Sys2Proof.Machine.execCommandTimeout q seq s
  | .parkedHeadTimeout q => Sys2Proof.Machine.execParkedHeadTimeout q s
  | .flr fn => Sys2Proof.Machine.execFlr fn s
  | .flrComplete fn => Sys2Proof.Machine.execFlrComplete fn s
  | .flrIsolationTimeout fn => Sys2Proof.Machine.execFlrIsolationTimeout fn s
  | .pfFunctionReset => Sys2Proof.Machine.execPfFunctionReset s
  | .functionStateUpdate fn en bme => Sys2Proof.Machine.execFunctionStateUpdate fn en bme s
  | .hostHotReset => Sys2Proof.Machine.execHostHotReset s
  | .inboundMmioRead fn off width tag => Sys2Proof.Machine.execInboundMmioRead fn off width tag s
  | .ltpCompletion tag cpl poison last => Sys2Proof.Machine.execLtpCompletion tag cpl poison last s
  | .ltpReadTimeout tag => Sys2Proof.Machine.execLtpReadTimeout tag s
  | .memoryResponse stn lane tag cid key type beat last par => Sys2Proof.Machine.execMemoryResponse stn lane tag cid key type beat last par s
  | .memoryTimeout stn tag => Sys2Proof.Machine.execMemoryTimeout stn tag s
  | .sweepStart => Sys2Proof.Machine.execSweepStart s
  | .memRdyRise stn => Sys2Proof.Machine.execMemRdyRise stn s
  | .memRdyFall stn => Sys2Proof.Machine.execMemRdyFall stn s
  | .postbagBatchWrite pb => Sys2Proof.Machine.execPostbagBatchWrite pb s
  | .postbagEnable v => Sys2Proof.Machine.execPostbagEnable v s
  | .postbagHeadWrite v => Sys2Proof.Machine.execPostbagHeadWrite v s
  | .faultLostClear v => Sys2Proof.Machine.execFaultLostClear v s
  | .xltWmapWrite v => Sys2Proof.Machine.execXltWmapWrite v s
  | .walkReadResponse tag status entry => Sys2Proof.Machine.execWalkReadResponse tag status entry s
  | .eventInputChange src level info => Sys2Proof.Machine.execEventInputChange src level info s
  | .eventDelivery => Sys2Proof.Machine.execEventDelivery s
  | .eventRingEnable fn v => Sys2Proof.Machine.execEventRingEnable fn v s
  | .eventRingHeadWrite fn v => Sys2Proof.Machine.execEventRingHeadWrite fn v s
  | .evcAck v => Sys2Proof.Machine.execEvcAck v s
  | .evcSwset fw v => Sys2Proof.Machine.execEvcSwset fw v s
  | .evcMaskSet fw k v => Sys2Proof.Machine.execEvcMaskSet fw k v s
  | .evcMaskClr fw k v => Sys2Proof.Machine.execEvcMaskClr fw k v s
  | .sourceConfigWrite fw route v => Sys2Proof.Machine.execSourceConfigWrite fw route v s
  | .evcClaim core => Sys2Proof.Machine.execEvcClaim core s
  | .evcDone core v => Sys2Proof.Machine.execEvcDone core v s
  | .frankingCreditReturn ep n => Sys2Proof.Machine.execFrankingCreditReturn ep n s
  | .upstreamBeat ep xid data poison last => Sys2Proof.Machine.execUpstreamBeat ep xid data poison last s
  | .doneResponse ep did stat res => Sys2Proof.Machine.execDoneResponse ep did stat res s
  | .engRdyChange ep up => Sys2Proof.Machine.execEngRdyChange ep up s
  | .engineQuiesceAck ep => Sys2Proof.Machine.execEngineQuiesceAck ep s
  | .engineReturnTimeout ep => Sys2Proof.Machine.execEngineReturnTimeout ep s
  | .flitReceive slot atStn flit => Sys2Proof.Machine.execFlitReceive slot atStn flit s
  | .replayTimeout slot atStn => Sys2Proof.Machine.execReplayTimeout slot atStn s
  | .linkTrainTimeout slot => Sys2Proof.Machine.execLinkTrainTimeout slot s
  | .linkTrainDone slot lanes slow => Sys2Proof.Machine.execLinkTrainDone slot lanes slow s
  | .cxDisable => Sys2Proof.Machine.execCxDisable s
  | .cxRestart => Sys2Proof.Machine.execCxRestart s
  | .spareGo v => Sys2Proof.Machine.execSpareGo v s
  | .spareWindowCheck slot toHub lane corrected unc => Sys2Proof.Machine.execSpareWindowCheck slot toHub lane corrected unc s
  | .spareRequest slot toHub lane => Sys2Proof.Machine.execSpareRequest slot toHub lane s
  | .switchOrder slot toHub lane count now => Sys2Proof.Machine.execSwitchOrder slot toHub lane count now s
  | .spareLockTimeout slot toHub => Sys2Proof.Machine.execSpareLockTimeout slot toHub s
  | .spareBackgroundRetrain slot toHub => Sys2Proof.Machine.execSpareBackgroundRetrain slot toHub s
  | .laneLoss slot toHub phys => Sys2Proof.Machine.execLaneLoss slot toHub phys s
  | .heartbeat => Sys2Proof.Machine.execHeartbeat s
  | .heartbeatAnswer stn units => Sys2Proof.Machine.execHeartbeatAnswer stn units s
  | .stationWatchdogExpiry stn core => Sys2Proof.Machine.execStationWatchdogExpiry stn core s
  | .stnHctlFence => Sys2Proof.Machine.execStnHctlFence s
  | .stationReturn stn => Sys2Proof.Machine.execStationReturn stn s
  | .stnHctlReturn => Sys2Proof.Machine.execStnHctlReturn s
  | .epRestart => Sys2Proof.Machine.execEpRestart s
  | .debugReadTimeout => Sys2Proof.Machine.execDebugReadTimeout s
  | .watchdogExpiry core => Sys2Proof.Machine.execWatchdogExpiry core s
  | .faultCoresHung => Sys2Proof.Machine.execFaultCoresHung s
  | .contextStep cid => Sys2Proof.Machine.execContextStep cid s
  | .engineStep ep => Sys2Proof.Machine.execEngineStep ep s
  | .partitionStep pid => Sys2Proof.Machine.execPartitionStep pid s
  | .chipStep => Sys2Proof.Machine.execChipStep s
  | .escalationBoundExpiry step id => Sys2Proof.Machine.execEscalationBoundExpiry step id s
  | .powerCycleStep => Sys2Proof.Machine.execPowerCycleStep s
  | .dumpRelease v => Sys2Proof.Machine.execDumpRelease v s
  | .rsramDataRead tag => Sys2Proof.Machine.execRsramDataRead tag s
  | .powerOn => Sys2Proof.Machine.execPowerOn s
  | .brownout => Sys2Proof.Machine.execBrownout s
  | .brownoutRelease => Sys2Proof.Machine.execBrownoutRelease s
  | .pinWarmReset => Sys2Proof.Machine.execPinWarmReset s
  | .trayReset => Sys2Proof.Machine.execTrayReset s
  | .softwareReset v => Sys2Proof.Machine.execSoftwareReset v s
  | .jtagChipReset => Sys2Proof.Machine.execJtagChipReset s
  | .tapReset => Sys2Proof.Machine.execTapReset s
  | .clockCheckRetry hubOk seqOk ltpOk => Sys2Proof.Machine.execClockCheckRetry hubOk seqOk ltpOk s
  | .memoryReadyTimeout stn => Sys2Proof.Machine.execMemoryReadyTimeout stn s
  | .hubClockStopped => Sys2Proof.Machine.execHubClockStopped s
  | .idleTimerDoze stn => Sys2Proof.Machine.execIdleTimerDoze stn s
  | .dozeTimerSleep stn => Sys2Proof.Machine.execDozeTimerSleep stn s
  | .sleepTimerOff stn => Sys2Proof.Machine.execSleepTimerOff stn s
  | .entryCommit stn => Sys2Proof.Machine.execEntryCommit stn s
  | .idleRequestTimeout blk id => Sys2Proof.Machine.execIdleRequestTimeout blk id s
  | .stationDemand stn => Sys2Proof.Machine.execStationDemand stn s
  | .psAck stn ack => Sys2Proof.Machine.execPsAck stn ack s
  | .wakeAckTimeout stn => Sys2Proof.Machine.execWakeAckTimeout stn s
  | .keepWarmLapse q => Sys2Proof.Machine.execKeepWarmLapse q s
  | .policyWrite v => Sys2Proof.Machine.execPolicyWrite v s
  | .replan ms => Sys2Proof.Machine.execReplan ms s
  | .autoReplan => Sys2Proof.Machine.execAutoReplan s
  | .frequencyStep stn => Sys2Proof.Machine.execFrequencyStep stn s
  | .arithFack stn f => Sys2Proof.Machine.execArithFack stn f s
  | .arithFackTimeout stn => Sys2Proof.Machine.execArithFackTimeout stn s
  | .avsRailWrite rail ans volts => Sys2Proof.Machine.execAvsRailWrite rail ans volts s
  | .uptimeTick => Sys2Proof.Machine.execUptimeTick s
  | .lifetimeCommit => Sys2Proof.Machine.execLifetimeCommit s
  | .optionCommit nvmOk => Sys2Proof.Machine.execOptionCommit nvmOk s
  | .wallSet v => Sys2Proof.Machine.execWallSet v s
  | .lcAdvance v => Sys2Proof.Machine.execLcAdvance v s
  | .odRead v => Sys2Proof.Machine.execOdRead v s
  | .odWrite v => Sys2Proof.Machine.execOdWrite v s
  | .canRequest frame => Sys2Proof.Machine.execCanRequest frame s
  | .canTime frame => Sys2Proof.Machine.execCanTime frame s
  | .canHeartbeat => Sys2Proof.Machine.execCanHeartbeat s
  | .canBusOff => Sys2Proof.Machine.execCanBusOff s
  | .monitorHelp => Sys2Proof.Machine.execMonitorHelp s
  | .monitorId => Sys2Proof.Machine.execMonitorId s
  | .monitorStat => Sys2Proof.Machine.execMonitorStat s
  | .monitorElog n => Sys2Proof.Machine.execMonitorElog n s
  | .monitorLlog n => Sys2Proof.Machine.execMonitorLlog n s
  | .monitorAge d => Sys2Proof.Machine.execMonitorAge d s
  | .monitorCx slot => Sys2Proof.Machine.execMonitorCx slot s
  | .monitorStn slot => Sys2Proof.Machine.execMonitorStn slot s
  | .monitorOdRead index sub => Sys2Proof.Machine.execMonitorOdRead index sub s
  | .monitorOdWrite index sub bytes => Sys2Proof.Machine.execMonitorOdWrite index sub bytes s
  | .unlock answer => Sys2Proof.Machine.execUnlock answer s
  | .lock => Sys2Proof.Machine.execLock s
  | .unlockExpiry => Sys2Proof.Machine.execUnlockExpiry s
  | .unlockLockoutEnd => Sys2Proof.Machine.execUnlockLockoutEnd s
  | .monitorReplan => Sys2Proof.Machine.execMonitorReplan s
  | .baud n => Sys2Proof.Machine.execBaud n s
  | .monitorDump k => Sys2Proof.Machine.execMonitorDump k s
  | .peek off => Sys2Proof.Machine.execPeek off s
  | .poke off v => Sys2Proof.Machine.execPoke off v s
  | .monitorReset dump => Sys2Proof.Machine.execMonitorReset dump s
  | .fuseRead w => Sys2Proof.Machine.execFuseRead w s
  | .fuseProgram w v fuseOk => Sys2Proof.Machine.execFuseProgram w v fuseOk s
  | .monitorLc v fuseOk => Sys2Proof.Machine.execMonitorLc v fuseOk s
  | .bootromId => Sys2Proof.Machine.execBootromId s
  | .bootlog => Sys2Proof.Machine.execBootlog s
  | .xload slot image => Sys2Proof.Machine.execXload slot image s
  | .bootromReset => Sys2Proof.Machine.execBootromReset s
  | .bootromPeek off => Sys2Proof.Machine.execBootromPeek off s
  | .bootromFuseRead w => Sys2Proof.Machine.execBootromFuseRead w s
  | .spareLocked slot toHub now => Sys2Proof.Machine.execSpareLocked slot toHub now s
  | .spareSwitchCountReached slot toHub => Sys2Proof.Machine.execSpareSwitchCountReached slot toHub s
  | .returnMemRdyTimeout stn => Sys2Proof.Machine.execReturnMemRdyTimeout stn s
  | .cxDisableClear => Sys2Proof.Machine.execCxDisableClear s
  | .tapInstructionLoad load => Sys2Proof.Machine.execTapInstructionLoad load s

end Sys2Proof.Machine
end

