-- ==== Sys2Proof/Safety.lean ====
section
/-! DEFINITION. Sys2Proof/Safety.lean: the terms in which statements about the block are made: the invariants that every
step keeps, when a command may run, and how two states compare. -/
namespace Sys2Proof

/-! ### How tables compare -/

/-- Table `t'` is `t` with `v` under key `k`. -/
def Tab.becomes {α : Type} (t t' : Tab α) (k : Nat) (v : α) : Prop :=
  Tab.at? t' k = some v ∧ ∀ j, j ≠ k → Tab.at? t' j = Tab.at? t j

/-- Table `t'` is `t` without key `k`. -/
def Tab.loses {α : Type} (t t' : Tab α) (k : Nat) : Prop :=
  Tab.at? t' k = none ∧ ∀ j, j ≠ k → Tab.at? t' j = Tab.at? t j

end Sys2Proof

namespace Sys2Proof.Machine

/-! ### Invariants -/

/-- The memories on the far side of the ports are in canonical form. -/
def State.memWf (s : State) : Bool := s.host.wf && (Tab.sorted s.stnMem && s.stnMem.all (fun e => e.2.wf && e.2 != ⟨[], []⟩))

/-- Every fuse bit programmed in `s` is programmed in `t` (R386). -/
def State.fusesKept (s t : State) : Prop := ∀ w b, (s.fuse w).testBit b = true → (t.fuse w).testBit b = true

/-! ### When a command may run -/

/-- Register writes of function `fn` reach the block: it has reached READY and the function is enabled (R353, R407). -/
abbrev State.reaches (s : State) (fn : Nat) : Prop := s.up = true ∧ (Tab.at? s.fns fn).map (·.en) = some true

/-- `c` is command (q, seq), and its own row may start it (R72). -/
abbrev State.starts (s : State) (q seq : Nat) (c : Cmd) : Prop := s.cmd (ckey q seq) = some c ∧ s.mayStart c = true

/-- The operands of command (q, seq), which is `c`, have been read, and its own row goes on with them. -/
abbrev State.resumes (s : State) (q seq : Nat) (c : Cmd) : Prop :=
  s.cmd (ckey q seq) = some c ∧ c.again = true ∧ c.stage = 1 ∧ c.operandBad = false

/-! ### How states compare -/

/-- A hub reset takes `s` to `w`: what was created and what was in flight is gone, registers take their reset values, and what the
power classes O, L and A hold stays, with the memories behind the ports (R421, R434). -/
def State.clearedTo (s w : State) : Prop :=
  (w.mqi = {} ∧ w.queues = [] ∧ w.cmds = [] ∧ w.ctxs = [] ∧ w.parts = [] ∧ w.fences = [] ∧ w.edges = [] ∧ w.tags = [] ∧ w.waiting = [] ∧
    w.postbags = [(48, {})] ∧ w.keys = [] ∧ w.tables = [] ∧ w.streams = [] ∧ w.evc = {} ∧ w.links = [] ∧ w.cores = [] ∧ w.cxSel = 0) ∧
  (w.pending = s.pending ∧ w.build = s.build ∧ w.host = s.host ∧ w.stnMem = s.stnMem ∧ w.opts = s.opts ∧ w.nvm = s.nvm ∧
    w.logAt = s.logAt ∧ w.logSeq = s.logSeq ∧ w.fuses = s.fuses ∧ w.life = s.life)


/-- From `s` to `t` command `cl`, which is `c` in `s`, completes with a status and completion fields; every other command stays as
it is (R281). -/
def State.completes (s t : State) (cl : Client) (c : Cmd) (st count aux : Nat) : Prop :=
  Tab.becomes s.cmds t.cmds cl { c with phase := .done, status := st, count := count % 2 ^ 32, aux := min aux (2 ^ 32 - 1) }

end Sys2Proof.Machine
end

