-- ==== Sys2Proof/Certificates/Slice0/Obligations.lean ====
section
/-! DEFINITION. Sys2Proof/Certificates/Slice0/Obligations.lean: the statements about the block. A clause says, for every state and
operands that meet its hypotheses, which next state the command answers: the states compare through the fields named in an
equation `t = { s with … }`, and every field not named there is as it was. -/
open Sys2Proof Sys2Proof.Machine

/-! ### The block as a whole -/

/-- A step takes the command at the front of the queue and is that command's effect with the queue's rest; with none waiting the block idles (the
idling is log entry 9, the model's choice). -/
def Obligations.StepTakesTheFrontCommand : Prop :=
  (∀ (c : Instr) (rest : List Instr) (s : State), step { s with pending := c :: rest } = exec c { s with pending := rest }) ∧
  (∀ s : State, s.pending = [] → step s = .next s)

/-- The memories behind the ports keep their canonical form through every command: addresses strictly rise, and no byte is listed that an unlisted
address reads as. -/
def Obligations.StepKeepsMemoriesCanonical : Prop :=
  ∀ s t : State, s.memWf = true → step s = .next t → t.memWf = true

/-- The memories are in canonical form after reset. -/
def Obligations.ResetMemoriesCanonical : Prop :=
  State.reset.memWf = true ∧ State.reset.pending = []

/-- A fuse bit once programmed stays programmed through every command (R386). -/
def Obligations.StepKeepsProgrammedFuses : Prop :=
  ∀ s t : State, step s = .next t → s.fusesKept t

/-- Nothing but the last step of the escalation ladder raises TRAY_PCR, and once raised it stays until power is lost (R384): whatever command comes,
TRAY_PCR rises only by POWER_CYCLE_STEP and falls only by POWER_ON. -/
def Obligations.TrayPcrRisesByTheLastStepAlone : Prop :=
  ∀ (s t : State) (c : Instr) (rest : List Instr), s.pending = c :: rest → step s = .next t →
    (s.tray = false → t.tray = true → c = .powerCycleStep) ∧ (s.tray = true → t.tray = false → c = .powerOn)

/-! ### Queues and the fetch engine (02) -/

/-- A tail doorbell in range moves the tail and wakes an IDLE queue with work; a head doorbell in range moves the completion head (R67, R84). A stale
tail or head doorbell is ignored and counted, one to a queue neither IDLE nor ACTIVE is discarded and counted, and one that names no queue is counted
for its function (R57, R66, R67). -/
def Obligations.DoorbellsMoveRingPositions : Prop :=
  ((∀ (s : State) (fn dbp dbs : Nat) (v : BitVec 64) (qid : Nat) (q : Queue) (p : Nat), s.reaches fn → dbs < 512 →
    s.queueAt fn dbp dbs = some (qid, q) → Tab.at? s.queues qid = some q → (q.st = .idle ∨ q.st = .active) →
    posDec q.n v.toNat = some p → posSub q.n p q.h ≤ q.n → posSub q.n q.t q.h ≤ posSub q.n p q.h →
    ∃ u : State, exec (.sqTailDoorbell fn (0x01000000 + 0x1000 * dbp + 8 * dbs) 4 v) s = .next (u.warm q) ∧
      u = { s with queues := u.queues } ∧
      Tab.becomes s.queues u.queues qid
        { q with t := p, kwOn := true, st := if q.st = .idle ∧ p ≠ q.f then .active else q.st }) ∧
  (∀ (s : State) (fn dbp dbs : Nat) (v : BitVec 64) (qid : Nat) (q : Queue) (p : Nat), s.reaches fn → dbs < 512 →
    s.queueAt fn dbp dbs = some (qid, q) → Tab.at? s.queues qid = some q →
    posDec q.n v.toNat = some p → posSub q.n p q.k ≤ posSub q.n q.c q.k →
    ∃ u : State, exec (.cqHeadDoorbell fn (0x01000004 + 0x1000 * dbp + 8 * dbs) 4 v) s = .next (u.settleQueue qid) ∧
      u = { s with queues := u.queues } ∧ Tab.becomes s.queues u.queues qid { q with k := p })) ∧
  ((∀ (s : State) (fn dbp dbs : Nat) (v : BitVec 64) (qid : Nat) (q : Queue) (p : Nat), s.reaches fn → dbs < 512 →
    s.queueAt fn dbp dbs = some (qid, q) → Tab.at? s.queues qid = some q → (q.st = .idle ∨ q.st = .active) →
    posDec q.n v.toNat = some p → (q.n < posSub q.n p q.h ∨ posSub q.n p q.h < posSub q.n q.t q.h) →
    ∃ u : State, exec (.sqTailDoorbell fn (0x01000000 + 0x1000 * dbp + 8 * dbs) 4 v) s = .next u ∧
      u = { s with queues := u.queues } ∧ Tab.becomes s.queues u.queues qid { q with stale := satAdd 16 q.stale 1 }) ∧
  (∀ (s : State) (fn dbp dbs : Nat) (v : BitVec 64) (qid : Nat) (q : Queue), s.reaches fn → dbs < 512 →
    s.queueAt fn dbp dbs = some (qid, q) → Tab.at? s.queues qid = some q → q.st ≠ .idle → q.st ≠ .active →
    ∃ u : State, exec (.sqTailDoorbell fn (0x01000000 + 0x1000 * dbp + 8 * dbs) 4 v) s = .next u ∧
      u = { s with queues := u.queues } ∧ Tab.becomes s.queues u.queues qid { q with drop := satAdd 16 q.drop 1 }) ∧
  (∀ (s : State) (fn dbp dbs : Nat) (v : BitVec 64) (f : Fn), s.reaches fn → Tab.at? s.fns fn = some f → dbs < 512 →
    s.queueAt fn dbp dbs = none →
    ∃ u : State, exec (.sqTailDoorbell fn (0x01000000 + 0x1000 * dbp + 8 * dbs) 4 v) s = .next u ∧
      exec (.cqHeadDoorbell fn (0x01000004 + 0x1000 * dbp + 8 * dbs) 4 v) s = .next u ∧
      u = { s with fns := u.fns } ∧ Tab.becomes s.fns u.fns fn { f with badDb := satAdd 16 f.badDb 1 }))

/-- QID 0 is served first: the fetch engine issues one read of its ring at F, and F advances over what was read; QID 0 goes IDLE when that reaches the
tail (R76, R80). The end of an express window clears every partition's count (R82). -/
def Obligations.FetchEngineServesQidZeroFirst : Prop :=
  (∀ (s : State) (q : Queue) (n id : Nat), Tab.at? s.queues 0 = some q → q.cid = 0 → q.sq % 4096 = 0 → (∀ e ∈ s.queues, e.2.st ≠ .stopping) →
    s.fetchReads < 256 → (∀ r ∈ s.waiting, r.list = false) → s.mayFetch 0 q = n + 1 → s.reqId 0 = (0, none) → (Tab.at? s.ctxs 0).bind (·.pid) = none → s.fnOk 0 = true →
    Tab.freeFrom s.tags 0 1024 = some id →
    ∃ (t : State) (k : Nat), exec .queueSelectAndFetch s = .next t ∧ 1 ≤ k ∧ k ≤ n + 1 ∧ k ≤ 8 ∧
      t = { s with queues := t.queues, tags := t.tags, out := t.out, xlt := t.xlt } ∧
      t.out = s.out ++ [.ltpRead 0 none (q.sq + 64 * (q.f % q.n)) (64 * k) id] ∧ Tab.has t.tags id = true ∧
      Tab.becomes s.queues t.queues 0
        { q with f := posAdd q.n q.f k, st := if posAdd q.n q.f k = q.t then .idle else q.st }) ∧
  (∀ s : State, ∃ t : State, exec .expressWindowEnd s = .next t ∧ t = { s with arb := t.arb } ∧
    t.arb = { s.arb with express := [] } ∧ ∀ pid, t.expressLeft pid = s.mqi.xcap)

/-- An envelope without fences is numbered NEXT_SEQ when it is received, SQ_HEAD moves past it, and with none before it waiting for admission it is
admitted at once; the chain of a DISPATCH is then read ahead of its row, as long as fewer than 1,024 are held (R71, R72, R238, R249). -/
def Obligations.ReceivedEnvelopeIsNumberedAndAdmitted : Prop :=
  ∀ (s w : State) (tag : Nat) (r : Req) (qid : Nat) (q : Queue), Tab.at? s.tags tag = some r → r.stn = none →
    r.pur = .fetch qid q.h 1 false → r.bad = [] → w = s.retire tag → w.storedBad ⟨true, 0, r.addr⟩ 64 = [] → Tab.at? w.queues qid = some q → q.gotten = [] →
    q.h < 2 * q.n → w.unadmitted qid = [] → w.cmd (ckey qid q.nextSeq) = none →
    let env := w.host.read r.addr 64
    bits (rd env 0 4) 16 3 = 0 → bits (rd env 0 4) 19 2 = 0 →
    (opFields (rd env 0 1)).isSome = true → opAllowed qid (rd env 0 1) = true →
    ∃ u : State, exec (.envelopeReceived tag .good) s = .next u.settleIso.settleReads ∧
      u = { w with queues := u.queues, cmds := u.cmds, admitted := w.admitted + 1 } ∧
      Tab.becomes w.queues u.queues qid { q with h := posAdd q.n q.h 1, nextSeq := (q.nextSeq + 1) % 2 ^ 48 } ∧
      Tab.becomes w.cmds u.cmds (ckey qid q.nextSeq)
        { q := qid, seq := q.nextSeq, env := env, ext := [], phase := .admitted, order := w.admitted,
          pre := b2n (rd env 0 1 == 0x30 && qid != 0 && decide (w.chains < 1024)) }

/-- A completed command none of whose memory operations is outstanding leaves PK4 as one 32-byte record at the completion tail, which advances; its
signals, pins and reservations are settled after its record (R43, R44, R70, R73, R158, R239). The completion timer's end sends the message it delayed
(R74). RESUME makes a STOPPED queue IDLE (R58, R75). -/
def Obligations.CompletionWritesOneRecord : Prop :=
  (∀ (s : State) (q seq : Nat) (c : Cmd) (x : Queue), s.cmd (ckey q seq) = some c → c.q = q → c.phase = .done → s.busy (ckey q seq) = false →
    Tab.at? s.queues q = some x → x.room = true → x.cid = 0 → s.reqId 0 = (0, none) → (Tab.at? s.ctxs 0).bind (·.pid) = none →
    s.fnOk 0 = true →
    ∃ (u : State) (v : Nat), exec (.commandCompletion q seq) s =
        .next ((((u.signalAll c).releasePins c).endWriter (ckey q seq) c).freeFences.settleQueue q).settleAfter ∧
      u = { s with cmds := u.cmds, queues := u.queues, host := u.host, out := u.out, fresh := s.fresh + 1, xlt := u.xlt, fns := u.fns,
                   incr := u.incr } ∧
      Tab.loses s.cmds u.cmds (ckey q seq) ∧ u.host = s.host.write (x.cq + 32 * (x.c % x.n)) (s.cmdRecord x c) false ∧
      Tab.becomes s.queues u.queues q { x with c := posAdd x.n x.c 1, since := v, itimer := (Tab.atD u.queues q x).itimer }) ∧
  ((∀ (s : State) (q : Nat) (x : Queue), Tab.at? s.queues q = some x → x.itimer = true → x.vec ≠ 0x7FF → s.fnOk (s.reqId x.cid).1 = true →
    ∃ t : State, exec (.cqItimeExpiry q) s = .next t ∧ t = { s with queues := t.queues, out := t.out } ∧
      t.out = s.out ++ [.irq (s.reqId x.cid).1 x.vec] ∧ Tab.becomes s.queues t.queues q { x with since := 0, itimer := false }) ∧
  (∀ (s : State) (fn q : Nat) (x : Queue), s.reaches fn → s.queueOf fn q = some x → Tab.at? s.queues q = some x → x.st = .stopped →
    ∃ t : State, exec (.qctlResume fn q) s = .next t ∧ t = { s with queues := t.queues } ∧
      Tab.becomes s.queues t.queues q { x with st := .idle }) ∧
  (∀ (s : State) (fn q : Nat) (f : Fn), s.reaches fn → Tab.at? s.fns fn = some f → s.queueOf fn q = none →
    ∃ t : State, exec (.qctlResume fn q) s = .next t ∧ t = { s with fns := t.fns } ∧
      Tab.becomes s.fns t.fns fn { f with badQctl := satAdd 16 f.badQctl 1 }))

/-! ### Fences and the dependency graph (08) -/

/-- NOP completes with ST_OK and changes nothing else; with a reserved bit set it completes with ST_BAD_OPERAND (R261, R264). FENCE_CREATE takes the
lowest free FID (log entry 7), within the partition's quota, and gives the fence the value of the command (R229, R233). FENCE_WAIT completes at once
with ST_OK when the fence has reached the value, with ST_DEPENDENCY_FAILED when it has failed (ST_OK and RESULT_AUX 1 with TOLERATE), and otherwise
runs on (R232, R234). -/
def Obligations.NopAndFenceCommands : Prop :=
  (∀ (s : State) (q seq : Nat) (c : Cmd), s.starts q seq c → c.opcode = 0x00 →
    ∃ t : State, exec (.nop q seq) s = .next t ∧ t = { s with cmds := t.cmds, xlt := t.xlt } ∧
      s.completes t (ckey q seq) c (if c.clean = true then stOk else stBadOperand) 0 0) ∧
  ((∀ (s : State) (q seq : Nat) (c : Cmd) (fid : Nat), s.starts q seq c → c.opcode = 0x01 → c.fmode = 1 → c.fsigOk = true →
    Tab.freeFrom s.fences 0 262144 = some fid →
    let pid := if c.q = 0 then none else some (s.pidOf (s.cidOf c))
    s.fencesOf pid < s.quotaOf pid →
    ∃ t : State, exec (.fenceCreate q seq) s = .next t ∧ t = { s with fences := t.fences, cmds := t.cmds, xlt := t.xlt } ∧
      Tab.becomes s.fences t.fences fid
        { owner := s.cidOf c, pid := pid, shared := c.q != 0 && c.fld 8 1 4 1 == 1, value := c.fval } ∧
      s.completes t (ckey q seq) c stOk fid 0) ∧
  (∀ (s : State) (q seq : Nat) (c : Cmd), s.starts q seq c → c.opcode = 0x01 → c.fmode = 1 → c.fsigOk = true →
    let pid := if c.q = 0 then none else some (s.pidOf (s.cidOf c))
    s.quotaOf pid ≤ s.fencesOf pid →
    ∃ t : State, exec (.fenceCreate q seq) s = .next t ∧ t = { s with cmds := t.cmds, xlt := t.xlt } ∧
      s.completes t (ckey q seq) c stNoFence 0 0)) ∧
  (∀ (s : State) (q seq : Nat) (c : Cmd) (f : Fence), s.starts q seq c → c.opcode = 0x02 → c.clean = true →
    s.nameFence c.q (s.cidOf c) c.fid = .ok f →
    (c.fval ≤ f.value → ¬(f.err = true ∧ f.errVal ≤ c.fval) →
      ∃ t : State, exec (.fenceWait q seq) s = .next t ∧ t = { s with cmds := t.cmds, xlt := t.xlt } ∧
        Tab.becomes s.cmds t.cmds (ckey q seq)
          { c with phase := .done, stage := 8, work := .fence c.fid, status := stOk, count := 0, aux := 0 }) ∧
    (f.err = true → f.errVal ≤ c.fval →
      ∃ t : State, exec (.fenceWait q seq) s = .next t ∧ t = { s with cmds := t.cmds, xlt := t.xlt } ∧
        Tab.becomes s.cmds t.cmds (ckey q seq)
          { c with phase := .done, stage := 8, work := .fence c.fid, count := 0,
                   status := if c.fld 8 1 0 1 = 1 then stOk else stDependencyFailed, aux := if c.fld 8 1 0 1 = 1 then 1 else 0 }) ∧
    (f.value < c.fval → ¬(f.err = true ∧ f.errVal ≤ c.fval) → c.nsig = 0 →
      ∃ t : State, exec (.fenceWait q seq) s = .next t ∧ t = { s with cmds := t.cmds } ∧
        Tab.becomes s.cmds t.cmds (ckey q seq) { c with phase := .running, stage := 8, work := .fence c.fid }))

/-- FENCE_SIGNAL raises the fence to at least the value, an error signal marks it from the least such value on, and the completion reports the value
after the edges that this fires (R231, R233, R240). FENCE_CLEAR_ERROR, by the owner or on QID 0, clears the error and reports the value; FENCE_DESTROY
marks the fence dead, drops the edges into it, signals an error at the highest value and completes once nothing names the fence (R233, R240). -/
def Obligations.FencesAreSignalledAndCleared : Prop :=
  (∀ (s : State) (q seq : Nat) (c : Cmd) (f : Fence), s.starts q seq c → c.opcode = 0x01 → c.fmode = 0 → c.fsigOk = true →
    s.nameFence c.q (s.cidOf c) c.fid = .ok f →
    let err := c.fld 8 1 3 1 == 1
    ∃ u w : State, u = { s with fences := u.fences, parts := u.parts, grf := u.grf } ∧
      Tab.becomes s.fences u.fences c.fid { f with
        value := max f.value c.fval
        err := err || f.err
        errVal := if err then (if f.err then min f.errVal c.fval else c.fval) else f.errVal } ∧
      w = u.fireEdges (u.edges.length + 1) ∧
      exec (.fenceSignal q seq) s = .next (w.finish (ckey q seq) stOk (((Tab.at? w.fences c.fid).map (·.value)).getD 0)
        (b2n (((Tab.at? w.fences c.fid).map (·.err)).getD false))).examine) ∧
  ((∀ (s : State) (q seq : Nat) (c : Cmd) (f : Fence), s.starts q seq c → c.opcode = 0x01 → c.fmode = 3 → c.fsigOk = true →
    s.nameFence c.q (s.cidOf c) c.fid = .ok f → (c.q = 0 ∨ f.owner = s.cidOf c) →
    ∃ t : State, exec (.fenceClearError q seq) s = .next t ∧ t = { s with fences := t.fences, cmds := t.cmds, xlt := t.xlt } ∧
      Tab.becomes s.fences t.fences c.fid { f with err := false, errVal := 0 } ∧
      s.completes t (ckey q seq) c stOk f.value 0) ∧
  (∀ (s : State) (q seq : Nat) (c : Cmd) (f : Fence), s.starts q seq c → c.opcode = 0x01 → c.fmode = 2 → c.fsigOk = true →
    s.nameFence c.q (s.cidOf c) c.fid = .ok f → (c.q = 0 ∨ f.owner = s.cidOf c) →
    ∃ u : State, u = { s with cmds := u.cmds, fences := u.fences, edges := u.edges } ∧
      Tab.becomes s.cmds u.cmds (ckey q seq) { c with phase := .running, stage := 8, work := .fence c.fid } ∧
      Tab.becomes s.fences u.fences c.fid { f with dead := true } ∧ (∀ k e, (k, e) ∈ u.edges ↔ (k, e) ∈ s.edges ∧ e.dst ≠ c.fid) ∧
      exec (.fenceDestroy q seq) s = .next (u.signal c.fid (2 ^ 64 - 1) true).examine.freeFences))

/-- GRAPH_EDGE whose source wait is unmet installs an edge, unless that closes a cycle, which it reports with no effect but the counts of the search;
whose source wait is over it signals at once with RESULT_AUX 1 (R240, R241, R243). -/
def Obligations.GraphEdgeInstallsOrFires : Prop :=
  (∀ (s : State) (q seq : Nat) (c : Cmd) (f g : Fence) (k : Nat), s.starts q seq c → c.opcode = 0x03 → c.clean = true →
    s.nameFence c.q (s.cidOf c) c.fid = .ok f → s.nameFence c.q (s.cidOf c) (c.fld 24 4 0 18) = .ok g → c.fid ≠ c.fld 24 4 0 18 →
    Tab.freeFrom s.edges 0 65536 = some k → s.waitSt c.fid (c.num 16 8) = .unmet →
    let e : Edge := ⟨c.fid, c.num 16 8, c.fld 24 4 0 18, c.num 32 8⟩
    let t' := { s with edges := Tab.put s.edges k e }
    ∃ t : State, exec (.graphEdge q seq) s = .next t ∧
      ((t'.search (2 * c.fld 24 4 0 18)).2 = false → t = { s with edges := t.edges, grf := t.grf, cmds := t.cmds, xlt := t.xlt } ∧
        Tab.becomes s.edges t.edges k e ∧ s.completes t (ckey q seq) c stOk 0 0) ∧
      ((t'.search (2 * c.fld 24 4 0 18)).2 = true → t = { s with grf := t.grf, cmds := t.cmds, xlt := t.xlt } ∧
        s.completes t (ckey q seq) c stDependencyCycle 0 0)) ∧
  (∀ (s : State) (q seq : Nat) (c : Cmd) (f g : Fence) (k : Nat), s.starts q seq c → c.opcode = 0x03 → c.clean = true →
    s.nameFence c.q (s.cidOf c) c.fid = .ok f → s.nameFence c.q (s.cidOf c) (c.fld 24 4 0 18) = .ok g → c.fid ≠ c.fld 24 4 0 18 →
    Tab.freeFrom s.edges 0 65536 = some k → s.waitSt c.fid (c.num 16 8) ≠ .unmet →
    exec (.graphEdge q seq) s = .next (((s.signal (c.fld 24 4 0 18) (c.num 32 8) (decide (s.waitSt c.fid (c.num 16 8) = .failed))).finish
      (ckey q seq) stOk 0 1).examine))

/-- R241: GRAPH_EDGE is checked in order for a reserved bit, its fences (SRC first), SRC equal to DST, a free edge, and a cycle under R243; the first
check that fails decides the status, and neither an edge nor a signal comes of it. -/
def Obligations.GraphEdgeIsCheckedInOrder : Prop :=
  ∀ (s : State) (q seq : Nat) (c : Cmd), s.starts q seq c → c.opcode = 0x03 →
    let dst := c.fld 24 4 0 18
    let named := fun (fid : Nat) => s.nameFence c.q (s.cidOf c) fid
    let fails := fun (st : Nat) => ∃ t : State, exec (.graphEdge q seq) s = .next t ∧ t = { s with cmds := t.cmds, xlt := t.xlt } ∧
      s.completes t (ckey q seq) c st 0 0
    (c.clean = false → fails stBadOperand) ∧
    (c.clean = true → ∀ st r, named c.fid = .error (.fail st r) → fails st ∧ (st = stBadFence ∨ st = stNotPermitted)) ∧
    (∀ f, c.clean = true → named c.fid = .ok f → ∀ st r, named dst = .error (.fail st r) → fails st ∧ (st = stBadFence ∨ st = stNotPermitted)) ∧
    (∀ f, c.clean = true → named c.fid = .ok f → c.fid = dst → fails stDependencyCycle) ∧
    (∀ f g, c.clean = true → named c.fid = .ok f → named dst = .ok g → c.fid ≠ dst → Tab.freeFrom s.edges 0 65536 = none → fails stNoEdge) ∧
    (∀ f g k, c.clean = true → named c.fid = .ok f → named dst = .ok g → c.fid ≠ dst → Tab.freeFrom s.edges 0 65536 = some k →
      s.waitSt c.fid (c.num 16 8) = .unmet →
      ({ s with edges := Tab.put s.edges k ⟨c.fid, c.num 16 8, dst, c.num 32 8⟩ }.search (2 * dst)).2 = true →
      ∃ t : State, exec (.graphEdge q seq) s = .next t ∧ t = { s with grf := t.grf, cmds := t.cmds, xlt := t.xlt } ∧
        s.completes t (ckey q seq) c stDependencyCycle 0 0)

/-! ### Cancellation, timeouts and function resets (02, 10) -/

/-- A queue reset by its function enters RESETTING with CAUSE 6, its reads end and each of its commands is cancelled; once none is left it writes its
marker, discards the slots between head and tail and enters STOPPED; its bound expiring asks for the context step (R77, R79). A parked head whose
timeout ends completes with ST_TIMEOUT, and its queue is marked guilty with CAUSE 5 (R245, R397); so does an admitted command that has not started,
but for a FENCE_WAIT, a TABLE_SWITCH and a DISPATCH, which leave their queue as it is, and one whose status is decided while its writes are not
acknowledged (R396). A FENCE_WAIT that expires, a switch before its switch point and a command still held from distribution end with ST_TIMEOUT and
leave their queue; a DISPATCH that waits on its engine asks for the engine step. Each expiry writes an error record of KIND TIMEOUT (R397). -/
def Obligations.ResetsAndTimeoutsEndCommands : Prop :=
  ((∀ (s : State) (fn q : Nat) (x : Queue), s.reaches fn → s.queueOf fn q = some x → Tab.at? s.queues q = some x →
    (x.st = .idle ∨ x.st = .active ∨ x.st = .stopping ∨ x.st = .stopped) →
    ∃ u : State, exec (.qctlReset fn q) s = .next ((u.cmdsOf q).foldl (fun s cl => s.cancelCmd cl stAborted) u).settleAfter ∧
      u = { s with queues := u.queues, tags := u.tags, waiting := u.waiting } ∧
      Tab.becomes s.queues u.queues q { x with st := .resetting, cause := 6, gotten := [] } ∧
      (∀ id r p n b, Tab.at? u.tags id = some r → r.pur = .fetch q p n b → b = true)) ∧
  (∀ (s : State) (q : Nat) (x : Queue) (sps : List Span), Tab.at? s.queues q = some x → x.st = .resetting → s.received q = 0 →
    x.room = true → 0 < x.n → s.xlat (ringClient q) x.cid true (x.cq + 32 * (x.c % x.n)) 32 = .ok sps → (∀ p ∈ sps, p.tgt.isSome = true) →
    ∃ (u : State) (y : Queue), exec (.guiltyQueueResetDone q) s = .next u.settleSteps ∧ Tab.becomes s.queues u.queues q y ∧
      y.st = .stopped ∧ y.t = x.h ∧ y.f = x.h ∧ y.h = x.h ∧ y.disc = posSub x.n x.t x.h ∧ y.c = posAdd x.n x.c 1 ∧
      y.cause = x.cause ∧ y.nextSeq = x.nextSeq ∧ u.cmds = s.cmds ∧ u.fences = s.fences ∧ u.tables = s.tables) ∧
  (∀ (s : State) (q : Nat) (x : Queue), Tab.at? s.queues q = some x → s.resetLate q = true →
    ∃ t : State, exec (.guiltyResetBoundExpiry q) s = .next t ∧ t = { s with want := t.want } ∧ (1, x.cid) ∈ t.want ∧
      ∀ w ∈ t.want, w ∈ s.want ∨ w = (1, x.cid))) ∧
  ((∀ (s : State) (q : Nat) (c : Cmd) (x : Queue), (s.unadmitted q).head? = some c → c.phase = .parked → c.cancel = none → c.q = q →
    s.cmd (ckey q c.seq) = some c → s.cmdsOf q = [ckey q c.seq] → Tab.at? s.queues q = some x → (x.st = .idle ∨ x.st = .active) →
    ∃ u : State, exec (.parkedHeadTimeout q) s = .next u.settleAfter.settleAfter ∧
      u = { s.tmoRecord c with queues := u.queues, cmds := u.cmds, tags := u.tags, waiting := u.waiting, xlt := u.xlt } ∧
      s.completes u (ckey q c.seq) c stTimeout 0 0 ∧
      Tab.becomes s.queues u.queues q { x with st := .resetting, cause := 5, gotten := [] }) ∧
  (∀ (s : State) (q seq : Nat) (c : Cmd) (x : Queue), s.cmd (ckey q seq) = some c → c.phase = .admitted → c.cancel = none → c.q = q →
    c.opcode ≠ 0x02 → c.opcode ≠ 0x1A → c.opcode ≠ 0x30 →
    s.cmdsOf q = [ckey q seq] → Tab.at? s.queues q = some x → (x.st = .idle ∨ x.st = .active) →
    ∃ u : State, exec (.commandTimeout q seq) s = .next u.settleAfter.settleAfter ∧
      u = { s.tmoRecord c with queues := u.queues, cmds := u.cmds, tags := u.tags, waiting := u.waiting, xlt := u.xlt } ∧
      s.completes u (ckey q seq) c stTimeout 0 0 ∧
      Tab.becomes s.queues u.queues q { x with st := .resetting, cause := 5, gotten := [] }) ∧
  (∀ (s : State) (q seq : Nat) (c : Cmd), s.cmd (ckey q seq) = some c → c.phase = .admitted → c.cancel = none →
    (c.opcode = 0x02 ∨ c.opcode = 0x1A ∨ c.opcode = 0x30) →
    ∃ u : State, exec (.commandTimeout q seq) s = .next u.settleAfter ∧ u = { s.tmoRecord c with cmds := u.cmds, xlt := u.xlt } ∧
      s.completes u (ckey q seq) c stTimeout 0 0) ∧
  (∀ (s : State) (q seq : Nat) (c : Cmd) (x : Queue), s.cmd (ckey q seq) = some c → c.phase = .done → s.busy (ckey q seq) = true → c.q = q →
    s.cmdsOf q = [ckey q seq] → Tab.at? s.queues q = some x → (x.st = .idle ∨ x.st = .active) →
    ∃ u : State, exec (.commandTimeout q seq) s = .next u.settleAfter.settleAfter ∧
      u = { s.tmoRecord c with queues := u.queues, cmds := u.cmds, tags := u.tags, waiting := u.waiting } ∧
      Tab.becomes s.cmds u.cmds (ckey q seq) { c with status := stTimeout, poison := c.poison || c.left } ∧
      Tab.becomes s.queues u.queues q { x with st := .resetting, cause := 5, gotten := [] }) ∧
  (∀ (s : State) (q seq : Nat) (c : Cmd), s.cmd (ckey q seq) = some c → c.phase = .running → c.cancel = none → c.opcode = 0x02 →
    ∃ u : State, exec (.commandTimeout q seq) s = .next u.settleAfter ∧ u = { s.tmoRecord c with cmds := u.cmds, xlt := u.xlt } ∧
      s.completes u (ckey q seq) c stTimeout 0 0) ∧
  (∀ (s : State) (q seq : Nat) (c : Cmd), s.cmd (ckey q seq) = some c → c.phase = .running → c.opcode ≠ 0x02 →
    ((s.tmoRecord c).beforeSwitch (ckey q seq) c = true ∨ (s.tmoRecord c).waitsStn (ckey q seq) c = true) →
    ∃ u : State, exec (.commandTimeout q seq) s = .next u.settleAfter ∧
      u = (s.tmoRecord c).cancelBy (ckey q seq) stTimeout ((s.tmoRecord c).beforeSwitch (ckey q seq) c) ∧ u.queues = s.queues) ∧
  (∀ (s : State) (q seq : Nat) (c : Cmd) (w : DispW) (did : Nat), s.cmd (ckey q seq) = some c → c.phase = .running → c.opcode ≠ 0x02 →
    (s.tmoRecord c).beforeSwitch (ckey q seq) c = false → (s.tmoRecord c).waitsStn (ckey q seq) c = false → c.work = .disp w →
    w.did = some did → (s.tmoRecord c).onInput (ckey q seq) w = false → (s.tmoRecord c).onEngine (ckey q seq) w = true →
    (s.tmoRecord c).ending c.q = false →
    ∃ u : State, exec (.commandTimeout q seq) s = .next u.settleAfter ∧ u = { s.tmoRecord c with cmds := u.cmds, want := u.want } ∧
      Tab.becomes s.cmds u.cmds (ckey q seq) { c with cancel := some stTimeout } ∧ (2, w.ep) ∈ u.want) ∧
  (∀ (s : State) (c : Cmd), s.tmoRecord c = s.elog
    { kind := 2, pid := s.pidOf (s.cidOf c), cid := s.cidOf c, qid := c.q, detail := s.timeoutOf c, seq := c.seq, opcode := c.opcode }))

/-- An FLR discards the function's queues, detaches its contexts and clears its counters and event ring; it is complete, and reported, when no request
of its contexts is outstanding, and its isolation timeout ends such a request with an error (R55, R334). A function reset of the PF takes MQI, QID 0
and its fences away, starts an FLR of the PF and sets its bit in the reset cause; an FLR of function 0 is the same (R424). During a hub reset an FLR
is answered at once (R425). The host enables or disables a function and its Bus Master Enable; when it may issue requests, the interrupt requests held
for it are presented (R353). MQI_CTL.EN makes QID 0 exist, or sets CFG_ERR where the management queue's configuration is invalid (R63). -/
def Obligations.FunctionsAreResetAndEnabled : Prop :=
  ((∀ (s : State) (fn : Nat) (f : Fn), s.up = true → fn ≠ 0 → Tab.at? s.fns fn = some f →
    ∃ w u : State, w = (Tab.keys s.queues (fun i q => i != 0 && (s.ctxsOf fn).contains q.cid)).foldl (fun s q => s.discardQueue q) s ∧
      exec (.flr fn) s = .next u.settleAfter ∧ u = { w with ctxs := u.ctxs, fns := u.fns, evc := u.evc } ∧
      (∀ i x, Tab.at? w.ctxs i = some x → Tab.at? u.ctxs i = some (if (s.ctxsOf fn).contains i then { x with detached := true } else x)) ∧
      (∀ g, Tab.at? w.fns fn = some g → ∃ g', Tab.at? u.fns fn = some g' ∧ g'.flr = true ∧ g'.badDb = 0 ∧ g'.badQctl = 0 ∧ g'.qsel = 0 ∧
        g'.held = [] ∧ g'.evEn = false ∧ g'.evHead = 0 ∧ g'.evTail = 0 ∧ g'.en = g.en ∧ g'.bme = g.bme)) ∧
  (∀ (s : State) (fn : Nat) (f : Fn), Tab.at? s.fns fn = some f → f.flr = true → Tab.ex s.tags (fun _ r => s.reqOf fn r) = false →
    s.waiting.any (s.reqOf fn) = false →
    ∃ t : State, exec (.flrComplete fn) s = .next t ∧ t = { s with fns := t.fns, out := s.out ++ [.flrd fn] } ∧
      Tab.becomes s.fns t.fns fn { f with flr := false }) ∧
  (∀ (s : State) (fn id : Nat) (f : Fn) (r : Req), Tab.at? s.fns fn = some f → f.flr = true → Tab.keys s.tags (fun _ r => s.reqOf fn r) = [id] →
    Tab.at? s.tags id = some r → s.waiting = [] →
    ∃ u : State, exec (.flrIsolationTimeout fn) s = .next u ∧
      ∃ v : State, v = ((({ s with tags := Tab.del s.tags id }).consume r r.whole).settleIso).settleReads ∧
        u = ((v.waiting.filter (s.reqOf fn)).foldl (fun (s : State) r => s.consume r r.whole)
          { v with waiting := v.waiting.filter (fun r => !s.reqOf fn r) }).settleReads)) ∧
  ((∀ s : State, s.up = true →
    ∃ t w : State, exec .pfFunctionReset s = .next t ∧ exec (.flr 0) s = .next t ∧
      w = (s.fns.map (·.1)).foldl (fun s f => s.flrOf f) s.dropMgq ∧ t = { w with rst := t.rst, fns := t.fns, incr := t.incr } ∧
      t.mqi = {} ∧ t.rst = { w.rst with cause := w.rst.cause ||| 8 } ∧ (∀ i f, Tab.at? t.fns i = some f → f.flr = (i == 0))) ∧
  (∀ (s : State) (fn : Nat), s.up = false → exec (.flr fn) s = .next { s with out := s.out ++ [.flrd fn] })) ∧
  ((∀ (s : State) (fn : Nat) (en bme : Bool), fn ≤ 256 → ¬(s.up = true ∧ en = true ∧ bme = true) →
    ∃ t : State, exec (.functionStateUpdate fn en bme) s = .next t ∧ t = { s with fns := t.fns } ∧
      Tab.becomes s.fns t.fns fn { Tab.atD s.fns fn {} with en := en, bme := bme }) ∧
  (∀ (s : State) (fn : Nat), fn ≤ 256 → s.up = true →
    ∃ u : State, exec (.functionStateUpdate fn true true) s = .next u.settleCopies ∧
      u = { s with fns := u.fns, out := s.out ++ (Tab.atD s.fns fn {}).held.map (fun v => .irq fn v) } ∧
      Tab.becomes s.fns u.fns fn { Tab.atD s.fns fn {} with en := true, bme := true, held := [] }) ∧
  (∀ s : State, s.reaches 0 → s.mqi.en = false → 4 ≤ s.mqi.log2 → s.mqi.log2 ≤ 16 → s.mqi.sqb % 4096 = 0 → s.mqi.cqb % 4096 = 0 →
    ∃ t : State, exec .mqiEnable s = .next t ∧ t = { s with mqi := t.mqi, queues := t.queues, ctxs := t.ctxs } ∧
      t.mqi = { s.mqi with en := true, rdy := true, cfgErr := false } ∧
      Tab.becomes s.queues t.queues 0
        { st := .idle, cls := 1, cid := 0, dbs := 0, sq := s.mqi.sqb, cq := s.mqi.cqb, log2 := s.mqi.log2, vec := s.mqi.vec } ∧
      Tab.becomes s.ctxs t.ctxs 0 { fn := 0, pasid := none, pid := none, dbp := 0, key := 0 }) ∧
  (∀ s : State, s.reaches 0 → s.mqi.en = false →
    (s.mqi.log2 < 4 ∨ 16 < s.mqi.log2 ∨ s.mqi.sqb % 4096 ≠ 0 ∨ s.mqi.cqb % 4096 ≠ 0) →
    exec .mqiEnable s = .next { s with mqi := { s.mqi with cfgErr := true } }) ∧
  (∀ s : State, s.mqi.en = true → exec .mqiEnable s = .next s))

/-! ### Lookups (03, 04) -/

/-- A LOOKUP_POOL or LOOKUP_GATHER that passes the checks of R100 steps 1 to 6 reads its lists; a LOOKUP_MULTI first reads its sub-lookup array (R98,
R100, R262). A lookup whose lists are read and in order is accepted: the current version of each table it names is pinned once, and every sub-lookup
reads that version (R99, R100 step 7, R150, R158). -/
def Obligations.LookupsReadTheirLists : Prop :=
  ((∀ (s : State) (q seq : Nat) (c : Cmd) (g : Bool) (rs : List (Bool × Nat × Nat)) (ps : List (List Piece)), s.starts q seq c →
    c.opcode = (if g = true then 0x11 else 0x10) → (fmtMx (ofCode (lOfmt c.env)) = false ∨ s.build.mx = true) → c.clean = true →
    s.lookChecks (ckey q seq) c g [c.env] none = .ok rs → s.mapRanges (ckey q seq) c (s.cidOf c) rs = .ok ps →
    let its := (ps.take 3).flatMap (itemsOf true)
    its ≠ [] → (∀ i ∈ its, i.tgt.host = true → s.fnOk (s.reqId (s.cidOf c)).1 = true) →
    ∃ t : State, exec (if g = true then .lookupGather q seq else .lookupPool q seq) s = .next t ∧
      Tab.becomes s.cmds t.cmds (ckey q seq) { c with phase := .running, stage := 2, ranges := ps, items := its } ∧
      t.tables = s.tables ∧ t.queues = s.queues ∧ t.stnMem = s.stnMem) ∧
  (∀ (s : State) (q seq : Nat) (c : Cmd) (ps : List Piece), s.starts q seq c → c.opcode = 0x12 → multiOk c = true →
    s.mapAll (ckey q seq) c (s.cidOf c) false (c.num 24 8) (64 * c.nsub) = .ok ps → itemsOf true ps ≠ [] →
    (∀ i ∈ itemsOf true ps, i.tgt.host = true → s.fnOk (s.reqId (s.cidOf c)).1 = true) →
    ∃ t : State, exec (.lookupMulti q seq) s = .next t ∧
      Tab.becomes s.cmds t.cmds (ckey q seq) { c with phase := .running, stage := 1, ranges := [ps], items := itemsOf true ps } ∧
      t.tables = s.tables ∧ t.queues = s.queues ∧ t.stnMem = s.stnMem)) ∧
  ((∀ (s : State) (q seq : Nat) (c : Cmd) (g : Bool) (t : Table) (ps : Nat × List (Nat × List (Nat × Word))), s.cmd (ckey q seq) = some c →
    c.again = true → c.stage = 2 → c.opcode = (if g = true then 0x11 else 0x10) → c.operandBad = false → s.behind c = false →
    Tab.at? s.tables (lTid c.env) = some t → t.rebase = none → s.subOf c g 0 c.env = some ps →
    s.progOk (s.cidOf c) (lProg c.env) t.fmt (lKind g c.env) (s.mkDest c [0] 0 0 0 3 (destOf c.env)).site.isNone = true →
    ∃ (u : State) (w : LookW), exec (if g = true then .lookupGather q seq else .lookupPool q seq) s =
        .next (State.nextBlock (ckey q seq) (s.cidOf c) 2 u) ∧
      u = { s with tables := u.tables, cmds := u.cmds } ∧ Tab.becomes s.tables u.tables (lTid c.env) t.pin ∧
      Tab.becomes s.cmds u.cmds (ckey q seq)
        { c with stage := 8, items := [], pins := c.pins ++ [(lTid c.env, t.cur)], work := .look w } ∧
      w.subs.map (·.ver) = [t.cur] ∧ w.count = lRows g c.env ∧ w.written = 0) ∧
  (∀ (s : State) (q seq : Nat) (c : Cmd) (ps : List (Nat × List (Nat × List (Nat × Word)))), s.cmd (ckey q seq) = some c →
    c.again = true → c.stage = 2 → c.opcode = 0x12 → c.operandBad = false → s.behind c = false →
    let m := s.multiSubs c ((c.ranges.getLast?).getD [])
    (∀ e ∈ m.1, ∃ t ∈ Tab.at? s.tables (lTid e), t.rebase = none) →
    (∀ x ∈ m.1.zipIdx, ∀ t ∈ Tab.at? s.tables (lTid x.1), s.progOk (s.cidOf c) (lProg x.1) t.fmt (lOp x.1)
      (s.mkDest c [] 0 0 0 (3 * m.1.length + (if m.2.isSome = true then 0 else 2 * x.2)) (m.2.getD (destOf x.1))).site.isNone = true) →
    (m.1.zipIdx).mapM (fun x => s.subOf c false x.2 x.1) = some ps →
    ∃ (u : State) (w : LookW) (d : Cmd) (k : Nat), exec (.lookupMulti q seq) s = .next (State.nextBlock (ckey q seq) (s.cidOf c) k u) ∧
      u = { s with tables := u.tables, cmds := u.cmds } ∧
      (∀ e ∈ m.1, ∀ t, Tab.at? s.tables (lTid e) = some t → Tab.at? u.tables (lTid e) = some t.pin) ∧
      u.cmd (ckey q seq) = some d ∧ d.stage = 8 ∧ d.work = .look w ∧ w.subs.length = m.1.length ∧
      (∀ e ∈ m.1, ∀ t, Tab.at? s.tables (lTid e) = some t → (lTid e, t.cur) ∈ d.pins)))

/-- An occurrence enters its station's window: a row the window already names gains an entry or a larger scale, another row opens an entry; what the
share has left shrinks by one (R101, R102). A window opens when no other command's unit of work goes first and no scan's reads are out (R83, R226; log
entry 94), and it takes the Sorter's other bank; an entry beyond those kept on chip has its place in the sorting bay, and none other writes memory
(R104; log entry 38). -/
def Obligations.OccurrenceEntersItsWindow : Prop :=
  ∀ (s : State) (q seq sub stn : Nat) (c : Cmd) (w : LookW) (sb : Sub) (o : Occ), s.look (ckey q seq) = some (c, w) →
    s.cmd (ckey q seq) = some c → c.work = .look w → w.nextOcc sub stn = some o → w.subs[sub]? = some sb →
    (w.dest.map (·.subs.contains sub)).getD false = true → s.lookUp w = true → s.lookHeld w = false →
    s.otherFills (ckey q seq) sub stn = false →
    ((w.share sub stn).win ≠ [] ∨ (s.outranked (ckey q seq) c stn = false ∧ s.scanning stn = false ∧ s.arithOk stn = true)) →
    (w.share sub stn).winOcc < 2 ^ 24 → ((w.share sub stn).win.length < 65536 ∨ (w.share sub stn).win.any (fun e => e.row == o.row) = true) →
    (w.share sub stn).win.length ≤ 65536 →
    let new := !folds sb.op o (w.share sub stn).win
    let k := if new = true ∧ onChip ≤ (w.share sub stn).ents then (w.share sub stn).ents + 1 - onChip else 0
    ∃ u : State, exec (.occurrence q seq sub stn .good) s = .next (u.closeEnded stn) ∧
      (k = 0 → u = { s with cmds := u.cmds, stns := u.stns }) ∧ u.tables = s.tables ∧ u.queues = s.queues ∧
      Tab.becomes s.cmds u.cmds (ckey q seq) { c with work := .look (w.updShare sub stn (fun sh =>
        { sh with
          todo := sh.todo.drop 1, win := sortInto sb.op { o with spill := k } sh.win, winOcc := sh.winOcc + 1, ents := sh.ents + b2n new
          bank := if (w.share sub stn).win = [] then (Tab.atD s.stns stn {}).sortBank else sh.bank })) }

/-- A partial pool of a station that has done its part merges into the combining site's accumulator and leaves the station; the final report of the
last station makes the block's pools final, and an earlier one is only noted (R107, R109, R110, R111, R133). The arithmetic of the pools: the
operators' partials merge by FP32 addition, MAX takes the greater, the first partial of a pool is added to zero, and what an empty pool gives is a
zero row (R92, R94, R126 to R128, R133). -/
def Obligations.PoolsAreCombined : Prop :=
  ((∀ (s : State) (q seq sub stn pool : Nat) (c : Cmd) (w : LookW) (sb : Sub) (p : Partial), s.look (ckey q seq) = some (c, w) →
    s.cmd (ckey q seq) = some c → c.work = .look w → Tab.at? (w.share sub stn).parts pool = some p → w.subs[sub]? = some sb →
    w.swept sub stn = true → s.siteRoom w = true →
    ∃ t : State, exec (.partialArrival q seq sub stn pool) s = .next t ∧ t = { s with cmds := t.cmds } ∧
      ∃ w', Tab.becomes s.cmds t.cmds (ckey q seq) { c with work := .look w' } ∧
        Tab.becomes w.acc w'.acc (accKey sub pool) ((Tab.atD w.acc (accKey sub pool) {}).merge p sb.op) ∧
        Tab.at? (w'.share sub stn).parts pool = none ∧ w'.reports = w.reports ∧ w'.written = w.written) ∧
  (∀ (s : State) (q seq stn : Nat) (c : Cmd) (w : LookW), s.look (ckey q seq) = some (c, w) → s.cmd (ckey q seq) = some c →
    c.work = .look w → (s.blockStns w).contains stn = true → w.reports.contains stn = false → s.lookHeld w = false →
    ((w.dest.map (·.subs)).getD []).all (fun i => w.swept i stn && (w.share i stn).parts == []) = true →
    ∃ u : State, u = { s with cmds := u.cmds } ∧
      Tab.becomes s.cmds u.cmds (ckey q seq) { c with work := .look { w with reports := stn :: w.reports } } ∧
      exec (.stationFinalReport q seq stn) s =
        .next (if (s.blockStns w).all (fun n => n == stn || w.reports.contains n) then (u.finishBlock (ckey q seq)).pumpAll else u.pumpAll))) ∧
  ((∀ (a p : Partial) (op : Nat), a.acc ≠ [] → p.acc ≠ [] → op ≠ 3 → (a.merge p op).acc = List.zipWith fadd a.acc p.acc) ∧
  (∀ (a p : Partial), a.acc ≠ [] → p.acc ≠ [] → (a.merge p 3).acc = List.zipWith fmax a.acc p.acc) ∧
  (∀ (a p : Partial) (op : Nat), a.acc = [] → p.acc ≠ [] → op ≠ 3 → (a.merge p op).acc = p.acc.map (fun x => fadd 0 x)) ∧
  (∀ (a p : Partial) (op : Nat), (a.merge p op).poison = (a.poison || p.poison) ∧ (a.merge p op).placed = a.placed ++ p.placed ∧
    (a.merge p op).count = a.count + p.count) ∧
  (∀ (s : State) (cid : Nat) (w : LookW) (sub pool : Nat) (sb : Sub) (t : Table), w.subs[sub]? = some sb → Tab.at? s.tables sb.tid = some t →
    Tab.atD sb.n pool 0 = 0 →
    (s.poolValue cid w sub pool).1 = List.replicate (accWidth sb.op sb.k t.width) 0 ∧ (s.poolValue cid w sub pool).2.2 = true))

/-! ### Tables and versions (05) -/

/-- An UPDATE_ROWS or UPDATE_ACCUM whose index list is read and in range is accepted: it pins CUR, takes S as its postmark, reserves a slot and a
directory entry for each index and, when it publishes, closes S; then its source rows are read (R158, R164, R166, R173). Updates of one queue are
accepted in ring order (R72; log entry 31). At its turn on the table and its stations an update reads the directory buckets that it probes; with them,
and for an UPDATE_ACCUM its rows, read it stages every row it names under its postmark, and one that does not publish then completes with RESULT_COUNT
the distinct rows and RESULT_AUX its postmark (R83, R160 to R163, R165, R181; log entry 45). -/
def Obligations.UpdatesReserveAndStage : Prop :=
  (∀ (s : State) (q seq : Nat) (c : Cmd) (acc : Bool) (t : Table), s.cmd (ckey q seq) = some c → c.again = true → c.stage = 1 →
    c.opcode = (if acc = true then 0x19 else 0x18) → c.operandBad = false → s.behind c = false → Tab.at? s.tables (c.num 8 2) = some t →
    let w := 2 ^ (c.uIw + 1)
    let rows := numsOf w (s.rangeBytes c 0 (c.uNr * w))
    let shs := rows.map (fun r => (t.locate r).1)
    rows.all (fun r => decide (r < t.rows) && r != 2 ^ (8 * w) - 1) = true → t.rebase = none → t.s ≤ 0xFFFFFFF0 → t.roomFor shs = true →
    ∃ u : State, exec (if acc = true then .updateAccum q seq else .updateRows q seq) s =
        .next (u.fetchThen (ckey q seq) (s.cidOf c) 3 (itemsOf false ((c.ranges[1]?).getD []))
          (fun _ _ s => s.applyUpdates (c.num 8 2) (t.writers.length + 1))) ∧
      u = { s with tables := u.tables, cmds := u.cmds } ∧
      Tab.becomes s.tables u.tables (c.num 8 2) { t.pin with
        writers := t.writers ++ [{ client := ckey q seq, post := t.s, resv := shs, ents := shs }]
        pend := if c.publish = true then t.pend ++ [⟨ckey q seq, false, t.s, none⟩] else t.pend
        s := if c.publish = true then t.s + 1 else t.s } ∧
      Tab.becomes s.cmds u.cmds (ckey q seq)
        { c with pins := c.pins ++ [(c.num 8 2, t.cur)], work := .upd ⟨c.num 8 2, t.s, t.cur, rows⟩ }) ∧
  ((∀ (s : State) (q seq : Nat) (c : Cmd) (u : UpdW) (t : Table), s.cmd (ckey q seq) = some c → c.again = true → c.stage = 3 →
    c.opcode = 0x18 → c.work = .upd u → c.num 8 2 = u.tid → Tab.at? s.tables u.tid = some t →
    (t.writers.find? (fun w => !w.applied)).map (·.client) = some (ckey q seq) → s.updUp u = true → s.updTurn (ckey q seq) c u = true →
    let its := u.rows.eraseDups.flatMap (s.probeItems u.tid t)
    its ≠ [] → (∀ i ∈ its, i.tgt.host = false) →
    ∃ v : State, exec (.updateRows q seq) s = .next v ∧
      Tab.becomes s.cmds v.cmds (ckey q seq) { c with stage := 4, items := c.items ++ its } ∧ v.tables = s.tables ∧ v.queues = s.queues ∧
      v.stnMem = s.stnMem) ∧
  (∀ (s : State) (q seq : Nat) (c : Cmd) (u : UpdW) (t : Table) (acc : Bool), s.cmd (ckey q seq) = some c → c.again = true →
    c.opcode = (if acc = true then 0x19 else 0x18) → c.work = .upd u → c.num 8 2 = u.tid → c.status ≠ stFault → c.publish = false →
    Tab.at? s.tables u.tid = some t →
    (t.writers.find? (fun w => !w.applied)).map (·.client) = some (ckey q seq) → s.updUp u = true →
    (c.stage = (if acc = true then 5 else 4) ∨
      (c.stage = 3 ∧ acc = false ∧ s.updTurn (ckey q seq) c u = true ∧ u.rows.eraseDups.flatMap (s.probeItems u.tid t) = [])) →
    ∃ (v : State) (k : Nat), (exec (if acc = true then .updateAccum q seq else .updateRows q seq) s = .next v ∨
        exec (if acc = true then .updateAccum q seq else .updateRows q seq) s = .next (v.applyUpdates u.tid k)) ∧
      (∃ d, v.cmd (ckey q seq) = some d ∧ d.phase = .done ∧ (acc = false → d.status = stOk) ∧ d.count = u.rows.eraseDups.length % 2 ^ 32 ∧
        d.aux = min u.post (2 ^ 32 - 1)) ∧
      (∃ t', Tab.at? v.tables u.tid = some t' ∧ t'.cur = t.cur ∧ t'.vers = t.vers ∧
        (∀ r ∈ u.rows, ∃ e ∈ t'.dir, e.shard = (t.locate r).1 ∧ e.row = (t.locate r).2 ∧ e.post = u.post) ∧
        (∀ e ∈ t.dir, e.post ≠ u.post → e ∈ t'.dir)) ∧
      v.queues = s.queues ∧ v.streams = s.streams ∧ v.fences = s.fences))

/-- A TABLE_SWITCH that passes its checks closes the staging version: it takes S as its own and S advances; a DISCARD is marked so, and a NEW_BASE
also has its base's extents pushed, with the overlay regions and default row translated again, and its FLOOR at S (R166, R167, R170, R300). At its
switch point the first switch that waits makes its version current, with at most 8 versions live; while a writer of its version has not finished, or 8
other versions would stay live, nothing happens. The old current version retires when nothing pins it (R150, R168). -/
def Obligations.SwitchesMakeVersionsCurrent : Prop :=
  ((∀ (s : State) (q seq : Nat) (c : Cmd) (t : Table) (d : Bool), s.starts q seq c → c.opcode = 0x1A → c.tmode = (if d = true then 2 else 0) →
    s.switchTable c = .ok t → switchFree t = .ok () → Tab.at? s.tables (c.num 8 2) = some t →
    ∃ u : State, exec (if d = true then .tableSwitchDiscard q seq else .tableSwitchPublish q seq) s = .next (u.settleTable (c.num 8 2)) ∧
      u = { s with tables := u.tables, cmds := u.cmds } ∧
      Tab.becomes s.tables u.tables (c.num 8 2) { t with pend := t.pend ++ [⟨ckey q seq, d, t.s, none⟩], s := t.s + 1 } ∧
      Tab.becomes s.cmds u.cmds (ckey q seq) { c with phase := .running, stage := 8, work := .table (c.num 8 2) t.s }) ∧
  (∀ (s : State) (q seq : Nat) (c : Cmd) (t n : Table), s.starts q seq c → c.opcode = 0x1A → c.tmode = 1 →
    s.switchTable c = .ok t → s.newBase (ckey q seq) c t (c.num 16 8) false = .ok n → switchFree t = .ok () →
    Tab.at? s.tables (c.num 8 2) = some t →
    ∃ u : State, exec (.tableSwitchNewBase q seq) s = .next u ∧ u = { s with tables := u.tables, cmds := u.cmds, parts := u.parts } ∧
      Tab.becomes s.tables u.tables (c.num 8 2)
        { n with pend := t.pend ++ [⟨ckey q seq, false, t.s, some (c.num 16 8, t.s)⟩], s := t.s + 1 } ∧
      n.cur = t.cur ∧ n.vers = t.vers ∧ n.dir = t.dir ∧
      Tab.becomes s.cmds u.cmds (ckey q seq) { c with phase := .running, stage := 8, work := .table (c.num 8 2) t.s })) ∧
  ((∀ (s : State) (tid : Nat) (t : Table) (p : Pend), Tab.at? s.tables tid = some t → t.pend.head? = some p → p.discard = false →
    t.writers.any (fun w => w.post == p.ver && (w.client != p.client || !w.applied)) = false → t.liveAfter ≤ 8 →
    ∃ (u : State) (st n x : Nat), exec (.switchPoint tid) s = .next ((u.finish p.client st n x).settleTable tid) ∧
      u = { s with tables := u.tables } ∧ Tab.becomes s.tables u.tables tid (t.switchTo p) ∧ (t.switchTo p).cur = p.ver ∧
      (t.switchTo p).vers.length ≤ 8 ∧ (t.switchTo p).s = t.s ∧ (t.switchTo p).pend = t.pend.drop 1 ∧
      (∀ v ∈ t.vers, v.ver = t.cur → v.pins = 0 → v.ver ∈ (t.switchTo p).retired)) ∧
  (∀ (s : State) (tid : Nat) (t : Table) (p : Pend), Tab.at? s.tables tid = some t → t.pend.head? = some p →
    (t.writers.any (fun w => w.post == p.ver && (w.client != p.client || !w.applied)) = true ∨ 8 < t.liveAfter) →
    exec (.switchPoint tid) s = .next s) ∧
  (∀ (s : State) (tid ver : Nat) (t : Table), Tab.at? s.tables tid = some t → t.retired.contains ver = true →
    ∃ (u : State) (t' : Table), exec (.versionRetire tid ver) s = .next (u.settleTable tid) ∧
      u = { s with tables := u.tables, stns := u.stns } ∧ Tab.becomes s.tables u.tables tid t' ∧ ver ∉ t'.retired ∧ t'.cur = t.cur ∧
      (∀ e ∈ t.dir, (t.cur < e.post ∨ t.vers.any (fun v => t.selects v e) = true) ↔ e ∈ t'.dir)))

/-- TABLE_RETIRE WAIT waits for the versions below its own; TABLE_RETIRE TABLE marks the table as retiring from its acceptance and orphans the streams
bound to it (R172, R200). A COPY pins CUR as Vc, pushes the new base's extents and reads every row as Vc selects it; when every read is back its
install writes the rows and closes S as a NEW_BASE switch with FLOOR Vc + 1 (R174, R175). A REBASE of a quiet table renumbers it: its stations give
every entry the current version selects postmark 1 and release the others; then CUR becomes 1, S becomes 2, and the command completes with 1 and 1
(R179). SSEQ0 rebuilds a station's summary when it is due, and swaps its banks (R157). -/
def Obligations.TablesAreRetiredAndCompacted : Prop :=
  (∀ (s : State) (q seq : Nat) (c : Cmd) (t : Table), s.starts q seq c → c.opcode = 0x1B → c.clean = true → s.ownTable c = .ok t →
    Tab.at? s.tables (c.num 8 2) = some t → c.cancel = none →
    (c.tmode = 0 → c.num 12 4 ≤ t.cur →
      ∃ u : State, exec (.tableRetireWait q seq) s = .next (u.settleTable (c.num 8 2)) ∧ u = { s with cmds := u.cmds } ∧
        Tab.becomes s.cmds u.cmds (ckey q seq)
          { c with phase := .running, stage := 8, work := .table (c.num 8 2) (if c.num 12 4 = 0 then t.cur else c.num 12 4) }) ∧
    (c.tmode = 1 → c.num 12 4 = 0 →
      ∃ u : State, exec (.tableRetireTable q seq) s = .next (u.settleTable (c.num 8 2)) ∧
        u = { s with cmds := u.cmds, tables := u.tables, streams := u.streams } ∧
        Tab.becomes s.tables u.tables (c.num 8 2) { t with retiring := true } ∧
        Tab.becomes s.cmds u.cmds (ckey q seq) { c with phase := .running, stage := 8, work := .table (c.num 8 2) t.cur } ∧
        (∀ i x, Tab.at? s.streams i = some x →
          Tab.at? u.streams i = some (if !x.row && x.tid == c.num 8 2 then { x with orphaned := true } else x)))) ∧
  ((∀ (s : State) (q seq : Nat) (c : Cmd) (t n : Table), s.starts q seq c → c.opcode = 0x1C → c.clean = true →
    c.tmode = 0 → c.fld 11 1 0 5 ≤ 16 → s.ownTable c = .ok t → s.newBase (ckey q seq) c t (c.num 16 8) true = .ok n →
    t.pend.all (fun p => p.discard || p.nb.isNone) = true → switchFree t = .ok () → Tab.at? s.tables (c.num 8 2) = some t →
    ∃ u : State, exec (.tableCompactCopy q seq) s =
        .next (u.draw.fetchItems (ckey q seq) (s.cidOf c) 7 ((List.range t.rows).flatMap (u.copyItems (c.num 8 2) n t.cur))) ∧
      u = { s with tables := u.tables, cmds := u.cmds, parts := u.parts } ∧
      Tab.becomes s.tables u.tables (c.num 8 2) { n.pin with copying := some (ckey q seq, c.num 16 8) } ∧
      Tab.becomes s.cmds u.cmds (ckey q seq) { c with pins := c.pins ++ [(c.num 8 2, t.cur)], work := .table (c.num 8 2) t.cur }) ∧
  (∀ (s : State) (q seq : Nat) (c : Cmd) (t : Table) (tid vc : Nat), s.cmd (ckey q seq) = some c → c.work = .table tid vc →
    Tab.at? s.tables tid = some t → c.opcode = 0x1C → c.phase = .running → c.stage = 7 → c.cancel = none → c.allBack = true →
    (t.copying.map (·.1)) = some (ckey q seq) → t.stations.all s.stnUp = true → t.s ≤ 0xFFFFFFF0 →
    ∃ (u : State) (t' : Table) (d : Cmd), exec (.copyInstall q seq) s = .next u ∧ Tab.at? u.tables tid = some t' ∧
      t' = { t with pend := t.pend ++ [⟨ckey q seq, false, t.s, some (c.num 16 8, vc + 1)⟩], s := t.s + 1 } ∧
      u.cmd (ckey q seq) = some d ∧ d.phase = .running ∧ d.stage = 9 ∧ d.work = .table tid t.s ∧ d.items = [] ∧
      u.queues = s.queues ∧ u.streams = s.streams ∧
      u.host = ((List.range t.rows).foldl (fun s r => s.copyRow (ckey q seq) c tid vc (c.num 16 8) r) s).host ∧
      u.stnMem = ((List.range t.rows).foldl (fun s r => s.copyRow (ckey q seq) c tid vc (c.num 16 8) r) s).stnMem)) ∧
  ((∀ (s : State) (q seq : Nat) (c : Cmd) (t : Table), s.starts q seq c → c.opcode = 0x1C → c.tmode = 1 → c.clean = true → c.num 11 1 = 0 →
    c.num 16 8 = 0 → s.ownTable c = .ok t → Tab.at? s.tables (c.num 8 2) = some t →
    (t.vers.all (fun v => v.ver == t.cur && v.pins == 0) && t.retired == [] && t.writers == [] && t.pend == [] &&
      t.copying.isNone && t.rebase.isNone) = true →
    ∃ u : State, exec (.tableCompactRebase q seq) s = .next u ∧ u = { s with tables := u.tables, cmds := u.cmds } ∧
      Tab.becomes s.tables u.tables (c.num 8 2) { t with rebase := some (ckey q seq) } ∧
      Tab.becomes s.cmds u.cmds (ckey q seq) { c with phase := .running, stage := 1, work := .table (c.num 8 2) 1 }) ∧
  (∀ (s : State) (q seq : Nat) (c : Cmd) (t : Table), s.cmd (ckey q seq) = some c → c.again = true → c.stage = 1 → c.opcode = 0x1C →
    c.tmode = 1 → Tab.at? s.tables (c.num 8 2) = some t →
    ∃ (u : State) (t' : Table), exec (.tableCompactRebase q seq) s = .next u ∧
      u = { s with tables := u.tables, cmds := u.cmds, stns := u.stns } ∧
      Tab.becomes s.tables u.tables (c.num 8 2) t' ∧ t'.cur = t.cur ∧ t'.s = t.s ∧ t'.rebase = t.rebase ∧ t'.vers = t.vers ∧
      (∀ e ∈ t'.dir, e.post = 1) ∧
      (∀ e ∈ t.dir, t.vers.any (fun v => v.ver == t.cur && t.selects v e) = true → { e with post := 1 } ∈ t'.dir) ∧
      Tab.becomes s.cmds u.cmds (ckey q seq) { c with stage := 2 }) ∧
  (∀ (s : State) (q seq : Nat) (c : Cmd) (t : Table), s.cmd (ckey q seq) = some c → c.again = true → c.stage = 2 → c.opcode = 0x1C →
    c.tmode = 1 → Tab.at? s.tables (c.num 8 2) = some t →
    ∃ (u : State) (t' : Table), exec (.tableCompactRebase q seq) s = .next u ∧
      u = { s with tables := u.tables, cmds := u.cmds, xlt := u.xlt } ∧
      Tab.becomes s.tables u.tables (c.num 8 2) t' ∧ t'.cur = 1 ∧ t'.s = 2 ∧ t'.rebase = none ∧ t'.rows = t.rows ∧ t'.dir = t.dir ∧
      s.completes u (ckey q seq) c stOk 1 1) ∧
  (∀ (s : State) (stn : Nat) (x : Stn), Tab.at? s.stns stn = some x → (x.sumAll = true ∨ s.liveEntries stn < x.sumRel) → s.stnUp stn = true →
    ∃ t : State, exec (.summaryRebuild stn) s = .next t ∧ t = { s with stns := t.stns, tables := t.tables } ∧
      Tab.becomes s.stns t.stns stn (x.swapSum (s.summaryOf stn)) ∧
      (∀ i y, Tab.at? s.tables i = some y → ∃ y', Tab.at? t.tables i = some y' ∧ y'.dir = y.dir ∧ y'.cur = y.cur ∧ y'.vers = y.vers)))

/-! ### Streams (06) -/

/-- A STREAM_OPEN whose descriptor is read and in order makes an empty stream under the lowest free SID (log entry 7) (R182, R183, R185). A gather
whose lists are read and in order pins the bound table and takes its place on each of its streams; TRIM and CLOSE do so too, and from a CLOSE's
acceptance its stream takes no more commands (R197, R200, R201). -/
def Obligations.StreamsOpenTrimAndClose : Prop :=
  (∀ (s : State) (q seq : Nat) (c : Cmd) (ps : List Piece) (sid : Nat), s.cmd (ckey q seq) = some c → c.again = true → c.stage = 1 →
    c.opcode = 0x20 → c.operandBad = false → s.streamChecks (ckey q seq) c (s.rangeBytes c 0 64) = .ok ps →
    Tab.freeFrom s.streams 0 16384 = some sid →
    ∃ (t : State) (x : Stream), exec (.streamOpen q seq) s = .next t ∧
      t = { s with streams := t.streams, cmds := t.cmds, parts := t.parts, xlt := t.xlt } ∧
      Tab.becomes s.streams t.streams sid x ∧ x.total = 0 ∧ x.first = 0 ∧ x.order = [] ∧ x.closing = false ∧ x.orphaned = false ∧
      x.pid = s.pidOf (s.cidOf c) ∧ x.owner = s.cidOf c ∧ x.row = sKindRow (s.rangeBytes c 0 64) ∧ x.cap = sCap (s.rangeBytes c 0 64) ∧
      x.fmt = sFmt (s.rangeBytes c 0 64) ∧ x.width = sWidth (s.rangeBytes c 0 64) ∧ x.ext = ps ∧ x.raw = s.rangeBytes c 0 64 ∧
      s.completes t (ckey q seq) c stOk sid 0) ∧
  ((∀ (s : State) (q seq : Nat) (c : Cmd) (xs : List Stream) (rs : List (Bool × Nat × Nat)) (ps : List (List Piece)), s.cmd (ckey q seq) = some c →
    c.again = true → c.stage = 1 → c.opcode = 0x22 → c.operandBad = false → s.behind c = false → s.gatherChecks (ckey q seq) c = .ok (xs, rs) →
    s.mapRanges (ckey q seq) c (s.cidOf c) rs = .ok ps →
    ((xs.filter (fun x => !x.row)).map (·.tid)).any (fun t => ((Tab.at? s.tables t).bind (·.rebase)).isSome) = false →
    ∃ (u : State) (d : Cmd), exec (.streamGather q seq) s = .next u.settleStreams.pumpAll ∧
      u = { s with cmds := u.cmds, streams := u.streams, tables := u.tables, parts := u.parts } ∧
      u.cmd (ckey q seq) = some d ∧ d.phase = .running ∧ d.stage = 3 ∧ d.items = [] ∧ d.ranges = c.ranges.take 2 ++ ps ∧
      d.work = .gather (s.gSids c).eraseDups false ∧
      (∀ i ∈ s.gSids c, ∀ x, Tab.at? s.streams i = some x → ∃ y, Tab.at? u.streams i = some y ∧ y.order = x.order ++ [ckey q seq] ∧
        y.total = x.total ∧ y.first = x.first)) ∧
  (∀ (s : State) (q seq : Nat) (c : Cmd) (x : Stream), s.starts q seq c → c.opcode = 0x23 → c.clean = true → s.ownStream c = .ok x →
    Tab.at? s.streams (c.fld 8 2 0 14) = some x → c.tmode = 1 →
    ∃ (u : State) (y : Stream), exec (.streamTrim q seq) s = .next u.settleStreams.pumpAll ∧
      u = { s with cmds := u.cmds, streams := u.streams } ∧
      Tab.becomes s.cmds u.cmds (ckey q seq)
        { c with phase := .running, stage := 3, items := [], work := .trim (c.fld 8 2 0 14) (c.fld 12 4 0 25) } ∧
      Tab.becomes s.streams u.streams (c.fld 8 2 0 14) y ∧ y.order = x.order ++ [ckey q seq] ∧ y.total = x.total ∧ y.first = x.first) ∧
  (∀ (s : State) (q seq : Nat) (c : Cmd) (x : Stream), s.starts q seq c → c.opcode = 0x23 → c.clean = true → s.ownStream c = .ok x →
    Tab.at? s.streams (c.fld 8 2 0 14) = some x → c.tmode = 0 →
    ∃ u : State, exec (.streamClose q seq) s = .next u.settleCloses.pumpAll ∧ u = { s with cmds := u.cmds, streams := u.streams } ∧
      Tab.becomes s.streams u.streams (c.fld 8 2 0 14) { x with closing := true } ∧
      Tab.becomes s.cmds u.cmds (ckey q seq)
        { c with phase := .running, stage := 3, items := [],
                 work := .close (c.fld 8 2 0 14) (x.users.filter (· != ckey q seq)) }) ∧
  (∀ (s : State) (sid : Nat) (x : Stream) (cl : Client) (c : Cmd) (i keep : Nat), Tab.at? s.streams sid = some x → x.order.head? = some cl →
    s.cmd cl = some c → c.cancel = none → c.phase = .running → c.work = .trim i keep → s.strTurn cl c x.stn = true →
    ∃ v : State, s.streamStep sid = some v ∧ v = { s with streams := v.streams, cmds := v.cmds, xlt := v.xlt } ∧
      Tab.becomes s.streams v.streams sid { x with first := max x.first (x.total - keep), order := x.order.filter (· != cl) }))

/-- An append that passes its checks takes its place in its stream's order and its source is read; a STRICT one without room ends with ST_STREAM_FULL,
or is cut where it may be. At the head of the order it is written and committed: TOTAL grows by what was written (R188 to R193, R200). The positions a
sequence takes are the newest visible ones before its offset, at most K of them, and each lies between V and TOTAL (R187, R195). -/
def Obligations.AppendsAndGathersTakeTheirTurn : Prop :=
  ((∀ (s : State) (q seq : Nat) (c : Cmd) (x : Stream) (ps : List (List Piece)), s.starts q seq c → c.opcode = 0x21 → c.clean = true →
    let n := c.fld 12 4 0 25
    let st := c.num 16 4
    let sid := c.fld 8 2 0 14
    let es := if st = 0 then x.estride else st
    n ≤ 2 ^ 24 → st % 64 = 0 → s.ownStream c = .ok x → Tab.at? s.streams sid = some x →
    (if x.row = true then st = 0 ∨ x.elemB ≤ st else st = 0) →
    s.mapRanges (ckey q seq) c (s.cidOf c) [(false, c.num 24 8, if n = 0 then 0 else (n - 1) * es + x.elemB)] = .ok ps →
    (x.strict = true → ((s.projected x).plan n).2.2 = true → bit c.flags 1 = true) →
    let pl := (s.projected x).plan n
    ∃ u : State, exec (.streamAppend q seq) s = .next ((u.fetchItems (ckey q seq) (s.cidOf c) 3
        (itemsOf false (cutPieces ((ps[0]?).getD []) (pl.1 * es) (if pl.2.1 = 0 then 0 else (pl.2.1 - 1) * es + x.elemB)))).settleStreams).pumpAll ∧
      u = { s with cmds := u.cmds, streams := u.streams, parts := u.parts } ∧
      Tab.becomes s.cmds u.cmds (ckey q seq) { c with ranges := ps, trunc := pl.2.2, work := .append sid pl.1 pl.2.1 } ∧
      (∃ y, Tab.becomes s.streams u.streams sid y ∧ y.order = x.order ++ [ckey q seq] ∧ y.total = x.total ∧ y.first = x.first)) ∧
  (∀ (s : State) (q seq : Nat) (c : Cmd) (x : Stream) (ps : List (List Piece)), s.starts q seq c → c.opcode = 0x21 → c.clean = true →
    let n := c.fld 12 4 0 25
    let st := c.num 16 4
    let es := if st = 0 then x.estride else st
    n ≤ 2 ^ 24 → st % 64 = 0 → s.ownStream c = .ok x → (if x.row = true then st = 0 ∨ x.elemB ≤ st else st = 0) →
    s.mapRanges (ckey q seq) c (s.cidOf c) [(false, c.num 24 8, if n = 0 then 0 else (n - 1) * es + x.elemB)] = .ok ps →
    x.strict = true → ((s.projected x).plan n).2.2 = true → bit c.flags 1 = false →
    ∃ t : State, exec (.streamAppend q seq) s = .next t.pumpAll ∧ t = { s with cmds := t.cmds, xlt := t.xlt } ∧
      s.completes t (ckey q seq) c stStreamFull 0 0) ∧
  (∀ (s : State) (sid : Nat) (x : Stream) (cl : Client) (c : Cmd) (i skip n : Nat), Tab.at? s.streams sid = some x → x.order.head? = some cl →
    s.cmd cl = some c → c.cancel = none → c.phase = .running → c.work = .append i skip n → c.allBack = true → s.strTurn cl c x.stn = true →
    ∃ (v : State) (y : Stream), s.streamStep sid = some v ∧ Tab.becomes s.streams v.streams sid y ∧
      y.total = min (x.total + n) (2 ^ 64 - 1) ∧ y.order = x.order.filter (· != cl) ∧ y.first = x.first ∧ y.cap = x.cap ∧
      (∃ d, v.cmd cl = some d ∧ d.phase = .done ∧ d.count = n % 2 ^ 32) ∧ v.tables = s.tables)) ∧
  (∀ (x : Stream) (k off align : Nat),
    (x.fill k off align).length = (if x.total - off ≤ x.low then 0 else min k (x.total - off - x.low)) ∧
    (∀ e ∈ x.fill k off align, x.low ≤ e.1 ∧ e.1 < x.total - off ∧ e.2 < k) ∧
    ((x.fill k off align).map (·.1)).Pairwise (· < ·) ∧
    (0 < k → x.low < x.total - off → x.total - off - 1 ∈ (x.fill k off align).map (·.1)))

/-! ### Scans, engine ports, copies and programs (04, 07, 08, 09, 12) -/

/-- A LUT build whose operands are read writes its buffer, one FP16 entry for each query, subspace and code, gives its bank back and completes with
the entries and how many saturated (R209 to R212). A scan whose stations have sent their final lists merges them and completes: with ST_FAULT where a
list was not mapped in its station and with ST_OK otherwise, RESULT_COUNT the candidates over all queries, at most K for each, and RESULT_AUX the
pairs excluded; it changes no table, stream, fence or queue. A station whose last segment is read scores it, sends its lists and gives its LUT bank
back; a merge keeps the K smallest keys of each query (R215 to R217, R219 to R222, R226). -/
def Obligations.ScansKeepTheSmallestKeys : Prop :=
  ((∀ (s : State) (q seq : Nat) (c : Cmd) (w : ScanW) (a ca : Nat) (perm : Bool), s.cmd (ckey q seq) = some c → c.again = true → c.stage = 3 →
    c.opcode = 0x29 → c.work = .scan w → c.operandBad = false →
    c.ranges[2]? = some [{ off := 0, len := c.lutB, tgt := some ⟨true, 0, a⟩, ca := ca, wr := true, perm := perm }] → s.fnOk (s.reqId (s.cidOf c)).1 = true →
    ∃ t : State, exec (.scanLutBuild q seq) s = .next t ∧ t = { s with host := t.host, out := t.out, cmds := t.cmds, xlt := t.xlt } ∧
      t.host = s.host.write a ((s.lutAll c).flatMap (·.1)) false ∧ (s.lutAll c).length = c.sQ * c.sM * c.sE ∧
      s.completes t (ckey q seq) c stOk (c.sQ * c.sM * c.sE) ((s.lutAll c).filter (·.2)).length ∧
      (∀ n, w.per.any (fun x => x.stn == n && x.bank) = true → t.banksHeld n < s.banksHeld n)) ∧
  (∀ (s : State) (q seq : Nat) (c : Cmd), s.starts q seq c → s.build.scan = false → (c.opcode = 0x29 ∨ c.opcode = 0x28) →
    ∃ t : State, exec (if c.opcode = 0x29 then .scanLutBuild q seq else .scanPq q seq) s = .next t ∧ t = { s with cmds := t.cmds, xlt := t.xlt } ∧
      s.completes t (ckey q seq) c stUnitAbsent 0 0)) ∧
  ((∀ (s : State) (q seq : Nat) (c : Cmd) (w : ScanW), s.cmd (ckey q seq) = some c → c.again = true → c.stage = 5 → c.opcode = 0x28 →
    c.work = .scan w → w.per.all (·.sent) = true →
    let top := (List.range c.sQ).map c.topOf
    ∃ (t : State) (d : Cmd), exec (.scanPq q seq) s = .next t ∧
      t = { s with out := t.out, tags := t.tags, want := t.want, incr := t.incr, stnMem := t.stnMem, fresh := t.fresh, xlt := t.xlt,
                   waiting := t.waiting, evc := t.evc, ctxs := t.ctxs, cmds := t.cmds, host := t.host, postbags := t.postbags, rcv := t.rcv } ∧
      Tab.becomes s.cmds t.cmds (ckey q seq) d ∧ d.phase = .done ∧ d.status = (if w.fault = true then stFault else stOk) ∧
      d.count = (top.map List.length).foldl (· + ·) 0 % 2 ^ 32 ∧ d.aux = min c.merged.excl (2 ^ 32 - 1) ∧
      d.empty = top.any (fun l => l.length == 0)) ∧
  (∀ (s : State) (q seq : Nat) (c : Cmd) (w : ScanW) (x : ScanS) (b : Nat × Nat) (i v : Nat), s.cmd (ckey q seq) = some c →
    c.again = true → c.stage = 5 → c.opcode = 0x28 → c.work = .scan w → w.per = [x] → x.bank = true → x.sent = false → x.todo = [] →
    x.seg = some (i, v) → x.busy = some b → c.waitsFor b = false → (w.list i).skip = false → lCount (w.list i).raw ≤ v + segN (w.list i) v →
    w.lists.all (fun l => !lIdArr l.raw) = true → lIdArr (w.list i).raw = false → x.all.kept = [] → x.cur.kept = [] →
    let r := s.scoreSeg c (w.list i) v
    ∃ (t : State) (d : Cmd), exec (.scanPq q seq) s = .next t ∧ t.cmd (ckey q seq) = some d ∧ d.phase = .done ∧
      d.status = (if w.fault = true then stFault else stOk) ∧ t.banksHeld x.stn < s.banksHeld x.stn ∧
      d.aux = min (x.all.excl + (x.cur.excl + r.excl)) (2 ^ 32 - 1) ∧
      d.count = ((List.range c.sQ).map (fun q => min c.sK (r.kept.filter (fun y => y.q == q)).length)).foldl (· + ·) 0 % 2 ^ 32 ∧
      t.tables = s.tables ∧ t.streams = s.streams ∧ t.fences = s.fences ∧ t.queues = s.queues) ∧
  (∀ (a b : Tally) (k n q : Nat), q < n → ((a.join k (List.range n) b).kept.filter (fun x => x.q == q)) =
      topK k ((a.kept ++ b.kept).filter (fun x => x.q == q)) ∧ (a.join k (List.range n) b).excl = a.excl + b.excl) ∧
  (∀ (k : Nat) (l : List Cand), (topK k l).length = min k l.length ∧ ∀ x ∈ topK k l, x ∈ l) ∧
  (∀ (q : Nat) (e : List Byte), listOk q e = true → lCodes e % 64 = 0 ∧ lMask e < 2 ^ q))

/-- A DISPATCH whose chain is read, in order and mapped is accepted with one descriptor of work for each of the chain, and its port is served; one
whose chain was read and translated ahead of its admission is accepted as it starts (R248 to R251; log entry 102). A done response frees its dispatch
identifier and is kept for its DISPATCH, which completes when its END is sent and no transfer of it is left: ST_ENGINE_ERROR where the engine's status
is not zero, ST_FAULT where a sector was not mapped, else ST_OK, with the engine's result; a response for no dispatch, or before its END is sent, is
an engine error (R254, R360, R363). -/
def Obligations.DispatchesStartAndEnd : Prop :=
  ((∀ (s : State) (q seq : Nat) (c : Cmd) (ms : List (Desc × Option FaultRec)), s.cmd (ckey q seq) = some c → c.again = true → c.stage = 1 →
    c.opcode = 0x30 → c.operandBad = false → (s.chain c).all descOk = true →
    ((s.chain c).zipIdx).mapM (fun x => s.mapDesc (ckey q seq) c x.2 x.1) = .ok ms → (∀ m ∈ ms, m.2 = none) →
    (ms.map (fun m => extents m.1.pieces)).foldl (· + ·) 0 ≤ 16384 →
    ∃ u : State, exec (.dispatch q seq) s = .next (u.pump (c.fld 8 2 0 10) 8192) ∧
      u = { s with cmds := u.cmds, incr := u.incr, parts := u.parts } ∧
      Tab.becomes s.cmds u.cmds (ckey q seq) { c with
        stage := 8, work := .disp { ep := c.fld 8 2 0 10, engOp := c.num 24 8, descs := ms.map (·.1), unmapped := false } }) ∧
  (∀ (s : State) (q seq : Nat) (c : Cmd) (w : DispW), s.starts q seq c → c.opcode = 0x30 → s.dispFields c = .ok () → c.work = .disp w →
    ∃ u : State, exec (.dispatch q seq) s = .next (u.pump w.ep 8192) ∧ u = { s with cmds := u.cmds, incr := u.incr } ∧
      Tab.becomes s.cmds u.cmds (ckey q seq) { c with phase := .running, stage := 8 })) ∧
  ((∀ (s : State) (ep did stat : Nat) (res : BitVec 32) (e : Ep) (c : Cmd) (cl : Client) (w : DispW), Tab.at? s.eps ep = some e →
    s.epIn ep e = true → Tab.at? e.dids did = some cl → s.cmd cl = some c → c.work = .disp w → w.endSent = true →
    ∃ (u : State) (ds : Tab Client), exec (.doneResponse ep did stat res) s = .next ((u.dispEnd cl).pump ep 8192) ∧
      u = { s with eps := u.eps, cmds := u.cmds } ∧ Tab.becomes s.eps u.eps ep { e with dids := ds } ∧ Tab.loses e.dids ds did ∧
      Tab.becomes s.cmds u.cmds cl { c with work := .disp { w with doneStat := some (stat % 256, res.toNat) } }) ∧
  (∀ (s : State) (cl : Client) (c : Cmd) (w : DispW) (st res : Nat), s.cmd cl = some c → c.work = .disp w → w.doneStat = some (st, res) →
    w.endSent = true → c.phase = .running → c.cancel = none → Tab.ex s.eps (fun _ e => Tab.ex e.xids (fun _ x => x.client == cl)) = false →
    s.dispEnd cl = { s with cmds := (s.dispEnd cl).cmds, xlt := (s.dispEnd cl).xlt } ∧
      s.completes (s.dispEnd cl) cl { c with poison := c.poison || w.poisonSent } (if st ≠ 0 then stEngineError else if w.unmapped = true then stFault else stOk)
        (w.made % 2 ^ 24 + st % 256 * 2 ^ 24) res) ∧
  (∀ (s : State) (ep did stat : Nat) (res : BitVec 32) (e : Ep), Tab.at? s.eps ep = some e → s.epIn ep e = true →
    (Tab.at? e.dids did = none ∨ ∃ cl c w, Tab.at? e.dids did = some cl ∧ s.cmd cl = some c ∧ c.work = .disp w ∧ w.endSent = false) →
    ∃ u : State, exec (.doneResponse ep did stat res) s = .next (u.ask 2 ep) ∧ u = { s with rcv := u.rcv, fresh := s.fresh + 1 } ∧
      u.rcv.elogCnt = (s.rcv.elogCnt + 1) % 2 ^ 32))

/-- Credits are added up to 4,095 and the port is served; more is an engine error, which is recorded and makes the engine step due (R357, R363, R414).
An upstream beat with a granted credit is written at its place in the output, a poisoned one as a poisoned result; one without is an engine error
(R251, R358, R362, R394). An OUTPUT that has every beat is outstanding until its last write is ordered (R253). A port held in reset takes no input
(R346). Readiness of an engine is kept, and its loss while a dispatch is outstanding is an engine error (R357, R404). An acknowledged idle request
holds the port in reset, released at once unless its station is entering Sleep or Off (R433, R434). A port not back in time is OUT (R404). -/
def Obligations.EnginePortsMoveDataAndStop : Prop :=
  ((∀ (s : State) (ep n : Nat) (e : Ep), Tab.at? s.eps ep = some e → s.epIn ep e = true → e.credits + n ≤ 4095 →
    ∃ u : State, exec (.frankingCreditReturn ep n) s = .next (u.pump ep 8192) ∧ u = { s with eps := u.eps } ∧
      Tab.becomes s.eps u.eps ep { e with credits := e.credits + n, inReset := e.inReset && !(e.rdy && e.credits + n != 0) }) ∧
  (∀ (s : State) (ep n : Nat) (e : Ep), Tab.at? s.eps ep = some e → s.epIn ep e = true → 4095 < e.credits + n →
    ∃ u : State, exec (.frankingCreditReturn ep n) s = .next (u.ask 2 ep) ∧ u = { s with rcv := u.rcv, fresh := s.fresh + 1 } ∧
      u.rcv.elogCnt = (s.rcv.elogCnt + 1) % 2 ^ 32 ∧ u.want = s.want) ∧
  (∀ (s : State) (ep xid a ca : Nat) (data : BitVec 512) (poison last perm : Bool) (e : Ep) (x : Xfer) (c : Cmd), Tab.at? s.eps ep = some e → s.epIn ep e = true →
    Tab.at? e.xids xid = some x → x.kind = 1 → e.granted ≠ 0 → 64 * (x.beats + 1) ≤ x.len → s.cmd x.client = some c →
    x.pieces = [{ off := 0, len := x.len, tgt := some ⟨true, 0, a⟩, ca := ca, wr := true, perm := perm }] → s.fnOk (s.reqId (s.cidOf c)).1 = true →
    ∃ (u : State) (xs : Tab Xfer), exec (.upstreamBeat ep xid data poison last) s = .next (((u.freeOuts ep).grantUp ep).pump ep 8192) ∧
      u = { s with host := u.host, out := u.out, eps := u.eps, cmds := u.cmds } ∧
      u.host = s.host.write (a + 64 * x.beats) (leBytes 64 data.toNat) poison ∧
      Tab.becomes s.eps u.eps ep { e with granted := e.granted - 1, xids := xs } ∧
      Tab.becomes e.xids xs xid { x with beats := x.beats + 1 } ∧
      Tab.becomes s.cmds u.cmds x.client { c with poison := c.poison || poison }) ∧
  (∀ (s : State) (ep xid : Nat) (e : Ep) (x : Xfer), Tab.at? s.eps ep = some e → (xid, x) ∈ e.xids → x.kind = 1 → x.len ≤ 64 * x.beats →
    ∃ e', Tab.at? (s.freeOuts ep).eps ep = some e' ∧ ((xid, x) ∈ e'.xids ↔ s.writing x = true)) ∧
  (∀ (s : State) (ep xid : Nat) (data : BitVec 512) (poison last : Bool) (e : Ep), Tab.at? s.eps ep = some e → s.epIn ep e = true →
    ((∃ x, Tab.at? e.xids xid = some x ∧ (x.kind ≠ 1 ∨ e.granted = 0 ∨ x.len ≤ 64 * x.beats)) ∨
      (Tab.at? e.xids xid = none ∧ e.ended.contains xid = false)) →
    ∃ u : State, exec (.upstreamBeat ep xid data poison last) s = .next (u.ask 2 ep) ∧ u = { s with rcv := u.rcv, fresh := s.fresh + 1 } ∧
      u.rcv.elogCnt = (s.rcv.elogCnt + 1) % 2 ^ 32) ∧
  (∀ (s : State) (ep xid n did stat : Nat) (res : BitVec 32) (data : BitVec 512) (poison last : Bool) (e : Ep), Tab.at? s.eps ep = some e →
    s.epIn ep e = false →
    exec (.frankingCreditReturn ep n) s = .next s ∧ exec (.upstreamBeat ep xid data poison last) s = .next s ∧
      exec (.doneResponse ep did stat res) s = .next s)) ∧
  ((∀ (s : State) (ep : Nat) (e : Ep), Tab.at? s.eps ep = some e →
    ∃ u : State, exec (.engRdyChange ep true) s = .next (u.pump ep 8192) ∧ u = { s with eps := u.eps } ∧
      Tab.becomes s.eps u.eps ep { e with rdy := true, inReset := e.inReset && e.credits == 0 }) ∧
  (∀ (s : State) (ep : Nat) (e : Ep), Tab.at? s.eps ep = some e →
    ∃ u : State, exec (.engRdyChange ep false) s = .next (if e.rdy = true ∧ (e.dids ≠ [] ∨ e.xids ≠ []) then u.ask 2 ep else u) ∧ u = { s with eps := u.eps } ∧
      Tab.becomes s.eps u.eps ep { e with rdy := false }) ∧
  (∀ (s : State) (ep : Nat) (e : Ep), Tab.at? s.eps ep = some e → e.qreq = true →
    ∃ t : State, exec (.engineQuiesceAck ep) s = .next t ∧ t = { s with eps := t.eps, out := t.out, stns := t.stns } ∧
      ((Tab.atD s.stns (s.build.epStn ep) {}).pwr ≠ 4 → Tab.becomes s.eps t.eps ep e.cleared ∧ t.stns = s.stns ∧
        t.out = s.out ++ [.epReset ep false, .epQreq ep false, .epReset ep true]) ∧
      (∀ x, Tab.at? s.stns (s.build.epStn ep) = some x → x.pwr = 4 → Tab.becomes s.eps t.eps ep { e.cleared with rstN := false } ∧
        t.out = s.out ++ [.epReset ep false, .epQreq ep false] ∧
        Tab.becomes s.stns t.stns (s.build.epStn ep) { x with idleReq := x.idleReq.filter (· != ep) })) ∧
  (∀ (s : State) (ep : Nat) (e : Ep), Tab.at? s.eps ep = some e → e.inReset = true →
    ∃ t : State, exec (.engineReturnTimeout ep) s = .next t ∧ t = { s with eps := t.eps } ∧
      Tab.becomes s.eps t.eps ep { e with out := true, inReset := false }))

/-- A COPY whose source is read moves its sectors in rising order (log entry 14) and completes with their number; a sector that arrived poisoned is
written poisoned (R276). A CENSUS on QID 0 writes a HEADER and the records that fit, and completes with their number and, in units of 64 bytes, the
size of the whole; MASK bit 0 is ignored. Nothing else of the block's state changes (R283 to R286). -/
def Obligations.CopiesAndCensus : Prop :=
  ((∀ (s : State) (q seq : Nat) (c : Cmd), s.cmd (ckey q seq) = some c → c.again = true → c.stage = 1 → c.opcode = 0x31 →
    ∃ (u t : State), u = (List.range (c.num 8 8 / 64)).foldl (fun s k => s.copySector (ckey q seq) c k) s ∧
      exec (.copy q seq) s = .next t ∧ t = { u with cmds := t.cmds, xlt := t.xlt } ∧ u.queues = s.queues ∧ u.tables = s.tables ∧
      (∃ d, Tab.becomes s.cmds t.cmds (ckey q seq) d ∧ d.phase = .done ∧ d.status = stOk ∧ d.count = c.num 8 8 / 64 % 2 ^ 32 ∧ d.aux = 0 ∧
        (c.poison = true → d.poison = true))) ∧
  (∀ (s : State) (cl : Client) (c : Cmd) (k a b m n ca cb : Nat) (w p r : Bool), c.ranges = [[⟨0, m, some ⟨true, 0, a⟩, ca, w, p⟩], [⟨0, n, some ⟨true, 0, b⟩, cb, true, r⟩]] →
    64 * (k + 1) ≤ m → 64 * (k + 1) ≤ n → s.fnOk (s.reqId (s.cidOf c)).1 = true →
    (s.copySector cl c k).host = s.host.write (b + 64 * k) (s.titems c.items ⟨true, 0, a + 64 * k⟩ 64)
      (s.tbad c.items ⟨true, 0, a + 64 * k⟩ 64))) ∧
  (∀ (s : State) (q seq : Nat) (c : Cmd), s.starts q seq c → c.opcode = 0x38 → c.q = 0 → s.cidOf c = 0 → c.clean = true → c.fld 8 1 0 2 < 3 →
    c.num 24 8 % 64 = 0 → c.num 32 8 % 64 = 0 → c.num 24 8 + c.num 32 8 ≤ 2 ^ 64 →
    (c.fld 8 1 0 2 = 0 → Tab.has s.ctxs (c.fld 10 2 0 12) = true) → (c.fld 8 1 0 2 = 1 → Tab.has s.parts (c.fld 10 2 0 12) = true) →
    let mask := if c.fld 12 4 1 11 = 0 then 0xFFF else c.fld 12 4 0 12
    let rs := (s.cRecs (s.cScope c).1 (s.cScope c).2.1 (s.cScope c).2.2).filter (fun r => bit mask r.type)
    let total := 64 + (rs.map (fun r => r.bytes.length)).foldl (· + ·) 0
    let fit := fitRecs (c.num 32 8 - 64) rs
    ∃ (t : State) (d : Cmd), exec (.census q seq) s = .next t ∧
      t = { s with cmds := t.cmds, xlt := t.xlt, host := t.host, out := t.out, parts := t.parts, fresh := s.fresh + 2 } ∧
      Tab.becomes s.cmds t.cmds (ckey q seq) d ∧ d.phase = .done ∧ d.status = stOk ∧ d.trunc = decide (c.num 32 8 < total) ∧
      d.aux = min (total / 64) (2 ^ 32 - 1) ∧ d.count = (if c.num 32 8 = 0 then 0 else fit.length + 1) % 2 ^ 32 ∧
      (c.num 32 8 = 0 → t.host = s.host) ∧
      (c.num 32 8 ≠ 0 → s.fnOk (s.reqId 0).1 = true → t.host = s.host.write (c.num 24 8)
        (cHeader (fit.length + 1) (c.fld 8 1 0 2) (mask ||| 1) (Config.stamp s.fresh).toNat (Config.stamp (s.fresh + 1)).toNat total ++
          fit.flatMap (·.bytes)) false))

/-- A PROGRAM LOAD whose image verifies and fits takes the lowest free handle (log entry 7) and completes with it; an image that does not verify ends
with ST_BAD_SIGNATURE. UNLOAD of a handle no running command names frees it (R140, R141, R143). -/
def Obligations.ProgramsLoadAndUnload : Prop :=
  (∀ (s : State) (q seq : Nat) (c : Cmd) (p : Part) (h : Nat), s.cmd (ckey q seq) = some c → c.again = true → c.stage = 1 → c.opcode = 0x3F →
    c.pmode = 0 → c.operandBad = false → Tab.at? s.parts (s.pidOf (s.cidOf c)) = some p → Tab.freeFrom p.progs 1 31 = some h →
    let m := s.rangeBytes c 0 (c.num 12 4)
    (p.progs.map (fun g => g.2.code.length)).foldl (· + ·) 0 + pCode m ≤ 65536 →
    (p.progs.map (fun g => g.2.const.length)).foldl (· + ·) 0 + pConst m ≤ 49152 →
    ∃ (t : State) (gs : Tab Prog), exec (.programLoad q seq) s = .next t ∧ t = { s with parts := t.parts, cmds := t.cmds, xlt := t.xlt } ∧
      (if s.imageCheck 2 m = 0 then
        Tab.becomes s.parts t.parts (s.pidOf (s.cidOf c)) { p with progs := gs } ∧
        Tab.becomes p.progs gs h
          { kind := pKind m, cost := pCost m, code := (m.drop 4096).take (pCode m), const := (m.drop (4096 + pCode m)).take (pConst m),
            fmts := rd m 284 8, ops := rd m 292 1 } ∧
        s.completes t (ckey q seq) c stOk h 0
      else t.parts = s.parts ∧ s.completes t (ckey q seq) c stBadSignature 0 0)) ∧
  (∀ (s : State) (q seq : Nat) (c : Cmd) (p : Part) (g : Prog), s.starts q seq c → c.opcode = 0x3F → c.pmode = 1 → c.clean = true →
    1 ≤ c.phandle → c.num 12 4 = 0 → c.num 16 8 = 0 → Tab.at? s.parts (s.pidOf (s.cidOf c)) = some p → Tab.at? p.progs c.phandle = some g →
    g.unloading = false →
    ∃ t : State, exec (.programUnload q seq) s = .next t ∧ t = { s with parts := t.parts, cmds := t.cmds, xlt := t.xlt } ∧
      s.completes t (ckey q seq) c stOk c.phandle 0 ∧
      ∃ p', Tab.at? t.parts (s.pidOf (s.cidOf c)) = some p' ∧ (∀ g', Tab.at? p'.progs c.phandle = some g' → g'.unloading = true) ∧
        (s.progNamed (s.pidOf (s.cidOf c)) c.phandle = false → Tab.at? p'.progs c.phandle = none))

/-! ### Management commands and translation (09, 10) -/

/-- CONTEXT_CREATE takes the lowest free CID (log entry 7) and binds it; CONTEXT_DESTROY drains its queues, closes and retires what it owns, and waits
(R51, R278 to R280). QUEUE_CREATE whose checks pass makes an IDLE queue with empty rings under the lowest free QID (log entry 7); QUEUE_DESTROY makes
its queue DRAINING and waits, and a drained queue without received commands and census tags is FREE (R69, R75, R280). -/
def Obligations.ContextsAndQueuesAreMade : Prop :=
  ((∀ (s : State) (q seq : Nat) (c : Cmd) (f : Fn) (cid : Nat), s.starts q seq c → c.opcode = 0x40 → ctxFields c = true →
    Tab.at? s.fns (c.fld 8 2 0 9) = some f → f.en = true →
    let pasid := if c.fld 10 1 0 1 = 1 then some (c.fld 12 4 0 20) else none
    s.bindingFree (c.fld 8 2 0 9) pasid (c.fld 16 2 0 12) = true → s.partOk (c.fld 11 1 0 6) = true →
    (c.fld 18 1 0 6 = 0 ∨ (s.build.keys = true ∧ (s.keySlot (c.fld 18 1 0 6)).st = .loaded ∧ (s.keySlot (c.fld 18 1 0 6)).pid = some (c.fld 11 1 0 6))) →
    Tab.freeFrom s.ctxs 1 4095 = some cid →
    ∃ t : State, exec (.contextCreate q seq) s = .next t ∧ t = { s with ctxs := t.ctxs, cmds := t.cmds, xlt := t.xlt, stns := t.stns } ∧
      Tab.becomes s.ctxs t.ctxs cid
        { fn := c.fld 8 2 0 9, pasid := pasid, pid := some (c.fld 11 1 0 6), dbp := c.fld 16 2 0 12, key := c.fld 18 1 0 6 } ∧
      s.completes t (ckey q seq) c stOk cid 0) ∧
  (∀ (s : State) (q seq : Nat) (c : Cmd), s.starts q seq c → c.opcode = 0x41 → c.clean = true → c.fld 8 2 0 12 ≠ 0 →
    Tab.has s.ctxs (c.fld 8 2 0 12) = true →
    ∃ u : State, exec (.contextDestroy q seq) s = .next u.settleAdmin ∧ u = (s.endContext (c.fld 8 2 0 12)).waitFor (ckey q seq) (.obj (c.fld 8 2 0 12)) ∧
      (∀ i x, Tab.at? s.queues i = some x → x.cid = c.fld 8 2 0 12 → ∃ y, Tab.at? u.queues i = some y ∧ y.st = .draining) ∧
      (∀ i x, Tab.at? s.streams i = some x → x.owner = c.fld 8 2 0 12 → ∃ y, Tab.at? u.streams i = some y ∧ y.closing = true) ∧
      (∀ i x, Tab.at? s.tables i = some x → x.owner = c.fld 8 2 0 12 → ∃ y, Tab.at? u.tables i = some y ∧ y.retiring = true)) ∧
  (∀ (s : State) (q seq : Nat) (c : Cmd), s.starts q seq c → c.opcode = 0x41 → c.clean = true → c.fld 8 2 0 12 ≠ 0 →
    Tab.has s.ctxs (c.fld 8 2 0 12) = false →
    ∃ t : State, exec (.contextDestroy q seq) s = .next t ∧ t = { s with cmds := t.cmds, xlt := t.xlt } ∧ s.completes t (ckey q seq) c stBadContext 0 0)) ∧
  ((∀ (s : State) (q seq : Nat) (c : Cmd) (qid : Nat), s.starts q seq c → c.opcode = 0x42 → s.queueChecks (ckey q seq) c = .ok () →
    Tab.freeFrom s.queues 1 32767 = some qid →
    ∃ t : State, exec (.queueCreate q seq) s = .next t ∧ t = { s with queues := t.queues, cmds := t.cmds, parts := t.parts, xlt := t.xlt } ∧
      Tab.becomes s.queues t.queues qid (newQueue c) ∧ s.completes t (ckey q seq) c stOk qid 0) ∧
  (∀ (s : State) (q seq : Nat) (c : Cmd) (x : Queue), s.starts q seq c → c.opcode = 0x43 → c.clean = true → c.fld 8 2 0 15 ≠ 0 →
    Tab.at? s.queues (c.fld 8 2 0 15) = some x →
    ∃ (t : State) (y : Queue), exec (.queueDestroy q seq) s = .next t ∧ t = { s with queues := t.queues, cmds := t.cmds, tags := t.tags, waiting := t.waiting } ∧
      Tab.becomes s.queues t.queues (c.fld 8 2 0 15) y ∧ y.st = .draining ∧ y.h = x.h ∧ y.c = x.c ∧ y.k = x.k ∧ y.cid = x.cid ∧
      Tab.becomes s.cmds t.cmds (ckey q seq) { c with phase := .running, stage := 8, items := [], work := .obj (c.fld 8 2 0 15) }) ∧
  (∀ (s : State) (qid : Nat) (x : Queue), Tab.at? s.queues qid = some x → x.st = .draining → s.received qid = 0 → s.queueTags qid = false →
    ∃ u : State, exec (.queueDrained qid) s = .next u.settleAdmin.settleSteps ∧ u = { s with queues := u.queues, cmds := u.cmds, xlt := u.xlt } ∧
      Tab.loses s.queues u.queues qid ∧
      (∀ cl c, (cl, c) ∈ s.cmds → Tab.at? s.cmds cl = some c → c.phase = .running → c.opcode = 0x43 → c.work = .obj qid → c.cancel = none →
        ∃ d, Tab.at? u.cmds cl = some d ∧ d.phase = .done ∧ d.status = stOk ∧ d.count = qid % 2 ^ 32)))

/-- TABLE_CREATE whose descriptor is read and in order makes the table under the lowest free TID (log entry 7), with version 1 current, 2 staging and
an empty overlay (R86, R149, R155). PARTITION_CREATE makes an ACTIVE partition with its stations, one cache slice and a postbag (R53, R278, R302).
PARTITION_REMOVE makes its partition and its queues DRAINING and waits; once nothing of the partition is left its postbag is flushed and its key slots
are scrubbed; T_DRAIN's expiry has the isolation wrapper end what is left (R75, R280, R321). -/
def Obligations.TablesAndPartitionsComeAndGo : Prop :=
  ((∀ (s : State) (q seq : Nat) (c : Cmd) (t : Table) (tid : Nat), s.cmd (ckey q seq) = some c → c.again = true → c.stage = 1 → c.opcode = 0x44 →
    c.operandBad = false → s.tableChecks (ckey q seq) c (s.rangeBytes c 0 128) = .ok t → Tab.freeFrom s.tables 0 65536 = some tid →
    ∃ (v : State) (t' : Table), exec (.tableCreate q seq) s = .next v ∧ Tab.becomes s.tables v.tables tid t' ∧
      t' = { t with raw := leBytes 2 tid ++ (s.rangeBytes c 0 128).drop 2 } ∧ t'.cur = 1 ∧ t'.s = 2 ∧ t'.dir = [] ∧
      t'.vers = [⟨1, rd (s.rangeBytes c 0 128) 32 8, 1, 0⟩] ∧ s.completes v (ckey q seq) c stOk tid 0 ∧
      v.queues = s.queues ∧ v.streams = s.streams ∧ v.parts = s.parts ∧ v.fences = s.fences) ∧
  (∀ (s : State) (q seq : Nat) (c : Cmd) (sl : Nat), s.cmd (ckey q seq) = some c → c.again = true → c.stage = 1 → c.opcode = 0x45 →
    c.operandBad = false →
    let pid := c.fld 8 1 0 6
    let d := s.rangeBytes c 0 384
    let ns := maskStns (c.fld 16 8 0 48)
    Tab.has s.parts pid = false → ns ≠ [] → s.freeSlice = some sl →
    (∀ n ∈ ns, n < s.build.nstn ∧ (Tab.atD s.stns n {}).state = 0 ∧ s.ownerOf n = none ∧ bayAt d n % 65536 = 0 ∧ bayAt d n + 2 ^ 28 ≤ s.build.memBytes n) →
    ∃ (t : State) (p : Part), exec (.partitionCreate q seq) s = .next t ∧
      t = { s with parts := t.parts, postbags := t.postbags, cmds := t.cmds, xlt := t.xlt, stns := t.stns } ∧ Tab.becomes s.parts t.parts pid p ∧
      p = { stns := ns, weight := if c.num 9 1 = 0 then 1 else c.num 9 1, defTmo := if c.fld 12 4 0 26 = 0 then 50000 else c.fld 12 4 0 26,
            quota := c.fld 24 4 0 19, bays := ns.map (fun n => (n, bayAt d n)), ways := 2 ^ (sl % 16), banks := 2 ^ (sl / 16) } ∧
      Tab.becomes s.postbags t.postbags pid {} ∧ s.completes t (ckey q seq) c stOk pid 0)) ∧
  ((∀ (s : State) (q seq : Nat) (c : Cmd) (p : Part), s.starts q seq c → c.opcode = 0x46 → c.clean = true → Tab.at? s.parts (c.fld 8 1 0 6) = some p →
    p.st = 0 →
    ∃ (t : State) (d : Cmd), exec (.partitionRemove q seq) s = .next t ∧
      Tab.becomes s.parts t.parts (c.fld 8 1 0 6) { p with st := 1, wrapped := false, scrubbing := false } ∧
      (∀ i x, Tab.at? s.queues i = some x → i ≠ 0 → s.pidOf x.cid = c.fld 8 1 0 6 → ∃ y, Tab.at? t.queues i = some y ∧ y.st = .draining) ∧
      Tab.becomes s.cmds t.cmds (ckey q seq) d ∧ d.phase = .running ∧ d.work = .obj (c.fld 8 1 0 6) ∧
      t.tables = s.tables ∧ t.streams = s.streams ∧ t.ctxs = s.ctxs ∧ t.fences = s.fences) ∧
  (∀ (s : State) (q seq : Nat) (c : Cmd) (p : Part), s.starts q seq c → c.opcode = 0x46 → c.clean = true → Tab.at? s.parts (c.fld 8 1 0 6) = some p →
    p.st ≠ 0 →
    ∃ t : State, exec (.partitionRemove q seq) s = .next t ∧ t = { s with cmds := t.cmds, xlt := t.xlt } ∧ s.completes t (ckey q seq) c stBusy 0 0) ∧
  (∀ (s : State) (pid : Nat), s.drained pid = true →
    exec (.partitionDrained pid) s = .next ((s.stepMarkers pid).removeScrub pid).settleRemovals) ∧
  (∀ (s : State) (pid : Nat) (p : Part), Tab.at? s.parts pid = some p → p.st = 1 → p.scrubbing = false → s.drained pid = false →
    ∃ u : State, exec (.tDrainExpiry pid) s = .next ((u.wrapCmds (s.cmdsPart pid)).endReqs (fun r => r.stn.isNone && s.reqPart pid r)) ∧ u = { s with parts := u.parts } ∧
      Tab.becomes s.parts u.parts pid { p with wrapped := true }))

/-- SEGMENT_SET sets its slot to the descriptor read and invalidates the range the slot had; INVALIDATE_RANGE removes the cache entries that overlap
its range, of its context alone, and an empty range completes at once; a detached context accepts none. Acknowledgements are counted, and a port that
gives none in time is taken to the engine step (R55, R293, R304, R305). A write of XLT_WMAP gives the selected partition the slices it names, where
they are free, and flushes its entries; otherwise it sets WMAP_ERR (R302, R323). A walk that reads a good leaf entry installs its run as the most
recently used entry of its set, which keeps no more entries than the partition has ways (log entry 35), and tells the clients that wait for it; one
whose run an invalidation met meanwhile installs nothing (R297, R298, R301, R303, R304). -/
def Obligations.SegmentsAndTranslation : Prop :=
  ((∀ (s : State) (q seq : Nat) (c : Cmd) (x : Ctx), s.cmd (ckey q seq) = some c → c.again = true → c.stage = 1 → c.opcode = 0x47 →
    c.operandBad = false → s.segChecks (c.fld 8 2 0 12) (c.fld 10 1 0 4) (s.rangeBytes c 0 64) = .ok () →
    Tab.at? s.ctxs (c.fld 8 2 0 12) = some x →
    ∃ (u : State) (gs : Tab Seg), exec (.segmentSet q seq) s = .next (u.invalidate (ckey q seq) (c.fld 8 2 0 12)
        (((Tab.at? x.segs (c.fld 10 1 0 4)).map (·.base)).getD 0) (((Tab.at? x.segs (c.fld 10 1 0 4)).map (·.len)).getD 0)) ∧
      u = { s with ctxs := u.ctxs } ∧ Tab.becomes s.ctxs u.ctxs (c.fld 8 2 0 12) { x with segs := gs } ∧
      Tab.becomes x.segs gs (c.fld 10 1 0 4) (segOfDesc (s.rangeBytes c 0 64))) ∧
  (∀ (s : State) (cid lo len pid : Nat) (p : Part), Tab.at? s.parts pid = some p →
    ∃ p', Tab.at? (s.invalCache cid lo len).parts pid = some p' ∧
      ∀ e, e ∈ p'.cache ↔ e ∈ p.cache ∧ ¬(e.cid = cid ∧ e.lo < lo + len ∧ lo < e.lo + e.len)) ∧
  (∀ (s : State) (q seq : Nat) (c : Cmd), s.starts q seq c → c.opcode = 0x48 → c.clean = true → c.fld 8 2 0 12 ≠ 0 → c.num 16 8 % 65536 = 0 →
    c.num 24 8 % 65536 = 0 → c.num 16 8 + c.num 24 8 ≤ 2 ^ 64 → (Tab.at? s.ctxs (c.fld 8 2 0 12)).map (·.detached) = some false →
    ∃ t : State, exec (.invalidateRange q seq) s = .next t ∧
      (c.num 24 8 = 0 → t = { s with cmds := t.cmds, xlt := t.xlt } ∧ s.completes t (ckey q seq) c stOk 0 0) ∧
      (c.num 24 8 ≠ 0 → ∃ (u : State) (d : Cmd), u = s.invBegin (ckey q seq) (c.fld 8 2 0 12) (c.num 16 8) (c.num 24 8) ∧
        u.cmd (ckey q seq) = some d ∧ t = State.invGo (ckey q seq) d u ∧ d.phase = .running ∧ d.stage = 2)) ∧
  (∀ (s : State) (q seq : Nat) (c : Cmd), s.starts q seq c → c.opcode = 0x48 → c.clean = true → c.fld 8 2 0 12 ≠ 0 → c.num 16 8 % 65536 = 0 →
    c.num 24 8 % 65536 = 0 → c.num 16 8 + c.num 24 8 ≤ 2 ^ 64 → (Tab.at? s.ctxs (c.fld 8 2 0 12)).map (·.detached) ≠ some false →
    ∃ t : State, exec (.invalidateRange q seq) s = .next t ∧ t = { s with cmds := t.cmds, xlt := t.xlt } ∧
      s.completes t (ckey q seq) c stBadContext 0 0) ∧
  (∀ (s : State) (q seq id : Nat) (c : Cmd) (w : InvW), s.cmd (ckey q seq) = some c → c.work = .inv w → c.stage = 8 → c.phase = .running →
    w.stns.contains id = true → w.old.any (fun r => r.stn == some id && s.inFlight r) = false →
    ∃ u : State, exec (.extentAck q seq false id) s = .next u.settleInv ∧ u = { s with cmds := u.cmds } ∧
      Tab.becomes s.cmds u.cmds (ckey q seq) { c with work := .inv { w with stns := w.stns.erase id } }) ∧
  (∀ (s : State) (q seq ep : Nat) (c : Cmd) (w : InvW), s.cmd (ckey q seq) = some c → c.work = .inv w → c.stage = 8 → c.phase = .running →
    w.ports.contains ep = true → exec (.invalidateAckTimeout q seq ep) s = .next (s.ask 2 ep))) ∧
  ((∀ (s : State) (v : BitVec 32) (p : Part), s.reaches 0 → s.xlt.sys = false → Tab.at? s.parts s.xlt.psel = some p → v.toNat.testBit 31 = false →
    let ways := bits v.toNat 0 16
    let banks := bits v.toNat 16 4
    ∃ t : State, exec (.xltWmapWrite v) s = .next t ∧ t = { s with parts := t.parts } ∧
      Tab.becomes s.parts t.parts s.xlt.psel
        (if ways = 0 ∨ banks = 0 ∨ (slicesOf ways banks).any (s.sliceTaken s.xlt.psel) = true then { p with wmapErr := true }
         else { p with cache := [], ways := ways, banks := banks })) ∧
  (∀ (s : State) (k e : Nat) (w : Walker) (x : Ctx) (g : Seg) (p : Part), Tab.at? s.ctxs w.cid = some x → Tab.at? x.segs w.seg = some g →
    Tab.at? s.parts w.pid = some p → e.testBit 0 = true → e.testBit 2 = true →
    s.badLeaf w.level e ((w.addr - g.base) / pageSize w.level) = false →
    let sz := pageSize w.level
    let len := 2 ^ bits e 10 3 * sz
    let lo := g.base + (w.addr - g.base) / sz / 2 ^ bits e 10 3 * len
    ∃ t : State, s.walkEntry k w e = t ∧ t = { s with parts := t.parts, xlt := t.xlt } ∧ Tab.loses s.xlt.walkers t.xlt.walkers k ∧
      (w.stale lo len = true → t = { s with xlt := { s.xlt with walkers := t.xlt.walkers } }) ∧
      (w.stale lo len = false → ∃ n : CacheEnt, Tab.becomes s.parts t.parts w.pid (p.install n) ∧ n.cid = w.cid ∧ n.lo = lo ∧ n.len = len ∧
        n.wr = e.testBit 1 ∧ n.host = e.testBit 3 ∧ n.entry = e ∧
        (∀ m ∈ s.xlt.misses, m.cid = w.cid → lo ≤ m.addr → m.addr < lo + len → ∃ x ∈ t.xlt.xfaults, x.client = m.client ∧ x.run = some n))) ∧
  (∀ (p : Part) (n : CacheEnt), (p.install n).cache.head? = some n ∧
    ((p.install n).cache.filter (fun e => p.place e == p.place n)).length ≤ max 1 p.nways ∧
    (∀ e, p.place e ≠ p.place n → (e ∈ (p.install n).cache ↔ e ∈ p.cache))) ∧
  (∀ (s : State) (tag status k : Nat) (data : List (BitVec 8)) (poison : Bool) (r : Req), Tab.at? s.tags tag = some r → r.stn = none →
    r.pur = .walk k →
    exec (.walkReadResponse tag status ⟨data, poison⟩) s = .next ((s.part tag 0 8 data []).answer tag (poison || status != 0))))

/-- KEYSLOT_LOAD binds the lowest free slot (log entry 7) and sends the key to each station of the partition; it completes when the last of them
acknowledges. KEYSLOT_SCRUB stops the slot's use, erases it at every holder once its tags are gone, and completes when the last acknowledges, with the
slot's epoch one higher (R317, R318, R368). A missing acknowledgement makes the chip step due (R368). A sweep marks every request outstanding at a
memory port and sends a marker on every lane of every port, which a port that takes no requests now holds in place of older ones (log entry 54); when
the last lane has returned the epochs rise, and a scrubbed slot is FREE after its second sweep (R319, R367). -/
def Obligations.KeysAndSweeps : Prop :=
  ((∀ (s : State) (q seq : Nat) (c : Cmd) (k : Nat), s.cmd (ckey q seq) = some c → c.again = true → c.stage = 1 → c.opcode = 0x49 →
    c.operandBad = false → s.partOk (c.fld 8 1 0 6) = true → (runFrom 1 63).find? (fun k => (s.keySlot k).st == .free) = some k →
    let m := s.rangeBytes c 0 (c.fld 12 4 0 7)
    ∃ t : State, exec (.keyslotLoad q seq) s = .next t ∧ t = { s with keys := t.keys, cmds := t.cmds, out := t.out } ∧
      t.out = s.out ++ (s.stnsOf (c.fld 8 1 0 6)).map (fun n => .keyOp n 0 k (some m.length) (keyBeats m)) ∧
      Tab.becomes s.keys t.keys k { s.keySlot k with
        st := .loaded, pid := some (c.fld 8 1 0 6), await := s.stnsOf (c.fld 8 1 0 6), holders := [], erasing := false } ∧
      Tab.becomes s.cmds t.cmds (ckey q seq) { c with phase := .running, stage := 8, items := [], work := .obj k }) ∧
  (∀ (s : State) (q seq : Nat) (c : Cmd), s.starts q seq c → c.opcode = 0x4A → s.build.keys = true → c.clean = true → c.fld 8 1 0 6 ≠ 0 →
    Tab.ex s.ctxs (fun _ x => x.key == c.fld 8 1 0 6 && !x.detached) = false →
    ∃ t : State, exec (.keyslotScrub q seq) s = .next t ∧ t = { s with keys := t.keys, cmds := t.cmds } ∧
      Tab.becomes s.keys t.keys (c.fld 8 1 0 6) { s.keySlot (c.fld 8 1 0 6) with st := .scrubbing, erasing := false } ∧
      Tab.becomes s.cmds t.cmds (ckey q seq) { c with phase := .running, stage := 8, items := [], work := .obj (c.fld 8 1 0 6) }) ∧
  (∀ (s : State) (k : Nat), (s.keySlot k).waits = true → s.keyTags k = 0 → (s.keySlot k).holders ≠ [] →
    ∃ u : State, exec (.scrubTagsDrained k false) s = .next u.settleRemovals ∧ u = { s with keys := u.keys, out := u.out } ∧
      u.out = s.out ++ (s.keySlot k).holders.map (fun n => .keyOp n 1 k none (zeros 32)) ∧
      Tab.becomes s.keys u.keys k { s.keySlot k with erasing := true, await := (s.keySlot k).holders }) ∧
  (∀ (s : State) (stn k : Nat), (s.keySlot k).await = [stn] → (s.keySlot k).erasing = true →
    ∃ u : State, exec (.keyAck stn k 1) s = .next u.settleRemovals ∧ u = { s with keys := u.keys, cmds := u.cmds, xlt := u.xlt } ∧
      Tab.becomes s.keys u.keys k { s.keySlot k with
        st := .scrubbed, pid := none, epoch := ((s.keySlot k).epoch + 1) % 2 ^ 32, sweeps := 0, erasing := false, holders := [], await := [] } ∧
      (∀ cl c, (cl, c) ∈ s.cmds → Tab.at? s.cmds cl = some c → c.phase = .running → c.opcode = 0x4A → c.work = .obj k → c.cancel = none →
        ∃ d, Tab.at? u.cmds cl = some d ∧ d.phase = .done ∧ d.status = stOk ∧ d.count = k % 2 ^ 32)) ∧
  (∀ (s : State) (stn k : Nat), (s.keySlot k).await.contains stn = true → exec (.keyAckTimeout stn k) s = .next (s.ask 4 0))) ∧
  ((∀ s : State, s.up = true → s.xlt.sweep = none →
    let ls := (List.range s.build.nstn).flatMap (fun n => (List.range 16).map (fun l => (n, l)))
    ∃ u : State, u = { s with tags := u.tags, xlt := { s.xlt with sweep := some ls }, waiting := s.waiting.filter (fun r => r.pur != .marker) } ∧
      (∀ i r, Tab.at? s.tags i = some r → Tab.at? u.tags i = some (if r.stn.isSome = true then { r with swept := true } else r)) ∧
      let mk := fun (l : Nat × Nat) => ({ stn := some l.1, client := 0, cid := 0, key := 0, fn := 0, pasid := none, addr := 0, len := 0,
                                          pur := .marker, lane := l.2 } : Req)
      exec .sweepStart s = .next (ls.foldl (fun s l => s.issue (mk l)) u).settleSweep) ∧
  (∀ s : State, s.sweepEnd = { s with xlt := s.sweepEnd.xlt, keys := s.sweepEnd.keys } ∧
    s.sweepEnd.xlt = { s.xlt with sweep := none, epoch := (s.xlt.epoch + 1) % 2 ^ 32 } ∧
    (∀ k x, Tab.at? s.keys k = some x → Tab.at? s.sweepEnd.keys k = some (if x.st = .scrubbed then
      { x with epoch := (x.epoch + 1) % 2 ^ 32, sweeps := x.sweeps + 1, st := if 2 ≤ x.sweeps + 1 then .free else .scrubbed } else x))) ∧
  (∀ s : State, s.xlt.sweep.isSome = true → exec .sweepStart s = .next s))

/-! ### Events, postbags and answers (10, 11, 12) -/

/-- An input change sets PENDING by its source's SENSE, counts the edge and merges its INFO; a source that is not built takes nothing. A driver's
EVC_SWSET is one edge on its software source, and EVC_ACK clears ACTIVE of a HOST LEVEL source (R324, R327, R328, R343). Masks and configuration of a
source are written by its owner alone (R339, R340, R343). -/
def Obligations.SourcesSampleTheirInputs : Prop :=
  ((∀ (s : State) (n : Nat) (info : BitVec 32), s.srcBuilt n = true → (s.src n).sense = 1 → (s.src n).raw = false →
    ∃ t : State, exec (.eventInputChange n true info) s = .next t ∧ t = { s with evc := { s.evc with srcs := t.evc.srcs } } ∧
      (∀ m, m ≠ n → t.src m = s.src m) ∧
      t.src n = { s.src n with raw := true, pending := true, count := min 255 ((s.src n).count + 1), info := mergeInfo n (s.src n).info info.toNat }) ∧
  (∀ (s : State) (n : Nat) (level : Bool) (info : BitVec 32), s.srcBuilt n = true → (s.src n).sense = 0 →
    ∃ t : State, exec (.eventInputChange n level info) s = .next t ∧ t = { s with evc := { s.evc with srcs := t.evc.srcs } } ∧
      (∀ m, m ≠ n → t.src m = s.src m) ∧ (t.src n).raw = level ∧ (t.src n).pending = (level && !(s.src n).active) ∧
      (t.src n).active = (s.src n).active) ∧
  (∀ (s : State) (n : Nat) (level : Bool) (info : BitVec 32), s.srcBuilt n = false → exec (.eventInputChange n level info) s = .next s) ∧
  (∀ (s : State) (v : BitVec 32), s.reaches 0 → 896 ≤ bits v.toNat 0 10 → bits v.toNat 0 10 ≤ 959 → (s.src (bits v.toNat 0 10)).sense = 1 →
    (s.src (bits v.toNat 0 10)).raw = false →
    ∃ t : State, exec (.evcSwset false v) s = .next t ∧ t = { s with evc := { s.evc with srcs := t.evc.srcs } } ∧
      (∀ m, m ≠ bits v.toNat 0 10 → t.src m = s.src m) ∧
      t.src (bits v.toNat 0 10) = { s.src (bits v.toNat 0 10) with
        pending := true, count := min 255 ((s.src (bits v.toNat 0 10)).count + 1),
        info := (s.src (bits v.toNat 0 10)).info ||| (v.toNat / 1024 * 1024) }) ∧
  (∀ (s : State) (v : BitVec 32), s.reaches 0 → srcFw (bits v.toNat 0 10) = false → (s.src (bits v.toNat 0 10)).sense = 0 →
    (s.src (bits v.toNat 0 10)).active = true →
    ∃ t : State, exec (.evcAck v) s = .next t ∧ t = { s with evc := { s.evc with srcs := t.evc.srcs } } ∧
      (∀ m, m ≠ bits v.toNat 0 10 → t.src m = s.src m) ∧
      t.src (bits v.toNat 0 10) = { s.src (bits v.toNat 0 10) with active := false, pending := (s.src (bits v.toNat 0 10)).raw })) ∧
  ((∀ (s : State) (fw set : Bool) (i : Nat) (v : BitVec 32), (fw = true ∨ s.reaches 0) →
    ∃ t : State, exec (if set = true then .evcMaskSet fw i v else .evcMaskClr fw i v) s = .next t ∧
      t = { s with evc := { s.evc with srcs := t.evc.srcs } } ∧
      ∀ m, t.src m = if m / 32 = i ∧ v.toNat.testBit (m % 32) = true ∧ s.mayCfg fw m = true then { s.src m with masked := set } else s.src m) ∧
  (∀ (s : State) (fw : Bool) (v : BitVec 32), (fw = true ∨ s.reaches 0) → s.mayCfg fw s.evc.ssel = true →
    ∃ t : State, exec (.sourceConfigWrite fw false v) s = .next t ∧ t = { s with evc := { s.evc with srcs := t.evc.srcs } } ∧
      (∀ m, m ≠ s.evc.ssel → t.src m = s.src m) ∧ (t.src s.evc.ssel).prio = bits v.toNat 8 8 ∧
      (t.src s.evc.ssel).sense = (if srcFixed s.evc.ssel = true then (s.src s.evc.ssel).sense else bits v.toNat 0 2) ∧
      (t.src s.evc.ssel).hring = (if fw = true then bits v.toNat 3 2 else 0) ∧ (t.src s.evc.ssel).masked = (s.src s.evc.ssel).masked) ∧
  (∀ (s : State) (fw route : Bool) (v : BitVec 32), s.mayCfg fw s.evc.ssel = false → exec (.sourceConfigWrite fw route v) s = .next s))

/-- The winner is pending, unmasked and enabled, and has the lowest PRIO, then the lowest number. Its record goes to its function's ring, or to its
hub ring, and the source is delivered; with no winner nothing happens, and while LTP-H takes no write only a firmware source wins. The record of a
management source goes out as an EVENT frame too (R328, R330, R331, R333, R335, R453). EVC_FN_CFG.EN with a size in range starts an empty, armed ring,
and otherwise sets CFG_ERR; a head write moves the head, and sends the message again while records are left (R332, R333, R342). -/
def Obligations.RecordsReachTheRings : Prop :=
  ((∀ (s : State) (ltp : Bool) (n : Nat) (x : Src), Tab.sorted s.evc.srcs = true → s.winner ltp = some (n, x) →
    Tab.at? s.evc.srcs n = some x ∧ s.mayWin ltp n x = true ∧
    ∀ m y, (m, y) ∈ s.evc.srcs → s.mayWin ltp m y = true → x.prio < y.prio ∨ (x.prio = y.prio ∧ n ≤ m)) ∧
  (∀ (s : State) (n : Nat) (x : Src), s.winner false = some (n, x) → srcFw n = true) ∧
  (∀ s : State, s.winner s.ltpTakes = none → exec .eventDelivery s = .next s) ∧
  (∀ (s : State) (n : Nat) (x : Src) (f : Fn), s.ltpTakes = true → s.winner true = some (n, x) → srcFw n = false → Tab.at? s.fns x.fn = some f → f.evEn = true →
    f.evFull = false → s.fnOk x.fn = true → (f.evArmed = false ∨ f.evVec ≠ 0x7FF) →
    let bs := eventBytes n x.prio false (x.sense == 0) (phaseOf f.evN f.evTail) x.info (Config.stamp s.fresh).toNat (if x.sense = 0 then 1 else x.count)
    ∃ t : State, exec .eventDelivery s = .next t ∧
      t = { s with evc := t.evc, fns := t.fns, host := t.host, out := t.out, fresh := s.fresh + 1 } ∧ t.src n = x.delivered ∧
      t.host = s.host.write (f.evBase + 16 * (f.evTail % f.evN)) bs false ∧
      Tab.becomes s.fns t.fns x.fn { f with evTail := posAdd f.evN f.evTail 1, evArmed := false } ∧
      (f.evArmed = true → t.out.getLast? = some (.irq x.fn f.evVec))) ∧
  (∀ (s : State) (n : Nat) (x : Src), s.winner s.ltpTakes = some (n, x) → srcFw n = true → (s.hring x.hring).full = false →
    let tail := (s.hring x.hring).tail
    let bs := eventBytes n x.prio false (x.sense == 0) (phaseOf 256 tail) x.info (Config.stamp s.fresh).toNat (if x.sense = 0 then 1 else x.count)
    ∃ (t : State) (rec_ : HrRec), exec .eventDelivery s = .next t ∧ t = { s with evc := t.evc, out := t.out, fresh := s.fresh + 1 } ∧
      t.src n = x.delivered ∧ Tab.at? (t.hring x.hring).sram (tail % 256) = some bs ∧
      t.out = s.out ++ (if 768 ≤ n ∧ n ≤ 831 ∧ s.build.canfd = true then [canFrame s (0x80 + s.opts.fields.getD 7 1) bs] else []) ∧
      Tab.becomes (s.hring x.hring).recs (t.hring x.hring).recs ((s.hring x.hring).tail % 256) rec_ ∧
      (t.hring x.hring).tail = posAdd 256 (s.hring x.hring).tail 1 ∧ rec_.src = n ∧ rec_.prio = x.prio ∧ rec_.info = x.info ∧ rec_.by_ = none)) ∧
  ((∀ (s : State) (fn : Nat) (v : BitVec 32) (f : Fn), s.reaches fn → Tab.at? s.fns fn = some f → f.evEn = false → v.toNat.testBit 0 = true →
    f.evOvf = false →
    ∃ t : State, exec (.eventRingEnable fn v) s = .next t ∧ t = { s with fns := t.fns } ∧
      Tab.becomes s.fns t.fns fn (if 4 ≤ bits v.toNat 1 4 ∧ bits v.toNat 1 4 ≤ 12 then
        { f with evVec := bits v.toNat 5 11, evLog2 := bits v.toNat 1 4, evEn := true, evCfgErr := false, evHead := 0, evTail := 0, evArmed := true }
      else { f with evVec := bits v.toNat 5 11, evLog2 := bits v.toNat 1 4, evCfgErr := true })) ∧
  (∀ (s : State) (fn h : Nat) (v : BitVec 32) (f : Fn), s.reaches fn → Tab.at? s.fns fn = some f → posDec f.evN v.toNat = some h →
    posSub f.evN h f.evHead ≤ posSub f.evN f.evTail f.evHead → f.evOvf = false → s.fnOk fn = true → f.evVec ≠ 0x7FF →
    ∃ t : State, exec (.eventRingHeadWrite fn v) s = .next t ∧ t = { s with fns := t.fns, out := t.out } ∧
      Tab.becomes s.fns t.fns fn { f with evHead := h, evArmed := f.evArmed || h == f.evTail } ∧
      t.out = (if h = f.evTail then s.out else s.out ++ [.irq fn f.evVec])))

/-- A claim takes the presented record and returns its source, ring and slot, or the spurious number; DONE of a record that the core claimed frees its
slot, and DONE without a claim sets EMPTY (R336 to R338). -/
def Obligations.CoresClaimAndEndRecords : Prop :=
  (∀ (s : State) (core : Nat), core < 8 → s.claimPick core = none →
    exec (.evcClaim core) s = .next { s with out := s.out ++ [.seqRead core 0x3FF] }) ∧
  (∀ (s : State) (core r slot : Nat) (e : HrRec), core < 8 → s.claimPick core = some (r, slot, e) →
    ∃ t : State, exec (.evcClaim core) s = .next t ∧ t = { s with evc := t.evc, out := t.out } ∧
      t.out = s.out ++ [.seqRead core (packF [(0, 10, e.src), (10, 2, r), (12, 8, slot), (31, 1, 1)])] ∧
      Tab.becomes (s.hring r).recs (t.hring r).recs slot { e with by_ := some core } ∧ s.presented core e = true ∧ (∀ q, q ≠ r → t.hring q = s.hring q)) ∧
  (∀ (s : State) (core : Nat) (v : BitVec 32) (e : HrRec), core < 8 → s.claims core ≠ [] →
    Tab.at? (s.hring (bits v.toNat 10 2)).recs (bits v.toNat 12 8) = some e → e.by_ = some core → e.level = false →
    (s.hring (bits v.toNat 10 2)).ovf = false →
    ∃ t : State, exec (.evcDone core v) s = .next t ∧ t = { s with evc := { s.evc with rings := t.evc.rings } } ∧
      Tab.loses (s.hring (bits v.toNat 10 2)).recs (t.hring (bits v.toNat 10 2)).recs (bits v.toNat 12 8) ∧
      (t.hring (bits v.toNat 10 2)).tail = (s.hring (bits v.toNat 10 2)).tail) ∧
  (∀ (s : State) (core : Nat) (v : BitVec 32), core < 8 → s.claims core = [] →
    exec (.evcDone core v) s = .next { s with evc := { s.evc with empty_ := Tab.put s.evc.empty_ core () } })

/-- A batch of one fault record is written at its postbag's tail and its source is raised. XLT_PB_CFG.EN starts an empty postbag of a size in range; a
head write frees slots; a write of FAULT_LOST's clear register clears it for the context it names (R307 to R311, R323). -/
def Obligations.PostbagsTakeFaultRecords : Prop :=
  (∀ (s : State) (p : Nat) (b : Postbag) (r : FaultRec), Tab.at? s.postbags p = some b → b.staged = [r] → b.en = true → b.full = false → b.ovf = none →
    s.fnOk 0 = true →
    ∃ u : State, exec (.postbagBatchWrite p) s = .next (u.raise p 1) ∧
      u = { s with host := u.host, out := u.out, postbags := u.postbags, incr := u.incr } ∧
      u.host = s.host.write (b.base + 64 * (b.tail % b.n)) (r.bytes (phaseOf b.n b.tail)) false ∧
      Tab.becomes s.postbags u.postbags p { b with tail := posAdd b.n b.tail 1, staged := [] }) ∧
  (∀ (s : State) (v : BitVec 32) (p : Nat) (b : Postbag), s.reaches 0 → s.pbSel = some p → Tab.at? s.postbags p = some b → b.en = false →
    v.toNat.testBit 0 = true → b.ovf = none →
    ∃ t : State, exec (.postbagEnable v) s = .next t ∧ t = { s with postbags := t.postbags } ∧
      Tab.becomes s.postbags t.postbags p (if 6 ≤ bits v.toNat 1 5 ∧ bits v.toNat 1 5 ≤ 16 then
        { b with en := true, log2 := bits v.toNat 1 5, cfgErr := false, head := 0, tail := 0 } else { b with log2 := bits v.toNat 1 5, cfgErr := true })) ∧
  (∀ (s : State) (v : BitVec 32) (p h : Nat) (b : Postbag), s.reaches 0 → s.pbSel = some p → Tab.at? s.postbags p = some b →
    posDec b.n v.toNat = some h → posSub b.n h b.head ≤ posSub b.n b.tail b.head → b.ovf = none →
    ∃ t : State, exec (.postbagHeadWrite v) s = .next t ∧ t = { s with postbags := t.postbags } ∧ Tab.becomes s.postbags t.postbags p { b with head := h }) ∧
  (∀ (s : State) (v : BitVec 32) (x : Ctx), s.reaches 0 → Tab.at? s.ctxs (bits v.toNat 0 12) = some x →
    ∃ t : State, exec (.faultLostClear v) s = .next t ∧ t = { s with ctxs := t.ctxs } ∧
      Tab.becomes s.ctxs t.ctxs (bits v.toNat 0 12) { x with faultLost := false })

/-- R314: a response of a memory port is accepted only against a live tag whose CID and key slot it matches; any other is a dead letter, which is
counted and changes nothing else, and so is a response to a tag that the memory timeout has retired. A port that is held in reset takes none (R346).
-/
def Obligations.LateResponsesAreDeadLetters : Prop :=
  (∀ (s : State) (stn lane tag cid key type poison : Nat) (data : List (BitVec 8)) (last : Bool), s.portHeld stn = false →
    (∀ r ∈ Tab.at? s.tags (stnTag stn tag), r.cid ≠ cid ∨ r.key ≠ key) →
    ∃ t : State, exec (.memoryResponse stn lane tag cid key type ⟨data, poison⟩ last .good) s = .next t ∧
      t = { s with xlt := { s.xlt with dead := satAdd 32 s.xlt.dead 1 }, incr := t.incr }) ∧
  (∀ (s : State) (stn lane tag poison : Nat) (data : List (BitVec 8)) (last : Bool) (r : Req) (i : Nat), s.portHeld stn = false →
    Tab.at? s.tags (stnTag stn tag) = some r → r.stn = some stn → r.pur = .item i →
    ∃ u : State, u = { s with tags := u.tags, stnMem := memPut s.stnMem stn ((s.memOf stn).show (r.addr + r.got) (data.take (min 128 (r.len - r.got)))) } ∧
      Tab.becomes s.tags u.tags (stnTag stn tag) { r with got := r.got + 128, bad := r.bad ++ r.beatBad 0 poison } ∧
      exec (.memoryResponse stn lane tag r.cid r.key 0 ⟨data, poison⟩ last .good) s = .next
        (if last = true then (if r.bad ++ r.beatBad 0 poison ≠ [] then u.mpBad stn r else u).answer (stnTag stn tag) false else u)) ∧
  (∀ (s : State) (stn lane tag cid key type poison : Nat) (data : List (BitVec 8)) (last : Bool), s.portHeld stn = true →
    exec (.memoryResponse stn lane tag cid key type ⟨data, poison⟩ last .good) s = .next s)

/-- A memory response or completion that answers no request is a dead letter, counted and otherwise without effect; an earlier beat marks its its
sectors; the last one frees its tag and goes to the client. A bad acknowledgement of a write spoils what was written and sets its command's POISON. A
request that reaches T_mem is answered with an error and counted for its station. A completion marks the bytes it brings, and a read that reaches
T_ltp fails in what has not come. A port held in reset takes nothing (R314, R315, R346, R351, R364, R365, R401; that such a write sets POISON is the
model's choice, log entry 90). MP_MEM_RDY is kept; its fall in service fences the station, and what waited for it goes on when it rises (R369, R412).
-/
def Obligations.AnswersReachTheirRequests : Prop :=
  ((∀ (s : State) (stn lane tag cid key type poison : Nat) (data : List (BitVec 8)) (last : Bool), s.portHeld stn = false →
    (∀ r ∈ Tab.at? s.tags (stnTag stn tag), r.answeredBy lane cid key type = false) →
    ∃ t : State, exec (.memoryResponse stn lane tag cid key type ⟨data, poison⟩ last .good) s = .next t ∧ t = { s with xlt := t.xlt, incr := t.incr } ∧
      t.xlt = { s.xlt with dead := satAdd 32 s.xlt.dead 1 }) ∧
  (∀ (s : State) (stn lane tag cid key type poison : Nat) (data : List (BitVec 8)) (r : Req), s.portHeld stn = false →
    Tab.at? s.tags (stnTag stn tag) = some r → r.answeredBy lane cid key type = true →
    ∃ t : State, exec (.memoryResponse stn lane tag cid key type ⟨data, poison⟩ false .good) s = .next t ∧
      t = { s.updMemOf r.stn (fun m => m.show (r.addr + r.got) ((if type = 0 then data else []).take (min 128 (r.len - r.got)))) with tags := t.tags } ∧
      Tab.becomes s.tags t.tags (stnTag stn tag) { r with got := r.got + 128, bad := r.bad ++ r.beatBad type poison }) ∧
  (∀ (s : State) (stn lane tag cid key poison : Nat) (data : List (BitVec 8)) (r : Req) (p : List (List (BitVec 8) × Bool)), s.portHeld stn = false →
    Tab.at? s.tags (stnTag stn tag) = some r → r.answeredBy lane cid key 1 = true → r.pur = .write p → r.bad = [] →
    ∃ u : State, u = { s.updMemOf r.stn (fun m => m) with tags := u.tags } ∧
      Tab.becomes s.tags u.tags (stnTag stn tag) { r with got := r.got + 128 } ∧
      exec (.memoryResponse stn lane tag cid key 1 ⟨data, poison⟩ true .good) s =
        .next ((((u.retire (stnTag stn tag)).advance r.client).settleIso).settleReads)) ∧
  (∀ (s : State) (stn lane tag cid key poison : Nat) (data : List (BitVec 8)) (r : Req) (p : List (List (BitVec 8) × Bool)), s.portHeld stn = false →
    Tab.at? s.tags (stnTag stn tag) = some r → r.answeredBy lane cid key 3 = true → r.pur = .write p →
    ∃ u : State, u = { s.updMemOf r.stn (fun m => m) with tags := u.tags } ∧
      Tab.becomes s.tags u.tags (stnTag stn tag) { r with got := r.got + 128, bad := r.bad ++ r.whole } ∧
      exec (.memoryResponse stn lane tag cid key 3 ⟨data, poison⟩ true .good) s =
        .next ((((((u.mpBad stn r).retire (stnTag stn tag)).updMemOf r.stn (fun m => m.spoil r.addr r.len)).updCmd r.client
          (fun c => { c with poison := true })).advance r.client).settleIso.settleReads)) ∧
  (∀ (s : State) (stn tag : Nat), Tab.has s.tags (stnTag stn tag) = true →
    ∃ u v : State, u = { s with stns := u.stns, incr := u.incr, evc := u.evc, rcv := u.rcv, fresh := u.fresh } ∧ v = u.answer (stnTag stn tag) true ∧
      Tab.becomes s.stns u.stns stn { s.stnAt stn with
        mpTmo := satAdd 16 (s.stnAt stn).mpTmo 1, tmoAt := (s.stnAt stn).tmoAt.filter (· == s.mgt.uptime) ++ [s.mgt.uptime] } ∧
      exec (.memoryTimeout stn tag) s = .next (if 256 ≤ (v.stnAt stn).tmoAt.length then v.fenceStn stn 4 false [] else v)) ∧
  (∀ (s : State) (tag coff len status : Nat) (data : List (BitVec 8)) (poison last : Bool), s.ltpTag tag = false → s.ltpHeld = false →
    exec (.ltpCompletion tag ⟨coff, len, status, data⟩ poison last) s = .next { s with xlt := { s.xlt with dead := satAdd 32 s.xlt.dead 1 } } ∧
      exec (.ltpReadTimeout tag) s = .next s) ∧
  (∀ (s : State) (tag coff len status i : Nat) (data : List (BitVec 8)) (poison : Bool) (r : Req), s.ltpHeld = false →
    Tab.at? s.tags tag = some r → r.stn = none → r.pur = .item i → (status = 0 → r.len ≤ coff + len) →
    let bad := if status = 0 then (if poison = true then [(r.addr + coff, len)] else []) else [(r.addr + coff, r.len - coff)]
    ∃ (u : State) (g : Nat),
      u = { s with tags := u.tags, host := s.host.show (r.addr + coff) (if status = 0 then data.take (min len (r.len - coff)) else []) } ∧
      Tab.becomes s.tags u.tags tag { r with got := g, bad := r.bad ++ bad } ∧
      exec (.ltpCompletion tag ⟨coff, len, status, data⟩ poison true) s =
        .next (((((u.retire tag).itemBack r.client i r.iso (r.bad ++ bad)).advance r.client).settleIso).settleReads)) ∧
  (∀ (s : State) (tag i : Nat) (r : Req), Tab.at? s.tags tag = some r → r.stn = none → r.pur = .item i → r.got < r.len →
    ∃ u : State, u = { s with tags := u.tags } ∧
      Tab.becomes s.tags u.tags tag { r with got := r.len, bad := r.bad ++ [(r.addr + r.got, r.len - r.got)] } ∧
      exec (.ltpReadTimeout tag) s =
        .next (((((u.retire tag).itemBack r.client i r.iso (r.bad ++ [(r.addr + r.got, r.len - r.got)])).advance r.client).settleIso).settleReads)) ∧
  (∀ (s : State) (stn lane tag cid key type poison : Nat) (data : List (BitVec 8)) (last : Bool), s.portHeld stn = true →
    exec (.memoryResponse stn lane tag cid key type ⟨data, poison⟩ last .good) s = .next s) ∧
  (∀ (s : State) (tag coff len status : Nat) (data : List (BitVec 8)) (poison last : Bool), s.ltpHeld = true →
    exec (.ltpCompletion tag ⟨coff, len, status, data⟩ poison last) s = .next s)) ∧
  ((∀ (s : State) (n : Nat), s.built n = true → (s.stnAt n).state = 0 → (s.stnAt n).pwr ≤ 1 → s.up = true →
    ∃ u : State, exec (.memRdyFall n) s = .next (u.fenceStn n 4 false []) ∧ u = { s with stns := u.stns, rcv := u.rcv, fresh := u.fresh } ∧
      Tab.becomes s.stns u.stns n { s.stnAt n with memRdy := false }) ∧
  (∀ (s : State) (n : Nat), s.built n = true → (s.stnAt n).state = 1 →
    ∃ u : State, exec (.memRdyFall n) s = .next u ∧ u = { s with stns := u.stns } ∧
      Tab.becomes s.stns u.stns n { s.stnAt n with memRdy := false, memFell := true }) ∧
  (∀ (s : State) (n : Nat), s.built n = true →
    ∃ u : State, exec (.memRdyRise n) s = .next (((((u.settleReturn n).settleWake n).settleRelease).stnGo n)) ∧ u = { s with stns := u.stns } ∧
      Tab.becomes s.stns u.stns n { s.stnAt n with memRdy := true }))

/-! ### Courier links (12) -/

/-- On an ACTIVE link a good PAYLOAD flit with the expected SEQ is taken: its ACK and credits count and its slots go to their classes' buffers. A
message that has arrived whole returns its credits where it is for this end, and goes on over another link where it is for a station. Any other
PAYLOAD flit, and one of a lost codeword, makes the end ask once for a resend. A good RETRY or NULL flit brings its ACK and credits, and a RETRY a
resend. An end resends what it keeps, and the fourth time the link retrains; a bad INIT takes a link down, and a good one that agrees is kept (R38,
R370 to R373, R377, R378). -/
def Obligations.FlitsAreTakenOrResent : Prop :=
  (∀ (s : State) (n : Nat) (atStn : Bool) (b : List (BitVec 8)), s.built n = true → (s.link n).st = 5 →
    bits (rd b 0 8) 24 2 = 1 → b.length = 256 → rd b 252 4 = crc32 (b.take 252) → bits (rd b 0 8) 0 12 = ((s.link n).side atStn).rxNext →
    ∃ u : State, exec (.flitReceive n atStn ⟨[], b⟩) s = .next ((u.takeSlots n atStn b).ackFlit n atStn) ∧ u = { s with links := u.links } ∧
      Tab.becomes s.links u.links n ((s.link n).updSide atStn (fun e => { e.credited (rd b 0 8) with rxNext := (e.rxNext + 1) % 4096, asking := false })) ∧
      ((u.link n).side atStn).req.got = bits (rd b 0 8) 28 12 ∧ ((u.link n).side atStn).rsp.got = bits (rd b 0 8) 40 12 ∧
      ((u.link n).side atStn).dbg.got = bits (rd b 0 8) 52 12) ∧
  (∀ (s : State) (n k : Nat) (atStn : Bool) (m : List (List (BitVec 8))), (atStn = true ∨ s.built (bits (rd (m.headD []) 0 8) 20 6) = false) →
    s.arrive n atStn k m = { s with links := (s.arrive n atStn k m).links } ∧
      Tab.becomes s.links (s.arrive n atStn k m).links n
        ((s.link n).updSide atStn (fun e => e.updChan k (fun c => { c with crt := (c.crt + m.length) % 4096 })))) ∧
  (∀ (s : State) (n k : Nat) (m : List (List (BitVec 8))), s.built (bits (rd (m.headD []) 0 8) 20 6) = true →
    ∃ u : State, s.arrive n false k m = u.send (bits (rd (m.headD []) 0 8) 20 6) false ∧ u = { s with links := u.links } ∧
      Tab.becomes s.links u.links (bits (rd (m.headD []) 0 8) 20 6) ((s.link (bits (rd (m.headD []) 0 8) 20 6)).updSide false
        (fun e => e.updChan k (fun c => { c with queue := c.queue ++ [(n, m)] })))) ∧
  (∀ (s : State) (n : Nat) (atStn : Bool) (b : List (BitVec 8)), s.built n = true → (s.link n).st = 5 → bits (rd b 0 8) 24 2 = 1 →
    (b.length ≠ 256 ∨ rd b 252 4 ≠ crc32 (b.take 252) ∨ bits (rd b 0 8) 0 12 ≠ ((s.link n).side atStn).rxNext) →
    ∃ t : State, exec (.flitReceive n atStn ⟨[], b⟩) s = .next t ∧
      (((s.link n).side atStn).asking = true → t = s) ∧
      (((s.link n).side atStn).asking = false → t = { s with links := t.links, out := t.out } ∧
        Tab.becomes s.links t.links n ((s.link n).updSide atStn (fun e => { e with asking := true })) ∧
        t.out = s.out ++ [.flit n atStn (((s.link n).side atStn).flit 2 0 [] 0)])) ∧
  (∀ (s : State) (n j : Nat) (atStn : Bool) (lost : List Nat) (b : List (BitVec 8)), s.built n = true → s.build.remote n = true → (s.link n).st = 5 →
    j ∈ lost → j < 4 →
    ∃ t : State, exec (.flitReceive n atStn ⟨lost, b⟩) s = .next t ∧
      (t = s ∨ (((s.link n).side atStn).asking = false ∧ t = { s with links := t.links, out := t.out } ∧
        Tab.becomes s.links t.links n ((s.link n).updSide atStn (fun e => { e with asking := true })) ∧
        t.out = s.out ++ [.flit n atStn (((s.link n).side atStn).flit 2 0 [] 0)]))) ∧
  (∀ (s : State) (n : Nat) (atStn : Bool) (b : List (BitVec 8)), s.built n = true → (s.link n).st = 5 →
    (bits (rd b 0 8) 24 2 = 0 ∨ bits (rd b 0 8) 24 2 = 2) → b.length = 256 → rd b 252 4 = crc32 (b.take 252) →
    ((s.link n).side atStn).asking = false →
    ∃ u : State, exec (.flitReceive n atStn ⟨[], b⟩) s =
        .next ((if bits (rd b 0 8) 24 2 = 2 then u.resend n atStn else u).send n atStn) ∧ u = { s with links := u.links } ∧
      Tab.becomes s.links u.links n ((s.link n).updSide atStn (fun e => e.credited (rd b 0 8)))) ∧
  (∀ (s : State) (n : Nat) (atStn : Bool), s.built n = true → (s.link n).st = 5 → ((s.link n).side atStn).kept ≠ [] →
    ∃ u : State, exec (.replayTimeout n atStn) s = .next (if 4 ≤ ((s.link n).side atStn).resent + 1 then u.retrain n else u) ∧
      u = { s with links := u.links, incr := u.incr, evc := u.evc, out := u.out } ∧
      u.out = s.out ++ ((s.link n).side atStn).kept.map (fun f => .flit n atStn f.2) ∧ (u.link n).retry = satAdd 32 (s.link n).retry 1 ∧
      ((u.link n).side atStn).resent = ((s.link n).side atStn).resent + 1 ∧ ((u.link n).side atStn).kept = ((s.link n).side atStn).kept) ∧
  (∀ (s : State) (n : Nat) (atStn : Bool) (b : List (BitVec 8)), s.built n = true → (s.link n).st = 4 → bits (rd b 0 8) 24 2 = 3 →
    b.length = 256 → rd b 252 4 = crc32 (b.take 252) →
    ∃ t : State, exec (.flitReceive n atStn ⟨[], b⟩) s = .next t ∧
      (if Config.initAgrees b = true then t = { s with links := t.links } ∧ ((t.link n).side atStn).init = true ∧ (t.link n).st = 4
       else t = s.linkDown n))

/-- A remote link trains from DETECT through EQ, ALIGN and INIT to ACTIVE; ALIGN assigns 8 or 4 lanes by those that are good, and with fewer than 4
the link goes down. A link enters INIT by sending an INIT flit at each end, and leaves it once both ends have had one that agrees; what waits then
goes over it. A local link on fewer lanes or at a reduced rate is DEGRADED. A RETRAIN past its limit goes on in EQ, and the third attempt that fails
in a second takes a retraining link down (R373, R375, R378, R381). CX_CTL disables a link, which fences its station, and its clearing or RESTART
trains it; a RESTART gives a direction its lanes and its spare back (R381, R382, R410). A lane lost retrains its link (R381). Sparing: a window past
its limits, or CX_CTL.SPARE_GO, asks the other end; both ends wake the spare; the receiving end that has locked orders a switch 64 codewords ahead; at
that codeword the lane is spared, and a spare that does not lock in time retrains the link (R379, R380, R382). -/
def Obligations.LinksTrainAndSpareLanes : Prop :=
  ((∀ (s : State) (n tx rx : Nat) (slow : Bool), s.built n = true → s.build.remote n = true →
    let gt := lanesIn tx (s.link n).txOff
    let gr := lanesIn rx (s.link n).rxOff
    ∃ u : State, exec (.linkTrainDone n ⟨tx, rx⟩ slow) s = .next (u.linkSettle n) ∧
      ((s.link n).st = 1 → 8 ≤ (lanesIn tx 0).length → 8 ≤ (lanesIn rx 0).length →
        u = { s with links := u.links } ∧ Tab.becomes s.links u.links n { s.link n with st := 2 }) ∧
      ((s.link n).st = 2 → u = { s with links := u.links } ∧ Tab.becomes s.links u.links n { s.link n with st := 3 }) ∧
      (((s.link n).st = 3 ∨ (s.link n).st = 6) → 4 ≤ gt.length → 4 ≤ gr.length → (s.link n).txLanes ≠ 0 → (s.link n).rxLanes ≠ 0 →
        u = { s with links := u.links, out := u.out } ∧ (u.link n).st = 4 ∧
        (u.link n).txLanes = (if gt.length < 8 then 4 else (s.link n).txLanes) ∧ (u.link n).rxLanes = (if gr.length < 8 then 4 else (s.link n).rxLanes) ∧
        (u.link n).hub.init = false ∧ (u.link n).stn.init = false ∧
        u.out = s.out ++ [.flit n false ((u.link n).hub.flit 3 0 ((List.range 240).map (Config.initByte n false)) 0),
          .flit n true ((u.link n).stn.flit 3 0 ((List.range 240).map (Config.initByte n true)) 0)]) ∧
      (((s.link n).st = 3 ∨ (s.link n).st = 6) → (gt.length < 4 ∨ gr.length < 4) → u = s.linkDown n) ∧
      ((s.link n).st = 4 → (s.link n).agreed = false → u = s) ∧
      ((s.link n).st = 4 → (s.link n).agreed = true → (s.link n).again = false →
        ∃ v : State, u = (((v.send n false).send n true).settleReturn n) ∧ v = { s with links := v.links } ∧
          Tab.becomes s.links v.links n { s.link n with st := 5, again := false })) ∧
  (∀ (s : State) (n tx rx : Nat) (slow : Bool), s.built n = true → s.build.remote n = false → (s.link n).st = 4 → (s.link n).agreed = true →
    (s.link n).again = false →
    ∃ v : State, exec (.linkTrainDone n ⟨tx, rx⟩ slow) s = .next ((((v.send n false).send n true).settleReturn n).linkSettle n) ∧
      v = { s with links := v.links } ∧
      Tab.becomes s.links v.links n { s.link n with st := 5, again := false, degraded := slow || decide (tx < 64 ∨ rx < 64) }) ∧
  (∀ (s : State) (n : Nat), s.built n = true → (s.link n).again = false → ((s.link n).st = 2 ∨ (s.link n).st = 3) →
    ∃ u : State, exec (.linkTrainTimeout n) s = .next (u.linkSettle n) ∧ u = { s with links := u.links } ∧
      Tab.becomes s.links u.links n { s.link n with st := 1 }) ∧
  (∀ (s : State) (n : Nat), s.built n = true → s.build.remote n = true → (s.link n).st = 6 →
    ∃ u : State, exec (.linkTrainTimeout n) s = .next (u.linkSettle n) ∧ u = { s with links := u.links } ∧
      Tab.becomes s.links u.links n { s.link n with st := 2 }) ∧
  (∀ (s : State) (n : Nat), s.built n = true → (s.link n).again = true → ((s.link n).st = 2 ∨ (s.link n).st = 3) →
    let f := (s.link n).failed.filter (· == s.mgt.uptime) ++ [s.mgt.uptime]
    ∃ u : State, exec (.linkTrainTimeout n) s = .next ((if 3 ≤ f.length then u.linkDown n else u).linkSettle n) ∧ u = { s with links := u.links } ∧
      Tab.becomes s.links u.links n (if 3 ≤ f.length then { s.link n with failed := [] } else { s.link n with st := 1, failed := f })) ∧
  (∀ s : State, s.reaches 0 → s.built s.cxSel = true → (s.link s.cxSel).disable = false →
    ∃ u : State, exec .cxDisable s = .next (u.fenceStn s.cxSel 5 true []) ∧ u = { s with links := u.links } ∧
      Tab.becomes s.links u.links s.cxSel { s.link s.cxSel with disable := true, st := 0, again := false, tx := none, rx := none, txGood := 0, rxGood := 0 }) ∧
  (∀ s : State, s.reaches 0 → s.built s.cxSel = true → (s.link s.cxSel).disable = true →
    ∃ t : State, exec .cxDisableClear s = .next t ∧ t = { s with links := t.links, out := t.out } ∧ (t.link s.cxSel).disable = false ∧
      (t.link s.cxSel).st = (if s.build.remote s.cxSel = true then 1 else 4) ∧ ∀ m, m ≠ s.cxSel → (t.link m).st = (s.link m).st) ∧
  (∀ s : State, s.reaches 0 → s.built s.cxSel = true → (s.link s.cxSel).st ≠ 0 → (s.link s.cxSel).disable = false →
    ∃ t : State, exec .cxRestart s = .next t ∧ t = { s with links := t.links, out := t.out } ∧
      (t.link s.cxSel).st = (if s.build.remote s.cxSel = true then 1 else 4) ∧ (t.link s.cxSel).downs = (s.link s.cxSel).downs ∧
      (t.link s.cxSel).txLanes = 8 ∧ (t.link s.cxSel).rxLanes = 8 ∧ (t.link s.cxSel).degraded = false ∧ (t.link s.cxSel).txSpared = 15 ∧
      (t.link s.cxSel).rxSpared = 15) ∧
  (∀ (s : State) (n phys : Nat) (toHub : Bool), s.built n = true → s.build.remote n = true → phys < 9 → (s.link n).st = 5 →
    ∃ t : State, exec (.laneLoss n toHub phys) s = .next t ∧ t = { s with links := t.links, incr := t.incr } ∧ (t.link n).st = 6 ∧
      (t.link n).again = true ∧ (t.link n).retrains = satAdd 16 (s.link n).retrains 1 ∧ (t.link n).tx = none ∧ (t.link n).rx = none ∧
      (t.link n).laneOk.testBit phys = false ∧ (t.link n).downs = (s.link n).downs)) ∧
  ((∀ (s : State) (n lane : Nat) (toHub : Bool), s.built n = true → s.build.remote n = true → (s.link n).st = 5 → (s.link n).spared toHub = 15 →
    (s.link n).spare toHub = none → lane < 8 →
    ∃ t : State, exec (.spareRequest n toHub lane) s = .next t ∧ t = { s with links := t.links } ∧
      Tab.becomes s.links t.links n ((s.link n).setSpare toHub (some { lane := lane }))) ∧
  (∀ (s : State) (v : BitVec 32), s.reaches 0 → s.built s.cxSel = true → s.build.remote s.cxSel = true → (s.link s.cxSel).st = 5 →
    (s.link s.cxSel).spared (v.toNat.testBit 5) = 15 → (s.link s.cxSel).spare (v.toNat.testBit 5) = none →
    ∃ u : State, exec (.spareGo v) s = .next (u.sendMsg s.cxSel (!v.toNat.testBit 5)) ∧ u = { s with links := u.links } ∧
      (u.link s.cxSel).spare (v.toNat.testBit 5) = some { lane := bits v.toNat 2 3 } ∧ (u.link s.cxSel).spareLane = bits v.toNat 2 3 ∧
      (u.link s.cxSel).st = 5) ∧
  (∀ (s : State) (n lane corrected unc : Nat) (toHub : Bool), s.built n = true → s.build.remote n = true → lane < 9 → corrected ≤ (s.link n).thr →
    (s.link n).unc = [] → unc < 16 →
    ∃ t : State, exec (.spareWindowCheck n toHub lane corrected unc) s = .next t ∧ t = { s with links := t.links, incr := t.incr } ∧
      (t.link n).fecCorr = (if toHub = true then satAdd 64 (s.link n).fecCorr corrected else (s.link n).fecCorr) ∧
      (t.link n).fecNear = (if toHub = true then satAdd 16 (s.link n).fecNear unc else (s.link n).fecNear) ∧
      (t.link n).fecFar = (if toHub = true then (s.link n).fecFar else satAdd 16 (s.link n).fecFar unc) ∧
      (t.link n).tx = (s.link n).tx ∧ (t.link n).rx = (s.link n).rx ∧ (t.link n).st = (s.link n).st) ∧
  (∀ (s : State) (n now : Nat) (toHub : Bool) (p : Spare), (s.link n).spare toHub = some p →
    ∃ u : State, exec (.spareLocked n toHub now) s = .next (u.sendMsg n (!toHub)) ∧ u = { s with links := u.links } ∧
      Tab.becomes s.links u.links n ((s.link n).setSpare toHub (some { p with locked := true, order := (now + 64) % 4096 }))) ∧
  (∀ (s : State) (n lane count now : Nat) (toHub : Bool) (p : Spare), (s.link n).spare toHub = some p → p.lane = lane → p.locked = true →
    (count + 4096 - now % 4096) % 4096 ≠ 0 → (count + 4096 - now % 4096) % 4096 ≤ 2048 →
    ∃ t : State, exec (.switchOrder n toHub lane count now) s = .next t ∧ t = { s with links := t.links } ∧
      Tab.becomes s.links t.links n ((s.link n).setSpare toHub (some { p with at_ := some count }))) ∧
  (∀ (s : State) (n k : Nat) (toHub : Bool) (p : Spare), (s.link n).spare toHub = some p → p.at_ = some k →
    ∃ t : State, exec (.spareSwitchCountReached n toHub) s = .next t ∧ t = { s with links := t.links, incr := t.incr, evc := t.evc } ∧
      (t.link n).spared toHub = p.lane ∧ (t.link n).spare toHub = none ∧ (t.link n).spareRdy = false ∧
      (p.lane < 8 → (if toHub = true then (s.link n).rxLanes else (s.link n).txLanes) ≠ 4 → (t.link n).laneOk.testBit p.lane = false) ∧
      (if toHub = true then (t.link n).rxOff else (t.link n).txOff).testBit p.lane = true ∧
      (t.link n).spared (!toHub) = (s.link n).spared (!toHub) ∧ (t.link n).st = (s.link n).st) ∧
  (∀ (s : State) (n : Nat) (toHub : Bool) (p : Spare), s.build.remote n = true → (s.link n).spare toHub = some p → p.locked = false → (s.link n).st = 5 →
    ∃ t : State, exec (.spareLockTimeout n toHub) s = .next t ∧ t = { s with links := t.links, incr := t.incr } ∧ (t.link n).st = 6 ∧
      (t.link n).spare toHub = none ∧ (t.link n).again = true) ∧
  (∀ (s : State) (n : Nat) (toHub : Bool), s.built n = true → (s.link n).spareRdy = true → (s.link n).spared toHub = 15 →
    ∃ t : State, exec (.spareBackgroundRetrain n toHub) s = .next t ∧ t = { s with links := t.links } ∧ ∀ m, t.link m = s.link m))

/-! ### Recovery (13) -/

/-- A heartbeat is counted for each station in service until it is answered, and the third one missed fences the station; an answer clears the count,
and a unit without progress for six heartbeats fences it, as does its watchdog and STN_HCTL.FENCE (R400, R410). A fence marks the station, counts and
records itself, ends the commands that lose it and its requests, and tells the driver (R410, R411). A return trains the station's link, and counts as
an attempt of the hour; after three the station is OUT, until the driver asks. With its link ACTIVE and its memory ready it is in service; a return
whose memory is late fails, which leaves a station that was OUT so, and one that the driver fenced fenced by it. EP_RESTART asks the idle ports of a
station to stop (R404, R412, R420, R429). -/
def Obligations.StationsAreFencedAndReturn : Prop :=
  ((∀ s : State, s.up = true → exec .heartbeat s = .next ((List.range s.build.nstn).foldl (fun s n => s.beatStn n) s)) ∧
  (∀ (s : State) (n : Nat), (s.stnAt n).state = 0 → (s.stnAt n).pwr = 0 →
    (3 ≤ (s.stnAt n).missed → s.beatStn n = s.fenceStn n 1 false (List.range 8)) ∧
    ((s.stnAt n).missed < 3 → ∃ u : State, s.beatStn n = u.sendMsg n false ∧ u = { s with stns := u.stns, out := s.out ++ [.heartbeat n] } ∧
      Tab.becomes s.stns u.stns n { s.stnAt n with missed := (s.stnAt n).missed + 1 })) ∧
  (∀ (s : State) (n : Nat) (us : List (Nat × Bool)), s.built n = true → (s.stnAt n).state = 0 → (s.stnAt n).pwr = 0 →
    let st := us.foldl (fun t u => if u.2 = true then Tab.put t u.1 (Tab.atD t u.1 0 + 1) else Tab.del t u.1) (s.stnAt n).stalled
    let hung := Tab.keys st (fun _ k => decide (6 ≤ k))
    ∃ t : State, exec (.heartbeatAnswer n us) s = .next (if hung = [] then t else t.fenceStn n 2 false hung) ∧
      t = { s with stns := t.stns } ∧ Tab.becomes s.stns t.stns n { s.stnAt n with missed := 0, stalled := st }) ∧
  (∀ (s : State) (n core : Nat), exec (.stationWatchdogExpiry n core) s = .next (s.fenceStn n 3 false [6 + core % 2])) ∧
  (∀ s : State, s.reaches 0 → s.built s.rcv.hsel = true → (s.stnAt s.rcv.hsel).state = 0 →
    ∃ u v : State, u = { s with stns := u.stns, incr := u.incr, rcv := u.rcv, fresh := s.fresh + 1 } ∧
      Tab.becomes s.stns u.stns s.rcv.hsel { s.stnAt s.rcv.hsel with
        state := 1, trigger := 6, fences := satAdd 16 (s.stnAt s.rcv.hsel).fences 1, byDriver := true, missed := 0, stalled := [] } ∧
      u.rcv.elogCnt = (s.rcv.elogCnt + 1) % 2 ^ 32 ∧
      v = ((u.loseStn s.rcv.hsel).endReqsBut (fun r => r.stn == some s.rcv.hsel) (fun r => r.waits u.heldCmds)).raise (64 + s.rcv.hsel) 1 ∧
      (∀ p, v.ownerOf s.rcv.hsel = some p →
        exec .stnHctlFence s = .next ((v.notifyPart p 2).dump 6 (stnUnits s.rcv.hsel) none u.rcv.serial).settleAfter) ∧
      (v.ownerOf s.rcv.hsel = none → exec .stnHctlFence s = .next (v.dump 6 (stnUnits s.rcv.hsel) none u.rcv.serial).settleAfter))) ∧
  ((∀ (s : State) (n : Nat), s.up = true → s.built n = true → (s.stnAt n).state = 1 → (s.stnAt n).byDriver = false → (s.attempts n).length < 3 →
    ∃ t : State, exec (.stationReturn n) s = .next t ∧
      t = { s with eps := t.eps, fresh := t.fresh, links := t.links, out := t.out, rcv := t.rcv, stns := t.stns } ∧
      (t.stnAt n).state = 2 ∧ (t.stnAt n).attempts = s.attempts n ++ [s.mgt.uptime] ∧ (t.stnAt n).psReq = 0 ∧
      (t.link n).st = (if (s.link n).disable = true then 0 else if s.build.remote n = true then 1 else 4) ∧
      (∀ m, m ≠ n → t.stnAt m = s.stnAt m ∧ (t.link m).st = (s.link m).st)) ∧
  (∀ (s : State) (n : Nat), s.up = true → s.built n = true → (s.stnAt n).state = 1 → (s.stnAt n).byDriver = false → 3 ≤ (s.attempts n).length →
    ∃ t : State, exec (.stationReturn n) s = .next t ∧ t = { s with stns := t.stns } ∧ Tab.becomes s.stns t.stns n { s.stnAt n with state := 3 }) ∧
  (∀ s : State, s.reaches 0 → s.built s.rcv.hsel = true → ((s.stnAt s.rcv.hsel).state = 1 ∨ (s.stnAt s.rcv.hsel).state = 3) →
    ∃ t : State, exec .stnHctlReturn s = .next t ∧
      t = { s with eps := t.eps, fresh := t.fresh, links := t.links, out := t.out, rcv := t.rcv, stns := t.stns } ∧
      (t.stnAt s.rcv.hsel).state = 2 ∧ (t.stnAt s.rcv.hsel).enum = 0 ∧
      (t.stnAt s.rcv.hsel).byDriver = (s.stnAt s.rcv.hsel).byDriver ∧
      (t.stnAt s.rcv.hsel).fromOut = ((s.stnAt s.rcv.hsel).state == 3) ∧
      (t.stnAt s.rcv.hsel).attempts = s.attempts s.rcv.hsel ++ [s.mgt.uptime]) ∧
  (∀ (s : State) (n : Nat), (s.stnAt n).state = 2 → (s.link n).st = 5 → (s.stnAt n).memRdy = true → s.ownerOf n = none →
    ∃ u : State, s.settleReturn n = (u.refill (some n)).settleReads ∧ u = { s with stns := u.stns, incr := u.incr, evc := u.evc } ∧
      (u.stnAt n).state = 0 ∧ (u.stnAt n).pwr = 0 ∧ (u.stnAt n).byDriver = false ∧ (u.stnAt n).sumAll = true ∧ (u.stnAt n).enum = (if (s.stnAt n).enum = 0 then 1 else (s.stnAt n).enum)) ∧
  (∀ (s : State) (n : Nat), s.built n = true → (s.stnAt n).state = 2 → (s.stnAt n).memRdy = false →
    ∃ t : State, exec (.returnMemRdyTimeout n) s = .next t ∧ t = { s with stns := t.stns } ∧
      Tab.becomes s.stns t.stns n { s.stnAt n with
        state := if (s.stnAt n).fromOut = true ∨ 3 ≤ (s.attempts n).length then 3 else 1, enum := if (s.stnAt n).enum = 0 then 3 else (s.stnAt n).enum }) ∧
  (∀ s : State, s.reaches 0 → s.built s.rcv.hsel = true →
    (∀ ep ∈ s.build.epsOf s.rcv.hsel, ∃ e ∈ Tab.at? s.eps ep, e.out = false ∧ e.busy = false ∧ e.qreq = false ∧ e.inReset = false) →
    ∃ t : State, exec .epRestart s = .next t ∧ t = { s with eps := t.eps, out := t.out } ∧
      t.out = s.out ++ (s.build.epsOf s.rcv.hsel).map (fun ep => .epQreq ep true) ∧
      (∀ ep ∈ s.build.epsOf s.rcv.hsel, ∀ e, Tab.at? s.eps ep = some e → Tab.at? t.eps ep = some { e with qreq := true }) ∧
      (∀ ep, ep ∉ s.build.epsOf s.rcv.hsel → Tab.at? t.eps ep = Tab.at? s.eps ep)))

/-- The context, engine and partition steps count and record themselves and no longer are due. The context step resets its context's queues, has the
isolation wrapper end their commands and drops its cache entries; the engine step clears its port; the partition step stops the partition, and with it
the steps of its contexts and ports, and empties it when nothing of it is left; a step past its bound leads to the next. A step that lies in a running
one is absorbed (R402 to R405, R409). -/
def Obligations.StepsOfTheLadderRun : Prop :=
  (∀ (s : State) (cid : Nat), Tab.has s.ctxs cid = true → s.up = true → (s.unask 1 cid).absorbed 1 cid (s.pidOf cid) = false →
    ∃ w u v : State, w = { s with want := s.want.filter (· != (1, cid)), fresh := w.fresh, rcv := w.rcv, incr := w.incr } ∧
      w.rcv.escStep = 1 ∧ w.rcv.escId = cid ∧ Tab.atD w.rcv.cnt 0 0 = satAdd 32 (Tab.atD s.rcv.cnt 0 0) 1 ∧ (1, cid) ∈ w.rcv.running ∧
      u = { w with queues := u.queues, tags := u.tags, waiting := u.waiting } ∧
      (∀ i x, Tab.at? s.queues i = some x → x.cid = cid → x.st ≠ .draining →
        ∃ y, Tab.at? u.queues i = some y ∧ y.st = .resetting ∧ y.cause = 5 ∧ y.h = x.h ∧ y.c = x.c) ∧
      (∀ i x, Tab.at? s.queues i = some x → x.cid = cid → x.st = .draining →
        ∃ y, Tab.at? u.queues i = some y ∧ y.st = .draining ∧ y.cause = x.cause ∧ y.h = x.h ∧ y.c = x.c) ∧
      (∀ i x, Tab.at? s.queues i = some x → x.cid ≠ cid → (∀ j y, (j, y) ∈ s.queues → j = i → y.cid ≠ cid) → Tab.at? u.queues i = some x) ∧
      v = ((u.wrapCmds (Tab.keys u.cmds (fun _ c => (Tab.keys w.queues (fun _ q => q.cid == cid)).contains c.q))).endReqs
        (fun r => r.stn.isNone && r.cid == cid && r.pur != .marker)).invalCache cid 0 (2 ^ 64) ∧
      exec (.contextStep cid) s = .next (if s.pidOf cid ≠ 0x3F ∧ 3 ≤ v.stepsNow 1 (some (s.pidOf cid)) then v.ask 3 (s.pidOf cid) else v).settleSteps) ∧
  (∀ (s : State) (ep : Nat) (e : Ep), Tab.at? s.eps ep = some e →
    (s.unask 2 ep).absorbed 2 ep ((s.ownerOf (s.build.epStn ep)).getD 0x3F) = false →
    ∃ w : State, w = { s with want := s.want.filter (· != (2, ep)), fresh := w.fresh, rcv := w.rcv, incr := w.incr } ∧ w.rcv.escStep = 2 ∧
      Tab.atD w.rcv.cnt 1 0 = satAdd 32 (Tab.atD s.rcv.cnt 1 0) 1 ∧ (2, ep) ∈ w.rcv.running ∧
      w.rcv.escId = 8 * s.build.epStn ep + (ep - s.build.epFirst (s.build.epStn ep)) ∧
      Tab.at? (w.engineStepAt ep).eps ep = some { e.cleared with inReset := true } ∧
      exec (.engineStep ep) s = .next ((((w.engineStepAt ep).invDropPort ep).epReturn ep).settleAfter)) ∧
  (∀ (s : State) (pid : Nat) (p : Part), Tab.at? s.parts pid = some p → (s.unask 3 pid).absorbed 3 pid pid = false →
    ∃ w a b c d : State, w = { s with want := s.want.filter (· != (3, pid)), fresh := w.fresh, rcv := w.rcv, incr := w.incr } ∧ w.rcv.escStep = 3 ∧
      w.rcv.escId = pid ∧ Tab.atD w.rcv.cnt 2 0 = satAdd 32 (Tab.atD s.rcv.cnt 2 0) 1 ∧ (3, pid) ∈ w.rcv.running ∧
      (∀ cid, s.pidOf cid = pid → (1, cid) ∉ w.rcv.running) ∧ (∀ ep, s.owns pid (s.build.epStn ep) = true → (2, ep) ∉ w.rcv.running) ∧
      a = (s.stnsOf pid).foldl (fun s n => s.raise (64 + n) 8) w ∧
      b = (a.notifyPart pid 1).dump 3 ([1, 2] ++ (s.stnsOf pid).flatMap stnUnits) (some pid) w.rcv.serial ∧ c = b.partStop pid ∧
      Tab.becomes s.parts c.parts pid { p with st := 1, wrapped := true } ∧
      d = (c.wrapCmds (b.cmdsPart pid)).endReqs (fun r => r.stn.isNone && (c.wrapCmds (b.cmdsPart pid)).reqPart pid r) ∧
      exec (.partitionStep pid) s = .next ((if 3 ≤ d.stepsNow 3 none then d.ask 4 33 else d).partDrained pid)) ∧
  (∀ (s : State) (step id : Nat), s.up = false →
    ∃ t : State, exec (if step = 1 then .contextStep id else if step = 2 then .engineStep id else .partitionStep id) s = .next t ∧
      t = { s with want := t.want }) ∧
  (∀ (s : State) (id : Nat), s.rcv.running.contains (1, id) = true → s.ctxLate id = true →
    exec (.escalationBoundExpiry 1 id) s = .next (if s.pidOf id = 0x3F then s.ask 4 33 else s.ask 3 (s.pidOf id))) ∧
  (∀ (s : State) (id : Nat), s.rcv.running.contains (3, id) = true → exec (.escalationBoundExpiry 3 id) s = .next (s.ask 4 33)) ∧
  (∀ (s : State) (id : Nat), s.rcv.running.contains (4, id) = true → exec (.escalationBoundExpiry 4 id) s = .next (s.ask 5 0))

/-- Replays are counted for the hub or the station of their unit; a word that is still in error is counted, written into an error record of KIND
PARITY and raised at a reliability source, whose number is not assigned and free (log entry 88). Then what it holds is dealt with: a fault record is
lost, a partition's state asks for the partition step, state of the block for the chip step with its own cause, a cache entry goes, a word of the
retention SRAM reads zero and marks its record. Data goes on poisoned, an envelope stops its queue, and an index stops its command with ST_ABORTED and
POISON and without guilt (R391, R392, R393, R311, R351). -/
def Obligations.ParityErrorsAreCountedAndHandled : Prop :=
  (∀ (s : State) (u n : Nat), u < 0x100 →
    ∃ t : State, s.parity (.replayed u n) = t ∧ t = { s with rcv := t.rcv, incr := t.incr } ∧
      t.rcv = { s.rcv with parRep := satAdd 16 s.rcv.parRep n }) ∧
  (∀ (s : State) (u n : Nat), 0x100 ≤ u →
    ∃ t : State, s.parity (.replayed u n) = t ∧ t = { s with stns := t.stns, incr := t.incr } ∧
      Tab.becomes s.stns t.stns ((u - 0x100) / 8) { s.stnAt ((u - 0x100) / 8) with parRep := satAdd 16 (s.stnAt ((u - 0x100) / 8)).parRep n }) ∧
  (∀ (s : State) (u i a : Nat) (h : ParityWord), u < 2 ^ 16 →
    ∃ (v : State) (n : Nat), s.parity (.persistent u i a h) = (v.raise n u).parityHeld h ∧ 264 ≤ n ∧ n ≤ 383 ∧
      v = { s with rcv := v.rcv, stns := v.stns, incr := v.incr, fresh := v.fresh } ∧ v.rcv.elogCnt = (s.rcv.elogCnt + 1) % 2 ^ 32 ∧
      v.rcv.parPer = (if u < 0x100 then satAdd 16 s.rcv.parPer 1 else s.rcv.parPer) ∧
      (0x100 ≤ u → Tab.becomes s.stns v.stns ((u - 0x100) / 8)
        { s.stnAt ((u - 0x100) / 8) with parPer := satAdd 16 (s.stnAt ((u - 0x100) / 8)).parPer 1 }) ∧
      let b := v.rsRead (64 * (s.rcv.elogCnt % 256)) 64
      rd b 0 1 = 1 ∧ rd b 8 2 = u ∧ rd b 12 4 = i % 2 ^ 32 ∧ rd b 40 8 = a % 2 ^ 64) ∧
  (∀ (s : State) (p : Nat) (r : FaultRec) (rs : List FaultRec), p ≠ 48 → (s.pb p).staged = r :: rs → Tab.has s.postbags p = true →
    ∃ t : State, s.parityHeld (.faultRecord p) = t ∧ (t.pb p).staged = rs ∧ (t.pb p).lostCnt = satAdd 32 (s.pb p).lostCnt 1 ∧
      (∀ x, Tab.at? s.ctxs r.cid = some x → Tab.at? t.ctxs r.cid = some { x with faultLost := true })) ∧
  (∀ (s : State) (p : Nat), Tab.has s.parts p = true → (3, p) ∈ (s.parityHeld (.partitionState p)).want) ∧
  (∀ s : State, (4, 32) ∈ (s.parityHeld .globalState).want ∧ (4, 32) ∈ (s.parityHeld .alwaysOn).want) ∧
  (∀ s : State, s.want.contains (4, 16) = false → s.want.contains (4, 32) = true → exec .chipStep s = .next (s.chip 10)) ∧
  (∀ (s : State) (p k : Nat) (x : Part), Tab.at? s.parts p = some x →
    ∃ t : State, s.parityHeld (.cacheEntry p k) = t ∧ t = { s with parts := t.parts } ∧
      Tab.becomes s.parts t.parts p { x with cache := x.cache.eraseIdx k }) ∧
  (∀ (s : State) (n : Nat), ∃ t : State, s.parityHeld (.summary n) = t ∧ t = { s with stns := t.stns } ∧
    Tab.becomes s.stns t.stns n { s.stnAt n with sumAll := true }) ∧
  (∀ (s : State) (w : Nat), w < 0x1000 → w % 16 ≠ 0 →
    ∃ t : State, s.parityHeld (.retention w) = t ∧ t = { s with rcv := t.rcv } ∧ t.rsRead (4 * w) 4 = zeros 4 ∧
      bit (rd (t.rsRead (4 * w / 64 * 64 + 1) 1) 0 1) 7 = true) ∧
  (∀ (s : State) (stn lane tag cid key u i a : Nat) (data : List (BitVec 8)) (r : Req), s.portHeld stn = false → Tab.at? s.tags (stnTag stn tag) = some r →
    r.answeredBy lane cid key 0 = true → r.bad = [] → r.addr ≤ a → a < r.addr + r.len →
    ∃ v : State, exec (.memoryResponse stn lane tag cid key 0 ⟨data, 0⟩ true (.persistent u i a .data)) s =
        .next ((v.answer (stnTag stn tag) false).parity (.persistent u i a .data)) ∧
      v = { s.updMemOf r.stn (fun m => m.show (r.addr + r.got) (data.take (min 128 (r.len - r.got)))) with tags := v.tags } ∧
      Tab.becomes s.tags v.tags (stnTag stn tag) { r with got := r.got + 128, bad := [(a / 64 * 64, 64)] }) ∧
  (∀ (s w : State) (tag u i a qid : Nat) (r : Req) (q : Queue), Tab.at? s.tags tag = some r → r.pur = .fetch qid q.h 1 false → w = s.retire tag →
    Tab.at? w.queues qid = some q → (q.st = .idle ∨ q.st = .active) →
    ∃ t : State, exec (.envelopeReceived tag (.persistent u i a .envelope)) s = .next t ∧
      t = (((w.stopQueue qid 4).settleQueue qid).settleIso.settleReads).parity (.persistent u i a .envelope) ∧
      Tab.becomes w.queues (w.stopQueue qid 4).queues qid { q with st := .stopping, cause := 4, gotten := [] }) ∧
  (∀ (s : State) (q seq sub stn u i a : Nat) (c : Cmd) (w : LookW), s.look (ckey q seq) = some (c, w) → s.cmd (ckey q seq) = some c →
    c.phase = .running → c.cancel = none →
    ∃ v : State, exec (.occurrence q seq sub stn (.persistent u i a .index)) s = .next (v.settleAfter.parity (.persistent u i a .index)) ∧
      v.queues = s.queues ∧ ∃ d : Cmd, v.cmd (ckey q seq) = some d ∧ d.cancel = some stAborted ∧ d.poison = true)

/-- A core's watchdog raises its source, is recorded, and restarts the core; twice in a second, or with both cores of fault handling hung, it is the
chip step. The chip step is a warm reset with a dump, and the third within ten minutes asks for the power cycle, which writes the error log and the
counters and drives TRAY_PCR (R399, R402, R406, R408). -/
def Obligations.WatchdogsAndChipSteps : Prop :=
  (∀ (s : State) (core : Nat), core < 8 → core ≠ 4 → s.rst.rel = .ready → s.fw.update = none → (Tab.atD s.cores core {}).expired ≠ some s.mgt.uptime →
    ∃ u : State, exec (.watchdogExpiry core) s = .next (((u.dropClaims core).coreLost core).settleAfter) ∧
      u = { s with evc := u.evc, rcv := u.rcv, fresh := s.fresh + 1, cores := u.cores } ∧ (u.src (256 + core)).raw = true ∧
      u.rcv.elogCnt = (s.rcv.elogCnt + 1) % 2 ^ 32 ∧
      Tab.becomes s.cores u.cores core { Tab.atD s.cores core {} with
        expired := some s.mgt.uptime, code := imageCells (s.slotImage s.fw.slot) core, data := [] }) ∧
  (∀ (s : State) (core : Nat), core < 8 → s.rst.rel = .ready → s.fw.update = none → (Tab.atD s.cores core {}).expired = some s.mgt.uptime →
    ∃ t : State, exec (.watchdogExpiry core) s = .next t ∧ t = { s with evc := t.evc, rcv := t.rcv, fresh := s.fresh + 1, cores := t.cores, want := t.want } ∧
      (4, 16) ∈ t.want ∧ Tab.becomes s.cores t.cores core { Tab.atD s.cores core {} with hung := true }) ∧
  (∀ s : State, s.up = true → s.want.any (fun w => w.1 == 4) = false →
    exec .chipStep s = .next (s.chip 5) ∧
    ∃ u : State, exec .faultCoresHung s = .next (u.chip 4) ∧ u = { s with cores := u.cores } ∧
      (Tab.atD u.cores 2 {}).hung = true ∧ (Tab.atD u.cores 3 {}).hung = true) ∧
  (∀ s : State, s.want.any (fun w => w.1 == 4) = true →
    exec .chipStep s = .next (s.chip (if s.want.contains (4, 16) = true then 4 else if s.want.contains (4, 32) = true then 10 else 5))) ∧
  (∀ (s : State) (cause : Nat), s.want.any (fun w => w.1 == 4) = false → s.rcv.running.contains (4, 0) = false → s.chipSteps < 2 →
    ∃ w : State, s.chip cause = w.warmReset cause true true ∧ w = { s with fresh := w.fresh, rcv := w.rcv, incr := w.incr } ∧ w.rcv.escStep = 4 ∧
      w.rcv.running = [(4, 0)] ∧ Tab.atD w.rcv.cnt 3 0 = satAdd 32 (Tab.atD s.rcv.cnt 3 0) 1) ∧
  (∀ (s : State) (cause : Nat), s.want.any (fun w => w.1 == 4) = false → s.rcv.running.contains (4, 0) = false → 2 ≤ s.chipSteps →
    s.chip cause = s.ask 5 0) ∧
  (∀ s : State, s.want.contains (5, 0) = true →
    ∃ t : State, exec .powerCycleStep s = .next t ∧ t = { s with
        evc := t.evc, fresh := t.fresh, incr := t.incr, life := t.life, logAt := t.logAt, logSeq := t.logSeq, mgt := t.mgt, nvm := t.nvm,
        rcv := t.rcv, tray := true, out := t.out, want := s.want.filter (· != (5, 0)) } ∧
      t.rcv.escStep = 5 ∧ t.mgt.toCommit = 3600 ∧ t.out.getLast? = some .tray) ∧
  (∀ s : State, s.want.contains (5, 0) = false → exec .powerCycleStep s = .next s)

/-- RST_DUMP_REL releases a dump slot, and each read of RST_RSRAM_DATA returns a word of the retention SRAM and moves its address on, even while the
block recovers (R407, R418, R420); a debug read that gets no answer makes its section UNREADABLE, with the bytes already read, and collection goes on
(R417). -/
def Obligations.DumpsAreReadAndReleased : Prop :=
  (∀ (s : State) (v : BitVec 32), s.reaches 0 →
    ∃ t : State, exec (.dumpRelease v) s = .next t ∧ t = { s with rcv := { s.rcv with rsram := t.rcv.rsram } } ∧
      t.dumpFlags (bits v.toNat 0 1) = s.dumpFlags (bits v.toNat 0 1) ||| 4 ∧
      (∀ a, a ≠ dumpAt (bits v.toNat 0 1) + 3 → Tab.atD t.rcv.rsram a 0 = Tab.atD s.rcv.rsram a 0)) ∧
  (∀ (s : State) (tag : Nat), exec (.rsramDataRead tag) s = .next { s with
    rcv := { s.rcv with rsAddr := (s.rcv.rsAddr + 1) % 65536 }, out := s.out ++ [.cpl 0 tag 0 4 (leNat (s.rsRead (4 * s.rcv.rsAddr) 4))] }) ∧
  (∀ (s : State) (c : Coll) (cs : List Coll) (u : Nat) (us : List Nat), s.rcv.colls = c :: cs → c.todo = u :: us →
    let n := Config.dumpLen (s.fresh + 1) u % max 1 (ceilDiv (s.sectBody u c.pid).length 64)
    let body := (s.sectBody u c.pid).take (64 * n)
    let sect := recBytes 16 [(0, 16, u), (16, 8, 1), (32, 32, body.length), (64, 32, ceilDiv body.length 64)] ++ body
    ∃ v w : State, v = { s with fresh := s.fresh + 2, rcv := { (s.rsWrite (dumpAt c.slot + c.pos) sect).rcv with
        colls := { c with todo := us, pos := c.pos + 16 + ceilDiv body.length 16 * 16, nsect := c.nsect + 1 } :: cs } } ∧ w = v.runColl v.collFuel ∧
      exec .debugReadTimeout s = .next (if w.rst.rel = .collect ∧ w.rcv.colls = [] then w.warmStep3 else w))

/-! ### Resets, the release and power (14) -/

/-- Each warm reset without a dump clears the block, keeps the always-on domain, sets its RST_CAUSE bit and goes on with the release: the pin, the
host's hot reset, the tray, the TAP and RST_CTL. One that comes in a brown-out hold or while a dump is collected only leaves its bit due (the bit of a
trigger in a hold is a choice of the model, log entry 71) (R406, R421 to R425, R434). Power-on leaves only options, fuses and NVM as they were and
sets POWER_ON alone; a brown-out holds the block, sets BROWNOUT and counts the hold, and its end releases it (R421, R422, R425, R428, R434). -/
def Obligations.HubResetsClearTheBlock : Prop :=
  ((∀ s : State, (s.rst.rel = .ready ∨ s.rst.rel = .failed) → s.opts.val 3 = 0 →
    (∃ w : State, exec .pinWarmReset s = .next w.release ∧ s.clearedTo w ∧ w.rst.cause = s.rst.cause ||| 2 ^ 1 ∧ w.spi = s.spi ∧ w.mgt.uptime = s.mgt.uptime ∧
      w.rcv.rsram = s.rcv.rsram ∧ w.rcv.elogCnt = s.rcv.elogCnt ∧ w.xlt.epoch = s.xlt.epoch ∧
      w.fns = Tab.mapV s.fns (fun _ f => { en := f.en, bme := f.bme })) ∧
    (∃ w : State, exec .hostHotReset s = .next w.release ∧ s.clearedTo w ∧ w.rst.cause = s.rst.cause ||| 2 ^ 2 ∧ w.spi = s.spi ∧ w.mgt.uptime = s.mgt.uptime ∧
      w.rcv.rsram = s.rcv.rsram ∧ w.rcv.elogCnt = s.rcv.elogCnt ∧ w.xlt.epoch = s.xlt.epoch) ∧
    (∃ w : State, exec .trayReset s = .next w.release ∧ s.clearedTo w ∧ w.rst.cause = s.rst.cause ||| 2 ^ 6 ∧ w.spi = s.spi ∧ w.mgt.uptime = s.mgt.uptime ∧
      w.rcv.rsram = s.rcv.rsram ∧ w.rcv.elogCnt = s.rcv.elogCnt ∧ w.xlt.epoch = s.xlt.epoch) ∧
    (∃ w : State, exec .jtagChipReset s = .next w.release ∧ s.clearedTo w ∧ w.rst.cause = s.rst.cause ||| 2 ^ 9 ∧ w.spi = s.spi ∧ w.mgt.uptime = s.mgt.uptime ∧
      w.rcv.rsram = s.rcv.rsram ∧ w.rcv.elogCnt = s.rcv.elogCnt ∧ w.xlt.epoch = s.xlt.epoch)) ∧
  (∀ (s : State) (v : BitVec 32), s.reaches 0 → s.opts.val 3 = 0 → bits v.toNat 8 8 = 0xA5 → bit v.toNat 0 = true → bit v.toNat 1 = false →
    ∃ w : State, exec (.softwareReset v) s = .next w.release ∧ s.clearedTo w ∧ w.rst.cause = s.rst.cause ||| 2 ^ 7 ∧ w.spi = s.spi ∧ w.mgt.uptime = s.mgt.uptime ∧
      w.rcv.rsram = s.rcv.rsram ∧ w.rcv.elogCnt = s.rcv.elogCnt) ∧
  (∀ (s : State) (v : BitVec 32), (bits v.toNat 8 8 ≠ 0xA5 ∨ bit v.toNat 0 = false) → exec (.softwareReset v) s = .next s) ∧
  (∀ s : State, (s.rst.rel = .hold ∨ s.rst.rel = .collect) →
    exec .pinWarmReset s = .next { s with rst := { s.rst with due := s.rst.due ||| 2 ^ 1 } } ∧
    exec .hostHotReset s = .next { s with rst := { s.rst with due := s.rst.due ||| 2 ^ 2 } } ∧
    exec .trayReset s = .next { s with rst := { s.rst with due := s.rst.due ||| 2 ^ 6 } } ∧
    exec .jtagChipReset s = .next { s with rst := { s.rst with due := s.rst.due ||| 2 ^ 9 } })) ∧
  ((∀ s : State, ∃ w : State, exec .powerOn s = .next w.release ∧ s.clearedTo w ∧
    w.spi = s.build.norAnswers ∧ w.rst.cause = 1 ∧ w.rst.holdCnt = 0 ∧ w.rcv = {} ∧ w.mgt = {} ∧
    w.xlt = {} ∧ w.rails = [] ∧ w.tray = false ∧ w.fns = [(0, { en := true })]) ∧
  (∀ s : State, s.rst.rel ≠ .hold →
    ∃ t : State, exec .brownout s = .next t ∧ s.clearedTo t ∧ t.rst.rel = .hold ∧ t.rst.cause = s.rst.cause ||| 2 ^ 8 ∧
      t.rst.holdCnt = satAdd 32 s.rst.holdCnt 1 ∧ t.rcv.state = 2 ∧ t.rcv.rsram = s.rcv.rsram ∧ t.spi = s.spi ∧ t.mgt.uptime = s.mgt.uptime) ∧
  (∀ s : State, s.rst.rel = .hold → exec .brownout s = .next s ∧
    exec .brownoutRelease s = .next ({ s with rst := { s.rst with cause := s.rst.cause ||| s.rst.due, due := 0 } }).release) ∧
  (∀ s : State, s.rst.rel ≠ .hold → exec .brownoutRelease s = .next s))

/-- The release waits until the hub clocks are in range, checked again by CLOCK_CHECK_RETRY; without a slot to boot it ends in FAILED; when every slot
is known it ends READY. A slot whose limit passes is ABSENT without a partner and FAILED with one, and a clock that stops in service is a chip step
(R406, R428 to R430, R436). The TAP's reset leaves the block alone (its instruction after it is a choice of the model, log entry 25). An instruction
takes effect as the lifecycle state permits: in PRODUCTION the IEEE 1500 wrappers need an unlocked monitor and other instructions act as BYPASS. A
data scan shifts as many bits out of TDO as go in, those of the data register first: one bit of BYPASS, 32 of IDCODE (R389, R422, R478, R492; the bits
of other registers are free, log entry 25). -/
def Obligations.TheReleaseGoesInOrder : Prop :=
  ((∀ s : State, s.rst.rel = .clocks →
    exec (.clockCheckRetry true true true) s = .next ({ s with rst := { s.rst with clkOut := 0, clk := 8 * (s.rst.clk / 8) } }).bootStep) ∧
  (∀ (s : State) (h q l : Bool), s.rst.rel = .clocks → (h && q && l) = false →
    ∃ t : State, exec (.clockCheckRetry h q l) s = .next t ∧ t = { s with rst := { s.rst with
      clkOut := b2n (!h) + 2 * b2n (!q) + 4 * b2n (!l), clk := b2n (!h) + 2 * b2n (!q) + 4 * b2n (!l) + 8 * (s.rst.clk / 8) } }) ∧
  (∀ s : State, s.boot.2 = false → s.bootStep.rst.rel = .failed ∧ s.bootStep.rcv.state = 3) ∧
  (∀ s : State, s.rst.rel = .memory → (∀ n, n < s.build.nstn → (s.stnAt n).enum ≠ 0) →
    s.settleRelease.rst.rel = .ready ∧ s.settleRelease.rcv.state = 0 ∧ s.settleRelease.rst.readyAt = s.mgt.uptime ∧ s.settleRelease.fw.rejected = []) ∧
  (∀ (s : State) (n : Nat), (s.rst.rel = .links ∨ s.rst.rel = .memory) → s.built n = true → s.slotKnown n = false → (s.link n).st = 1 →
    ∃ u : State, exec (.memoryReadyTimeout n) s = .next u.settleRelease ∧ u = { s with stns := u.stns } ∧
      Tab.becomes s.stns u.stns n { s.stnAt n with enum := 2, state := 3 }) ∧
  (∀ (s : State) (n : Nat), (s.rst.rel = .links ∨ s.rst.rel = .memory) → s.built n = true → s.slotKnown n = false → (s.link n).st ≠ 1 →
    ∃ u : State, exec (.memoryReadyTimeout n) s = .next ((u.fenceStn n 7 false []).settleRelease) ∧ u = { s with stns := u.stns } ∧
      Tab.becomes s.stns u.stns n { s.stnAt n with enum := 3 }) ∧
  (∀ s : State, (s.rst.rel = .ready ∨ s.rst.rel = .links ∨ s.rst.rel = .memory) →
    ∃ u : State, exec .hubClockStopped s = .next (u.chip 4) ∧ u = { s with rst := { s.rst with clk := s.rst.clk ||| 8, clkOut := u.rst.clkOut }, fresh := s.fresh + 1 } ∧
      8 ≤ u.rst.clkOut ∧ u.rst.clkOut < 16)) ∧
  ((∀ s : State, exec .tapReset s = .next { s with mgt := { s.mgt with tap := .idcode, test := false } }) ∧
  (∀ (s : State) (i : TapInstr), s.lc = 1 → (i = .other ∨ i = .wrapper1500 ∧ s.mgt.unlocked = false) →
    exec (.tapInstructionLoad ⟨i, []⟩) s = .next { s with mgt := { s.mgt with tap := .bypass, test := false } }) ∧
  (∀ (s : State) (i : TapInstr), s.tapOk i = true → i ≠ .wrapper1500 → i ≠ .chipReset →
    exec (.tapInstructionLoad ⟨i, []⟩) s = .next { s with mgt := { s.mgt with tap := i, test := false } }) ∧
  (∀ s : State, (s.lc ≠ 1 ∨ s.mgt.unlocked = true) → (5, 0) ∉ s.mgt.asked →
    exec (.tapInstructionLoad ⟨.wrapper1500, []⟩) s = .next { s with
      mgt := { s.mgt with tap := .wrapper1500, test := true, asked := s.mgt.asked ++ [(5, 0)] }, out := s.out ++ [.idleReq 5 0] }) ∧
  (∀ s : State, exec (.tapInstructionLoad ⟨.chipReset, []⟩) s = exec .jtagChipReset { s with mgt := { s.mgt with tap := .chipReset, test := false } }) ∧
  (∀ (s : State) (i : TapInstr) (tdi : List Bool), tdi ≠ [] → s.tapOk i = true → i ≠ .wrapper1500 → i ≠ .chipReset →
    ∃ reg : List Bool, (i = .bypass → reg = [false]) ∧ (i = .idcode → reg = (List.range 32).map (bit s.build.idcode)) ∧
      exec (.tapInstructionLoad ⟨i, tdi⟩) s = .next { s with
        mgt := { s.mgt with tap := i, test := false }, fresh := s.fresh + 1, out := s.out ++ [.tdo ((reg ++ tdi).take tdi.length)] }))

/-- An idle station enters Doze when its timer ends, and from Doze begins to enter Sleep, and from Sleep Off: it asks its ports to be idle, and the
entry commits when they have answered. A port that does not answer in time leaves the station in Doze with ENTRY_ABANDONED set (R437 to R440, R432).
-/
def Obligations.IdleStationsPowerDown : Prop :=
  (∀ (s : State) (n : Nat), s.built n = true → (s.stnAt n).pwr = 0 → (s.stnAt n).state = 0 → s.up = true → (s.stnAt n).policy ≠ 3 →
    (s.stnAt n).policy ≠ 1 → s.pwr.tDoze ≠ 0 → s.stnIdle n = true → s.kwLevel n ≤ 1 →
    ∃ t : State, exec (.idleTimerDoze n) s = .next t ∧ t = { s with stns := t.stns, out := t.out } ∧
      Tab.becomes s.stns t.stns n { s.stnAt n with pwr := 1, dozes := satAdd 16 (s.stnAt n).dozes 1, psReq := 1 } ∧
      t.out = (if (s.stnAt n).psReq = 1 then s.out else s.out ++ [.psReq n 1])) ∧
  (∀ (s : State) (n : Nat), s.built n = true → (s.stnAt n).pwr = 1 → (s.stnAt n).state = 0 → s.up = true → (s.stnAt n).policy = 0 →
    s.pwr.tSleep ≠ 0 → s.stnIdle n = true → s.kwLevel n = 0 →
    (∀ ep ∈ s.build.epsOf n, ∃ e ∈ Tab.at? s.eps ep, e.rstN = true ∧ e.out = false) →
    ∃ t : State, exec (.dozeTimerSleep n) s = .next t ∧
      t = { s with stns := t.stns, eps := t.eps, out := s.out ++ (s.build.epsOf n).map (fun ep => .epQreq ep true) } ∧
      Tab.becomes s.stns t.stns n { s.stnAt n with pwr := 4, toward := 2, idleReq := s.build.epsOf n, demand := false }) ∧
  (∀ (s : State) (n : Nat), s.built n = true → (s.stnAt n).pwr = 2 → (s.stnAt n).state = 0 → s.up = true → (s.stnAt n).policy = 2 →
    s.build.remote n = false → s.pwr.tOff ≠ 0 → s.kwLevel n = 0 →
    ∃ t : State, exec (.sleepTimerOff n) s = .next t ∧ t = { s with stns := t.stns, eps := t.eps, out := t.out } ∧
      (t.stnAt n).pwr = 4 ∧ (t.stnAt n).toward = 3 ∧ (t.stnAt n).demand = false) ∧
  (∀ (s : State) (n : Nat), (s.stnAt n).pwr = 4 → (s.stnAt n).idleReq = [] → (s.stnAt n).state = 0 →
    ∃ t : State, exec (.entryCommit n) s = .next (if (s.stnAt n).demand = true then t.demandStn n else t) ∧
      t = { s with stns := t.stns, links := t.links, out := t.out } ∧
      Tab.becomes s.stns t.stns n { s.stnAt n with
        pwr := (s.stnAt n).toward, sleeps := satAdd 16 (s.stnAt n).sleeps 1, demand := false, psReq := (s.stnAt n).toward } ∧
      ((s.stnAt n).toward = 3 → Tab.becomes s.links t.links n { s.link n with st := 0 }) ∧ ((s.stnAt n).toward ≠ 3 → t.links = s.links)) ∧
  (∀ (s : State) (b : IdleBlock) (n : Nat), (b = .station ∨ b = .memoryPort ∨ b = .courierEnd) → (s.stnAt n).pwr = 4 → (s.stnAt n).idleReq ≠ [] →
    ∃ t : State, exec (.idleRequestTimeout b n) s = .next t ∧ t = { s with stns := t.stns, eps := t.eps, out := t.out } ∧
      Tab.becomes s.stns t.stns n { s.stnAt n with pwr := 1, idleReq := [], abandon := true, psReq := 1 }) ∧
  (∀ (s : State) (ep : Nat) (e : Ep), Tab.at? s.eps ep = some e → e.qreq = true → (s.stnAt (s.build.epStn ep)).pwr = 4 →
    ∃ t : State, exec (.idleRequestTimeout .enginePort ep) s = .next t ∧ t = { s with stns := t.stns, eps := t.eps, out := t.out } ∧
      Tab.becomes s.stns t.stns (s.build.epStn ep) { s.stnAt (s.build.epStn ep) with pwr := 1, idleReq := [], abandon := true, psReq := 1 }) ∧
  (∀ (s : State) (ep : Nat) (e : Ep), Tab.at? s.eps ep = some e → e.qreq = true → (s.stnAt (s.build.epStn ep)).pwr ≠ 4 →
    ∃ u : State, exec (.idleRequestTimeout .enginePort ep) s = .next u.settleAfter ∧ u = { s.engineStepAt ep with rcv := u.rcv, fresh := u.fresh } ∧
      u.rcv.elogCnt = ((s.engineStepAt ep).rcv.elogCnt + 1) % 2 ^ 32) ∧
  (∀ s : State, s.mgt.asked.contains (5, 0) = true →
    ∃ t : State, exec (.idleRequestTimeout .tapScan 0) s = .next t ∧
      t = { s with mgt := { s.mgt with asked := s.mgt.asked.filter (· != (5, 0)) }, rcv := t.rcv, fresh := t.fresh } ∧
      t.rcv.elogCnt = (s.rcv.elogCnt + 1) % 2 ^ 32) ∧
  (∀ (s : State) (core : Nat), s.mgt.asked.contains (4, core) = true →
    ∃ v u : State, v = { s with mgt := { s.mgt with asked := s.mgt.asked.filter (· != (4, core)) } } ∧
      exec (.idleRequestTimeout .hubCore core) s = .next u.settleAfter ∧ u = { (v.dropClaims core).coreLost core with rcv := u.rcv, fresh := u.fresh } ∧
      u.rcv.elogCnt = (((v.dropClaims core).coreLost core).rcv.elogCnt + 1) % 2 ^ 32)

/-- A demand wakes a station: from Doze at once, from Sleep and Off through WAKING once the integrator acknowledges, and an entry that still waits for
its ports is given up. A wake that is not acknowledged is tried again once, and then the station is fenced (R438 to R440). A queue's keep-warm hold
ends when its time has passed, and without a time it lasts; a write of PWR_STN sets the policy of the station PWR_SEL selects: HOLD_ACTIVE is a
demand, and FORCE_OFF, which a remote slot does not take, begins an entry toward Off (R84, R439, R441, R442). -/
def Obligations.DemandsWakeStations : Prop :=
  ((∀ (s : State) (n : Nat), s.built n = true → s.demanded n = true → (s.stnAt n).policy ≠ 3 → (s.stnAt n).state = 0 →
    ((s.stnAt n).pwr = 1 → ∃ u : State, exec (.stationDemand n) s = .next (u.stnGo n) ∧ u = { s with stns := u.stns, out := u.out, fresh := s.fresh + 1 } ∧
      (u.stnAt n).pwr = 0 ∧ (u.stnAt n).psReq = 0 ∧ ∀ m, m ≠ n → u.stnAt m = s.stnAt m) ∧
    (((s.stnAt n).pwr = 2 ∨ (s.stnAt n).pwr = 3) → (s.stnAt n).psAck ≠ 0 →
      ∃ t : State, exec (.stationDemand n) s = .next t ∧ t = { s with stns := t.stns, out := t.out } ∧
        Tab.becomes s.stns t.stns n { s.stnAt n with pwr := 5, wakeFrom := (s.stnAt n).pwr, wakeTried := false, demand := false, psReq := 0 } ∧
        t.out = (if (s.stnAt n).psReq = 0 then s.out else s.out ++ [.psReq n 0])) ∧
    ((s.stnAt n).pwr = 4 → (s.stnAt n).idleReq = [] →
      ∃ t : State, exec (.stationDemand n) s = .next t ∧ t = { s with stns := t.stns } ∧ Tab.becomes s.stns t.stns n { s.stnAt n with demand := true }) ∧
    ((s.stnAt n).pwr = 4 → (s.stnAt n).idleReq ≠ [] →
      ∃ u : State, exec (.stationDemand n) s = .next (u.stnGo n) ∧ u = { s with stns := u.stns, eps := u.eps, out := u.out } ∧
        Tab.becomes s.stns u.stns n { s.stnAt n with pwr := 0, idleReq := [], psReq := 0 })) ∧
  (∀ (s : State) (n : Nat), (s.built n = false ∨ s.demanded n = false) → exec (.stationDemand n) s = .next s) ∧
  (∀ (s : State) (n ack : Nat), s.built n = true → ack < 4 → ((s.stnAt n).pwr ≠ 5 ∨ ack ≠ 0) →
    ∃ t : State, exec (.psAck n ack) s = .next t ∧ t = { s with stns := t.stns } ∧ Tab.becomes s.stns t.stns n { s.stnAt n with psAck := ack }) ∧
  (∀ (s : State) (n : Nat), s.built n = true → (s.stnAt n).pwr = 5 → (s.stnAt n).state = 0 → (s.stnAt n).wakeFrom = 2 →
    ∃ u : State, exec (.psAck n 0) s = .next (u.stnGo n) ∧ u = { s with stns := u.stns, eps := u.eps, out := u.out, fresh := s.fresh + 1, evc := u.evc } ∧
      (u.stnAt n).pwr = 0 ∧ (u.stnAt n).psAck = 0 ∧ (u.stnAt n).sumAll = true ∧
      ∀ m, m ≠ n → u.stnAt m = { s.stnAt m with iso := (u.stnAt m).iso }) ∧
  (∀ (s : State) (n : Nat), (s.stnAt n).pwr = 5 → (s.stnAt n).state = 0 → (s.stnAt n).psAck ≠ 0 → (s.stnAt n).wakeTried = false →
    ∃ t : State, exec (.wakeAckTimeout n) s = .next t ∧ t = { s with stns := t.stns, out := s.out ++ [.psReq n 0] } ∧
      Tab.becomes s.stns t.stns n { s.stnAt n with wakeTried := true }) ∧
  (∀ (s : State) (n : Nat), (s.stnAt n).pwr = 5 → (s.stnAt n).state = 0 → (s.stnAt n).psAck ≠ 0 → (s.stnAt n).wakeTried = true →
    exec (.wakeAckTimeout n) s = .next (s.fenceStn n 2 false []))) ∧
  ((∀ (s : State) (q : Nat) (x : Queue), Tab.at? s.queues q = some x →
    ∃ t : State, exec (.keepWarmLapse q) s = .next t ∧ t = { s with queues := t.queues } ∧
      (∀ k, k ≠ q → Tab.at? t.queues k = Tab.at? s.queues k) ∧
      Tab.at? t.queues q = some (if x.kwHold = 0 then x else { x with kwOn := false })) ∧
  (∀ (s : State) (v : BitVec 32), s.reaches 0 → s.built s.pwr.sel = true → (s.build.remote s.pwr.sel && bits v.toNat 8 2 == 3) = false →
    ∃ u : State, exec (.policyWrite v) s = .next (if bits v.toNat 8 2 = 1 then u.demandStn s.pwr.sel else u.forceOff s.pwr.sel) ∧ u = { s with stns := u.stns } ∧
      Tab.becomes s.stns u.stns s.pwr.sel { s.stnAt s.pwr.sel with
        policy := bits v.toNat 8 2, abandon := if bit v.toNat 3 = true then false else (s.stnAt s.pwr.sel).abandon }) ∧
  (∀ (s : State) (v : BitVec 32), s.reaches 0 → s.built s.pwr.sel = true → s.build.remote s.pwr.sel = true → bits v.toNat 8 2 = 3 → bit v.toNat 3 = false →
    exec (.policyWrite v) s = .next s) ∧
  (∀ (s : State) (n : Nat), (s.stnAt n).policy ≠ 3 → s.forceOff n = s))

/-! ### Ageing, management and firmware (15) -/

/-- A re-plan measures: a domain whose slack is enough keeps its offset, and one whose slack is short takes the offset its sensitivity calls for, if
that is at most MAX_OFFSET; what was measured is kept. A re-plan ends, with source 768, once its frequency steps are taken (R466, R467, R470, R471,
R473). A planned frequency step is asked for when the station's arithmetic is idle; the echo takes it and is counted and told, and without the echo
the old step is restored, once, before the station is fenced (R468, R469). -/
def Obligations.ReplansMeasureAndPlan : Prop :=
  ((∀ (s : State) (m : Measure) (r : SlackReading), m.slacks = [r] → s.sramBases m.dom = [] → Int.ofNat (s.opts.val 10) ≤ r.ps →
    (s.dom m.dom).off ≤ s.opts.val 12 →
    ∃ u : State, u = { s with age := u.age, incr := u.incr, evc := u.evc } ∧ s.planDom m = u ∧
      (u.dom m.dom).off = (s.dom m.dom).off ∧ (u.dom m.dom).plan = (s.dom m.dom).fstep ∧ (u.dom m.dom).fstep = (s.dom m.dom).fstep ∧
      (u.dom m.dom).slack = r.ps ∧ (u.dom m.dom).shift = m.shiftPpm ∧ (u.dom m.dom).vmin = m.vmin ∧ (u.dom m.dom).last = s.opSecs ∧
      (∀ d, d ≠ m.dom → u.dom d = s.dom d)) ∧
  (∀ (s : State) (m : Measure) (r : SlackReading) (n : Nat), m.slacks = [r] → s.sramBases m.dom = [] → r.ps < Int.ofNat (s.opts.val 10) → m.kvFs ≠ 0 →
    Int.ofNat n = Int.ofNat (s.dom m.dom).off + ceil5 ((Int.ofNat (s.opts.val 10) - r.ps) * 1000) (Int.ofNat m.kvFs) → n ≤ s.opts.val 12 →
    ((s.planDom m).dom m.dom).off = max (s.dom m.dom).off n ∧ ((s.planDom m).dom m.dom).plan = (s.dom m.dom).fstep) ∧
  (∀ (s : State) (ms : List Measure), s.fwUp = true →
    ∃ u : State, u = { s with age := u.age, incr := u.incr, out := u.out } ∧ u.age.running = true ∧
      exec (.replan ms) s =
        .next ((((ms.filter (fun m => m.dom == 48 || (s.built m.dom && s.stnUp m.dom))).foldl (fun s m => s.planDom m) u).draw.logFree 4).settleReplan)) ∧
  (∀ s : State, s.age.running = true → (∀ d ∈ s.age.doms, d.2.plan ≤ d.2.fstep) →
    ∃ u : State, u = { s with age := { s.age with running := false, leastEnd := s.least.1, leastDom := s.least.2 } } ∧
      s.settleReplan = u.raise 768 s.least.1) ∧
  (∀ s : State, s.up = true → s.age.cut = false → s.age.auto = true → s.mgt.toReplan = 0 →
    exec .autoReplan s = .next { s with age := { s.age with running := true }, mgt := { s.mgt with toReplan := 86400 } }) ∧
  (∀ s : State, s.up = true → s.age.cut = true → s.rst.readyAt + 60 ≤ s.mgt.uptime →
    exec .autoReplan s = .next { s with age := { s.age with running := true, cut := false } })) ∧
  ((∀ (s : State) (n : Nat), s.built n = true → (s.dom n).fstep < (s.dom n).plan → (s.stnAt n).fstepTo = none → s.stnUp n = true → s.arithIdle n = true →
    s.fwUp = true →
    ∃ t : State, exec (.frequencyStep n) s = .next t ∧ t = { s with stns := t.stns, out := s.out ++ [.fsel n ((s.dom n).fstep + 1)] } ∧
      Tab.becomes s.stns t.stns n { s.stnAt n with fsel := (s.dom n).fstep + 1, fstepTo := some ((s.dom n).fstep + 1), fTried := false }) ∧
  (∀ (s : State) (n f : Nat), (s.stnAt n).fstepTo = some f →
    ∃ u v : State, u = { s with stns := u.stns, age := u.age, incr := u.incr } ∧ Tab.becomes s.stns u.stns n { s.stnAt n with fstepTo := none } ∧
      Tab.becomes s.age.doms u.age.doms n { s.dom n with fstep := f } ∧ u.age = { s.age with doms := u.age.doms } ∧ v = u.raise 770 (n + 256 * f) ∧
      exec (.arithFack n f) s = .next (v.marginSave.settleReplan).settleReads) ∧
  (∀ (s : State) (n f : Nat), (s.stnAt n).fstepTo = some f → (s.stnAt n).fTried = false →
    ∃ t : State, exec (.arithFackTimeout n) s = .next t ∧ t = { s with stns := t.stns, out := s.out ++ [.fsel n (s.dom n).fstep, .fsel n f] } ∧
      Tab.becomes s.stns t.stns n { s.stnAt n with fTried := true }) ∧
  (∀ (s : State) (n f : Nat), (s.stnAt n).fstepTo = some f → (s.stnAt n).fTried = true →
    ∃ u : State, exec (.arithFackTimeout n) s = .next ((u.fenceStn n 2 false []).settleReplan) ∧
      u = { s with stns := u.stns, age := { s.age with doms := u.age.doms }, out := s.out ++ [.fsel n (s.dom n).fstep] } ∧
      Tab.becomes s.stns u.stns n { s.stnAt n with fstepTo := none, fsel := (s.dom n).fstep }))

/-- A rail goes up by at most 5 mV in a write and never past the offset planned for it; a rail that does not answer, or whose Status reports a fault,
is marked and source 772 raised, and is not written again (R459). UPTIME and WALL count every second, and the countdowns and operating seconds those
of operation; a write of WALL makes it valid and raises source 775; a lifetime commit writes the counters to the log, starts them anew and raises
source 773 with the record's SEQ (R453, R461, R464). -/
def Obligations.RailsAndTheCalendar : Prop :=
  ((∀ (s : State) (r volts : Nat), s.fwUp = true → s.railOn r = true → (s.rail r).status = 0 → (s.rail r).off < s.railPlan r →
    (∃ t : State, exec (.avsRailWrite r .ok volts) s = .next t ∧
      t = { s with rails := t.rails, out := s.out ++ [.avs r (s.railBase r + min (s.railPlan r) ((s.rail r).off + 5))] } ∧
      Tab.becomes s.rails t.rails r { s.rail r with off := min (s.railPlan r) ((s.rail r).off + 5), volt := volts }) ∧
    (∃ u : State, exec (.avsRailWrite r .statusFault volts) s = .next (u.raise 772 r) ∧
      u = { s with rails := u.rails, out := s.out ++ [.avs r (s.railBase r + min (s.railPlan r) ((s.rail r).off + 5))] } ∧
      Tab.becomes s.rails u.rails r { s.rail r with off := min (s.railPlan r) ((s.rail r).off + 5), volt := volts, status := 2 }) ∧
    (∃ u : State, exec (.avsRailWrite r .silent volts) s = .next (u.raise 772 r) ∧
      u = { s with rails := u.rails, out := s.out ++ [.avs r (s.railBase r + min (s.railPlan r) ((s.rail r).off + 5))] } ∧
      Tab.becomes s.rails u.rails r { s.rail r with status := 1 })) ∧
  (∀ (s : State) (r volts : Nat) (a : RailAnswer), ((s.rail r).status ≠ 0 ∨ s.railPlan r ≤ (s.rail r).off) → exec (.avsRailWrite r a volts) s = .next s)) ∧
  ((∀ s : State, ∃ t : State, exec .uptimeTick s = .next t ∧ t = { s with mgt := t.mgt, incr := t.incr, fw := t.fw, rcv := t.rcv, evc := t.evc } ∧
    t.mgt = { s.mgt with
      uptime := (s.mgt.uptime + 1) % 2 ^ 64, wall := (s.mgt.wall + 1) % 2 ^ 64,
      toReplan := if s.operating = true then s.mgt.toReplan - 1 else s.mgt.toReplan,
      toCommit := if s.operating = true then s.mgt.toCommit - 1 else s.mgt.toCommit } ∧
    (s.operating = true → Tab.atD t.incr 1 0 = satAdd 64 (Tab.atD s.incr 1 0) 1) ∧ (s.operating = false → t.incr = s.incr)) ∧
  (∀ (s : State) (v : BitVec 64), s.fwUp = true →
    exec (.wallSet v) s = .next (({ s with mgt := { s.mgt with wall := v.toNat, wallValid := true } }).raise 775 0)) ∧
  (∀ s : State, s.fwUp = true → s.spi = true →
    ∃ u : State, exec .lifetimeCommit s = .next (u.raise 773 ((u.logSeq - 1) % 2 ^ 32)) ∧
      u = { s with nvm := u.nvm, logAt := u.logAt, logSeq := u.logSeq, life := u.life, incr := [], out := u.out, mgt := { s.mgt with toCommit := 3600 } }))

/-- An access of the dictionary through the mirror posts its result code and size: a read of an entry that is there brings its bytes from the offset
on, an index or subindex that is absent has its code, and while an access runs none is taken (R445 to R447, R454, R455). -/
def Obligations.DictionaryAnswersTheMirror : Prop :=
  (∀ (s : State) (v : BitVec 32), s.reaches 0 → bits v.toNat 0 2 = 1 → s.mgt.odBusy = false →
    (s.odRead 0 (bits s.mgt.odAddr 0 16) (bits s.mgt.odAddr 16 8)).1 ≠ 0 →
    exec (.odRead v) s = .next { s with mgt := { s.mgt with
      odBusy := false, odResult := (s.odRead 0 (bits s.mgt.odAddr 0 16) (bits s.mgt.odAddr 16 8)).1,
      odSize := (s.odRead 0 (bits s.mgt.odAddr 0 16) (bits s.mgt.odAddr 16 8)).2.1 } }) ∧
  (∀ (s : State) (v : BitVec 32), s.reaches 0 → bits v.toNat 0 2 = 1 → s.mgt.odBusy = false →
    (s.odRead 0 (bits s.mgt.odAddr 0 16) (bits s.mgt.odAddr 16 8)).1 = 0 →
    bits v.toNat 16 16 < (s.odRead 0 (bits s.mgt.odAddr 0 16) (bits s.mgt.odAddr 16 8)).2.1 →
    ∃ t : State, exec (.odRead v) s = .next t ∧ t = { s with mgt := { s.mgt with
        odBusy := false, odResult := 0, odSize := (s.odRead 0 (bits s.mgt.odAddr 0 16) (bits s.mgt.odAddr 16 8)).2.1, odData := t.mgt.odData } } ∧
      t.odBytes.take (((s.odRead 0 (bits s.mgt.odAddr 0 16) (bits s.mgt.odAddr 16 8)).2.2.drop (bits v.toNat 16 16)).take 64).length =
        ((s.odRead 0 (bits s.mgt.odAddr 0 16) (bits s.mgt.odAddr 16 8)).2.2.drop (bits v.toNat 16 16)).take 64) ∧
  (∀ (s : State) (idx sub i : Nat), s.odTop idx = none → s.odRead i idx sub = (1, 0, []) ∧ ∀ b, s.odWrite i idx sub b = (s, 1, 0)) ∧
  (∀ (s : State) (v : BitVec 32), s.reaches 0 → bits v.toNat 0 2 = 2 → s.mgt.odBusy = false → (bits v.toNat 8 7 = 0 ∨ 64 < bits v.toNat 8 7) →
    exec (.odWrite v) s = .next { s with mgt := { s.mgt with odBusy := false, odResult := 5, odSize := 0 } }) ∧
  (∀ (s : State) (v : BitVec 32), s.reaches 0 → bits v.toNat 0 2 = 2 → s.mgt.odBusy = false → 1 ≤ bits v.toNat 8 7 → bits v.toNat 8 7 ≤ 64 →
    bits s.mgt.odAddr 0 16 ≠ 0x2602 →
    let r := s.odWrite 0 (bits s.mgt.odAddr 0 16) (bits s.mgt.odAddr 16 8) (s.odBytes.take (bits v.toNat 8 7))
    exec (.odWrite v) s = .next { r.1 with mgt := { r.1.mgt with odBusy := false, odResult := r.2.1, odSize := r.2.2 } }) ∧
  (∀ (s : State) (v : BitVec 32), s.mgt.odBusy = true → exec (.odRead v) s = .next s ∧ exec (.odWrite v) s = .next s)

/-- A commit of the options writes the 256 bytes of the shadow to the NVM, and its interface is answered: 0 where they read back, NVM_FAIL where the
device failed, with source 782 either way (R457, R458). A REQUEST on the CAN FD port is served and answered on 0x280 plus the node number; one that
repeats the last is answered with the same response, and while a commit of the port's own runs requests wait, four at most, and then are refused with
BUSY. Frames with 29-bit identifiers or another one are ignored, and a response of more than 8 bytes goes at the rate of CAN_DRATE, filled with zeros
to a length that a frame can have (R388; the filling is the model's choice, log entry 81). TIME sets WALL, HEARTBEAT reports, and a bus-off is counted
(R449 to R452). -/
def Obligations.OptionsAreCommitted : Prop :=
  ((∀ (s : State) (r : List Byte), s.fwUp = true → s.spi = true → s.shadow.bytes.length = 256 → s.mgt.commit = some (0, r) →
    ∃ t : State, exec (.optionCommit true) s = .next t ∧
      t = { s with
        nvm := t.nvm, logAt := t.logAt, logSeq := t.logSeq, life := t.life, incr := t.incr, fresh := s.fresh + 1, evc := t.evc, out := t.out,
        mgt := { s.mgt with commit := none, odBusy := false, odResult := 0, odSize := 1 } } ∧
      t.nvmRead 0 256 = s.shadow.bytes) ∧
  (∀ (s : State) (r : List Byte), s.fwUp = true → s.mgt.commit = some (0, r) →
    ∃ t : State, exec (.optionCommit false) s = .next t ∧
      t = { s with incr := t.incr, evc := t.evc, mgt := { s.mgt with commit := none, odBusy := false, odResult := 9, odSize := 1 } }) ∧
  (∀ (s : State) (b : Bool), s.fwUp = false → exec (.optionCommit b) s = .next s)) ∧
  ((∀ (s : State) (req : List Byte), s.canUp = true → 8 ≤ req.length → req.length ≤ 64 → (s.mgt.commit.map (·.1)) ≠ some 1 → req = s.mgt.lastReq →
    exec (.canRequest ⟨0x200 + s.node, false, req⟩) s = .next { s with out := s.out ++ [canFrame s (0x280 + s.node) s.mgt.lastResp] }) ∧
  (∀ (s : State) (req : List Byte), s.canUp = true → 8 ≤ req.length → req.length ≤ 64 → (s.mgt.commit.map (·.1)) ≠ some 1 → req ≠ s.mgt.lastReq →
    rd req 0 1 = 1 → (s.odRead 1 (rd req 2 2) (rd req 4 1)).1 = 0 → rd req 6 2 < (s.odRead 1 (rd req 2 2) (rd req 4 1)).2.1 →
    ∃ t : State, exec (.canRequest ⟨0x200 + s.node, false, req⟩) s = .next t ∧ t = { s with mgt := { s.mgt with lastReq := req, lastResp := t.mgt.lastResp }, out := t.out } ∧
      t.mgt.lastResp = canResp req 0 (s.odRead 1 (rd req 2 2) (rd req 4 1)).2.1
        (((s.odRead 1 (rd req 2 2) (rd req 4 1)).2.2.drop (rd req 6 2)).take 56) ∧
      t.out = s.out ++ [canFrame s (0x280 + s.node) t.mgt.lastResp]) ∧
  (∀ (s : State) (req r : List Byte), s.canUp = true → 8 ≤ req.length → req.length ≤ 64 → s.mgt.commit = some (1, r) →
    exec (.canRequest ⟨0x200 + s.node, false, req⟩) s = .next (if s.mgt.canQ.length < 4 then { s with mgt := { s.mgt with canQ := s.mgt.canQ ++ [req] } }
      else { s with out := s.out ++ [canFrame s (0x280 + s.node) (canResp req 8 0 [])] })) ∧
  (∀ (s : State) (id : Nat) (ext : Bool) (f : List Byte), (ext = true ∨ id ≠ 0x200 + s.node) → exec (.canRequest ⟨id, ext, f⟩) s = .next s) ∧
  (∀ (s : State) (id : Nat) (ext : Bool) (f : List Byte), (ext = true ∨ id ≠ 0) → exec (.canTime ⟨id, ext, f⟩) s = .next s) ∧
  (∀ (s : State) (id : Nat) (b : List Byte), b.length ≤ 8 → canFrame s id b = .can id 1 b) ∧
  (∀ (s : State) (f : List Byte), s.canUp = true → f.length = 8 →
    exec (.canTime ⟨0, false, f⟩) s = .next (({ s with mgt := { s.mgt with wall := leNat f, wallValid := true } }).raise 775 0)) ∧
  (∀ s : State, s.canUp = true → s.opts.val 8 = 1 →
    exec .canHeartbeat s = .next { s with out := s.out ++
      [canFrame s (0x700 + s.node) (leBytes 1 s.rcv.state ++ leBytes 1 s.lc ++ leBytes 2 s.age.leastEnd ++ leBytes 4 s.mgt.uptime)] }) ∧
  (∀ s : State, s.canUp = true →
    exec .canBusOff s = .next (({ s with mgt := { s.mgt with busOff := satAdd 32 s.mgt.busOff 1 } }).raise 776 (satAdd 32 s.mgt.busOff 1))) ∧
  (∀ (s : State) (id : Nat) (ext : Bool) (f : List Byte), s.canUp = false →
    exec (.canRequest ⟨id, ext, f⟩) s = .next s ∧ exec (.canTime ⟨id, ext, f⟩) s = .next s ∧ exec .canHeartbeat s = .next s ∧ exec .canBusOff s = .next s))

/-- A running slot in TRIAL is confirmed when its seconds have passed or it is asked for, and a slot that is not on trial is left alone; the lifecycle
state only advances, to PRODUCTION with its keys in place and to DECOMMISSIONED from an unlocked monitor, and otherwise stays (R478, R484, R487). -/
def Obligations.TrialsAndTheLifecycle : Prop :=
  (∀ (s : State) (r : SlotRec), s.fwUp = true → s.slotRec s.fw.slot = some r → r.st = 2 →
    ∃ u : State, exec .confirm s = .next (u.raise 779 s.fw.version) ∧
      u = { s with
        nvm := u.nvm, fuses := u.fuses, fresh := u.fresh, incr := u.incr, life := u.life, logAt := u.logAt, logSeq := u.logSeq, evc := u.evc,
        out := u.out, fw := { s.fw with toConfirm := 0 } }) ∧
  (∀ (s : State), (s.slotRec s.fw.slot).map (·.st) ≠ some 2 → exec .confirm s = .next s ∧ exec .trialConfirmTimer s = .next s) ∧
  (∀ s : State, s.fwUp = true → s.inTrial = true → s.confirmS ≠ 0 → s.fw.toConfirm = 0 → exec .trialConfirmTimer s = exec .confirm s) ∧
  (∀ s : State, (s.confirmS = 0 ∨ s.fw.toConfirm ≠ 0) → exec .trialConfirmTimer s = .next s) ∧
  (∀ s : State, s.fwUp = true → s.lc = 0 → (anyByte (s.keyHash 0) || anyByte (s.keyHash 1)) = true → anyByte (s.keyHash 2) = true →
    ∃ t : State, exec (.lcAdvance 1#8) s = .next t ∧
      t = { s with
        fuses := t.fuses, fresh := t.fresh, nvm := t.nvm, incr := t.incr, life := t.life, logAt := t.logAt, logSeq := t.logSeq, evc := t.evc,
        out := t.out } ∧
      t.fuse 76 = (if Config.fuseErr s.fresh = true then s.fuse 76 else s.fuse 76 ||| 1)) ∧
  (∀ s : State, s.fwUp = true → s.lc ≤ 1 → s.mgt.unlocked = true →
    ∃ t : State, exec (.lcAdvance 3#8) s = .next t ∧ t.fuse 76 = (if Config.fuseErr s.fresh = true then s.fuse 76 else s.fuse 76 ||| 3)) ∧
  (∀ (s : State) (v : BitVec 8), s.lc ≠ 0 → s.mgt.unlocked = false → exec (.lcAdvance v) s = .next s) ∧
  (∀ (s : State) (v : BitVec 8), 2 ≤ s.lc → ∃ t : State, exec (.lcAdvance v) s = .next t ∧ t = { s with fresh := t.fresh })

/-- An image that verifies is written to the slot that does not run and becomes valid there, and one that does not is refused; activation marks
another slot's verified image for the next boot, or confirms the running trial, and a live update also moves to the new image within the command
(R482, R483, R485). -/
def Obligations.FirmwareIsStagedAndActivated : Prop :=
  (∀ (s : State) (q seq : Nat) (c : Cmd), s.resumes q seq c → c.opcode = 0x4B → c.fld 8 1 0 1 ≠ s.fw.slot →
    let m := s.rangeBytes c 0 (c.num 12 4)
    let r := s.slotWrite (c.fld 8 1 0 1) m
    ∃ t : State, exec (.firmwareStage q seq) s = .next t ∧ t = { s with nvm := t.nvm, incr := t.incr, evc := t.evc, cmds := t.cmds, xlt := t.xlt, out := t.out } ∧
      (if s.imageCheck 1 m = 0 then
        s.completes t (ckey q seq) c (if r.2 = true then stOk else stBadSignature) (if r.2 = true then iVersion m else 0) 0 ∧
          (r.2 = true → t.nvm = (r.1.slotPut (c.fld 8 1 0 1) ⟨max (r.1.slotSeq 0) (r.1.slotSeq 1) + 1, 1, 0⟩).nvm)
      else t.nvm = s.nvm ∧ s.completes t (ckey q seq) c (if s.imageCheck 1 m = 5 then stRollback else stBadSignature) 0 0)) ∧
  (∀ (s : State) (q seq : Nat) (c : Cmd), s.resumes q seq c → c.opcode = 0x4B → c.fld 8 1 0 1 = s.fw.slot →
    ∃ t : State, exec (.firmwareStage q seq) s = .next t ∧ t = { s with cmds := t.cmds, xlt := t.xlt } ∧ s.completes t (ckey q seq) c stBusy 0 0) ∧
  (∀ (s : State) (q seq : Nat) (c : Cmd), s.starts q seq c → c.opcode = 0x4C → c.fld 9 1 0 1 = 0 → c.clean = true →
    ∃ t : State, exec (.firmwareActivate q seq) s = .next t ∧
      t = { s with
        nvm := t.nvm, fuses := t.fuses, fresh := t.fresh, fw := { s.fw with toConfirm := t.fw.toConfirm }, mgt := t.mgt, life := t.life,
        logAt := t.logAt, logSeq := t.logSeq, incr := t.incr, evc := t.evc, cmds := t.cmds, xlt := t.xlt, out := t.out } ∧
      (if s.slotGood (c.fld 8 1 0 1) = true then s.completes t (ckey q seq) c stOk (s.slotVersion (c.fld 8 1 0 1)) 0
      else t.nvm = s.nvm ∧ s.completes t (ckey q seq) c stBadOperand 0 0)) ∧
  (∀ (s : State) (q seq : Nat) (c : Cmd), s.starts q seq c → c.opcode = 0x4C → c.fld 9 1 0 1 = 1 → c.clean = true →
    let m := s.slotImage (c.fld 8 1 0 1)
    ∃ t : State, exec (.liveUpdate q seq) s = .next t ∧
      t = { s with
        nvm := t.nvm, fw := t.fw, mgt := t.mgt, life := t.life, logAt := t.logAt, logSeq := t.logSeq, incr := t.incr,
        evc := t.evc, cmds := t.cmds, xlt := t.xlt, out := t.out, cores := t.cores } ∧
      (if (s.slotGood (c.fld 8 1 0 1) && (bit (iFlags m) 1 && iFmt m == s.fw.fmt && iRevOk m)) = true then
        t.fw.slot = c.fld 8 1 0 1 ∧ t.fw.live = true ∧ (∃ l, t.out = s.out ++ liveOrder.map (fun k => .idleReq 4 k) ++ l) ∧
          s.completes t (ckey q seq) c stOk (iVersion m) 0
      else t.fw = s.fw ∧ t.nvm = s.nvm ∧ t.out = s.out ∧ s.completes t (ckey q seq) c stBadOperand 0 0))

/-- While firmware runs the monitor prints, whether locked or not, and nothing else changes: its commands, identity, state, the newest error and log
records, ageing, the registers of a slot, and any entry of the dictionary, with the result code where there is none (R489, R490; the form of the text
is log entry 30). A command that changes something answers LOCKED (7) from a locked monitor in PRODUCTION and DECOMMISSIONED, and changes nothing
(R447, R490). -/
def Obligations.MonitorPrintsWithoutAKey : Prop :=
  (∀ s : State, s.fwUp = true →
    exec .monitorHelp s = .next { s with out := s.out ++ [reply (monNames.map textBytes) 0] } ∧
    exec .monitorId s = .next { s with out := s.out ++ [reply s.idLines 0] } ∧
    exec .monitorStat s = .next { s with out := s.out ++ [reply s.statLines 0] } ∧
    (∀ n, exec (.monitorElog n) s =
      .next { s with out := s.out ++ [reply ((List.range (min n (min 256 s.rcv.elogCnt))).map (fun k => hexBytes (s.elogAt k))) 0] }) ∧
    (∀ n, exec (.monitorLlog n) s = .next { s with out := s.out ++ [reply ((List.range n).map (fun k => hexBytes (s.logRecord k))) 0] }) ∧
    (∀ d, (d = 48 ∨ d < 48 ∧ s.built d = true) →
      exec (.monitorAge d) s = .next { s with out := s.out ++ [reply (s.odLines (if d = 48 then 0x2301 else 0x2310 + d)) 0] }) ∧
    (∀ n, s.built n = true →
      exec (.monitorCx n) s = .next { s with out := s.out ++ [reply (s.cxLines n) 0] } ∧
      exec (.monitorStn n) s = .next { s with out := s.out ++ [reply (s.stnLines n) 0] }) ∧
    (∀ n, s.built n = false →
      exec (.monitorCx n) s = .next { s with out := s.out ++ [reply [] 1] } ∧ exec (.monitorStn n) s = .next { s with out := s.out ++ [reply [] 1] }) ∧
    (∀ idx sub, exec (.monitorOdRead idx sub) s =
      .next { s with out := s.out ++ [reply (if (s.odRead 2 idx sub).1 = 0 then [hexBytes (s.odRead 2 idx sub).2.2] else []) (s.odRead 2 idx sub).1] })) ∧
  (∀ s : State, s.fwUp = true → s.lc ≠ 0 → s.mgt.unlocked = false →
    (∀ idx sub b, exec (.monitorOdWrite idx sub b) s = .next { s with out := s.out ++ [reply [] 7] }) ∧
    exec .monitorReplan s = .next { s with out := s.out ++ [reply [] 7] } ∧
    (∀ n, exec (.baud n) s = .next { s with out := s.out ++ [reply [] 7] }) ∧
    (∀ k, exec (.monitorDump k) s = .next { s with out := s.out ++ [reply [] 7] }) ∧
    (∀ off, exec (.peek off) s = .next { s with out := s.out ++ [reply [] 7] }) ∧
    (∀ off v, exec (.poke off v) s = .next { s with out := s.out ++ [reply [] 7] }) ∧
    (∀ d, exec (.monitorReset d) s = .next { s with out := s.out ++ [reply [] 7] }) ∧
    (∀ w, exec (.fuseRead w) s = .next { s with out := s.out ++ [reply [] 7] }) ∧
    (∀ w v ok, exec (.fuseProgram w v ok) s = .next { s with out := s.out ++ [reply [] 7] }) ∧
    (∀ v ok, exec (.monitorLc v ok) s = .next { s with out := s.out ++ [reply [] 7] }))

/-- An unlocked monitor, or one in DEVELOPMENT, writes the dictionary, asks for a re-plan, sets the rate after its OK, prints a dump, reads and writes
registers and fuses, resets the block and advances the lifecycle (R386, R478, R489, R490). -/
def Obligations.AnOpenMonitorActs : Prop :=
  ∀ s : State, s.fwUp = true → (s.lc = 0 ∨ s.mgt.unlocked = true) →
    (∀ idx sub b, idx ≠ 0x2602 →
      exec (.monitorOdWrite idx sub b) s = .next { (s.odWrite 2 idx sub b).1 with
        out := (s.odWrite 2 idx sub b).1.out ++ [reply [] (s.odWrite 2 idx sub b).2.1] }) ∧
    exec .monitorReplan s = .next { s with age := { s.age with running := true }, out := s.out ++ [reply [] 0] } ∧
    (∀ n, exec (.baud n) s = .next (if n ∈ bauds then { s with mgt := { s.mgt with baud := n }, out := s.out ++ [reply [] 0] }
      else { s with out := s.out ++ [reply [] 6] })) ∧
    (∀ k, exec (.monitorDump k) s = .next { s with
      out := s.out ++ [if k < 2 then reply (hexLines (s.rsRead (dumpAt k) 122880)) 0 else reply [] 6] }) ∧
    (∀ off, exec (.peek off) s = .next { s.regRc 0 off 4 with out := (s.regRc 0 off 4).out ++ [reply [hexNum 4 (s.regRead 0 off 4)] 0] }) ∧
    (∀ off v, exec (.poke off v) s = .next { s.regWrite 0 off 4 v.toNat with out := (s.regWrite 0 off 4 v.toNat).out ++ [reply [] 0] }) ∧
    (∀ d, exec (.monitorReset d) s = .next (({ s with out := s.out ++ [reply [] 0] }).warmReset 7 d false)) ∧
    (∀ w, exec (.fuseRead w) s = .next { s with out := s.out ++ [if w ≤ 76 then reply [hexNum 4 (s.fuse w)] 0 else reply [] 6] }) ∧
    (∀ w v, s.lc = 0 → (w < 36 ∨ w = 76) →
      (∃ t : State, exec (.fuseProgram w v true) s = .next t ∧ t = { s with fuses := t.fuses, out := s.out ++ [reply [] 0] } ∧
        Tab.becomes s.fuses t.fuses w (s.fuse w ||| v.toNat)) ∧
      (∃ t : State, exec (.fuseProgram w v false) s = .next t ∧ t = { s with evc := t.evc, out := s.out ++ [reply [] 9] })) ∧
    (∀ w v ok, s.lc = 0 → ¬(w < 36 ∨ w = 76) → exec (.fuseProgram w v ok) s = .next { s with out := s.out ++ [reply [] 6] }) ∧
    (∀ (v : BitVec 8), s.lc ≤ 1 → s.mgt.unlocked = true → v = 3#8 →
      ∃ t : State, exec (.monitorLc v true) s = .next t ∧ Tab.becomes s.fuses t.fuses 76 (s.fuse 76 ||| 3) ∧ s.out <+: t.out ∧ t.out.getLast? = some (reply [] 0)) ∧
    (∀ (v : BitVec 8), v ≠ 1#8 → v ≠ 3#8 → exec (.monitorLc v true) s = .next { s with out := s.out ++ [reply [] 6] })

/-- UNLOCK gives a challenge, but not in a lockout; an answer that a root key signed within 60 seconds unlocks the monitor, a wrong one uses the
challenge up and the third in a row locks challenges out; LOCK, the hour's end and the lockout's end undo it (R478, R491, R492). -/
def Obligations.UnlockingNeedsASignature : Prop :=
  (∀ s : State, s.fwUp = true → s.mgt.lockout = true → exec (.unlock none) s = .next { s with out := s.out ++ [reply [] 7] }) ∧
  (∀ s : State, s.fwUp = true → s.mgt.lockout = false →
    ∃ c : List Byte, c.length = 16 ∧ exec (.unlock none) s = .next { s with
      mgt := { s.mgt with challenge := some (s.mgt.uptime, c) }, fresh := s.fresh + 1, out := s.out ++ [reply [hexBytes c] 0] }) ∧
  (∀ (s : State) (r t at_ : Nat) (c : List Byte), s.fwUp = true → s.mgt.challenge = some (at_, c) → s.mgt.uptime ≤ at_ + 60 →
    ∃ u : State, exec (.unlock (some (r, t))) s = .next u ∧
      (if s.answerOk r t c = true then
        u = { s with
          mgt := { s.mgt with challenge := none, wrong := 0, unlocked := true }, fresh := s.fresh + 1, nvm := u.nvm, logAt := u.logAt,
          logSeq := u.logSeq, life := u.life, incr := u.incr, evc := u.evc, out := u.out } ∧ u.out.getLast? = some (reply [] 0)
      else
        u = { s with
          mgt := { s.mgt with
            challenge := none, wrong := if 3 ≤ s.mgt.wrong + 1 then 0 else s.mgt.wrong + 1,
            lockout := s.mgt.lockout || decide (3 ≤ s.mgt.wrong + 1) }
          incr := u.incr, out := s.out ++ [reply [] 7] })) ∧
  (∀ (s : State) (r t at_ : Nat) (c : List Byte), s.fwUp = true → s.mgt.challenge = some (at_, c) → at_ + 60 < s.mgt.uptime →
    ∃ u : State, exec (.unlock (some (r, t))) s = .next u ∧
      u = { s with mgt := { s.mgt with challenge := none }, incr := u.incr, out := s.out ++ [reply [] 7] }) ∧
  (∀ s : State, s.mgt.test = false → s.fwUp = true →
    exec .lock s = .next { s with mgt := { s.mgt with unlocked := false }, out := s.out ++ [reply [] 0] }) ∧
  (∀ s : State, s.mgt.test = false → exec .unlockExpiry s = .next { s with mgt := { s.mgt with unlocked := false } }) ∧
  (∀ s : State, s.mgt.test = true → s.lc = 1 → s.mgt.unlocked = true → (5, 0) ∉ s.mgt.asked →
    exec .unlockExpiry s = .next { s with
      mgt := { s.mgt with unlocked := false, test := false, asked := s.mgt.asked ++ [(5, 0)] }, out := s.out ++ [.idleReq 5 0] }) ∧
  (∀ s : State, exec .unlockLockoutEnd s = .next { s with mgt := { s.mgt with lockout := false } })

/-- Without a slot to boot the boot ROM answers: identity, the slots' state and first failed check, an image to a slot, a reset; and in DECOMMISSIONED
alone registers and fuses. With firmware running it answers nothing (R430, R478, R488). -/
def Obligations.TheBootRomAnswersInFailed : Prop :=
  (∀ s : State, s.rst.rel = .failed →
    exec .bootromId s = .next { s with
      out := s.out ++ [reply [hexNum 2 (s.build.hubId % 65536), hexNum 1 s.lc, hexNum 2 s.fwCounter, hexNum 2 s.progCounter] 0] } ∧
    exec .bootlog s = .next { s with out := s.out ++ [reply ([0, 1].map s.bootLine) 0] } ∧
    exec .bootromReset s = .next (({ s with out := s.out ++ [reply [] 0] }).warmReset 7 false false) ∧
    (∀ (x : Nat) (m : List Byte), ∃ t : State, exec (.xload x m) s = .next t ∧
      (if 2 ≤ x ∨ s.imageCheck 1 m ≠ 0 then t = { s with out := s.out ++ [reply [] 6] }
      else
        t = { s with nvm := t.nvm, incr := t.incr, out := t.out } ∧ t.out.getLast? = some (reply [] (if (s.slotWrite x m).2 = true then 0 else 9)) ∧
        ((s.slotWrite x m).2 = true →
          t.nvm = ((s.slotWrite x m).1.slotPut x ⟨max ((s.slotWrite x m).1.slotSeq 0) ((s.slotWrite x m).1.slotSeq 1) + 1, 2, 0⟩).nvm))) ∧
    (2 ≤ s.lc →
      (∀ off, exec (.bootromPeek off) s = .next { s.regRc 0 off 4 with out := (s.regRc 0 off 4).out ++ [reply [hexNum 4 (s.regRead 0 off 4)] 0] }) ∧
      (∀ w, exec (.bootromFuseRead w) s = .next { s with out := s.out ++ [if w ≤ 76 then reply [hexNum 4 (s.fuse w)] 0 else reply [] 6] })) ∧
    (s.lc < 2 →
      (∀ off, exec (.bootromPeek off) s = .next { s with out := s.out ++ [reply [] 7] }) ∧
      (∀ w, exec (.bootromFuseRead w) s = .next { s with out := s.out ++ [reply [] 7] }))) ∧
  (∀ s : State, s.rst.rel ≠ .failed →
    exec .bootromId s = .next s ∧ exec .bootlog s = .next s ∧ exec .bootromReset s = .next s ∧ (∀ x m, exec (.xload x m) s = .next s) ∧
    (∀ off, exec (.bootromPeek off) s = .next s) ∧ ∀ w, exec (.bootromFuseRead w) s = .next s)

/-! ### Registers (00, 14) -/

/-- An inbound read of an enabled function completes with the register's value, zero where there is none, and clears what reading clears; of a
disabled function it fails, and before READY it is answered with ones except for the state and the window of the retention SRAM (R22, R24, R350, R353,
R407). A write of a register takes effect as its row says, and one to a disabled function, before READY, of a size or alignment that no register has,
or of a VF beyond its own registers, has none; the ones below stand for the kinds of register: written whole, cleared by ones, selecting, and 64 bits
wide (R22, R24, R63, R350, R353, R407, R420, R442). -/
def Obligations.RegistersAreReadAndWritten : Prop :=
  ((∀ (s : State) (fn off width tag : Nat), fn < 512 → s.up = true → (s.fn fn).en = true →
    exec (.inboundMmioRead fn off width tag) s =
      .next { s.regRc fn off width with out := (s.regRc fn off width).out ++ [.cpl fn tag 0 width (s.regRead fn off width)] }) ∧
  (∀ (s : State) (fn off width tag : Nat), fn < 512 → s.up = true → (s.fn fn).en = false →
    exec (.inboundMmioRead fn off width tag) s = .next { s with out := s.out ++ [.cpl fn tag 1 width 0] }) ∧
  (∀ (s : State) (fn off width tag : Nat), fn < 512 → s.up = false → ¬(fn = 0 ∧ width = 4 ∧ (off = 0x6824 ∨ off = 0x6840 ∨ off = 0x6844)) →
    exec (.inboundMmioRead fn off width tag) s = .next { s with out := s.out ++ [.cpl fn tag 0 width (2 ^ (8 * width) - 1)] }) ∧
  (∀ (s : State) (tag : Nat), s.up = false →
    exec (.inboundMmioRead 0 0x6824 4 tag) s = .next { s with out := s.out ++ [.cpl 0 tag 0 4 (packF [(0, 2, s.rcv.state), (8, 24, s.rcv.elapsed)])] }) ∧
  (∀ (s : State) (fn off width : Nat), (width ≠ 4 ∨ off % 4 ≠ 0) → (width ≠ 8 ∨ off % 8 ≠ 0) → s.regRead fn off width = 0 ∧ s.regRc fn off width = s) ∧
  (∀ (s : State) (tag : Nat), s.up = true → (s.fn 0).en = true →
    exec (.inboundMmioRead 0 0 4 tag) s = .next { s with out := s.out ++ [.cpl 0 tag 0 4 s.build.hubId] } ∧
    exec (.inboundMmioRead 0 0x3040 4 tag) s = .next { s with xlt := { s.xlt with dead := 0 }, out := s.out ++ [.cpl 0 tag 0 4 s.xlt.dead] } ∧
    exec (.inboundMmioRead 0 0x6000 4 tag) s = .next { s with out := s.out ++ [.cpl 0 tag 0 4 s.rst.cause] }) ∧
  (∀ (s : State) (fn tag : Nat), fn ≠ 0 → fn < 512 → s.up = true → (s.fn fn).en = true →
    exec (.inboundMmioRead fn 0x6000 4 tag) s = .next { s with out := s.out ++ [.cpl fn tag 0 4 0] })) ∧
  ((∀ (s : State) (v : BitVec 64), s.reaches 0 →
    exec (.registerWrite 0 0x6000 4 v) s = .next { s with rst := { s.rst with cause := s.rst.cause &&& (0x7FF ^^^ (v.toNat % 2 ^ 32 % 0x800)) } } ∧
    exec (.registerWrite 0 0x6400 4 v) s =
      .next { s with pwr := { s.pwr with tDoze := bits (v.toNat % 2 ^ 32) 0 16, tSleep := bits (v.toNat % 2 ^ 32) 16 16 } } ∧
    exec (.registerWrite 0 0x6408 4 v) s = .next { s with pwr := { s.pwr with sel := bits (v.toNat % 2 ^ 32) 0 6 } } ∧
    exec (.registerWrite 0 0x3048 4 v) s = .next { s with xlt := { s.xlt with ksel := bits (v.toNat % 2 ^ 32) 0 6 } } ∧
    exec (.registerWrite 0 0x7000 4 v) s = .next { s with mgt := { s.mgt with odAddr := bits (v.toNat % 2 ^ 32) 0 24 } } ∧
    exec (.registerWrite 0 0x6830 8 v) s = .next { s with rcv := { s.rcv with dumpEn := bit v.toNat 0, dumpBase := alignDown v.toNat 4096 } } ∧
    (s.mqi.en = true → exec (.registerWrite 0 0x1008 8 v) s = .next s) ∧
    (s.mqi.en = false → exec (.registerWrite 0 0x1008 8 v) s = .next { s with mqi := { s.mqi with sqb := v.toNat } }) ∧
    exec (.registerWrite 0 0x4000 4 v) s = .next { s with evc := { s.evc with en := bit (v.toNat % 2 ^ 32) 0 } }) ∧
  (∀ (s : State) (fn off width : Nat) (v : BitVec 64), fn < 512 → (s.up = false ∨ (s.fn fn).en = false) →
    exec (.registerWrite fn off width v) s = .next s) ∧
  (∀ (s : State) (fn off width : Nat) (v : BitVec 64), fn < 512 → off < 0x01000000 → (width ≠ 4 ∨ off % 4 ≠ 0) → (width ≠ 8 ∨ off % 8 ≠ 0) →
    exec (.registerWrite fn off width v) s = .next s) ∧
  (∀ (s : State) (fn off : Nat) (v : BitVec 64), fn ≠ 0 → fn < 512 → 0x1000 ≤ off → off < 0x01000000 → exec (.registerWrite fn off 4 v) s = .next s) ∧
  (∀ (s : State) (fn off width : Nat) (v : BitVec 64), s.reaches fn → fn < 512 → 0x01000000 ≤ off → off < 0x02000000 →
    exec (.registerWrite fn off width v) s = exec (.sqTailDoorbell fn off width v) s))
end

