-- ==== Sys2Proof/Laws/Tab.lean ====
section
/-! SUPPORT. Sys2Proof/Laws/Tab.lean: what reading, putting, removing and changing the entries of a table do, and that each keeps
its keys strictly rising. -/
namespace Sys2Proof

@[simp] theorem Tab.at?_nil {α : Type} (i : Nat) : Tab.at? ([] : Tab α) i = none := rfl

@[simp] theorem Tab.at?_put_self {α : Type} (t : Tab α) (i : Nat) (v : α) : Tab.at? (Tab.put t i v) i = some v := by
  induction t with
  | nil => simp [Tab.put, Tab.at?]
  | cons e t ih => unfold Tab.put; split <;> simp_all [Tab.at?]; split <;> simp_all [Tab.at?]

theorem Tab.at?_put_ne {α : Type} (t : Tab α) {i j : Nat} (v : α) (h : j ≠ i) : Tab.at? (Tab.put t i v) j = Tab.at? t j := by
  induction t with
  | nil => simp [Tab.put, Tab.at?, h]
  | cons e t ih =>
    unfold Tab.put
    split
    · simp [Tab.at?, h]
    · split
      · rename_i hk
        subst hk
        simp [Tab.at?, h]
      · simp [Tab.at?, ih]

@[simp] theorem Tab.atD_put_self {α : Type} (t : Tab α) (i : Nat) (v d : α) : Tab.atD (Tab.put t i v) i d = v := by simp [Tab.atD]

theorem Tab.atD_put_ne {α : Type} (t : Tab α) {i j : Nat} (v d : α) (h : j ≠ i) : Tab.atD (Tab.put t i v) j d = Tab.atD t j d := by
  simp [Tab.atD, Tab.at?_put_ne t v h]

@[simp] theorem Tab.at?_del_self {α : Type} (t : Tab α) (i : Nat) : Tab.at? (Tab.del t i) i = none := by
  induction t with
  | nil => rfl
  | cons e t ih =>
    by_cases h : e.1 = i
    · simpa [Tab.del, h] using ih
    · simpa [Tab.del, h, Tab.at?, Ne.symm h] using ih

theorem Tab.at?_del_ne {α : Type} (t : Tab α) {i j : Nat} (h : j ≠ i) : Tab.at? (Tab.del t i) j = Tab.at? t j := by
  induction t with
  | nil => rfl
  | cons e t ih =>
    by_cases he : e.1 = i
    · have : j ≠ e.1 := by omega
      simpa [Tab.del, he, Tab.at?, h, this] using ih
    · simp only [Tab.del, List.filter, Tab.at?] at ih ⊢
      split <;> simp_all [Tab.at?]

@[simp] theorem Tab.at?_upd_self {α : Type} (t : Tab α) (i : Nat) (f : α → α) : Tab.at? (Tab.upd t i f) i = (Tab.at? t i).map f := by
  induction t with
  | nil => rfl
  | cons e t ih => unfold Tab.upd; split <;> simp_all [Tab.at?]

theorem Tab.at?_upd_ne {α : Type} (t : Tab α) {i j : Nat} (f : α → α) (h : j ≠ i) : Tab.at? (Tab.upd t i f) j = Tab.at? t j := by
  induction t with
  | nil => rfl
  | cons e t ih =>
    unfold Tab.upd
    split
    · rename_i hk
      subst hk
      simp [Tab.at?, h, ih]
    · simp [Tab.at?, ih]

@[simp] theorem Tab.at?_mapV {α β : Type} (t : Tab α) (f : Nat → α → β) (i : Nat) : Tab.at? (Tab.mapV t f) i = (Tab.at? t i).map (f i) := by
  induction t with
  | nil => rfl
  | cons e t ih =>
    have ih' : Tab.at? (t.map (fun e => (e.1, f e.1 e.2))) i = (Tab.at? t i).map (f i) := ih
    by_cases h : i = e.1 <;> simp [Tab.mapV, Tab.at?, h, ih'] <;> simp_all

theorem Tab.becomes_put {α : Type} (t : Tab α) (i : Nat) (v : α) : Tab.becomes t (Tab.put t i v) i v :=
  ⟨Tab.at?_put_self t i v, fun _ h => Tab.at?_put_ne t v h⟩

theorem Tab.becomes_upd {α : Type} {t : Tab α} {i : Nat} {v : α} (f : α → α) (h : Tab.at? t i = some v) : Tab.becomes t (Tab.upd t i f) i (f v) :=
  ⟨by simp [h], fun _ hj => Tab.at?_upd_ne t f hj⟩

theorem Tab.loses_del {α : Type} (t : Tab α) (i : Nat) : Tab.loses t (Tab.del t i) i :=
  ⟨Tab.at?_del_self t i, fun _ h => Tab.at?_del_ne t h⟩

/-- An entry that changes twice ends as the second change says. -/
theorem Tab.becomes_trans {α : Type} {t u w : Tab α} {i : Nat} {v x : α} (h : Tab.becomes t u i v) (k : Tab.becomes u w i x) : Tab.becomes t w i x :=
  ⟨k.1, fun j hj => (k.2 j hj).trans (h.2 j hj)⟩

/-! ### Keys strictly rise -/

/-- The keys of a table are all at least `k`. -/
theorem Tab.sorted_cons {α : Type} (k : Nat) (v : α) (t : Tab α) :
    Tab.sorted ((k, v) :: t) = true ↔ (∀ e ∈ t, k < e.1) ∧ Tab.sorted t = true := by
  induction t generalizing k v with
  | nil => simp [Tab.sorted]
  | cons e t ih =>
    obtain ⟨j, w⟩ := e
    have h1 : Tab.sorted ((k, v) :: (j, w) :: t) = (decide (k < j) && Tab.sorted ((j, w) :: t)) := rfl
    rw [h1, Bool.and_eq_true, decide_eq_true_eq]
    constructor
    · intro ⟨a, b⟩
      refine ⟨fun e he => ?_, b⟩
      rcases List.mem_cons.1 he with rfl | he
      · exact a
      · exact Nat.lt_trans a (((ih j w).1 b).1 e he)
    · intro ⟨a, b⟩
      exact ⟨a (j, w) (by simp), b⟩

theorem Tab.mem_put {α : Type} (t : Tab α) (i : Nat) (v : α) {e : Nat × α} (h : e ∈ Tab.put t i v) : e = (i, v) ∨ e ∈ t := by
  induction t with
  | nil => left; simpa [Tab.put] using h
  | cons x t ih =>
    unfold Tab.put at h
    split at h
    · rcases List.mem_cons.1 h with h | h
      · exact .inl h
      · exact .inr h
    · split at h
      · rcases List.mem_cons.1 h with h | h
        · exact .inl h
        · exact .inr (List.mem_cons_of_mem _ h)
      · rcases List.mem_cons.1 h with h | h
        · exact .inr (by simp [h])
        · exact (ih h).imp id (List.mem_cons_of_mem _)

theorem Tab.sorted_put {α : Type} {t : Tab α} (i : Nat) (v : α) (h : Tab.sorted t = true) : Tab.sorted (Tab.put t i v) = true := by
  induction t with
  | nil => rfl
  | cons e t ih =>
    obtain ⟨k, w⟩ := e
    obtain ⟨h1, h2⟩ := (Tab.sorted_cons k w t).1 h
    unfold Tab.put
    split
    · rename_i hi
      refine (Tab.sorted_cons i v _).2 ⟨fun e he => ?_, h⟩
      rcases List.mem_cons.1 he with rfl | he
      · exact hi
      · exact Nat.lt_trans hi (h1 e he)
    · split
      · rename_i hi
        subst hi
        exact (Tab.sorted_cons _ v t).2 ⟨h1, h2⟩
      · refine (Tab.sorted_cons k w _).2 ⟨fun e he => ?_, ih h2⟩
        rcases Tab.mem_put t i v he with rfl | he
        · simp only; omega
        · exact h1 e he

theorem Tab.sorted_filter {α : Type} {t : Tab α} (p : Nat × α → Bool) (h : Tab.sorted t = true) : Tab.sorted (t.filter p) = true := by
  induction t with
  | nil => rfl
  | cons e t ih =>
    obtain ⟨k, w⟩ := e
    obtain ⟨h1, h2⟩ := (Tab.sorted_cons k w t).1 h
    by_cases hp : p (k, w) = true
    · simp only [List.filter, hp]
      exact (Tab.sorted_cons k w _).2 ⟨fun e he => h1 e (List.mem_filter.1 he).1, ih h2⟩
    · simp only [List.filter, hp]
      exact ih h2

theorem Tab.sorted_del {α : Type} {t : Tab α} (i : Nat) (h : Tab.sorted t = true) : Tab.sorted (Tab.del t i) = true :=
  Tab.sorted_filter _ h

/-- In a table in canonical form an entry is what reading its key gives. -/
theorem Tab.at?_of_mem {α : Type} {t : Tab α} {k : Nat} {v : α} (h : Tab.sorted t = true) (hm : (k, v) ∈ t) : Tab.at? t k = some v := by
  induction t with
  | nil => cases hm
  | cons e t ih =>
    obtain ⟨j, w⟩ := e
    obtain ⟨h1, h2⟩ := (Tab.sorted_cons j w t).1 h
    rcases List.mem_cons.1 hm with hh | hh
    · cases hh; simp [Tab.at?]
    · have : k ≠ j := by have := h1 _ hh; simp only at this; omega
      simp [Tab.at?, this, ih h2 hh]

theorem Tab.mem_of_at? {α : Type} {t : Tab α} {k : Nat} {v : α} (h : Tab.at? t k = some v) : (k, v) ∈ t := by
  induction t with
  | nil => cases h
  | cons e t ih =>
    unfold Tab.at? at h
    split at h
    · rename_i hk; cases h; subst hk; simp
    · exact List.mem_cons_of_mem _ (ih h)

/-- What an allocation takes is free, and below the end of its range. -/
theorem Tab.freeFrom_free {α : Type} (t : Tab α) (i n k : Nat) (h : Tab.freeFrom t i n = some k) : Tab.at? t k = none ∧ i ≤ k ∧ k < i + n := by
  induction n generalizing i with
  | zero => cases h
  | succ n ih =>
    unfold Tab.freeFrom at h
    split at h
    · obtain ⟨a, b, c⟩ := ih (i + 1) h
      exact ⟨a, by omega, by omega⟩
    · rename_i hh
      cases h
      exact ⟨by simpa [Tab.has] using hh, Nat.le_refl _, by omega⟩

end Sys2Proof
end

