-- ==== Sys2Proof/Laws/Memory.lean ====
section
/-! SUPPORT. Sys2Proof/Laws/Memory.lean: what memories read after a write, and that every operation over a memory keeps its
canonical form. -/
namespace Sys2Proof.Machine

/-! ### Reading after writing -/

theorem cellPut_self (c : List Host.Cell) (a : Nat) (b : Byte) : Tab.atD (cellPut c a b) a 0 = b := by
  unfold cellPut
  split <;> simp_all [Tab.atD]

theorem cellPut_ne (c : List Host.Cell) {a x : Nat} (b : Byte) (h : x ≠ a) : Tab.atD (cellPut c a b) x 0 = Tab.atD c x 0 := by
  unfold cellPut
  split
  · simp [Tab.atD, Tab.at?_del_ne c h]
  · exact Tab.atD_put_ne c b 0 h

/-- Bytes outside the bytes written read as before. -/
theorem cellsWrite_outside (c : List Host.Cell) (a : Nat) (bs : List Byte) {x : Nat} (h : x < a ∨ a + bs.length ≤ x) :
    Tab.atD (cellsWrite c a bs) x 0 = Tab.atD c x 0 := by
  induction bs generalizing c a with
  | nil => rfl
  | cons b bs ih =>
    rw [cellsWrite, ih _ _ (by simp only [List.length_cons] at h; omega), cellPut_ne _ _ (by simp only [List.length_cons] at h; omega)]

/-- The bytes written read back. -/
theorem cellsWrite_inside (c : List Host.Cell) (a : Nat) (bs : List Byte) {i : Nat} (h : i < bs.length) :
    Tab.atD (cellsWrite c a bs) (a + i) 0 = bs[i] := by
  induction bs generalizing c a i with
  | nil => simp at h
  | cons b bs ih =>
    rw [cellsWrite]
    cases i with
    | zero => rw [cellsWrite_outside _ _ _ (by omega)]; simpa using cellPut_self c a b
    | succ i =>
      have := ih (cellPut c a b) (a + 1) (i := i) (by simpa using h)
      simpa [Nat.add_assoc, Nat.add_comm 1 i] using this

theorem Mem.byte_write_outside (m : Mem) (a : Nat) (bs : List Byte) (p : Bool) {x : Nat} (h : x < a ∨ a + bs.length ≤ x) :
    (m.write a bs p).byte x = m.byte x := cellsWrite_outside m.cells a bs h

theorem Mem.byte_write_inside (m : Mem) (a : Nat) (bs : List Byte) (p : Bool) {i : Nat} (h : i < bs.length) :
    (m.write a bs p).byte (a + i) = bs[i] := cellsWrite_inside m.cells a bs h

/-! ### The canonical form -/

theorem cellsWf_iff (c : List Host.Cell) : cellsWf c = true ↔ Tab.sorted c = true ∧ ∀ e ∈ c, e.2 ≠ 0 := by
  simp [cellsWf]

theorem cellPut_wf {c : List Host.Cell} (a : Nat) (b : Byte) (h : cellsWf c = true) : cellsWf (cellPut c a b) = true := by
  rw [cellsWf_iff] at h ⊢
  unfold cellPut
  split
  · exact ⟨Tab.sorted_del a h.1, fun e he => h.2 e (List.mem_filter.1 he).1⟩
  · rename_i hb
    refine ⟨Tab.sorted_put a b h.1, fun e he => ?_⟩
    rcases Tab.mem_put c a b he with rfl | he
    · exact hb
    · exact h.2 e he

theorem cellsWrite_wf {c : List Host.Cell} (a : Nat) (bs : List Byte) (h : cellsWf c = true) : cellsWf (cellsWrite c a bs) = true := by
  induction bs generalizing c a with
  | nil => exact h
  | cons b bs ih => exact ih _ (cellPut_wf a b h)

/-- Programming the NOR keeps the form. -/
theorem cellsOr_wf {c : List Host.Cell} (a : Nat) (bs : List Byte) (h : cellsWf c = true) : cellsWf (cellsOr c a bs) = true := by
  induction bs generalizing c a with
  | nil => exact h
  | cons b bs ih => exact ih _ (cellPut_wf a _ h)

/-- Erasing sectors of the NOR keeps the form. -/
theorem cells_filter_wf {c : List Host.Cell} (p : Host.Cell → Bool) (h : cellsWf c = true) : cellsWf (c.filter p) = true := by
  rw [cellsWf_iff] at h ⊢
  exact ⟨Tab.sorted_filter p h.1, fun e he => h.2 e (List.mem_filter.1 he).1⟩

theorem Mem.wf_iff (m : Mem) : m.wf = true ↔ cellsWf m.cells = true ∧ Tab.sorted m.poison = true := by simp [Mem.wf]

theorem Mem.write_wf {m : Mem} (a : Nat) (bs : List Byte) (p : Bool) (h : m.wf = true) : (m.write a bs p).wf = true := by
  rw [Mem.wf_iff] at h ⊢
  refine ⟨cellsWrite_wf a bs h.1, ?_⟩
  unfold Mem.write
  have : ∀ (ks : List Nat) (t : Tab Unit), Tab.sorted t = true →
      Tab.sorted (ks.foldl (fun t k => if p then Tab.put t k () else Tab.del t k) t) = true := by
    intro ks
    induction ks with
    | nil => exact fun _ ht => ht
    | cons k ks ih =>
      intro t ht
      refine ih _ ?_
      split
      · exact Tab.sorted_put k () ht
      · exact Tab.sorted_del k ht
  exact this _ _ h.2

theorem Mem.empty_wf : (⟨[], []⟩ : Mem).wf = true := rfl

theorem State.memWf_iff (s : State) :
    s.memWf = true ↔ s.host.wf = true ∧ Tab.sorted s.stnMem = true ∧ ∀ e ∈ s.stnMem, e.2.wf = true ∧ e.2 ≠ ⟨[], []⟩ := by
  simp [State.memWf]

theorem State.memOf_wf {s : State} (h : s.memWf = true) (n : Nat) : (s.memOf n).wf = true := by
  unfold State.memOf Tab.atD
  cases hm : Tab.at? s.stnMem n with
  | none => rfl
  | some m => exact (((State.memWf_iff s).1 h).2.2 _ (Tab.mem_of_at? hm)).1

/-- Storing a memory in its form keeps the table of memories in its form. -/
theorem memPut_wf {t : Tab Mem} (n : Nat) {m : Mem} (hm : m.wf = true) (h : Tab.sorted t = true) (ht : ∀ e ∈ t, e.2.wf = true ∧ e.2 ≠ ⟨[], []⟩) :
    Tab.sorted (memPut t n m) = true ∧ ∀ e ∈ memPut t n m, e.2.wf = true ∧ e.2 ≠ ⟨[], []⟩ := by
  unfold memPut
  split
  · exact ⟨Tab.sorted_del n h, fun e he => ht e (List.mem_filter.1 he).1⟩
  · rename_i hne
    refine ⟨Tab.sorted_put n m h, fun e he => ?_⟩
    rcases Tab.mem_put t n m he with rfl | he
    · exact ⟨hm, hne⟩
    · exact ht e he

theorem State.memWf_congr {s t : State} (hh : t.host = s.host) (hm : t.stnMem = s.stnMem) : t.memWf = s.memWf := by
  unfold State.memWf
  rw [hh, hm]

/-- Writing host memory keeps the form. -/
theorem State.hostWrite_memWf {s : State} (fn : Nat) (pasid : Option Nat) (a : Nat) (bs : List Byte) (p : Bool) (h : s.memWf = true) :
    (s.hostWrite fn pasid a bs p).memWf = true := by
  unfold State.hostWrite
  split
  · rw [State.memWf_iff] at h ⊢
    exact ⟨Mem.write_wf a bs p h.1, h.2⟩
  · exact h

theorem reset_memWf : State.reset.memWf = true := rfl

end Sys2Proof.Machine
end

