-- ==== Sys2Proof/Laws/State.lean ====
section
/-! SUPPORT. Sys2Proof/Laws/State.lean: for each operation that changes one field of the state, what every field of its result is. -/
namespace Sys2Proof.Machine

/-! ### State.emit -/

@[simp] theorem State.emit_pending (s : State) (o : Output) : (s.emit o).pending = s.pending := rfl
@[simp] theorem State.emit_build (s : State) (o : Output) : (s.emit o).build = s.build := rfl
@[simp] theorem State.emit_host (s : State) (o : Output) : (s.emit o).host = s.host := rfl
@[simp] theorem State.emit_stnMem (s : State) (o : Output) : (s.emit o).stnMem = s.stnMem := rfl
@[simp] theorem State.emit_out (s : State) (o : Output): (s.emit o).out = s.out ++ [o] := rfl
@[simp] theorem State.emit_fresh (s : State) (o : Output) : (s.emit o).fresh = s.fresh := rfl
@[simp] theorem State.emit_mqi (s : State) (o : Output) : (s.emit o).mqi = s.mqi := rfl
@[simp] theorem State.emit_fns (s : State) (o : Output) : (s.emit o).fns = s.fns := rfl
@[simp] theorem State.emit_queues (s : State) (o : Output) : (s.emit o).queues = s.queues := rfl
@[simp] theorem State.emit_cmds (s : State) (o : Output) : (s.emit o).cmds = s.cmds := rfl
@[simp] theorem State.emit_admitted (s : State) (o : Output) : (s.emit o).admitted = s.admitted := rfl
@[simp] theorem State.emit_arb (s : State) (o : Output) : (s.emit o).arb = s.arb := rfl
@[simp] theorem State.emit_ctxs (s : State) (o : Output) : (s.emit o).ctxs = s.ctxs := rfl
@[simp] theorem State.emit_parts (s : State) (o : Output) : (s.emit o).parts = s.parts := rfl
@[simp] theorem State.emit_fences (s : State) (o : Output) : (s.emit o).fences = s.fences := rfl
@[simp] theorem State.emit_edges (s : State) (o : Output) : (s.emit o).edges = s.edges := rfl
@[simp] theorem State.emit_grf (s : State) (o : Output) : (s.emit o).grf = s.grf := rfl
@[simp] theorem State.emit_tags (s : State) (o : Output) : (s.emit o).tags = s.tags := rfl
@[simp] theorem State.emit_waiting (s : State) (o : Output) : (s.emit o).waiting = s.waiting := rfl
@[simp] theorem State.emit_xlt (s : State) (o : Output) : (s.emit o).xlt = s.xlt := rfl
@[simp] theorem State.emit_postbags (s : State) (o : Output) : (s.emit o).postbags = s.postbags := rfl
@[simp] theorem State.emit_keys (s : State) (o : Output) : (s.emit o).keys = s.keys := rfl
@[simp] theorem State.emit_tables (s : State) (o : Output) : (s.emit o).tables = s.tables := rfl
@[simp] theorem State.emit_streams (s : State) (o : Output) : (s.emit o).streams = s.streams := rfl
@[simp] theorem State.emit_evc (s : State) (o : Output) : (s.emit o).evc = s.evc := rfl
@[simp] theorem State.emit_eps (s : State) (o : Output) : (s.emit o).eps = s.eps := rfl
@[simp] theorem State.emit_stns (s : State) (o : Output) : (s.emit o).stns = s.stns := rfl
@[simp] theorem State.emit_want (s : State) (o : Output) : (s.emit o).want = s.want := rfl
@[simp] theorem State.emit_rst (s : State) (o : Output) : (s.emit o).rst = s.rst := rfl
@[simp] theorem State.emit_rcv (s : State) (o : Output) : (s.emit o).rcv = s.rcv := rfl
@[simp] theorem State.emit_cores (s : State) (o : Output) : (s.emit o).cores = s.cores := rfl
@[simp] theorem State.emit_links (s : State) (o : Output) : (s.emit o).links = s.links := rfl
@[simp] theorem State.emit_cxSel (s : State) (o : Output) : (s.emit o).cxSel = s.cxSel := rfl
@[simp] theorem State.emit_pwr (s : State) (o : Output) : (s.emit o).pwr = s.pwr := rfl
@[simp] theorem State.emit_opts (s : State) (o : Output) : (s.emit o).opts = s.opts := rfl
@[simp] theorem State.emit_shadow (s : State) (o : Output) : (s.emit o).shadow = s.shadow := rfl
@[simp] theorem State.emit_nvm (s : State) (o : Output) : (s.emit o).nvm = s.nvm := rfl
@[simp] theorem State.emit_spi (s : State) (o : Output) : (s.emit o).spi = s.spi := rfl
@[simp] theorem State.emit_logAt (s : State) (o : Output) : (s.emit o).logAt = s.logAt := rfl
@[simp] theorem State.emit_logSeq (s : State) (o : Output) : (s.emit o).logSeq = s.logSeq := rfl
@[simp] theorem State.emit_fuses (s : State) (o : Output) : (s.emit o).fuses = s.fuses := rfl
@[simp] theorem State.emit_fw (s : State) (o : Output) : (s.emit o).fw = s.fw := rfl
@[simp] theorem State.emit_rails (s : State) (o : Output) : (s.emit o).rails = s.rails := rfl
@[simp] theorem State.emit_age (s : State) (o : Output) : (s.emit o).age = s.age := rfl
@[simp] theorem State.emit_life (s : State) (o : Output) : (s.emit o).life = s.life := rfl
@[simp] theorem State.emit_incr (s : State) (o : Output) : (s.emit o).incr = s.incr := rfl
@[simp] theorem State.emit_mgt (s : State) (o : Output) : (s.emit o).mgt = s.mgt := rfl
@[simp] theorem State.emit_tray (s : State) (o : Output) : (s.emit o).tray = s.tray := rfl
@[simp] theorem State.emit_ltpTakes (s : State) (o : Output) : (s.emit o).ltpTakes = s.ltpTakes := rfl

/-! ### State.emits -/

@[simp] theorem State.emits_pending (s : State) (os : List Output) : (s.emits os).pending = s.pending := rfl
@[simp] theorem State.emits_build (s : State) (os : List Output) : (s.emits os).build = s.build := rfl
@[simp] theorem State.emits_host (s : State) (os : List Output) : (s.emits os).host = s.host := rfl
@[simp] theorem State.emits_stnMem (s : State) (os : List Output) : (s.emits os).stnMem = s.stnMem := rfl
@[simp] theorem State.emits_out (s : State) (os : List Output): (s.emits os).out = s.out ++ os := rfl
@[simp] theorem State.emits_fresh (s : State) (os : List Output) : (s.emits os).fresh = s.fresh := rfl
@[simp] theorem State.emits_mqi (s : State) (os : List Output) : (s.emits os).mqi = s.mqi := rfl
@[simp] theorem State.emits_fns (s : State) (os : List Output) : (s.emits os).fns = s.fns := rfl
@[simp] theorem State.emits_queues (s : State) (os : List Output) : (s.emits os).queues = s.queues := rfl
@[simp] theorem State.emits_cmds (s : State) (os : List Output) : (s.emits os).cmds = s.cmds := rfl
@[simp] theorem State.emits_admitted (s : State) (os : List Output) : (s.emits os).admitted = s.admitted := rfl
@[simp] theorem State.emits_arb (s : State) (os : List Output) : (s.emits os).arb = s.arb := rfl
@[simp] theorem State.emits_ctxs (s : State) (os : List Output) : (s.emits os).ctxs = s.ctxs := rfl
@[simp] theorem State.emits_parts (s : State) (os : List Output) : (s.emits os).parts = s.parts := rfl
@[simp] theorem State.emits_fences (s : State) (os : List Output) : (s.emits os).fences = s.fences := rfl
@[simp] theorem State.emits_edges (s : State) (os : List Output) : (s.emits os).edges = s.edges := rfl
@[simp] theorem State.emits_grf (s : State) (os : List Output) : (s.emits os).grf = s.grf := rfl
@[simp] theorem State.emits_tags (s : State) (os : List Output) : (s.emits os).tags = s.tags := rfl
@[simp] theorem State.emits_waiting (s : State) (os : List Output) : (s.emits os).waiting = s.waiting := rfl
@[simp] theorem State.emits_xlt (s : State) (os : List Output) : (s.emits os).xlt = s.xlt := rfl
@[simp] theorem State.emits_postbags (s : State) (os : List Output) : (s.emits os).postbags = s.postbags := rfl
@[simp] theorem State.emits_keys (s : State) (os : List Output) : (s.emits os).keys = s.keys := rfl
@[simp] theorem State.emits_tables (s : State) (os : List Output) : (s.emits os).tables = s.tables := rfl
@[simp] theorem State.emits_streams (s : State) (os : List Output) : (s.emits os).streams = s.streams := rfl
@[simp] theorem State.emits_evc (s : State) (os : List Output) : (s.emits os).evc = s.evc := rfl
@[simp] theorem State.emits_eps (s : State) (os : List Output) : (s.emits os).eps = s.eps := rfl
@[simp] theorem State.emits_stns (s : State) (os : List Output) : (s.emits os).stns = s.stns := rfl
@[simp] theorem State.emits_want (s : State) (os : List Output) : (s.emits os).want = s.want := rfl
@[simp] theorem State.emits_rst (s : State) (os : List Output) : (s.emits os).rst = s.rst := rfl
@[simp] theorem State.emits_rcv (s : State) (os : List Output) : (s.emits os).rcv = s.rcv := rfl
@[simp] theorem State.emits_cores (s : State) (os : List Output) : (s.emits os).cores = s.cores := rfl
@[simp] theorem State.emits_links (s : State) (os : List Output) : (s.emits os).links = s.links := rfl
@[simp] theorem State.emits_cxSel (s : State) (os : List Output) : (s.emits os).cxSel = s.cxSel := rfl
@[simp] theorem State.emits_pwr (s : State) (os : List Output) : (s.emits os).pwr = s.pwr := rfl
@[simp] theorem State.emits_opts (s : State) (os : List Output) : (s.emits os).opts = s.opts := rfl
@[simp] theorem State.emits_shadow (s : State) (os : List Output) : (s.emits os).shadow = s.shadow := rfl
@[simp] theorem State.emits_nvm (s : State) (os : List Output) : (s.emits os).nvm = s.nvm := rfl
@[simp] theorem State.emits_spi (s : State) (os : List Output) : (s.emits os).spi = s.spi := rfl
@[simp] theorem State.emits_logAt (s : State) (os : List Output) : (s.emits os).logAt = s.logAt := rfl
@[simp] theorem State.emits_logSeq (s : State) (os : List Output) : (s.emits os).logSeq = s.logSeq := rfl
@[simp] theorem State.emits_fuses (s : State) (os : List Output) : (s.emits os).fuses = s.fuses := rfl
@[simp] theorem State.emits_fw (s : State) (os : List Output) : (s.emits os).fw = s.fw := rfl
@[simp] theorem State.emits_rails (s : State) (os : List Output) : (s.emits os).rails = s.rails := rfl
@[simp] theorem State.emits_age (s : State) (os : List Output) : (s.emits os).age = s.age := rfl
@[simp] theorem State.emits_life (s : State) (os : List Output) : (s.emits os).life = s.life := rfl
@[simp] theorem State.emits_incr (s : State) (os : List Output) : (s.emits os).incr = s.incr := rfl
@[simp] theorem State.emits_mgt (s : State) (os : List Output) : (s.emits os).mgt = s.mgt := rfl
@[simp] theorem State.emits_tray (s : State) (os : List Output) : (s.emits os).tray = s.tray := rfl
@[simp] theorem State.emits_ltpTakes (s : State) (os : List Output) : (s.emits os).ltpTakes = s.ltpTakes := rfl

/-! ### State.draw -/

@[simp] theorem State.draw_pending (s : State) : s.draw.pending = s.pending := rfl
@[simp] theorem State.draw_build (s : State) : s.draw.build = s.build := rfl
@[simp] theorem State.draw_host (s : State) : s.draw.host = s.host := rfl
@[simp] theorem State.draw_stnMem (s : State) : s.draw.stnMem = s.stnMem := rfl
@[simp] theorem State.draw_out (s : State) : s.draw.out = s.out := rfl
@[simp] theorem State.draw_fresh (s : State) : s.draw.fresh = s.fresh + 1 := rfl
@[simp] theorem State.draw_mqi (s : State) : s.draw.mqi = s.mqi := rfl
@[simp] theorem State.draw_fns (s : State) : s.draw.fns = s.fns := rfl
@[simp] theorem State.draw_queues (s : State) : s.draw.queues = s.queues := rfl
@[simp] theorem State.draw_cmds (s : State) : s.draw.cmds = s.cmds := rfl
@[simp] theorem State.draw_admitted (s : State) : s.draw.admitted = s.admitted := rfl
@[simp] theorem State.draw_arb (s : State) : s.draw.arb = s.arb := rfl
@[simp] theorem State.draw_ctxs (s : State) : s.draw.ctxs = s.ctxs := rfl
@[simp] theorem State.draw_parts (s : State) : s.draw.parts = s.parts := rfl
@[simp] theorem State.draw_fences (s : State) : s.draw.fences = s.fences := rfl
@[simp] theorem State.draw_edges (s : State) : s.draw.edges = s.edges := rfl
@[simp] theorem State.draw_grf (s : State) : s.draw.grf = s.grf := rfl
@[simp] theorem State.draw_tags (s : State) : s.draw.tags = s.tags := rfl
@[simp] theorem State.draw_waiting (s : State) : s.draw.waiting = s.waiting := rfl
@[simp] theorem State.draw_xlt (s : State) : s.draw.xlt = s.xlt := rfl
@[simp] theorem State.draw_postbags (s : State) : s.draw.postbags = s.postbags := rfl
@[simp] theorem State.draw_keys (s : State) : s.draw.keys = s.keys := rfl
@[simp] theorem State.draw_tables (s : State) : s.draw.tables = s.tables := rfl
@[simp] theorem State.draw_streams (s : State) : s.draw.streams = s.streams := rfl
@[simp] theorem State.draw_evc (s : State) : s.draw.evc = s.evc := rfl
@[simp] theorem State.draw_eps (s : State) : s.draw.eps = s.eps := rfl
@[simp] theorem State.draw_stns (s : State) : s.draw.stns = s.stns := rfl
@[simp] theorem State.draw_want (s : State) : s.draw.want = s.want := rfl
@[simp] theorem State.draw_rst (s : State) : s.draw.rst = s.rst := rfl
@[simp] theorem State.draw_rcv (s : State) : s.draw.rcv = s.rcv := rfl
@[simp] theorem State.draw_cores (s : State) : s.draw.cores = s.cores := rfl
@[simp] theorem State.draw_links (s : State) : s.draw.links = s.links := rfl
@[simp] theorem State.draw_cxSel (s : State) : s.draw.cxSel = s.cxSel := rfl
@[simp] theorem State.draw_pwr (s : State) : s.draw.pwr = s.pwr := rfl
@[simp] theorem State.draw_opts (s : State) : s.draw.opts = s.opts := rfl
@[simp] theorem State.draw_shadow (s : State) : s.draw.shadow = s.shadow := rfl
@[simp] theorem State.draw_nvm (s : State) : s.draw.nvm = s.nvm := rfl
@[simp] theorem State.draw_spi (s : State) : s.draw.spi = s.spi := rfl
@[simp] theorem State.draw_logAt (s : State) : s.draw.logAt = s.logAt := rfl
@[simp] theorem State.draw_logSeq (s : State) : s.draw.logSeq = s.logSeq := rfl
@[simp] theorem State.draw_fuses (s : State) : s.draw.fuses = s.fuses := rfl
@[simp] theorem State.draw_fw (s : State) : s.draw.fw = s.fw := rfl
@[simp] theorem State.draw_rails (s : State) : s.draw.rails = s.rails := rfl
@[simp] theorem State.draw_age (s : State) : s.draw.age = s.age := rfl
@[simp] theorem State.draw_life (s : State) : s.draw.life = s.life := rfl
@[simp] theorem State.draw_incr (s : State) : s.draw.incr = s.incr := rfl
@[simp] theorem State.draw_mgt (s : State) : s.draw.mgt = s.mgt := rfl
@[simp] theorem State.draw_tray (s : State) : s.draw.tray = s.tray := rfl
@[simp] theorem State.draw_ltpTakes (s : State) : s.draw.ltpTakes = s.ltpTakes := rfl

/-! ### State.updCmd -/

@[simp] theorem State.updCmd_pending (s : State) (c : Client) (f : Cmd → Cmd) : (s.updCmd c f).pending = s.pending := rfl
@[simp] theorem State.updCmd_build (s : State) (c : Client) (f : Cmd → Cmd) : (s.updCmd c f).build = s.build := rfl
@[simp] theorem State.updCmd_host (s : State) (c : Client) (f : Cmd → Cmd) : (s.updCmd c f).host = s.host := rfl
@[simp] theorem State.updCmd_stnMem (s : State) (c : Client) (f : Cmd → Cmd) : (s.updCmd c f).stnMem = s.stnMem := rfl
@[simp] theorem State.updCmd_out (s : State) (c : Client) (f : Cmd → Cmd) : (s.updCmd c f).out = s.out := rfl
@[simp] theorem State.updCmd_fresh (s : State) (c : Client) (f : Cmd → Cmd) : (s.updCmd c f).fresh = s.fresh := rfl
@[simp] theorem State.updCmd_mqi (s : State) (c : Client) (f : Cmd → Cmd) : (s.updCmd c f).mqi = s.mqi := rfl
@[simp] theorem State.updCmd_fns (s : State) (c : Client) (f : Cmd → Cmd) : (s.updCmd c f).fns = s.fns := rfl
@[simp] theorem State.updCmd_queues (s : State) (c : Client) (f : Cmd → Cmd) : (s.updCmd c f).queues = s.queues := rfl
@[simp] theorem State.updCmd_cmds (s : State) (c : Client) (f : Cmd → Cmd): (s.updCmd c f).cmds = Tab.upd s.cmds c f := rfl
@[simp] theorem State.updCmd_admitted (s : State) (c : Client) (f : Cmd → Cmd) : (s.updCmd c f).admitted = s.admitted := rfl
@[simp] theorem State.updCmd_arb (s : State) (c : Client) (f : Cmd → Cmd) : (s.updCmd c f).arb = s.arb := rfl
@[simp] theorem State.updCmd_ctxs (s : State) (c : Client) (f : Cmd → Cmd) : (s.updCmd c f).ctxs = s.ctxs := rfl
@[simp] theorem State.updCmd_parts (s : State) (c : Client) (f : Cmd → Cmd) : (s.updCmd c f).parts = s.parts := rfl
@[simp] theorem State.updCmd_fences (s : State) (c : Client) (f : Cmd → Cmd) : (s.updCmd c f).fences = s.fences := rfl
@[simp] theorem State.updCmd_edges (s : State) (c : Client) (f : Cmd → Cmd) : (s.updCmd c f).edges = s.edges := rfl
@[simp] theorem State.updCmd_grf (s : State) (c : Client) (f : Cmd → Cmd) : (s.updCmd c f).grf = s.grf := rfl
@[simp] theorem State.updCmd_tags (s : State) (c : Client) (f : Cmd → Cmd) : (s.updCmd c f).tags = s.tags := rfl
@[simp] theorem State.updCmd_waiting (s : State) (c : Client) (f : Cmd → Cmd) : (s.updCmd c f).waiting = s.waiting := rfl
@[simp] theorem State.updCmd_xlt (s : State) (c : Client) (f : Cmd → Cmd) : (s.updCmd c f).xlt = s.xlt := rfl
@[simp] theorem State.updCmd_postbags (s : State) (c : Client) (f : Cmd → Cmd) : (s.updCmd c f).postbags = s.postbags := rfl
@[simp] theorem State.updCmd_keys (s : State) (c : Client) (f : Cmd → Cmd) : (s.updCmd c f).keys = s.keys := rfl
@[simp] theorem State.updCmd_tables (s : State) (c : Client) (f : Cmd → Cmd) : (s.updCmd c f).tables = s.tables := rfl
@[simp] theorem State.updCmd_streams (s : State) (c : Client) (f : Cmd → Cmd) : (s.updCmd c f).streams = s.streams := rfl
@[simp] theorem State.updCmd_evc (s : State) (c : Client) (f : Cmd → Cmd) : (s.updCmd c f).evc = s.evc := rfl
@[simp] theorem State.updCmd_eps (s : State) (c : Client) (f : Cmd → Cmd) : (s.updCmd c f).eps = s.eps := rfl
@[simp] theorem State.updCmd_stns (s : State) (c : Client) (f : Cmd → Cmd) : (s.updCmd c f).stns = s.stns := rfl
@[simp] theorem State.updCmd_want (s : State) (c : Client) (f : Cmd → Cmd) : (s.updCmd c f).want = s.want := rfl
@[simp] theorem State.updCmd_rst (s : State) (c : Client) (f : Cmd → Cmd) : (s.updCmd c f).rst = s.rst := rfl
@[simp] theorem State.updCmd_rcv (s : State) (c : Client) (f : Cmd → Cmd) : (s.updCmd c f).rcv = s.rcv := rfl
@[simp] theorem State.updCmd_cores (s : State) (c : Client) (f : Cmd → Cmd) : (s.updCmd c f).cores = s.cores := rfl
@[simp] theorem State.updCmd_links (s : State) (c : Client) (f : Cmd → Cmd) : (s.updCmd c f).links = s.links := rfl
@[simp] theorem State.updCmd_cxSel (s : State) (c : Client) (f : Cmd → Cmd) : (s.updCmd c f).cxSel = s.cxSel := rfl
@[simp] theorem State.updCmd_pwr (s : State) (c : Client) (f : Cmd → Cmd) : (s.updCmd c f).pwr = s.pwr := rfl
@[simp] theorem State.updCmd_opts (s : State) (c : Client) (f : Cmd → Cmd) : (s.updCmd c f).opts = s.opts := rfl
@[simp] theorem State.updCmd_shadow (s : State) (c : Client) (f : Cmd → Cmd) : (s.updCmd c f).shadow = s.shadow := rfl
@[simp] theorem State.updCmd_nvm (s : State) (c : Client) (f : Cmd → Cmd) : (s.updCmd c f).nvm = s.nvm := rfl
@[simp] theorem State.updCmd_spi (s : State) (c : Client) (f : Cmd → Cmd) : (s.updCmd c f).spi = s.spi := rfl
@[simp] theorem State.updCmd_logAt (s : State) (c : Client) (f : Cmd → Cmd) : (s.updCmd c f).logAt = s.logAt := rfl
@[simp] theorem State.updCmd_logSeq (s : State) (c : Client) (f : Cmd → Cmd) : (s.updCmd c f).logSeq = s.logSeq := rfl
@[simp] theorem State.updCmd_fuses (s : State) (c : Client) (f : Cmd → Cmd) : (s.updCmd c f).fuses = s.fuses := rfl
@[simp] theorem State.updCmd_fw (s : State) (c : Client) (f : Cmd → Cmd) : (s.updCmd c f).fw = s.fw := rfl
@[simp] theorem State.updCmd_rails (s : State) (c : Client) (f : Cmd → Cmd) : (s.updCmd c f).rails = s.rails := rfl
@[simp] theorem State.updCmd_age (s : State) (c : Client) (f : Cmd → Cmd) : (s.updCmd c f).age = s.age := rfl
@[simp] theorem State.updCmd_life (s : State) (c : Client) (f : Cmd → Cmd) : (s.updCmd c f).life = s.life := rfl
@[simp] theorem State.updCmd_incr (s : State) (c : Client) (f : Cmd → Cmd) : (s.updCmd c f).incr = s.incr := rfl
@[simp] theorem State.updCmd_mgt (s : State) (c : Client) (f : Cmd → Cmd) : (s.updCmd c f).mgt = s.mgt := rfl
@[simp] theorem State.updCmd_tray (s : State) (c : Client) (f : Cmd → Cmd) : (s.updCmd c f).tray = s.tray := rfl
@[simp] theorem State.updCmd_ltpTakes (s : State) (c : Client) (f : Cmd → Cmd) : (s.updCmd c f).ltpTakes = s.ltpTakes := rfl

/-! ### State.updQ -/

@[simp] theorem State.updQ_pending (s : State) (q : Nat) (f : Queue → Queue) : (s.updQ q f).pending = s.pending := rfl
@[simp] theorem State.updQ_build (s : State) (q : Nat) (f : Queue → Queue) : (s.updQ q f).build = s.build := rfl
@[simp] theorem State.updQ_host (s : State) (q : Nat) (f : Queue → Queue) : (s.updQ q f).host = s.host := rfl
@[simp] theorem State.updQ_stnMem (s : State) (q : Nat) (f : Queue → Queue) : (s.updQ q f).stnMem = s.stnMem := rfl
@[simp] theorem State.updQ_out (s : State) (q : Nat) (f : Queue → Queue) : (s.updQ q f).out = s.out := rfl
@[simp] theorem State.updQ_fresh (s : State) (q : Nat) (f : Queue → Queue) : (s.updQ q f).fresh = s.fresh := rfl
@[simp] theorem State.updQ_mqi (s : State) (q : Nat) (f : Queue → Queue) : (s.updQ q f).mqi = s.mqi := rfl
@[simp] theorem State.updQ_fns (s : State) (q : Nat) (f : Queue → Queue) : (s.updQ q f).fns = s.fns := rfl
@[simp] theorem State.updQ_queues (s : State) (q : Nat) (f : Queue → Queue): (s.updQ q f).queues = Tab.upd s.queues q f := rfl
@[simp] theorem State.updQ_cmds (s : State) (q : Nat) (f : Queue → Queue) : (s.updQ q f).cmds = s.cmds := rfl
@[simp] theorem State.updQ_admitted (s : State) (q : Nat) (f : Queue → Queue) : (s.updQ q f).admitted = s.admitted := rfl
@[simp] theorem State.updQ_arb (s : State) (q : Nat) (f : Queue → Queue) : (s.updQ q f).arb = s.arb := rfl
@[simp] theorem State.updQ_ctxs (s : State) (q : Nat) (f : Queue → Queue) : (s.updQ q f).ctxs = s.ctxs := rfl
@[simp] theorem State.updQ_parts (s : State) (q : Nat) (f : Queue → Queue) : (s.updQ q f).parts = s.parts := rfl
@[simp] theorem State.updQ_fences (s : State) (q : Nat) (f : Queue → Queue) : (s.updQ q f).fences = s.fences := rfl
@[simp] theorem State.updQ_edges (s : State) (q : Nat) (f : Queue → Queue) : (s.updQ q f).edges = s.edges := rfl
@[simp] theorem State.updQ_grf (s : State) (q : Nat) (f : Queue → Queue) : (s.updQ q f).grf = s.grf := rfl
@[simp] theorem State.updQ_tags (s : State) (q : Nat) (f : Queue → Queue) : (s.updQ q f).tags = s.tags := rfl
@[simp] theorem State.updQ_waiting (s : State) (q : Nat) (f : Queue → Queue) : (s.updQ q f).waiting = s.waiting := rfl
@[simp] theorem State.updQ_xlt (s : State) (q : Nat) (f : Queue → Queue) : (s.updQ q f).xlt = s.xlt := rfl
@[simp] theorem State.updQ_postbags (s : State) (q : Nat) (f : Queue → Queue) : (s.updQ q f).postbags = s.postbags := rfl
@[simp] theorem State.updQ_keys (s : State) (q : Nat) (f : Queue → Queue) : (s.updQ q f).keys = s.keys := rfl
@[simp] theorem State.updQ_tables (s : State) (q : Nat) (f : Queue → Queue) : (s.updQ q f).tables = s.tables := rfl
@[simp] theorem State.updQ_streams (s : State) (q : Nat) (f : Queue → Queue) : (s.updQ q f).streams = s.streams := rfl
@[simp] theorem State.updQ_evc (s : State) (q : Nat) (f : Queue → Queue) : (s.updQ q f).evc = s.evc := rfl
@[simp] theorem State.updQ_eps (s : State) (q : Nat) (f : Queue → Queue) : (s.updQ q f).eps = s.eps := rfl
@[simp] theorem State.updQ_stns (s : State) (q : Nat) (f : Queue → Queue) : (s.updQ q f).stns = s.stns := rfl
@[simp] theorem State.updQ_want (s : State) (q : Nat) (f : Queue → Queue) : (s.updQ q f).want = s.want := rfl
@[simp] theorem State.updQ_rst (s : State) (q : Nat) (f : Queue → Queue) : (s.updQ q f).rst = s.rst := rfl
@[simp] theorem State.updQ_rcv (s : State) (q : Nat) (f : Queue → Queue) : (s.updQ q f).rcv = s.rcv := rfl
@[simp] theorem State.updQ_cores (s : State) (q : Nat) (f : Queue → Queue) : (s.updQ q f).cores = s.cores := rfl
@[simp] theorem State.updQ_links (s : State) (q : Nat) (f : Queue → Queue) : (s.updQ q f).links = s.links := rfl
@[simp] theorem State.updQ_cxSel (s : State) (q : Nat) (f : Queue → Queue) : (s.updQ q f).cxSel = s.cxSel := rfl
@[simp] theorem State.updQ_pwr (s : State) (q : Nat) (f : Queue → Queue) : (s.updQ q f).pwr = s.pwr := rfl
@[simp] theorem State.updQ_opts (s : State) (q : Nat) (f : Queue → Queue) : (s.updQ q f).opts = s.opts := rfl
@[simp] theorem State.updQ_shadow (s : State) (q : Nat) (f : Queue → Queue) : (s.updQ q f).shadow = s.shadow := rfl
@[simp] theorem State.updQ_nvm (s : State) (q : Nat) (f : Queue → Queue) : (s.updQ q f).nvm = s.nvm := rfl
@[simp] theorem State.updQ_spi (s : State) (q : Nat) (f : Queue → Queue) : (s.updQ q f).spi = s.spi := rfl
@[simp] theorem State.updQ_logAt (s : State) (q : Nat) (f : Queue → Queue) : (s.updQ q f).logAt = s.logAt := rfl
@[simp] theorem State.updQ_logSeq (s : State) (q : Nat) (f : Queue → Queue) : (s.updQ q f).logSeq = s.logSeq := rfl
@[simp] theorem State.updQ_fuses (s : State) (q : Nat) (f : Queue → Queue) : (s.updQ q f).fuses = s.fuses := rfl
@[simp] theorem State.updQ_fw (s : State) (q : Nat) (f : Queue → Queue) : (s.updQ q f).fw = s.fw := rfl
@[simp] theorem State.updQ_rails (s : State) (q : Nat) (f : Queue → Queue) : (s.updQ q f).rails = s.rails := rfl
@[simp] theorem State.updQ_age (s : State) (q : Nat) (f : Queue → Queue) : (s.updQ q f).age = s.age := rfl
@[simp] theorem State.updQ_life (s : State) (q : Nat) (f : Queue → Queue) : (s.updQ q f).life = s.life := rfl
@[simp] theorem State.updQ_incr (s : State) (q : Nat) (f : Queue → Queue) : (s.updQ q f).incr = s.incr := rfl
@[simp] theorem State.updQ_mgt (s : State) (q : Nat) (f : Queue → Queue) : (s.updQ q f).mgt = s.mgt := rfl
@[simp] theorem State.updQ_tray (s : State) (q : Nat) (f : Queue → Queue) : (s.updQ q f).tray = s.tray := rfl
@[simp] theorem State.updQ_ltpTakes (s : State) (q : Nat) (f : Queue → Queue) : (s.updQ q f).ltpTakes = s.ltpTakes := rfl

/-! ### State.updEp -/

@[simp] theorem State.updEp_pending (s : State) (n : Nat) (f : Ep → Ep) : (s.updEp n f).pending = s.pending := rfl
@[simp] theorem State.updEp_build (s : State) (n : Nat) (f : Ep → Ep) : (s.updEp n f).build = s.build := rfl
@[simp] theorem State.updEp_host (s : State) (n : Nat) (f : Ep → Ep) : (s.updEp n f).host = s.host := rfl
@[simp] theorem State.updEp_stnMem (s : State) (n : Nat) (f : Ep → Ep) : (s.updEp n f).stnMem = s.stnMem := rfl
@[simp] theorem State.updEp_out (s : State) (n : Nat) (f : Ep → Ep) : (s.updEp n f).out = s.out := rfl
@[simp] theorem State.updEp_fresh (s : State) (n : Nat) (f : Ep → Ep) : (s.updEp n f).fresh = s.fresh := rfl
@[simp] theorem State.updEp_mqi (s : State) (n : Nat) (f : Ep → Ep) : (s.updEp n f).mqi = s.mqi := rfl
@[simp] theorem State.updEp_fns (s : State) (n : Nat) (f : Ep → Ep) : (s.updEp n f).fns = s.fns := rfl
@[simp] theorem State.updEp_queues (s : State) (n : Nat) (f : Ep → Ep) : (s.updEp n f).queues = s.queues := rfl
@[simp] theorem State.updEp_cmds (s : State) (n : Nat) (f : Ep → Ep) : (s.updEp n f).cmds = s.cmds := rfl
@[simp] theorem State.updEp_admitted (s : State) (n : Nat) (f : Ep → Ep) : (s.updEp n f).admitted = s.admitted := rfl
@[simp] theorem State.updEp_arb (s : State) (n : Nat) (f : Ep → Ep) : (s.updEp n f).arb = s.arb := rfl
@[simp] theorem State.updEp_ctxs (s : State) (n : Nat) (f : Ep → Ep) : (s.updEp n f).ctxs = s.ctxs := rfl
@[simp] theorem State.updEp_parts (s : State) (n : Nat) (f : Ep → Ep) : (s.updEp n f).parts = s.parts := rfl
@[simp] theorem State.updEp_fences (s : State) (n : Nat) (f : Ep → Ep) : (s.updEp n f).fences = s.fences := rfl
@[simp] theorem State.updEp_edges (s : State) (n : Nat) (f : Ep → Ep) : (s.updEp n f).edges = s.edges := rfl
@[simp] theorem State.updEp_grf (s : State) (n : Nat) (f : Ep → Ep) : (s.updEp n f).grf = s.grf := rfl
@[simp] theorem State.updEp_tags (s : State) (n : Nat) (f : Ep → Ep) : (s.updEp n f).tags = s.tags := rfl
@[simp] theorem State.updEp_waiting (s : State) (n : Nat) (f : Ep → Ep) : (s.updEp n f).waiting = s.waiting := rfl
@[simp] theorem State.updEp_xlt (s : State) (n : Nat) (f : Ep → Ep) : (s.updEp n f).xlt = s.xlt := rfl
@[simp] theorem State.updEp_postbags (s : State) (n : Nat) (f : Ep → Ep) : (s.updEp n f).postbags = s.postbags := rfl
@[simp] theorem State.updEp_keys (s : State) (n : Nat) (f : Ep → Ep) : (s.updEp n f).keys = s.keys := rfl
@[simp] theorem State.updEp_tables (s : State) (n : Nat) (f : Ep → Ep) : (s.updEp n f).tables = s.tables := rfl
@[simp] theorem State.updEp_streams (s : State) (n : Nat) (f : Ep → Ep) : (s.updEp n f).streams = s.streams := rfl
@[simp] theorem State.updEp_evc (s : State) (n : Nat) (f : Ep → Ep) : (s.updEp n f).evc = s.evc := rfl
@[simp] theorem State.updEp_eps (s : State) (n : Nat) (f : Ep → Ep): (s.updEp n f).eps = Tab.upd s.eps n f := rfl
@[simp] theorem State.updEp_stns (s : State) (n : Nat) (f : Ep → Ep) : (s.updEp n f).stns = s.stns := rfl
@[simp] theorem State.updEp_want (s : State) (n : Nat) (f : Ep → Ep) : (s.updEp n f).want = s.want := rfl
@[simp] theorem State.updEp_rst (s : State) (n : Nat) (f : Ep → Ep) : (s.updEp n f).rst = s.rst := rfl
@[simp] theorem State.updEp_rcv (s : State) (n : Nat) (f : Ep → Ep) : (s.updEp n f).rcv = s.rcv := rfl
@[simp] theorem State.updEp_cores (s : State) (n : Nat) (f : Ep → Ep) : (s.updEp n f).cores = s.cores := rfl
@[simp] theorem State.updEp_links (s : State) (n : Nat) (f : Ep → Ep) : (s.updEp n f).links = s.links := rfl
@[simp] theorem State.updEp_cxSel (s : State) (n : Nat) (f : Ep → Ep) : (s.updEp n f).cxSel = s.cxSel := rfl
@[simp] theorem State.updEp_pwr (s : State) (n : Nat) (f : Ep → Ep) : (s.updEp n f).pwr = s.pwr := rfl
@[simp] theorem State.updEp_opts (s : State) (n : Nat) (f : Ep → Ep) : (s.updEp n f).opts = s.opts := rfl
@[simp] theorem State.updEp_shadow (s : State) (n : Nat) (f : Ep → Ep) : (s.updEp n f).shadow = s.shadow := rfl
@[simp] theorem State.updEp_nvm (s : State) (n : Nat) (f : Ep → Ep) : (s.updEp n f).nvm = s.nvm := rfl
@[simp] theorem State.updEp_spi (s : State) (n : Nat) (f : Ep → Ep) : (s.updEp n f).spi = s.spi := rfl
@[simp] theorem State.updEp_logAt (s : State) (n : Nat) (f : Ep → Ep) : (s.updEp n f).logAt = s.logAt := rfl
@[simp] theorem State.updEp_logSeq (s : State) (n : Nat) (f : Ep → Ep) : (s.updEp n f).logSeq = s.logSeq := rfl
@[simp] theorem State.updEp_fuses (s : State) (n : Nat) (f : Ep → Ep) : (s.updEp n f).fuses = s.fuses := rfl
@[simp] theorem State.updEp_fw (s : State) (n : Nat) (f : Ep → Ep) : (s.updEp n f).fw = s.fw := rfl
@[simp] theorem State.updEp_rails (s : State) (n : Nat) (f : Ep → Ep) : (s.updEp n f).rails = s.rails := rfl
@[simp] theorem State.updEp_age (s : State) (n : Nat) (f : Ep → Ep) : (s.updEp n f).age = s.age := rfl
@[simp] theorem State.updEp_life (s : State) (n : Nat) (f : Ep → Ep) : (s.updEp n f).life = s.life := rfl
@[simp] theorem State.updEp_incr (s : State) (n : Nat) (f : Ep → Ep) : (s.updEp n f).incr = s.incr := rfl
@[simp] theorem State.updEp_mgt (s : State) (n : Nat) (f : Ep → Ep) : (s.updEp n f).mgt = s.mgt := rfl
@[simp] theorem State.updEp_tray (s : State) (n : Nat) (f : Ep → Ep) : (s.updEp n f).tray = s.tray := rfl
@[simp] theorem State.updEp_ltpTakes (s : State) (n : Nat) (f : Ep → Ep) : (s.updEp n f).ltpTakes = s.ltpTakes := rfl

/-! ### State.updStn -/

@[simp] theorem State.updStn_pending (s : State) (n : Nat) (f : Stn → Stn) : (s.updStn n f).pending = s.pending := rfl
@[simp] theorem State.updStn_build (s : State) (n : Nat) (f : Stn → Stn) : (s.updStn n f).build = s.build := rfl
@[simp] theorem State.updStn_host (s : State) (n : Nat) (f : Stn → Stn) : (s.updStn n f).host = s.host := rfl
@[simp] theorem State.updStn_stnMem (s : State) (n : Nat) (f : Stn → Stn) : (s.updStn n f).stnMem = s.stnMem := rfl
@[simp] theorem State.updStn_out (s : State) (n : Nat) (f : Stn → Stn) : (s.updStn n f).out = s.out := rfl
@[simp] theorem State.updStn_fresh (s : State) (n : Nat) (f : Stn → Stn) : (s.updStn n f).fresh = s.fresh := rfl
@[simp] theorem State.updStn_mqi (s : State) (n : Nat) (f : Stn → Stn) : (s.updStn n f).mqi = s.mqi := rfl
@[simp] theorem State.updStn_fns (s : State) (n : Nat) (f : Stn → Stn) : (s.updStn n f).fns = s.fns := rfl
@[simp] theorem State.updStn_queues (s : State) (n : Nat) (f : Stn → Stn) : (s.updStn n f).queues = s.queues := rfl
@[simp] theorem State.updStn_cmds (s : State) (n : Nat) (f : Stn → Stn) : (s.updStn n f).cmds = s.cmds := rfl
@[simp] theorem State.updStn_admitted (s : State) (n : Nat) (f : Stn → Stn) : (s.updStn n f).admitted = s.admitted := rfl
@[simp] theorem State.updStn_arb (s : State) (n : Nat) (f : Stn → Stn) : (s.updStn n f).arb = s.arb := rfl
@[simp] theorem State.updStn_ctxs (s : State) (n : Nat) (f : Stn → Stn) : (s.updStn n f).ctxs = s.ctxs := rfl
@[simp] theorem State.updStn_parts (s : State) (n : Nat) (f : Stn → Stn) : (s.updStn n f).parts = s.parts := rfl
@[simp] theorem State.updStn_fences (s : State) (n : Nat) (f : Stn → Stn) : (s.updStn n f).fences = s.fences := rfl
@[simp] theorem State.updStn_edges (s : State) (n : Nat) (f : Stn → Stn) : (s.updStn n f).edges = s.edges := rfl
@[simp] theorem State.updStn_grf (s : State) (n : Nat) (f : Stn → Stn) : (s.updStn n f).grf = s.grf := rfl
@[simp] theorem State.updStn_tags (s : State) (n : Nat) (f : Stn → Stn) : (s.updStn n f).tags = s.tags := rfl
@[simp] theorem State.updStn_waiting (s : State) (n : Nat) (f : Stn → Stn) : (s.updStn n f).waiting = s.waiting := rfl
@[simp] theorem State.updStn_xlt (s : State) (n : Nat) (f : Stn → Stn) : (s.updStn n f).xlt = s.xlt := rfl
@[simp] theorem State.updStn_postbags (s : State) (n : Nat) (f : Stn → Stn) : (s.updStn n f).postbags = s.postbags := rfl
@[simp] theorem State.updStn_keys (s : State) (n : Nat) (f : Stn → Stn) : (s.updStn n f).keys = s.keys := rfl
@[simp] theorem State.updStn_tables (s : State) (n : Nat) (f : Stn → Stn) : (s.updStn n f).tables = s.tables := rfl
@[simp] theorem State.updStn_streams (s : State) (n : Nat) (f : Stn → Stn) : (s.updStn n f).streams = s.streams := rfl
@[simp] theorem State.updStn_evc (s : State) (n : Nat) (f : Stn → Stn) : (s.updStn n f).evc = s.evc := rfl
@[simp] theorem State.updStn_eps (s : State) (n : Nat) (f : Stn → Stn) : (s.updStn n f).eps = s.eps := rfl
@[simp] theorem State.updStn_stns (s : State) (n : Nat) (f : Stn → Stn): (s.updStn n f).stns = Tab.put s.stns n (f (Tab.atD s.stns n {})) := rfl
@[simp] theorem State.updStn_want (s : State) (n : Nat) (f : Stn → Stn) : (s.updStn n f).want = s.want := rfl
@[simp] theorem State.updStn_rst (s : State) (n : Nat) (f : Stn → Stn) : (s.updStn n f).rst = s.rst := rfl
@[simp] theorem State.updStn_rcv (s : State) (n : Nat) (f : Stn → Stn) : (s.updStn n f).rcv = s.rcv := rfl
@[simp] theorem State.updStn_cores (s : State) (n : Nat) (f : Stn → Stn) : (s.updStn n f).cores = s.cores := rfl
@[simp] theorem State.updStn_links (s : State) (n : Nat) (f : Stn → Stn) : (s.updStn n f).links = s.links := rfl
@[simp] theorem State.updStn_cxSel (s : State) (n : Nat) (f : Stn → Stn) : (s.updStn n f).cxSel = s.cxSel := rfl
@[simp] theorem State.updStn_pwr (s : State) (n : Nat) (f : Stn → Stn) : (s.updStn n f).pwr = s.pwr := rfl
@[simp] theorem State.updStn_opts (s : State) (n : Nat) (f : Stn → Stn) : (s.updStn n f).opts = s.opts := rfl
@[simp] theorem State.updStn_shadow (s : State) (n : Nat) (f : Stn → Stn) : (s.updStn n f).shadow = s.shadow := rfl
@[simp] theorem State.updStn_nvm (s : State) (n : Nat) (f : Stn → Stn) : (s.updStn n f).nvm = s.nvm := rfl
@[simp] theorem State.updStn_spi (s : State) (n : Nat) (f : Stn → Stn) : (s.updStn n f).spi = s.spi := rfl
@[simp] theorem State.updStn_logAt (s : State) (n : Nat) (f : Stn → Stn) : (s.updStn n f).logAt = s.logAt := rfl
@[simp] theorem State.updStn_logSeq (s : State) (n : Nat) (f : Stn → Stn) : (s.updStn n f).logSeq = s.logSeq := rfl
@[simp] theorem State.updStn_fuses (s : State) (n : Nat) (f : Stn → Stn) : (s.updStn n f).fuses = s.fuses := rfl
@[simp] theorem State.updStn_fw (s : State) (n : Nat) (f : Stn → Stn) : (s.updStn n f).fw = s.fw := rfl
@[simp] theorem State.updStn_rails (s : State) (n : Nat) (f : Stn → Stn) : (s.updStn n f).rails = s.rails := rfl
@[simp] theorem State.updStn_age (s : State) (n : Nat) (f : Stn → Stn) : (s.updStn n f).age = s.age := rfl
@[simp] theorem State.updStn_life (s : State) (n : Nat) (f : Stn → Stn) : (s.updStn n f).life = s.life := rfl
@[simp] theorem State.updStn_incr (s : State) (n : Nat) (f : Stn → Stn) : (s.updStn n f).incr = s.incr := rfl
@[simp] theorem State.updStn_mgt (s : State) (n : Nat) (f : Stn → Stn) : (s.updStn n f).mgt = s.mgt := rfl
@[simp] theorem State.updStn_tray (s : State) (n : Nat) (f : Stn → Stn) : (s.updStn n f).tray = s.tray := rfl
@[simp] theorem State.updStn_ltpTakes (s : State) (n : Nat) (f : Stn → Stn) : (s.updStn n f).ltpTakes = s.ltpTakes := rfl

/-! ### State.updLink -/

@[simp] theorem State.updLink_pending (s : State) (n : Nat) (f : Link → Link) : (s.updLink n f).pending = s.pending := rfl
@[simp] theorem State.updLink_build (s : State) (n : Nat) (f : Link → Link) : (s.updLink n f).build = s.build := rfl
@[simp] theorem State.updLink_host (s : State) (n : Nat) (f : Link → Link) : (s.updLink n f).host = s.host := rfl
@[simp] theorem State.updLink_stnMem (s : State) (n : Nat) (f : Link → Link) : (s.updLink n f).stnMem = s.stnMem := rfl
@[simp] theorem State.updLink_out (s : State) (n : Nat) (f : Link → Link) : (s.updLink n f).out = s.out := rfl
@[simp] theorem State.updLink_fresh (s : State) (n : Nat) (f : Link → Link) : (s.updLink n f).fresh = s.fresh := rfl
@[simp] theorem State.updLink_mqi (s : State) (n : Nat) (f : Link → Link) : (s.updLink n f).mqi = s.mqi := rfl
@[simp] theorem State.updLink_fns (s : State) (n : Nat) (f : Link → Link) : (s.updLink n f).fns = s.fns := rfl
@[simp] theorem State.updLink_queues (s : State) (n : Nat) (f : Link → Link) : (s.updLink n f).queues = s.queues := rfl
@[simp] theorem State.updLink_cmds (s : State) (n : Nat) (f : Link → Link) : (s.updLink n f).cmds = s.cmds := rfl
@[simp] theorem State.updLink_admitted (s : State) (n : Nat) (f : Link → Link) : (s.updLink n f).admitted = s.admitted := rfl
@[simp] theorem State.updLink_arb (s : State) (n : Nat) (f : Link → Link) : (s.updLink n f).arb = s.arb := rfl
@[simp] theorem State.updLink_ctxs (s : State) (n : Nat) (f : Link → Link) : (s.updLink n f).ctxs = s.ctxs := rfl
@[simp] theorem State.updLink_parts (s : State) (n : Nat) (f : Link → Link) : (s.updLink n f).parts = s.parts := rfl
@[simp] theorem State.updLink_fences (s : State) (n : Nat) (f : Link → Link) : (s.updLink n f).fences = s.fences := rfl
@[simp] theorem State.updLink_edges (s : State) (n : Nat) (f : Link → Link) : (s.updLink n f).edges = s.edges := rfl
@[simp] theorem State.updLink_grf (s : State) (n : Nat) (f : Link → Link) : (s.updLink n f).grf = s.grf := rfl
@[simp] theorem State.updLink_tags (s : State) (n : Nat) (f : Link → Link) : (s.updLink n f).tags = s.tags := rfl
@[simp] theorem State.updLink_waiting (s : State) (n : Nat) (f : Link → Link) : (s.updLink n f).waiting = s.waiting := rfl
@[simp] theorem State.updLink_xlt (s : State) (n : Nat) (f : Link → Link) : (s.updLink n f).xlt = s.xlt := rfl
@[simp] theorem State.updLink_postbags (s : State) (n : Nat) (f : Link → Link) : (s.updLink n f).postbags = s.postbags := rfl
@[simp] theorem State.updLink_keys (s : State) (n : Nat) (f : Link → Link) : (s.updLink n f).keys = s.keys := rfl
@[simp] theorem State.updLink_tables (s : State) (n : Nat) (f : Link → Link) : (s.updLink n f).tables = s.tables := rfl
@[simp] theorem State.updLink_streams (s : State) (n : Nat) (f : Link → Link) : (s.updLink n f).streams = s.streams := rfl
@[simp] theorem State.updLink_evc (s : State) (n : Nat) (f : Link → Link) : (s.updLink n f).evc = s.evc := rfl
@[simp] theorem State.updLink_eps (s : State) (n : Nat) (f : Link → Link) : (s.updLink n f).eps = s.eps := rfl
@[simp] theorem State.updLink_stns (s : State) (n : Nat) (f : Link → Link) : (s.updLink n f).stns = s.stns := rfl
@[simp] theorem State.updLink_want (s : State) (n : Nat) (f : Link → Link) : (s.updLink n f).want = s.want := rfl
@[simp] theorem State.updLink_rst (s : State) (n : Nat) (f : Link → Link) : (s.updLink n f).rst = s.rst := rfl
@[simp] theorem State.updLink_rcv (s : State) (n : Nat) (f : Link → Link) : (s.updLink n f).rcv = s.rcv := rfl
@[simp] theorem State.updLink_cores (s : State) (n : Nat) (f : Link → Link) : (s.updLink n f).cores = s.cores := rfl
@[simp] theorem State.updLink_links (s : State) (n : Nat) (f : Link → Link): (s.updLink n f).links = Tab.put s.links n (f (s.link n)) := rfl
@[simp] theorem State.updLink_cxSel (s : State) (n : Nat) (f : Link → Link) : (s.updLink n f).cxSel = s.cxSel := rfl
@[simp] theorem State.updLink_pwr (s : State) (n : Nat) (f : Link → Link) : (s.updLink n f).pwr = s.pwr := rfl
@[simp] theorem State.updLink_opts (s : State) (n : Nat) (f : Link → Link) : (s.updLink n f).opts = s.opts := rfl
@[simp] theorem State.updLink_shadow (s : State) (n : Nat) (f : Link → Link) : (s.updLink n f).shadow = s.shadow := rfl
@[simp] theorem State.updLink_nvm (s : State) (n : Nat) (f : Link → Link) : (s.updLink n f).nvm = s.nvm := rfl
@[simp] theorem State.updLink_spi (s : State) (n : Nat) (f : Link → Link) : (s.updLink n f).spi = s.spi := rfl
@[simp] theorem State.updLink_logAt (s : State) (n : Nat) (f : Link → Link) : (s.updLink n f).logAt = s.logAt := rfl
@[simp] theorem State.updLink_logSeq (s : State) (n : Nat) (f : Link → Link) : (s.updLink n f).logSeq = s.logSeq := rfl
@[simp] theorem State.updLink_fuses (s : State) (n : Nat) (f : Link → Link) : (s.updLink n f).fuses = s.fuses := rfl
@[simp] theorem State.updLink_fw (s : State) (n : Nat) (f : Link → Link) : (s.updLink n f).fw = s.fw := rfl
@[simp] theorem State.updLink_rails (s : State) (n : Nat) (f : Link → Link) : (s.updLink n f).rails = s.rails := rfl
@[simp] theorem State.updLink_age (s : State) (n : Nat) (f : Link → Link) : (s.updLink n f).age = s.age := rfl
@[simp] theorem State.updLink_life (s : State) (n : Nat) (f : Link → Link) : (s.updLink n f).life = s.life := rfl
@[simp] theorem State.updLink_incr (s : State) (n : Nat) (f : Link → Link) : (s.updLink n f).incr = s.incr := rfl
@[simp] theorem State.updLink_mgt (s : State) (n : Nat) (f : Link → Link) : (s.updLink n f).mgt = s.mgt := rfl
@[simp] theorem State.updLink_tray (s : State) (n : Nat) (f : Link → Link) : (s.updLink n f).tray = s.tray := rfl
@[simp] theorem State.updLink_ltpTakes (s : State) (n : Nat) (f : Link → Link) : (s.updLink n f).ltpTakes = s.ltpTakes := rfl

/-! ### State.updKey -/

@[simp] theorem State.updKey_pending (s : State) (n : Nat) (f : KeySlot → KeySlot) : (s.updKey n f).pending = s.pending := rfl
@[simp] theorem State.updKey_build (s : State) (n : Nat) (f : KeySlot → KeySlot) : (s.updKey n f).build = s.build := rfl
@[simp] theorem State.updKey_host (s : State) (n : Nat) (f : KeySlot → KeySlot) : (s.updKey n f).host = s.host := rfl
@[simp] theorem State.updKey_stnMem (s : State) (n : Nat) (f : KeySlot → KeySlot) : (s.updKey n f).stnMem = s.stnMem := rfl
@[simp] theorem State.updKey_out (s : State) (n : Nat) (f : KeySlot → KeySlot) : (s.updKey n f).out = s.out := rfl
@[simp] theorem State.updKey_fresh (s : State) (n : Nat) (f : KeySlot → KeySlot) : (s.updKey n f).fresh = s.fresh := rfl
@[simp] theorem State.updKey_mqi (s : State) (n : Nat) (f : KeySlot → KeySlot) : (s.updKey n f).mqi = s.mqi := rfl
@[simp] theorem State.updKey_fns (s : State) (n : Nat) (f : KeySlot → KeySlot) : (s.updKey n f).fns = s.fns := rfl
@[simp] theorem State.updKey_queues (s : State) (n : Nat) (f : KeySlot → KeySlot) : (s.updKey n f).queues = s.queues := rfl
@[simp] theorem State.updKey_cmds (s : State) (n : Nat) (f : KeySlot → KeySlot) : (s.updKey n f).cmds = s.cmds := rfl
@[simp] theorem State.updKey_admitted (s : State) (n : Nat) (f : KeySlot → KeySlot) : (s.updKey n f).admitted = s.admitted := rfl
@[simp] theorem State.updKey_arb (s : State) (n : Nat) (f : KeySlot → KeySlot) : (s.updKey n f).arb = s.arb := rfl
@[simp] theorem State.updKey_ctxs (s : State) (n : Nat) (f : KeySlot → KeySlot) : (s.updKey n f).ctxs = s.ctxs := rfl
@[simp] theorem State.updKey_parts (s : State) (n : Nat) (f : KeySlot → KeySlot) : (s.updKey n f).parts = s.parts := rfl
@[simp] theorem State.updKey_fences (s : State) (n : Nat) (f : KeySlot → KeySlot) : (s.updKey n f).fences = s.fences := rfl
@[simp] theorem State.updKey_edges (s : State) (n : Nat) (f : KeySlot → KeySlot) : (s.updKey n f).edges = s.edges := rfl
@[simp] theorem State.updKey_grf (s : State) (n : Nat) (f : KeySlot → KeySlot) : (s.updKey n f).grf = s.grf := rfl
@[simp] theorem State.updKey_tags (s : State) (n : Nat) (f : KeySlot → KeySlot) : (s.updKey n f).tags = s.tags := rfl
@[simp] theorem State.updKey_waiting (s : State) (n : Nat) (f : KeySlot → KeySlot) : (s.updKey n f).waiting = s.waiting := rfl
@[simp] theorem State.updKey_xlt (s : State) (n : Nat) (f : KeySlot → KeySlot) : (s.updKey n f).xlt = s.xlt := rfl
@[simp] theorem State.updKey_postbags (s : State) (n : Nat) (f : KeySlot → KeySlot) : (s.updKey n f).postbags = s.postbags := rfl
@[simp] theorem State.updKey_keys (s : State) (n : Nat) (f : KeySlot → KeySlot): (s.updKey n f).keys = Tab.put s.keys n (f (s.keySlot n)) := rfl
@[simp] theorem State.updKey_tables (s : State) (n : Nat) (f : KeySlot → KeySlot) : (s.updKey n f).tables = s.tables := rfl
@[simp] theorem State.updKey_streams (s : State) (n : Nat) (f : KeySlot → KeySlot) : (s.updKey n f).streams = s.streams := rfl
@[simp] theorem State.updKey_evc (s : State) (n : Nat) (f : KeySlot → KeySlot) : (s.updKey n f).evc = s.evc := rfl
@[simp] theorem State.updKey_eps (s : State) (n : Nat) (f : KeySlot → KeySlot) : (s.updKey n f).eps = s.eps := rfl
@[simp] theorem State.updKey_stns (s : State) (n : Nat) (f : KeySlot → KeySlot) : (s.updKey n f).stns = s.stns := rfl
@[simp] theorem State.updKey_want (s : State) (n : Nat) (f : KeySlot → KeySlot) : (s.updKey n f).want = s.want := rfl
@[simp] theorem State.updKey_rst (s : State) (n : Nat) (f : KeySlot → KeySlot) : (s.updKey n f).rst = s.rst := rfl
@[simp] theorem State.updKey_rcv (s : State) (n : Nat) (f : KeySlot → KeySlot) : (s.updKey n f).rcv = s.rcv := rfl
@[simp] theorem State.updKey_cores (s : State) (n : Nat) (f : KeySlot → KeySlot) : (s.updKey n f).cores = s.cores := rfl
@[simp] theorem State.updKey_links (s : State) (n : Nat) (f : KeySlot → KeySlot) : (s.updKey n f).links = s.links := rfl
@[simp] theorem State.updKey_cxSel (s : State) (n : Nat) (f : KeySlot → KeySlot) : (s.updKey n f).cxSel = s.cxSel := rfl
@[simp] theorem State.updKey_pwr (s : State) (n : Nat) (f : KeySlot → KeySlot) : (s.updKey n f).pwr = s.pwr := rfl
@[simp] theorem State.updKey_opts (s : State) (n : Nat) (f : KeySlot → KeySlot) : (s.updKey n f).opts = s.opts := rfl
@[simp] theorem State.updKey_shadow (s : State) (n : Nat) (f : KeySlot → KeySlot) : (s.updKey n f).shadow = s.shadow := rfl
@[simp] theorem State.updKey_nvm (s : State) (n : Nat) (f : KeySlot → KeySlot) : (s.updKey n f).nvm = s.nvm := rfl
@[simp] theorem State.updKey_spi (s : State) (n : Nat) (f : KeySlot → KeySlot) : (s.updKey n f).spi = s.spi := rfl
@[simp] theorem State.updKey_logAt (s : State) (n : Nat) (f : KeySlot → KeySlot) : (s.updKey n f).logAt = s.logAt := rfl
@[simp] theorem State.updKey_logSeq (s : State) (n : Nat) (f : KeySlot → KeySlot) : (s.updKey n f).logSeq = s.logSeq := rfl
@[simp] theorem State.updKey_fuses (s : State) (n : Nat) (f : KeySlot → KeySlot) : (s.updKey n f).fuses = s.fuses := rfl
@[simp] theorem State.updKey_fw (s : State) (n : Nat) (f : KeySlot → KeySlot) : (s.updKey n f).fw = s.fw := rfl
@[simp] theorem State.updKey_rails (s : State) (n : Nat) (f : KeySlot → KeySlot) : (s.updKey n f).rails = s.rails := rfl
@[simp] theorem State.updKey_age (s : State) (n : Nat) (f : KeySlot → KeySlot) : (s.updKey n f).age = s.age := rfl
@[simp] theorem State.updKey_life (s : State) (n : Nat) (f : KeySlot → KeySlot) : (s.updKey n f).life = s.life := rfl
@[simp] theorem State.updKey_incr (s : State) (n : Nat) (f : KeySlot → KeySlot) : (s.updKey n f).incr = s.incr := rfl
@[simp] theorem State.updKey_mgt (s : State) (n : Nat) (f : KeySlot → KeySlot) : (s.updKey n f).mgt = s.mgt := rfl
@[simp] theorem State.updKey_tray (s : State) (n : Nat) (f : KeySlot → KeySlot) : (s.updKey n f).tray = s.tray := rfl
@[simp] theorem State.updKey_ltpTakes (s : State) (n : Nat) (f : KeySlot → KeySlot) : (s.updKey n f).ltpTakes = s.ltpTakes := rfl

/-! ### State.updPb -/

@[simp] theorem State.updPb_pending (s : State) (n : Nat) (f : Postbag → Postbag) : (s.updPb n f).pending = s.pending := rfl
@[simp] theorem State.updPb_build (s : State) (n : Nat) (f : Postbag → Postbag) : (s.updPb n f).build = s.build := rfl
@[simp] theorem State.updPb_host (s : State) (n : Nat) (f : Postbag → Postbag) : (s.updPb n f).host = s.host := rfl
@[simp] theorem State.updPb_stnMem (s : State) (n : Nat) (f : Postbag → Postbag) : (s.updPb n f).stnMem = s.stnMem := rfl
@[simp] theorem State.updPb_out (s : State) (n : Nat) (f : Postbag → Postbag) : (s.updPb n f).out = s.out := rfl
@[simp] theorem State.updPb_fresh (s : State) (n : Nat) (f : Postbag → Postbag) : (s.updPb n f).fresh = s.fresh := rfl
@[simp] theorem State.updPb_mqi (s : State) (n : Nat) (f : Postbag → Postbag) : (s.updPb n f).mqi = s.mqi := rfl
@[simp] theorem State.updPb_fns (s : State) (n : Nat) (f : Postbag → Postbag) : (s.updPb n f).fns = s.fns := rfl
@[simp] theorem State.updPb_queues (s : State) (n : Nat) (f : Postbag → Postbag) : (s.updPb n f).queues = s.queues := rfl
@[simp] theorem State.updPb_cmds (s : State) (n : Nat) (f : Postbag → Postbag) : (s.updPb n f).cmds = s.cmds := rfl
@[simp] theorem State.updPb_admitted (s : State) (n : Nat) (f : Postbag → Postbag) : (s.updPb n f).admitted = s.admitted := rfl
@[simp] theorem State.updPb_arb (s : State) (n : Nat) (f : Postbag → Postbag) : (s.updPb n f).arb = s.arb := rfl
@[simp] theorem State.updPb_ctxs (s : State) (n : Nat) (f : Postbag → Postbag) : (s.updPb n f).ctxs = s.ctxs := rfl
@[simp] theorem State.updPb_parts (s : State) (n : Nat) (f : Postbag → Postbag) : (s.updPb n f).parts = s.parts := rfl
@[simp] theorem State.updPb_fences (s : State) (n : Nat) (f : Postbag → Postbag) : (s.updPb n f).fences = s.fences := rfl
@[simp] theorem State.updPb_edges (s : State) (n : Nat) (f : Postbag → Postbag) : (s.updPb n f).edges = s.edges := rfl
@[simp] theorem State.updPb_grf (s : State) (n : Nat) (f : Postbag → Postbag) : (s.updPb n f).grf = s.grf := rfl
@[simp] theorem State.updPb_tags (s : State) (n : Nat) (f : Postbag → Postbag) : (s.updPb n f).tags = s.tags := rfl
@[simp] theorem State.updPb_waiting (s : State) (n : Nat) (f : Postbag → Postbag) : (s.updPb n f).waiting = s.waiting := rfl
@[simp] theorem State.updPb_xlt (s : State) (n : Nat) (f : Postbag → Postbag) : (s.updPb n f).xlt = s.xlt := rfl
@[simp] theorem State.updPb_postbags (s : State) (n : Nat) (f : Postbag → Postbag): (s.updPb n f).postbags = Tab.upd s.postbags n f := rfl
@[simp] theorem State.updPb_keys (s : State) (n : Nat) (f : Postbag → Postbag) : (s.updPb n f).keys = s.keys := rfl
@[simp] theorem State.updPb_tables (s : State) (n : Nat) (f : Postbag → Postbag) : (s.updPb n f).tables = s.tables := rfl
@[simp] theorem State.updPb_streams (s : State) (n : Nat) (f : Postbag → Postbag) : (s.updPb n f).streams = s.streams := rfl
@[simp] theorem State.updPb_evc (s : State) (n : Nat) (f : Postbag → Postbag) : (s.updPb n f).evc = s.evc := rfl
@[simp] theorem State.updPb_eps (s : State) (n : Nat) (f : Postbag → Postbag) : (s.updPb n f).eps = s.eps := rfl
@[simp] theorem State.updPb_stns (s : State) (n : Nat) (f : Postbag → Postbag) : (s.updPb n f).stns = s.stns := rfl
@[simp] theorem State.updPb_want (s : State) (n : Nat) (f : Postbag → Postbag) : (s.updPb n f).want = s.want := rfl
@[simp] theorem State.updPb_rst (s : State) (n : Nat) (f : Postbag → Postbag) : (s.updPb n f).rst = s.rst := rfl
@[simp] theorem State.updPb_rcv (s : State) (n : Nat) (f : Postbag → Postbag) : (s.updPb n f).rcv = s.rcv := rfl
@[simp] theorem State.updPb_cores (s : State) (n : Nat) (f : Postbag → Postbag) : (s.updPb n f).cores = s.cores := rfl
@[simp] theorem State.updPb_links (s : State) (n : Nat) (f : Postbag → Postbag) : (s.updPb n f).links = s.links := rfl
@[simp] theorem State.updPb_cxSel (s : State) (n : Nat) (f : Postbag → Postbag) : (s.updPb n f).cxSel = s.cxSel := rfl
@[simp] theorem State.updPb_pwr (s : State) (n : Nat) (f : Postbag → Postbag) : (s.updPb n f).pwr = s.pwr := rfl
@[simp] theorem State.updPb_opts (s : State) (n : Nat) (f : Postbag → Postbag) : (s.updPb n f).opts = s.opts := rfl
@[simp] theorem State.updPb_shadow (s : State) (n : Nat) (f : Postbag → Postbag) : (s.updPb n f).shadow = s.shadow := rfl
@[simp] theorem State.updPb_nvm (s : State) (n : Nat) (f : Postbag → Postbag) : (s.updPb n f).nvm = s.nvm := rfl
@[simp] theorem State.updPb_spi (s : State) (n : Nat) (f : Postbag → Postbag) : (s.updPb n f).spi = s.spi := rfl
@[simp] theorem State.updPb_logAt (s : State) (n : Nat) (f : Postbag → Postbag) : (s.updPb n f).logAt = s.logAt := rfl
@[simp] theorem State.updPb_logSeq (s : State) (n : Nat) (f : Postbag → Postbag) : (s.updPb n f).logSeq = s.logSeq := rfl
@[simp] theorem State.updPb_fuses (s : State) (n : Nat) (f : Postbag → Postbag) : (s.updPb n f).fuses = s.fuses := rfl
@[simp] theorem State.updPb_fw (s : State) (n : Nat) (f : Postbag → Postbag) : (s.updPb n f).fw = s.fw := rfl
@[simp] theorem State.updPb_rails (s : State) (n : Nat) (f : Postbag → Postbag) : (s.updPb n f).rails = s.rails := rfl
@[simp] theorem State.updPb_age (s : State) (n : Nat) (f : Postbag → Postbag) : (s.updPb n f).age = s.age := rfl
@[simp] theorem State.updPb_life (s : State) (n : Nat) (f : Postbag → Postbag) : (s.updPb n f).life = s.life := rfl
@[simp] theorem State.updPb_incr (s : State) (n : Nat) (f : Postbag → Postbag) : (s.updPb n f).incr = s.incr := rfl
@[simp] theorem State.updPb_mgt (s : State) (n : Nat) (f : Postbag → Postbag) : (s.updPb n f).mgt = s.mgt := rfl
@[simp] theorem State.updPb_tray (s : State) (n : Nat) (f : Postbag → Postbag) : (s.updPb n f).tray = s.tray := rfl
@[simp] theorem State.updPb_ltpTakes (s : State) (n : Nat) (f : Postbag → Postbag) : (s.updPb n f).ltpTakes = s.ltpTakes := rfl

/-! ### State.updStream -/

@[simp] theorem State.updStream_pending (s : State) (n : Nat) (f : Stream → Stream) : (s.updStream n f).pending = s.pending := rfl
@[simp] theorem State.updStream_build (s : State) (n : Nat) (f : Stream → Stream) : (s.updStream n f).build = s.build := rfl
@[simp] theorem State.updStream_host (s : State) (n : Nat) (f : Stream → Stream) : (s.updStream n f).host = s.host := rfl
@[simp] theorem State.updStream_stnMem (s : State) (n : Nat) (f : Stream → Stream) : (s.updStream n f).stnMem = s.stnMem := rfl
@[simp] theorem State.updStream_out (s : State) (n : Nat) (f : Stream → Stream) : (s.updStream n f).out = s.out := rfl
@[simp] theorem State.updStream_fresh (s : State) (n : Nat) (f : Stream → Stream) : (s.updStream n f).fresh = s.fresh := rfl
@[simp] theorem State.updStream_mqi (s : State) (n : Nat) (f : Stream → Stream) : (s.updStream n f).mqi = s.mqi := rfl
@[simp] theorem State.updStream_fns (s : State) (n : Nat) (f : Stream → Stream) : (s.updStream n f).fns = s.fns := rfl
@[simp] theorem State.updStream_queues (s : State) (n : Nat) (f : Stream → Stream) : (s.updStream n f).queues = s.queues := rfl
@[simp] theorem State.updStream_cmds (s : State) (n : Nat) (f : Stream → Stream) : (s.updStream n f).cmds = s.cmds := rfl
@[simp] theorem State.updStream_admitted (s : State) (n : Nat) (f : Stream → Stream) : (s.updStream n f).admitted = s.admitted := rfl
@[simp] theorem State.updStream_arb (s : State) (n : Nat) (f : Stream → Stream) : (s.updStream n f).arb = s.arb := rfl
@[simp] theorem State.updStream_ctxs (s : State) (n : Nat) (f : Stream → Stream) : (s.updStream n f).ctxs = s.ctxs := rfl
@[simp] theorem State.updStream_parts (s : State) (n : Nat) (f : Stream → Stream) : (s.updStream n f).parts = s.parts := rfl
@[simp] theorem State.updStream_fences (s : State) (n : Nat) (f : Stream → Stream) : (s.updStream n f).fences = s.fences := rfl
@[simp] theorem State.updStream_edges (s : State) (n : Nat) (f : Stream → Stream) : (s.updStream n f).edges = s.edges := rfl
@[simp] theorem State.updStream_grf (s : State) (n : Nat) (f : Stream → Stream) : (s.updStream n f).grf = s.grf := rfl
@[simp] theorem State.updStream_tags (s : State) (n : Nat) (f : Stream → Stream) : (s.updStream n f).tags = s.tags := rfl
@[simp] theorem State.updStream_waiting (s : State) (n : Nat) (f : Stream → Stream) : (s.updStream n f).waiting = s.waiting := rfl
@[simp] theorem State.updStream_xlt (s : State) (n : Nat) (f : Stream → Stream) : (s.updStream n f).xlt = s.xlt := rfl
@[simp] theorem State.updStream_postbags (s : State) (n : Nat) (f : Stream → Stream) : (s.updStream n f).postbags = s.postbags := rfl
@[simp] theorem State.updStream_keys (s : State) (n : Nat) (f : Stream → Stream) : (s.updStream n f).keys = s.keys := rfl
@[simp] theorem State.updStream_tables (s : State) (n : Nat) (f : Stream → Stream) : (s.updStream n f).tables = s.tables := rfl
@[simp] theorem State.updStream_streams (s : State) (n : Nat) (f : Stream → Stream): (s.updStream n f).streams = Tab.upd s.streams n f := rfl
@[simp] theorem State.updStream_evc (s : State) (n : Nat) (f : Stream → Stream) : (s.updStream n f).evc = s.evc := rfl
@[simp] theorem State.updStream_eps (s : State) (n : Nat) (f : Stream → Stream) : (s.updStream n f).eps = s.eps := rfl
@[simp] theorem State.updStream_stns (s : State) (n : Nat) (f : Stream → Stream) : (s.updStream n f).stns = s.stns := rfl
@[simp] theorem State.updStream_want (s : State) (n : Nat) (f : Stream → Stream) : (s.updStream n f).want = s.want := rfl
@[simp] theorem State.updStream_rst (s : State) (n : Nat) (f : Stream → Stream) : (s.updStream n f).rst = s.rst := rfl
@[simp] theorem State.updStream_rcv (s : State) (n : Nat) (f : Stream → Stream) : (s.updStream n f).rcv = s.rcv := rfl
@[simp] theorem State.updStream_cores (s : State) (n : Nat) (f : Stream → Stream) : (s.updStream n f).cores = s.cores := rfl
@[simp] theorem State.updStream_links (s : State) (n : Nat) (f : Stream → Stream) : (s.updStream n f).links = s.links := rfl
@[simp] theorem State.updStream_cxSel (s : State) (n : Nat) (f : Stream → Stream) : (s.updStream n f).cxSel = s.cxSel := rfl
@[simp] theorem State.updStream_pwr (s : State) (n : Nat) (f : Stream → Stream) : (s.updStream n f).pwr = s.pwr := rfl
@[simp] theorem State.updStream_opts (s : State) (n : Nat) (f : Stream → Stream) : (s.updStream n f).opts = s.opts := rfl
@[simp] theorem State.updStream_shadow (s : State) (n : Nat) (f : Stream → Stream) : (s.updStream n f).shadow = s.shadow := rfl
@[simp] theorem State.updStream_nvm (s : State) (n : Nat) (f : Stream → Stream) : (s.updStream n f).nvm = s.nvm := rfl
@[simp] theorem State.updStream_spi (s : State) (n : Nat) (f : Stream → Stream) : (s.updStream n f).spi = s.spi := rfl
@[simp] theorem State.updStream_logAt (s : State) (n : Nat) (f : Stream → Stream) : (s.updStream n f).logAt = s.logAt := rfl
@[simp] theorem State.updStream_logSeq (s : State) (n : Nat) (f : Stream → Stream) : (s.updStream n f).logSeq = s.logSeq := rfl
@[simp] theorem State.updStream_fuses (s : State) (n : Nat) (f : Stream → Stream) : (s.updStream n f).fuses = s.fuses := rfl
@[simp] theorem State.updStream_fw (s : State) (n : Nat) (f : Stream → Stream) : (s.updStream n f).fw = s.fw := rfl
@[simp] theorem State.updStream_rails (s : State) (n : Nat) (f : Stream → Stream) : (s.updStream n f).rails = s.rails := rfl
@[simp] theorem State.updStream_age (s : State) (n : Nat) (f : Stream → Stream) : (s.updStream n f).age = s.age := rfl
@[simp] theorem State.updStream_life (s : State) (n : Nat) (f : Stream → Stream) : (s.updStream n f).life = s.life := rfl
@[simp] theorem State.updStream_incr (s : State) (n : Nat) (f : Stream → Stream) : (s.updStream n f).incr = s.incr := rfl
@[simp] theorem State.updStream_mgt (s : State) (n : Nat) (f : Stream → Stream) : (s.updStream n f).mgt = s.mgt := rfl
@[simp] theorem State.updStream_tray (s : State) (n : Nat) (f : Stream → Stream) : (s.updStream n f).tray = s.tray := rfl
@[simp] theorem State.updStream_ltpTakes (s : State) (n : Nat) (f : Stream → Stream) : (s.updStream n f).ltpTakes = s.ltpTakes := rfl

/-! ### State.updTable -/

@[simp] theorem State.updTable_pending (s : State) (n : Nat) (f : Table → Table) : (s.updTable n f).pending = s.pending := rfl
@[simp] theorem State.updTable_build (s : State) (n : Nat) (f : Table → Table) : (s.updTable n f).build = s.build := rfl
@[simp] theorem State.updTable_host (s : State) (n : Nat) (f : Table → Table) : (s.updTable n f).host = s.host := rfl
@[simp] theorem State.updTable_stnMem (s : State) (n : Nat) (f : Table → Table) : (s.updTable n f).stnMem = s.stnMem := rfl
@[simp] theorem State.updTable_out (s : State) (n : Nat) (f : Table → Table) : (s.updTable n f).out = s.out := rfl
@[simp] theorem State.updTable_fresh (s : State) (n : Nat) (f : Table → Table) : (s.updTable n f).fresh = s.fresh := rfl
@[simp] theorem State.updTable_mqi (s : State) (n : Nat) (f : Table → Table) : (s.updTable n f).mqi = s.mqi := rfl
@[simp] theorem State.updTable_fns (s : State) (n : Nat) (f : Table → Table) : (s.updTable n f).fns = s.fns := rfl
@[simp] theorem State.updTable_queues (s : State) (n : Nat) (f : Table → Table) : (s.updTable n f).queues = s.queues := rfl
@[simp] theorem State.updTable_cmds (s : State) (n : Nat) (f : Table → Table) : (s.updTable n f).cmds = s.cmds := rfl
@[simp] theorem State.updTable_admitted (s : State) (n : Nat) (f : Table → Table) : (s.updTable n f).admitted = s.admitted := rfl
@[simp] theorem State.updTable_arb (s : State) (n : Nat) (f : Table → Table) : (s.updTable n f).arb = s.arb := rfl
@[simp] theorem State.updTable_ctxs (s : State) (n : Nat) (f : Table → Table) : (s.updTable n f).ctxs = s.ctxs := rfl
@[simp] theorem State.updTable_parts (s : State) (n : Nat) (f : Table → Table) : (s.updTable n f).parts = s.parts := rfl
@[simp] theorem State.updTable_fences (s : State) (n : Nat) (f : Table → Table) : (s.updTable n f).fences = s.fences := rfl
@[simp] theorem State.updTable_edges (s : State) (n : Nat) (f : Table → Table) : (s.updTable n f).edges = s.edges := rfl
@[simp] theorem State.updTable_grf (s : State) (n : Nat) (f : Table → Table) : (s.updTable n f).grf = s.grf := rfl
@[simp] theorem State.updTable_tags (s : State) (n : Nat) (f : Table → Table) : (s.updTable n f).tags = s.tags := rfl
@[simp] theorem State.updTable_waiting (s : State) (n : Nat) (f : Table → Table) : (s.updTable n f).waiting = s.waiting := rfl
@[simp] theorem State.updTable_xlt (s : State) (n : Nat) (f : Table → Table) : (s.updTable n f).xlt = s.xlt := rfl
@[simp] theorem State.updTable_postbags (s : State) (n : Nat) (f : Table → Table) : (s.updTable n f).postbags = s.postbags := rfl
@[simp] theorem State.updTable_keys (s : State) (n : Nat) (f : Table → Table) : (s.updTable n f).keys = s.keys := rfl
@[simp] theorem State.updTable_tables (s : State) (n : Nat) (f : Table → Table): (s.updTable n f).tables = Tab.upd s.tables n f := rfl
@[simp] theorem State.updTable_streams (s : State) (n : Nat) (f : Table → Table) : (s.updTable n f).streams = s.streams := rfl
@[simp] theorem State.updTable_evc (s : State) (n : Nat) (f : Table → Table) : (s.updTable n f).evc = s.evc := rfl
@[simp] theorem State.updTable_eps (s : State) (n : Nat) (f : Table → Table) : (s.updTable n f).eps = s.eps := rfl
@[simp] theorem State.updTable_stns (s : State) (n : Nat) (f : Table → Table) : (s.updTable n f).stns = s.stns := rfl
@[simp] theorem State.updTable_want (s : State) (n : Nat) (f : Table → Table) : (s.updTable n f).want = s.want := rfl
@[simp] theorem State.updTable_rst (s : State) (n : Nat) (f : Table → Table) : (s.updTable n f).rst = s.rst := rfl
@[simp] theorem State.updTable_rcv (s : State) (n : Nat) (f : Table → Table) : (s.updTable n f).rcv = s.rcv := rfl
@[simp] theorem State.updTable_cores (s : State) (n : Nat) (f : Table → Table) : (s.updTable n f).cores = s.cores := rfl
@[simp] theorem State.updTable_links (s : State) (n : Nat) (f : Table → Table) : (s.updTable n f).links = s.links := rfl
@[simp] theorem State.updTable_cxSel (s : State) (n : Nat) (f : Table → Table) : (s.updTable n f).cxSel = s.cxSel := rfl
@[simp] theorem State.updTable_pwr (s : State) (n : Nat) (f : Table → Table) : (s.updTable n f).pwr = s.pwr := rfl
@[simp] theorem State.updTable_opts (s : State) (n : Nat) (f : Table → Table) : (s.updTable n f).opts = s.opts := rfl
@[simp] theorem State.updTable_shadow (s : State) (n : Nat) (f : Table → Table) : (s.updTable n f).shadow = s.shadow := rfl
@[simp] theorem State.updTable_nvm (s : State) (n : Nat) (f : Table → Table) : (s.updTable n f).nvm = s.nvm := rfl
@[simp] theorem State.updTable_spi (s : State) (n : Nat) (f : Table → Table) : (s.updTable n f).spi = s.spi := rfl
@[simp] theorem State.updTable_logAt (s : State) (n : Nat) (f : Table → Table) : (s.updTable n f).logAt = s.logAt := rfl
@[simp] theorem State.updTable_logSeq (s : State) (n : Nat) (f : Table → Table) : (s.updTable n f).logSeq = s.logSeq := rfl
@[simp] theorem State.updTable_fuses (s : State) (n : Nat) (f : Table → Table) : (s.updTable n f).fuses = s.fuses := rfl
@[simp] theorem State.updTable_fw (s : State) (n : Nat) (f : Table → Table) : (s.updTable n f).fw = s.fw := rfl
@[simp] theorem State.updTable_rails (s : State) (n : Nat) (f : Table → Table) : (s.updTable n f).rails = s.rails := rfl
@[simp] theorem State.updTable_age (s : State) (n : Nat) (f : Table → Table) : (s.updTable n f).age = s.age := rfl
@[simp] theorem State.updTable_life (s : State) (n : Nat) (f : Table → Table) : (s.updTable n f).life = s.life := rfl
@[simp] theorem State.updTable_incr (s : State) (n : Nat) (f : Table → Table) : (s.updTable n f).incr = s.incr := rfl
@[simp] theorem State.updTable_mgt (s : State) (n : Nat) (f : Table → Table) : (s.updTable n f).mgt = s.mgt := rfl
@[simp] theorem State.updTable_tray (s : State) (n : Nat) (f : Table → Table) : (s.updTable n f).tray = s.tray := rfl
@[simp] theorem State.updTable_ltpTakes (s : State) (n : Nat) (f : Table → Table) : (s.updTable n f).ltpTakes = s.ltpTakes := rfl

/-! ### State.setSrc -/

@[simp] theorem State.setSrc_pending (s : State) (n : Nat) (x : Src) : (s.setSrc n x).pending = s.pending := rfl
@[simp] theorem State.setSrc_build (s : State) (n : Nat) (x : Src) : (s.setSrc n x).build = s.build := rfl
@[simp] theorem State.setSrc_host (s : State) (n : Nat) (x : Src) : (s.setSrc n x).host = s.host := rfl
@[simp] theorem State.setSrc_stnMem (s : State) (n : Nat) (x : Src) : (s.setSrc n x).stnMem = s.stnMem := rfl
@[simp] theorem State.setSrc_out (s : State) (n : Nat) (x : Src) : (s.setSrc n x).out = s.out := rfl
@[simp] theorem State.setSrc_fresh (s : State) (n : Nat) (x : Src) : (s.setSrc n x).fresh = s.fresh := rfl
@[simp] theorem State.setSrc_mqi (s : State) (n : Nat) (x : Src) : (s.setSrc n x).mqi = s.mqi := rfl
@[simp] theorem State.setSrc_fns (s : State) (n : Nat) (x : Src) : (s.setSrc n x).fns = s.fns := rfl
@[simp] theorem State.setSrc_queues (s : State) (n : Nat) (x : Src) : (s.setSrc n x).queues = s.queues := rfl
@[simp] theorem State.setSrc_cmds (s : State) (n : Nat) (x : Src) : (s.setSrc n x).cmds = s.cmds := rfl
@[simp] theorem State.setSrc_admitted (s : State) (n : Nat) (x : Src) : (s.setSrc n x).admitted = s.admitted := rfl
@[simp] theorem State.setSrc_arb (s : State) (n : Nat) (x : Src) : (s.setSrc n x).arb = s.arb := rfl
@[simp] theorem State.setSrc_ctxs (s : State) (n : Nat) (x : Src) : (s.setSrc n x).ctxs = s.ctxs := rfl
@[simp] theorem State.setSrc_parts (s : State) (n : Nat) (x : Src) : (s.setSrc n x).parts = s.parts := rfl
@[simp] theorem State.setSrc_fences (s : State) (n : Nat) (x : Src) : (s.setSrc n x).fences = s.fences := rfl
@[simp] theorem State.setSrc_edges (s : State) (n : Nat) (x : Src) : (s.setSrc n x).edges = s.edges := rfl
@[simp] theorem State.setSrc_grf (s : State) (n : Nat) (x : Src) : (s.setSrc n x).grf = s.grf := rfl
@[simp] theorem State.setSrc_tags (s : State) (n : Nat) (x : Src) : (s.setSrc n x).tags = s.tags := rfl
@[simp] theorem State.setSrc_waiting (s : State) (n : Nat) (x : Src) : (s.setSrc n x).waiting = s.waiting := rfl
@[simp] theorem State.setSrc_xlt (s : State) (n : Nat) (x : Src) : (s.setSrc n x).xlt = s.xlt := rfl
@[simp] theorem State.setSrc_postbags (s : State) (n : Nat) (x : Src) : (s.setSrc n x).postbags = s.postbags := rfl
@[simp] theorem State.setSrc_keys (s : State) (n : Nat) (x : Src) : (s.setSrc n x).keys = s.keys := rfl
@[simp] theorem State.setSrc_tables (s : State) (n : Nat) (x : Src) : (s.setSrc n x).tables = s.tables := rfl
@[simp] theorem State.setSrc_streams (s : State) (n : Nat) (x : Src) : (s.setSrc n x).streams = s.streams := rfl
@[simp] theorem State.setSrc_eps (s : State) (n : Nat) (x : Src) : (s.setSrc n x).eps = s.eps := rfl
@[simp] theorem State.setSrc_stns (s : State) (n : Nat) (x : Src) : (s.setSrc n x).stns = s.stns := rfl
@[simp] theorem State.setSrc_want (s : State) (n : Nat) (x : Src) : (s.setSrc n x).want = s.want := rfl
@[simp] theorem State.setSrc_rst (s : State) (n : Nat) (x : Src) : (s.setSrc n x).rst = s.rst := rfl
@[simp] theorem State.setSrc_rcv (s : State) (n : Nat) (x : Src) : (s.setSrc n x).rcv = s.rcv := rfl
@[simp] theorem State.setSrc_cores (s : State) (n : Nat) (x : Src) : (s.setSrc n x).cores = s.cores := rfl
@[simp] theorem State.setSrc_links (s : State) (n : Nat) (x : Src) : (s.setSrc n x).links = s.links := rfl
@[simp] theorem State.setSrc_cxSel (s : State) (n : Nat) (x : Src) : (s.setSrc n x).cxSel = s.cxSel := rfl
@[simp] theorem State.setSrc_pwr (s : State) (n : Nat) (x : Src) : (s.setSrc n x).pwr = s.pwr := rfl
@[simp] theorem State.setSrc_opts (s : State) (n : Nat) (x : Src) : (s.setSrc n x).opts = s.opts := rfl
@[simp] theorem State.setSrc_shadow (s : State) (n : Nat) (x : Src) : (s.setSrc n x).shadow = s.shadow := rfl
@[simp] theorem State.setSrc_nvm (s : State) (n : Nat) (x : Src) : (s.setSrc n x).nvm = s.nvm := rfl
@[simp] theorem State.setSrc_spi (s : State) (n : Nat) (x : Src) : (s.setSrc n x).spi = s.spi := rfl
@[simp] theorem State.setSrc_logAt (s : State) (n : Nat) (x : Src) : (s.setSrc n x).logAt = s.logAt := rfl
@[simp] theorem State.setSrc_logSeq (s : State) (n : Nat) (x : Src) : (s.setSrc n x).logSeq = s.logSeq := rfl
@[simp] theorem State.setSrc_fuses (s : State) (n : Nat) (x : Src) : (s.setSrc n x).fuses = s.fuses := rfl
@[simp] theorem State.setSrc_fw (s : State) (n : Nat) (x : Src) : (s.setSrc n x).fw = s.fw := rfl
@[simp] theorem State.setSrc_rails (s : State) (n : Nat) (x : Src) : (s.setSrc n x).rails = s.rails := rfl
@[simp] theorem State.setSrc_age (s : State) (n : Nat) (x : Src) : (s.setSrc n x).age = s.age := rfl
@[simp] theorem State.setSrc_life (s : State) (n : Nat) (x : Src) : (s.setSrc n x).life = s.life := rfl
@[simp] theorem State.setSrc_incr (s : State) (n : Nat) (x : Src) : (s.setSrc n x).incr = s.incr := rfl
@[simp] theorem State.setSrc_mgt (s : State) (n : Nat) (x : Src) : (s.setSrc n x).mgt = s.mgt := rfl
@[simp] theorem State.setSrc_tray (s : State) (n : Nat) (x : Src) : (s.setSrc n x).tray = s.tray := rfl
@[simp] theorem State.setSrc_ltpTakes (s : State) (n : Nat) (x : Src) : (s.setSrc n x).ltpTakes = s.ltpTakes := rfl

/-! ### State.rsWrite -/

@[simp] theorem State.rsWrite_pending (s : State) (a : Nat) (bs : List Byte) : (s.rsWrite a bs).pending = s.pending := rfl
@[simp] theorem State.rsWrite_build (s : State) (a : Nat) (bs : List Byte) : (s.rsWrite a bs).build = s.build := rfl
@[simp] theorem State.rsWrite_host (s : State) (a : Nat) (bs : List Byte) : (s.rsWrite a bs).host = s.host := rfl
@[simp] theorem State.rsWrite_stnMem (s : State) (a : Nat) (bs : List Byte) : (s.rsWrite a bs).stnMem = s.stnMem := rfl
@[simp] theorem State.rsWrite_out (s : State) (a : Nat) (bs : List Byte) : (s.rsWrite a bs).out = s.out := rfl
@[simp] theorem State.rsWrite_fresh (s : State) (a : Nat) (bs : List Byte) : (s.rsWrite a bs).fresh = s.fresh := rfl
@[simp] theorem State.rsWrite_mqi (s : State) (a : Nat) (bs : List Byte) : (s.rsWrite a bs).mqi = s.mqi := rfl
@[simp] theorem State.rsWrite_fns (s : State) (a : Nat) (bs : List Byte) : (s.rsWrite a bs).fns = s.fns := rfl
@[simp] theorem State.rsWrite_queues (s : State) (a : Nat) (bs : List Byte) : (s.rsWrite a bs).queues = s.queues := rfl
@[simp] theorem State.rsWrite_cmds (s : State) (a : Nat) (bs : List Byte) : (s.rsWrite a bs).cmds = s.cmds := rfl
@[simp] theorem State.rsWrite_admitted (s : State) (a : Nat) (bs : List Byte) : (s.rsWrite a bs).admitted = s.admitted := rfl
@[simp] theorem State.rsWrite_arb (s : State) (a : Nat) (bs : List Byte) : (s.rsWrite a bs).arb = s.arb := rfl
@[simp] theorem State.rsWrite_ctxs (s : State) (a : Nat) (bs : List Byte) : (s.rsWrite a bs).ctxs = s.ctxs := rfl
@[simp] theorem State.rsWrite_parts (s : State) (a : Nat) (bs : List Byte) : (s.rsWrite a bs).parts = s.parts := rfl
@[simp] theorem State.rsWrite_fences (s : State) (a : Nat) (bs : List Byte) : (s.rsWrite a bs).fences = s.fences := rfl
@[simp] theorem State.rsWrite_edges (s : State) (a : Nat) (bs : List Byte) : (s.rsWrite a bs).edges = s.edges := rfl
@[simp] theorem State.rsWrite_grf (s : State) (a : Nat) (bs : List Byte) : (s.rsWrite a bs).grf = s.grf := rfl
@[simp] theorem State.rsWrite_tags (s : State) (a : Nat) (bs : List Byte) : (s.rsWrite a bs).tags = s.tags := rfl
@[simp] theorem State.rsWrite_waiting (s : State) (a : Nat) (bs : List Byte) : (s.rsWrite a bs).waiting = s.waiting := rfl
@[simp] theorem State.rsWrite_xlt (s : State) (a : Nat) (bs : List Byte) : (s.rsWrite a bs).xlt = s.xlt := rfl
@[simp] theorem State.rsWrite_postbags (s : State) (a : Nat) (bs : List Byte) : (s.rsWrite a bs).postbags = s.postbags := rfl
@[simp] theorem State.rsWrite_keys (s : State) (a : Nat) (bs : List Byte) : (s.rsWrite a bs).keys = s.keys := rfl
@[simp] theorem State.rsWrite_tables (s : State) (a : Nat) (bs : List Byte) : (s.rsWrite a bs).tables = s.tables := rfl
@[simp] theorem State.rsWrite_streams (s : State) (a : Nat) (bs : List Byte) : (s.rsWrite a bs).streams = s.streams := rfl
@[simp] theorem State.rsWrite_evc (s : State) (a : Nat) (bs : List Byte) : (s.rsWrite a bs).evc = s.evc := rfl
@[simp] theorem State.rsWrite_eps (s : State) (a : Nat) (bs : List Byte) : (s.rsWrite a bs).eps = s.eps := rfl
@[simp] theorem State.rsWrite_stns (s : State) (a : Nat) (bs : List Byte) : (s.rsWrite a bs).stns = s.stns := rfl
@[simp] theorem State.rsWrite_want (s : State) (a : Nat) (bs : List Byte) : (s.rsWrite a bs).want = s.want := rfl
@[simp] theorem State.rsWrite_rst (s : State) (a : Nat) (bs : List Byte) : (s.rsWrite a bs).rst = s.rst := rfl
@[simp] theorem State.rsWrite_cores (s : State) (a : Nat) (bs : List Byte) : (s.rsWrite a bs).cores = s.cores := rfl
@[simp] theorem State.rsWrite_links (s : State) (a : Nat) (bs : List Byte) : (s.rsWrite a bs).links = s.links := rfl
@[simp] theorem State.rsWrite_cxSel (s : State) (a : Nat) (bs : List Byte) : (s.rsWrite a bs).cxSel = s.cxSel := rfl
@[simp] theorem State.rsWrite_pwr (s : State) (a : Nat) (bs : List Byte) : (s.rsWrite a bs).pwr = s.pwr := rfl
@[simp] theorem State.rsWrite_opts (s : State) (a : Nat) (bs : List Byte) : (s.rsWrite a bs).opts = s.opts := rfl
@[simp] theorem State.rsWrite_shadow (s : State) (a : Nat) (bs : List Byte) : (s.rsWrite a bs).shadow = s.shadow := rfl
@[simp] theorem State.rsWrite_nvm (s : State) (a : Nat) (bs : List Byte) : (s.rsWrite a bs).nvm = s.nvm := rfl
@[simp] theorem State.rsWrite_spi (s : State) (a : Nat) (bs : List Byte) : (s.rsWrite a bs).spi = s.spi := rfl
@[simp] theorem State.rsWrite_logAt (s : State) (a : Nat) (bs : List Byte) : (s.rsWrite a bs).logAt = s.logAt := rfl
@[simp] theorem State.rsWrite_logSeq (s : State) (a : Nat) (bs : List Byte) : (s.rsWrite a bs).logSeq = s.logSeq := rfl
@[simp] theorem State.rsWrite_fuses (s : State) (a : Nat) (bs : List Byte) : (s.rsWrite a bs).fuses = s.fuses := rfl
@[simp] theorem State.rsWrite_fw (s : State) (a : Nat) (bs : List Byte) : (s.rsWrite a bs).fw = s.fw := rfl
@[simp] theorem State.rsWrite_rails (s : State) (a : Nat) (bs : List Byte) : (s.rsWrite a bs).rails = s.rails := rfl
@[simp] theorem State.rsWrite_age (s : State) (a : Nat) (bs : List Byte) : (s.rsWrite a bs).age = s.age := rfl
@[simp] theorem State.rsWrite_life (s : State) (a : Nat) (bs : List Byte) : (s.rsWrite a bs).life = s.life := rfl
@[simp] theorem State.rsWrite_incr (s : State) (a : Nat) (bs : List Byte) : (s.rsWrite a bs).incr = s.incr := rfl
@[simp] theorem State.rsWrite_mgt (s : State) (a : Nat) (bs : List Byte) : (s.rsWrite a bs).mgt = s.mgt := rfl
@[simp] theorem State.rsWrite_tray (s : State) (a : Nat) (bs : List Byte) : (s.rsWrite a bs).tray = s.tray := rfl
@[simp] theorem State.rsWrite_ltpTakes (s : State) (a : Nat) (bs : List Byte) : (s.rsWrite a bs).ltpTakes = s.ltpTakes := rfl

/-! ### State.unask -/

@[simp] theorem State.unask_pending (s : State) (k n : Nat) : (s.unask k n).pending = s.pending := rfl
@[simp] theorem State.unask_build (s : State) (k n : Nat) : (s.unask k n).build = s.build := rfl
@[simp] theorem State.unask_host (s : State) (k n : Nat) : (s.unask k n).host = s.host := rfl
@[simp] theorem State.unask_stnMem (s : State) (k n : Nat) : (s.unask k n).stnMem = s.stnMem := rfl
@[simp] theorem State.unask_out (s : State) (k n : Nat) : (s.unask k n).out = s.out := rfl
@[simp] theorem State.unask_fresh (s : State) (k n : Nat) : (s.unask k n).fresh = s.fresh := rfl
@[simp] theorem State.unask_mqi (s : State) (k n : Nat) : (s.unask k n).mqi = s.mqi := rfl
@[simp] theorem State.unask_fns (s : State) (k n : Nat) : (s.unask k n).fns = s.fns := rfl
@[simp] theorem State.unask_queues (s : State) (k n : Nat) : (s.unask k n).queues = s.queues := rfl
@[simp] theorem State.unask_cmds (s : State) (k n : Nat) : (s.unask k n).cmds = s.cmds := rfl
@[simp] theorem State.unask_admitted (s : State) (k n : Nat) : (s.unask k n).admitted = s.admitted := rfl
@[simp] theorem State.unask_arb (s : State) (k n : Nat) : (s.unask k n).arb = s.arb := rfl
@[simp] theorem State.unask_ctxs (s : State) (k n : Nat) : (s.unask k n).ctxs = s.ctxs := rfl
@[simp] theorem State.unask_parts (s : State) (k n : Nat) : (s.unask k n).parts = s.parts := rfl
@[simp] theorem State.unask_fences (s : State) (k n : Nat) : (s.unask k n).fences = s.fences := rfl
@[simp] theorem State.unask_edges (s : State) (k n : Nat) : (s.unask k n).edges = s.edges := rfl
@[simp] theorem State.unask_grf (s : State) (k n : Nat) : (s.unask k n).grf = s.grf := rfl
@[simp] theorem State.unask_tags (s : State) (k n : Nat) : (s.unask k n).tags = s.tags := rfl
@[simp] theorem State.unask_waiting (s : State) (k n : Nat) : (s.unask k n).waiting = s.waiting := rfl
@[simp] theorem State.unask_xlt (s : State) (k n : Nat) : (s.unask k n).xlt = s.xlt := rfl
@[simp] theorem State.unask_postbags (s : State) (k n : Nat) : (s.unask k n).postbags = s.postbags := rfl
@[simp] theorem State.unask_keys (s : State) (k n : Nat) : (s.unask k n).keys = s.keys := rfl
@[simp] theorem State.unask_tables (s : State) (k n : Nat) : (s.unask k n).tables = s.tables := rfl
@[simp] theorem State.unask_streams (s : State) (k n : Nat) : (s.unask k n).streams = s.streams := rfl
@[simp] theorem State.unask_evc (s : State) (k n : Nat) : (s.unask k n).evc = s.evc := rfl
@[simp] theorem State.unask_eps (s : State) (k n : Nat) : (s.unask k n).eps = s.eps := rfl
@[simp] theorem State.unask_stns (s : State) (k n : Nat) : (s.unask k n).stns = s.stns := rfl
@[simp] theorem State.unask_rst (s : State) (k n : Nat) : (s.unask k n).rst = s.rst := rfl
@[simp] theorem State.unask_rcv (s : State) (k n : Nat) : (s.unask k n).rcv = s.rcv := rfl
@[simp] theorem State.unask_cores (s : State) (k n : Nat) : (s.unask k n).cores = s.cores := rfl
@[simp] theorem State.unask_links (s : State) (k n : Nat) : (s.unask k n).links = s.links := rfl
@[simp] theorem State.unask_cxSel (s : State) (k n : Nat) : (s.unask k n).cxSel = s.cxSel := rfl
@[simp] theorem State.unask_pwr (s : State) (k n : Nat) : (s.unask k n).pwr = s.pwr := rfl
@[simp] theorem State.unask_opts (s : State) (k n : Nat) : (s.unask k n).opts = s.opts := rfl
@[simp] theorem State.unask_shadow (s : State) (k n : Nat) : (s.unask k n).shadow = s.shadow := rfl
@[simp] theorem State.unask_nvm (s : State) (k n : Nat) : (s.unask k n).nvm = s.nvm := rfl
@[simp] theorem State.unask_spi (s : State) (k n : Nat) : (s.unask k n).spi = s.spi := rfl
@[simp] theorem State.unask_logAt (s : State) (k n : Nat) : (s.unask k n).logAt = s.logAt := rfl
@[simp] theorem State.unask_logSeq (s : State) (k n : Nat) : (s.unask k n).logSeq = s.logSeq := rfl
@[simp] theorem State.unask_fuses (s : State) (k n : Nat) : (s.unask k n).fuses = s.fuses := rfl
@[simp] theorem State.unask_fw (s : State) (k n : Nat) : (s.unask k n).fw = s.fw := rfl
@[simp] theorem State.unask_rails (s : State) (k n : Nat) : (s.unask k n).rails = s.rails := rfl
@[simp] theorem State.unask_age (s : State) (k n : Nat) : (s.unask k n).age = s.age := rfl
@[simp] theorem State.unask_life (s : State) (k n : Nat) : (s.unask k n).life = s.life := rfl
@[simp] theorem State.unask_incr (s : State) (k n : Nat) : (s.unask k n).incr = s.incr := rfl
@[simp] theorem State.unask_mgt (s : State) (k n : Nat) : (s.unask k n).mgt = s.mgt := rfl
@[simp] theorem State.unask_tray (s : State) (k n : Nat) : (s.unask k n).tray = s.tray := rfl
@[simp] theorem State.unask_ltpTakes (s : State) (k n : Nat) : (s.unask k n).ltpTakes = s.ltpTakes := rfl

/-! ### State.dropNotes -/

@[simp] theorem State.dropNotes_pending (s : State) (cl : Client) : (s.dropNotes cl).pending = s.pending := rfl
@[simp] theorem State.dropNotes_build (s : State) (cl : Client) : (s.dropNotes cl).build = s.build := rfl
@[simp] theorem State.dropNotes_host (s : State) (cl : Client) : (s.dropNotes cl).host = s.host := rfl
@[simp] theorem State.dropNotes_stnMem (s : State) (cl : Client) : (s.dropNotes cl).stnMem = s.stnMem := rfl
@[simp] theorem State.dropNotes_out (s : State) (cl : Client) : (s.dropNotes cl).out = s.out := rfl
@[simp] theorem State.dropNotes_fresh (s : State) (cl : Client) : (s.dropNotes cl).fresh = s.fresh := rfl
@[simp] theorem State.dropNotes_mqi (s : State) (cl : Client) : (s.dropNotes cl).mqi = s.mqi := rfl
@[simp] theorem State.dropNotes_fns (s : State) (cl : Client) : (s.dropNotes cl).fns = s.fns := rfl
@[simp] theorem State.dropNotes_queues (s : State) (cl : Client) : (s.dropNotes cl).queues = s.queues := rfl
@[simp] theorem State.dropNotes_cmds (s : State) (cl : Client) : (s.dropNotes cl).cmds = s.cmds := rfl
@[simp] theorem State.dropNotes_admitted (s : State) (cl : Client) : (s.dropNotes cl).admitted = s.admitted := rfl
@[simp] theorem State.dropNotes_arb (s : State) (cl : Client) : (s.dropNotes cl).arb = s.arb := rfl
@[simp] theorem State.dropNotes_ctxs (s : State) (cl : Client) : (s.dropNotes cl).ctxs = s.ctxs := rfl
@[simp] theorem State.dropNotes_parts (s : State) (cl : Client) : (s.dropNotes cl).parts = s.parts := rfl
@[simp] theorem State.dropNotes_fences (s : State) (cl : Client) : (s.dropNotes cl).fences = s.fences := rfl
@[simp] theorem State.dropNotes_edges (s : State) (cl : Client) : (s.dropNotes cl).edges = s.edges := rfl
@[simp] theorem State.dropNotes_grf (s : State) (cl : Client) : (s.dropNotes cl).grf = s.grf := rfl
@[simp] theorem State.dropNotes_tags (s : State) (cl : Client) : (s.dropNotes cl).tags = s.tags := rfl
@[simp] theorem State.dropNotes_waiting (s : State) (cl : Client) : (s.dropNotes cl).waiting = s.waiting := rfl
@[simp] theorem State.dropNotes_postbags (s : State) (cl : Client) : (s.dropNotes cl).postbags = s.postbags := rfl
@[simp] theorem State.dropNotes_keys (s : State) (cl : Client) : (s.dropNotes cl).keys = s.keys := rfl
@[simp] theorem State.dropNotes_tables (s : State) (cl : Client) : (s.dropNotes cl).tables = s.tables := rfl
@[simp] theorem State.dropNotes_streams (s : State) (cl : Client) : (s.dropNotes cl).streams = s.streams := rfl
@[simp] theorem State.dropNotes_evc (s : State) (cl : Client) : (s.dropNotes cl).evc = s.evc := rfl
@[simp] theorem State.dropNotes_eps (s : State) (cl : Client) : (s.dropNotes cl).eps = s.eps := rfl
@[simp] theorem State.dropNotes_stns (s : State) (cl : Client) : (s.dropNotes cl).stns = s.stns := rfl
@[simp] theorem State.dropNotes_want (s : State) (cl : Client) : (s.dropNotes cl).want = s.want := rfl
@[simp] theorem State.dropNotes_rst (s : State) (cl : Client) : (s.dropNotes cl).rst = s.rst := rfl
@[simp] theorem State.dropNotes_rcv (s : State) (cl : Client) : (s.dropNotes cl).rcv = s.rcv := rfl
@[simp] theorem State.dropNotes_cores (s : State) (cl : Client) : (s.dropNotes cl).cores = s.cores := rfl
@[simp] theorem State.dropNotes_links (s : State) (cl : Client) : (s.dropNotes cl).links = s.links := rfl
@[simp] theorem State.dropNotes_cxSel (s : State) (cl : Client) : (s.dropNotes cl).cxSel = s.cxSel := rfl
@[simp] theorem State.dropNotes_pwr (s : State) (cl : Client) : (s.dropNotes cl).pwr = s.pwr := rfl
@[simp] theorem State.dropNotes_opts (s : State) (cl : Client) : (s.dropNotes cl).opts = s.opts := rfl
@[simp] theorem State.dropNotes_shadow (s : State) (cl : Client) : (s.dropNotes cl).shadow = s.shadow := rfl
@[simp] theorem State.dropNotes_nvm (s : State) (cl : Client) : (s.dropNotes cl).nvm = s.nvm := rfl
@[simp] theorem State.dropNotes_spi (s : State) (cl : Client) : (s.dropNotes cl).spi = s.spi := rfl
@[simp] theorem State.dropNotes_logAt (s : State) (cl : Client) : (s.dropNotes cl).logAt = s.logAt := rfl
@[simp] theorem State.dropNotes_logSeq (s : State) (cl : Client) : (s.dropNotes cl).logSeq = s.logSeq := rfl
@[simp] theorem State.dropNotes_fuses (s : State) (cl : Client) : (s.dropNotes cl).fuses = s.fuses := rfl
@[simp] theorem State.dropNotes_fw (s : State) (cl : Client) : (s.dropNotes cl).fw = s.fw := rfl
@[simp] theorem State.dropNotes_rails (s : State) (cl : Client) : (s.dropNotes cl).rails = s.rails := rfl
@[simp] theorem State.dropNotes_age (s : State) (cl : Client) : (s.dropNotes cl).age = s.age := rfl
@[simp] theorem State.dropNotes_life (s : State) (cl : Client) : (s.dropNotes cl).life = s.life := rfl
@[simp] theorem State.dropNotes_incr (s : State) (cl : Client) : (s.dropNotes cl).incr = s.incr := rfl
@[simp] theorem State.dropNotes_mgt (s : State) (cl : Client) : (s.dropNotes cl).mgt = s.mgt := rfl
@[simp] theorem State.dropNotes_tray (s : State) (cl : Client) : (s.dropNotes cl).tray = s.tray := rfl
@[simp] theorem State.dropNotes_ltpTakes (s : State) (cl : Client) : (s.dropNotes cl).ltpTakes = s.ltpTakes := rfl

/-! ### State.ask -/

@[simp] theorem State.ask_pending (s : State) (k n : Nat) : (s.ask k n).pending = s.pending := by unfold State.ask; split <;> rfl
@[simp] theorem State.ask_build (s : State) (k n : Nat) : (s.ask k n).build = s.build := by unfold State.ask; split <;> rfl
@[simp] theorem State.ask_host (s : State) (k n : Nat) : (s.ask k n).host = s.host := by unfold State.ask; split <;> rfl
@[simp] theorem State.ask_stnMem (s : State) (k n : Nat) : (s.ask k n).stnMem = s.stnMem := by unfold State.ask; split <;> rfl
@[simp] theorem State.ask_out (s : State) (k n : Nat) : (s.ask k n).out = s.out := by unfold State.ask; split <;> rfl
@[simp] theorem State.ask_fresh (s : State) (k n : Nat) : (s.ask k n).fresh = s.fresh := by unfold State.ask; split <;> rfl
@[simp] theorem State.ask_mqi (s : State) (k n : Nat) : (s.ask k n).mqi = s.mqi := by unfold State.ask; split <;> rfl
@[simp] theorem State.ask_fns (s : State) (k n : Nat) : (s.ask k n).fns = s.fns := by unfold State.ask; split <;> rfl
@[simp] theorem State.ask_queues (s : State) (k n : Nat) : (s.ask k n).queues = s.queues := by unfold State.ask; split <;> rfl
@[simp] theorem State.ask_cmds (s : State) (k n : Nat) : (s.ask k n).cmds = s.cmds := by unfold State.ask; split <;> rfl
@[simp] theorem State.ask_admitted (s : State) (k n : Nat) : (s.ask k n).admitted = s.admitted := by unfold State.ask; split <;> rfl
@[simp] theorem State.ask_arb (s : State) (k n : Nat) : (s.ask k n).arb = s.arb := by unfold State.ask; split <;> rfl
@[simp] theorem State.ask_ctxs (s : State) (k n : Nat) : (s.ask k n).ctxs = s.ctxs := by unfold State.ask; split <;> rfl
@[simp] theorem State.ask_parts (s : State) (k n : Nat) : (s.ask k n).parts = s.parts := by unfold State.ask; split <;> rfl
@[simp] theorem State.ask_fences (s : State) (k n : Nat) : (s.ask k n).fences = s.fences := by unfold State.ask; split <;> rfl
@[simp] theorem State.ask_edges (s : State) (k n : Nat) : (s.ask k n).edges = s.edges := by unfold State.ask; split <;> rfl
@[simp] theorem State.ask_grf (s : State) (k n : Nat) : (s.ask k n).grf = s.grf := by unfold State.ask; split <;> rfl
@[simp] theorem State.ask_tags (s : State) (k n : Nat) : (s.ask k n).tags = s.tags := by unfold State.ask; split <;> rfl
@[simp] theorem State.ask_waiting (s : State) (k n : Nat) : (s.ask k n).waiting = s.waiting := by unfold State.ask; split <;> rfl
@[simp] theorem State.ask_xlt (s : State) (k n : Nat) : (s.ask k n).xlt = s.xlt := by unfold State.ask; split <;> rfl
@[simp] theorem State.ask_postbags (s : State) (k n : Nat) : (s.ask k n).postbags = s.postbags := by unfold State.ask; split <;> rfl
@[simp] theorem State.ask_keys (s : State) (k n : Nat) : (s.ask k n).keys = s.keys := by unfold State.ask; split <;> rfl
@[simp] theorem State.ask_tables (s : State) (k n : Nat) : (s.ask k n).tables = s.tables := by unfold State.ask; split <;> rfl
@[simp] theorem State.ask_streams (s : State) (k n : Nat) : (s.ask k n).streams = s.streams := by unfold State.ask; split <;> rfl
@[simp] theorem State.ask_evc (s : State) (k n : Nat) : (s.ask k n).evc = s.evc := by unfold State.ask; split <;> rfl
@[simp] theorem State.ask_eps (s : State) (k n : Nat) : (s.ask k n).eps = s.eps := by unfold State.ask; split <;> rfl
@[simp] theorem State.ask_stns (s : State) (k n : Nat) : (s.ask k n).stns = s.stns := by unfold State.ask; split <;> rfl
@[simp] theorem State.ask_rst (s : State) (k n : Nat) : (s.ask k n).rst = s.rst := by unfold State.ask; split <;> rfl
@[simp] theorem State.ask_rcv (s : State) (k n : Nat) : (s.ask k n).rcv = s.rcv := by unfold State.ask; split <;> rfl
@[simp] theorem State.ask_cores (s : State) (k n : Nat) : (s.ask k n).cores = s.cores := by unfold State.ask; split <;> rfl
@[simp] theorem State.ask_links (s : State) (k n : Nat) : (s.ask k n).links = s.links := by unfold State.ask; split <;> rfl
@[simp] theorem State.ask_cxSel (s : State) (k n : Nat) : (s.ask k n).cxSel = s.cxSel := by unfold State.ask; split <;> rfl
@[simp] theorem State.ask_pwr (s : State) (k n : Nat) : (s.ask k n).pwr = s.pwr := by unfold State.ask; split <;> rfl
@[simp] theorem State.ask_opts (s : State) (k n : Nat) : (s.ask k n).opts = s.opts := by unfold State.ask; split <;> rfl
@[simp] theorem State.ask_shadow (s : State) (k n : Nat) : (s.ask k n).shadow = s.shadow := by unfold State.ask; split <;> rfl
@[simp] theorem State.ask_nvm (s : State) (k n : Nat) : (s.ask k n).nvm = s.nvm := by unfold State.ask; split <;> rfl
@[simp] theorem State.ask_spi (s : State) (k n : Nat) : (s.ask k n).spi = s.spi := by unfold State.ask; split <;> rfl
@[simp] theorem State.ask_logAt (s : State) (k n : Nat) : (s.ask k n).logAt = s.logAt := by unfold State.ask; split <;> rfl
@[simp] theorem State.ask_logSeq (s : State) (k n : Nat) : (s.ask k n).logSeq = s.logSeq := by unfold State.ask; split <;> rfl
@[simp] theorem State.ask_fuses (s : State) (k n : Nat) : (s.ask k n).fuses = s.fuses := by unfold State.ask; split <;> rfl
@[simp] theorem State.ask_fw (s : State) (k n : Nat) : (s.ask k n).fw = s.fw := by unfold State.ask; split <;> rfl
@[simp] theorem State.ask_rails (s : State) (k n : Nat) : (s.ask k n).rails = s.rails := by unfold State.ask; split <;> rfl
@[simp] theorem State.ask_age (s : State) (k n : Nat) : (s.ask k n).age = s.age := by unfold State.ask; split <;> rfl
@[simp] theorem State.ask_life (s : State) (k n : Nat) : (s.ask k n).life = s.life := by unfold State.ask; split <;> rfl
@[simp] theorem State.ask_incr (s : State) (k n : Nat) : (s.ask k n).incr = s.incr := by unfold State.ask; split <;> rfl
@[simp] theorem State.ask_mgt (s : State) (k n : Nat) : (s.ask k n).mgt = s.mgt := by unfold State.ask; split <;> rfl
@[simp] theorem State.ask_tray (s : State) (k n : Nat) : (s.ask k n).tray = s.tray := by unfold State.ask; split <;> rfl
@[simp] theorem State.ask_ltpTakes (s : State) (k n : Nat) : (s.ask k n).ltpTakes = s.ltpTakes := by unfold State.ask; split <;> rfl

/-! ### State.setInput -/

@[simp] theorem State.setInput_pending (s : State) (n : Nat) (l : Bool) (i : Nat) : (s.setInput n l i).pending = s.pending := by unfold State.setInput; split <;> rfl
@[simp] theorem State.setInput_build (s : State) (n : Nat) (l : Bool) (i : Nat) : (s.setInput n l i).build = s.build := by unfold State.setInput; split <;> rfl
@[simp] theorem State.setInput_host (s : State) (n : Nat) (l : Bool) (i : Nat) : (s.setInput n l i).host = s.host := by unfold State.setInput; split <;> rfl
@[simp] theorem State.setInput_stnMem (s : State) (n : Nat) (l : Bool) (i : Nat) : (s.setInput n l i).stnMem = s.stnMem := by unfold State.setInput; split <;> rfl
@[simp] theorem State.setInput_out (s : State) (n : Nat) (l : Bool) (i : Nat) : (s.setInput n l i).out = s.out := by unfold State.setInput; split <;> rfl
@[simp] theorem State.setInput_fresh (s : State) (n : Nat) (l : Bool) (i : Nat) : (s.setInput n l i).fresh = s.fresh := by unfold State.setInput; split <;> rfl
@[simp] theorem State.setInput_mqi (s : State) (n : Nat) (l : Bool) (i : Nat) : (s.setInput n l i).mqi = s.mqi := by unfold State.setInput; split <;> rfl
@[simp] theorem State.setInput_fns (s : State) (n : Nat) (l : Bool) (i : Nat) : (s.setInput n l i).fns = s.fns := by unfold State.setInput; split <;> rfl
@[simp] theorem State.setInput_queues (s : State) (n : Nat) (l : Bool) (i : Nat) : (s.setInput n l i).queues = s.queues := by unfold State.setInput; split <;> rfl
@[simp] theorem State.setInput_cmds (s : State) (n : Nat) (l : Bool) (i : Nat) : (s.setInput n l i).cmds = s.cmds := by unfold State.setInput; split <;> rfl
@[simp] theorem State.setInput_admitted (s : State) (n : Nat) (l : Bool) (i : Nat) : (s.setInput n l i).admitted = s.admitted := by unfold State.setInput; split <;> rfl
@[simp] theorem State.setInput_arb (s : State) (n : Nat) (l : Bool) (i : Nat) : (s.setInput n l i).arb = s.arb := by unfold State.setInput; split <;> rfl
@[simp] theorem State.setInput_ctxs (s : State) (n : Nat) (l : Bool) (i : Nat) : (s.setInput n l i).ctxs = s.ctxs := by unfold State.setInput; split <;> rfl
@[simp] theorem State.setInput_parts (s : State) (n : Nat) (l : Bool) (i : Nat) : (s.setInput n l i).parts = s.parts := by unfold State.setInput; split <;> rfl
@[simp] theorem State.setInput_fences (s : State) (n : Nat) (l : Bool) (i : Nat) : (s.setInput n l i).fences = s.fences := by unfold State.setInput; split <;> rfl
@[simp] theorem State.setInput_edges (s : State) (n : Nat) (l : Bool) (i : Nat) : (s.setInput n l i).edges = s.edges := by unfold State.setInput; split <;> rfl
@[simp] theorem State.setInput_grf (s : State) (n : Nat) (l : Bool) (i : Nat) : (s.setInput n l i).grf = s.grf := by unfold State.setInput; split <;> rfl
@[simp] theorem State.setInput_tags (s : State) (n : Nat) (l : Bool) (i : Nat) : (s.setInput n l i).tags = s.tags := by unfold State.setInput; split <;> rfl
@[simp] theorem State.setInput_waiting (s : State) (n : Nat) (l : Bool) (i : Nat) : (s.setInput n l i).waiting = s.waiting := by unfold State.setInput; split <;> rfl
@[simp] theorem State.setInput_xlt (s : State) (n : Nat) (l : Bool) (i : Nat) : (s.setInput n l i).xlt = s.xlt := by unfold State.setInput; split <;> rfl
@[simp] theorem State.setInput_postbags (s : State) (n : Nat) (l : Bool) (i : Nat) : (s.setInput n l i).postbags = s.postbags := by unfold State.setInput; split <;> rfl
@[simp] theorem State.setInput_keys (s : State) (n : Nat) (l : Bool) (i : Nat) : (s.setInput n l i).keys = s.keys := by unfold State.setInput; split <;> rfl
@[simp] theorem State.setInput_tables (s : State) (n : Nat) (l : Bool) (i : Nat) : (s.setInput n l i).tables = s.tables := by unfold State.setInput; split <;> rfl
@[simp] theorem State.setInput_streams (s : State) (n : Nat) (l : Bool) (i : Nat) : (s.setInput n l i).streams = s.streams := by unfold State.setInput; split <;> rfl
@[simp] theorem State.setInput_eps (s : State) (n : Nat) (l : Bool) (i : Nat) : (s.setInput n l i).eps = s.eps := by unfold State.setInput; split <;> rfl
@[simp] theorem State.setInput_stns (s : State) (n : Nat) (l : Bool) (i : Nat) : (s.setInput n l i).stns = s.stns := by unfold State.setInput; split <;> rfl
@[simp] theorem State.setInput_want (s : State) (n : Nat) (l : Bool) (i : Nat) : (s.setInput n l i).want = s.want := by unfold State.setInput; split <;> rfl
@[simp] theorem State.setInput_rst (s : State) (n : Nat) (l : Bool) (i : Nat) : (s.setInput n l i).rst = s.rst := by unfold State.setInput; split <;> rfl
@[simp] theorem State.setInput_rcv (s : State) (n : Nat) (l : Bool) (i : Nat) : (s.setInput n l i).rcv = s.rcv := by unfold State.setInput; split <;> rfl
@[simp] theorem State.setInput_cores (s : State) (n : Nat) (l : Bool) (i : Nat) : (s.setInput n l i).cores = s.cores := by unfold State.setInput; split <;> rfl
@[simp] theorem State.setInput_links (s : State) (n : Nat) (l : Bool) (i : Nat) : (s.setInput n l i).links = s.links := by unfold State.setInput; split <;> rfl
@[simp] theorem State.setInput_cxSel (s : State) (n : Nat) (l : Bool) (i : Nat) : (s.setInput n l i).cxSel = s.cxSel := by unfold State.setInput; split <;> rfl
@[simp] theorem State.setInput_pwr (s : State) (n : Nat) (l : Bool) (i : Nat) : (s.setInput n l i).pwr = s.pwr := by unfold State.setInput; split <;> rfl
@[simp] theorem State.setInput_opts (s : State) (n : Nat) (l : Bool) (i : Nat) : (s.setInput n l i).opts = s.opts := by unfold State.setInput; split <;> rfl
@[simp] theorem State.setInput_shadow (s : State) (n : Nat) (l : Bool) (i : Nat) : (s.setInput n l i).shadow = s.shadow := by unfold State.setInput; split <;> rfl
@[simp] theorem State.setInput_nvm (s : State) (n : Nat) (l : Bool) (i : Nat) : (s.setInput n l i).nvm = s.nvm := by unfold State.setInput; split <;> rfl
@[simp] theorem State.setInput_spi (s : State) (n : Nat) (l : Bool) (i : Nat) : (s.setInput n l i).spi = s.spi := by unfold State.setInput; split <;> rfl
@[simp] theorem State.setInput_logAt (s : State) (n : Nat) (l : Bool) (i : Nat) : (s.setInput n l i).logAt = s.logAt := by unfold State.setInput; split <;> rfl
@[simp] theorem State.setInput_logSeq (s : State) (n : Nat) (l : Bool) (i : Nat) : (s.setInput n l i).logSeq = s.logSeq := by unfold State.setInput; split <;> rfl
@[simp] theorem State.setInput_fuses (s : State) (n : Nat) (l : Bool) (i : Nat) : (s.setInput n l i).fuses = s.fuses := by unfold State.setInput; split <;> rfl
@[simp] theorem State.setInput_fw (s : State) (n : Nat) (l : Bool) (i : Nat) : (s.setInput n l i).fw = s.fw := by unfold State.setInput; split <;> rfl
@[simp] theorem State.setInput_rails (s : State) (n : Nat) (l : Bool) (i : Nat) : (s.setInput n l i).rails = s.rails := by unfold State.setInput; split <;> rfl
@[simp] theorem State.setInput_age (s : State) (n : Nat) (l : Bool) (i : Nat) : (s.setInput n l i).age = s.age := by unfold State.setInput; split <;> rfl
@[simp] theorem State.setInput_life (s : State) (n : Nat) (l : Bool) (i : Nat) : (s.setInput n l i).life = s.life := by unfold State.setInput; split <;> rfl
@[simp] theorem State.setInput_incr (s : State) (n : Nat) (l : Bool) (i : Nat) : (s.setInput n l i).incr = s.incr := by unfold State.setInput; split <;> rfl
@[simp] theorem State.setInput_mgt (s : State) (n : Nat) (l : Bool) (i : Nat) : (s.setInput n l i).mgt = s.mgt := by unfold State.setInput; split <;> rfl
@[simp] theorem State.setInput_tray (s : State) (n : Nat) (l : Bool) (i : Nat) : (s.setInput n l i).tray = s.tray := by unfold State.setInput; split <;> rfl
@[simp] theorem State.setInput_ltpTakes (s : State) (n : Nat) (l : Bool) (i : Nat) : (s.setInput n l i).ltpTakes = s.ltpTakes := by unfold State.setInput; split <;> rfl

/-! ### State.countBy -/

@[simp] theorem State.countBy_pending (s : State) (x k n : Nat) : (s.countBy x k n).pending = s.pending := by unfold State.countBy; split <;> rfl
@[simp] theorem State.countBy_build (s : State) (x k n : Nat) : (s.countBy x k n).build = s.build := by unfold State.countBy; split <;> rfl
@[simp] theorem State.countBy_host (s : State) (x k n : Nat) : (s.countBy x k n).host = s.host := by unfold State.countBy; split <;> rfl
@[simp] theorem State.countBy_stnMem (s : State) (x k n : Nat) : (s.countBy x k n).stnMem = s.stnMem := by unfold State.countBy; split <;> rfl
@[simp] theorem State.countBy_out (s : State) (x k n : Nat) : (s.countBy x k n).out = s.out := by unfold State.countBy; split <;> rfl
@[simp] theorem State.countBy_fresh (s : State) (x k n : Nat) : (s.countBy x k n).fresh = s.fresh := by unfold State.countBy; split <;> rfl
@[simp] theorem State.countBy_mqi (s : State) (x k n : Nat) : (s.countBy x k n).mqi = s.mqi := by unfold State.countBy; split <;> rfl
@[simp] theorem State.countBy_fns (s : State) (x k n : Nat) : (s.countBy x k n).fns = s.fns := by unfold State.countBy; split <;> rfl
@[simp] theorem State.countBy_queues (s : State) (x k n : Nat) : (s.countBy x k n).queues = s.queues := by unfold State.countBy; split <;> rfl
@[simp] theorem State.countBy_cmds (s : State) (x k n : Nat) : (s.countBy x k n).cmds = s.cmds := by unfold State.countBy; split <;> rfl
@[simp] theorem State.countBy_admitted (s : State) (x k n : Nat) : (s.countBy x k n).admitted = s.admitted := by unfold State.countBy; split <;> rfl
@[simp] theorem State.countBy_arb (s : State) (x k n : Nat) : (s.countBy x k n).arb = s.arb := by unfold State.countBy; split <;> rfl
@[simp] theorem State.countBy_ctxs (s : State) (x k n : Nat) : (s.countBy x k n).ctxs = s.ctxs := by unfold State.countBy; split <;> rfl
@[simp] theorem State.countBy_parts (s : State) (x k n : Nat) : (s.countBy x k n).parts = s.parts := by unfold State.countBy; split <;> rfl
@[simp] theorem State.countBy_fences (s : State) (x k n : Nat) : (s.countBy x k n).fences = s.fences := by unfold State.countBy; split <;> rfl
@[simp] theorem State.countBy_edges (s : State) (x k n : Nat) : (s.countBy x k n).edges = s.edges := by unfold State.countBy; split <;> rfl
@[simp] theorem State.countBy_grf (s : State) (x k n : Nat) : (s.countBy x k n).grf = s.grf := by unfold State.countBy; split <;> rfl
@[simp] theorem State.countBy_tags (s : State) (x k n : Nat) : (s.countBy x k n).tags = s.tags := by unfold State.countBy; split <;> rfl
@[simp] theorem State.countBy_waiting (s : State) (x k n : Nat) : (s.countBy x k n).waiting = s.waiting := by unfold State.countBy; split <;> rfl
@[simp] theorem State.countBy_xlt (s : State) (x k n : Nat) : (s.countBy x k n).xlt = s.xlt := by unfold State.countBy; split <;> rfl
@[simp] theorem State.countBy_postbags (s : State) (x k n : Nat) : (s.countBy x k n).postbags = s.postbags := by unfold State.countBy; split <;> rfl
@[simp] theorem State.countBy_keys (s : State) (x k n : Nat) : (s.countBy x k n).keys = s.keys := by unfold State.countBy; split <;> rfl
@[simp] theorem State.countBy_tables (s : State) (x k n : Nat) : (s.countBy x k n).tables = s.tables := by unfold State.countBy; split <;> rfl
@[simp] theorem State.countBy_streams (s : State) (x k n : Nat) : (s.countBy x k n).streams = s.streams := by unfold State.countBy; split <;> rfl
@[simp] theorem State.countBy_evc (s : State) (x k n : Nat) : (s.countBy x k n).evc = s.evc := by unfold State.countBy; split <;> rfl
@[simp] theorem State.countBy_eps (s : State) (x k n : Nat) : (s.countBy x k n).eps = s.eps := by unfold State.countBy; split <;> rfl
@[simp] theorem State.countBy_stns (s : State) (x k n : Nat) : (s.countBy x k n).stns = s.stns := by unfold State.countBy; split <;> rfl
@[simp] theorem State.countBy_want (s : State) (x k n : Nat) : (s.countBy x k n).want = s.want := by unfold State.countBy; split <;> rfl
@[simp] theorem State.countBy_rst (s : State) (x k n : Nat) : (s.countBy x k n).rst = s.rst := by unfold State.countBy; split <;> rfl
@[simp] theorem State.countBy_rcv (s : State) (x k n : Nat) : (s.countBy x k n).rcv = s.rcv := by unfold State.countBy; split <;> rfl
@[simp] theorem State.countBy_cores (s : State) (x k n : Nat) : (s.countBy x k n).cores = s.cores := by unfold State.countBy; split <;> rfl
@[simp] theorem State.countBy_links (s : State) (x k n : Nat) : (s.countBy x k n).links = s.links := by unfold State.countBy; split <;> rfl
@[simp] theorem State.countBy_cxSel (s : State) (x k n : Nat) : (s.countBy x k n).cxSel = s.cxSel := by unfold State.countBy; split <;> rfl
@[simp] theorem State.countBy_pwr (s : State) (x k n : Nat) : (s.countBy x k n).pwr = s.pwr := by unfold State.countBy; split <;> rfl
@[simp] theorem State.countBy_opts (s : State) (x k n : Nat) : (s.countBy x k n).opts = s.opts := by unfold State.countBy; split <;> rfl
@[simp] theorem State.countBy_shadow (s : State) (x k n : Nat) : (s.countBy x k n).shadow = s.shadow := by unfold State.countBy; split <;> rfl
@[simp] theorem State.countBy_nvm (s : State) (x k n : Nat) : (s.countBy x k n).nvm = s.nvm := by unfold State.countBy; split <;> rfl
@[simp] theorem State.countBy_spi (s : State) (x k n : Nat) : (s.countBy x k n).spi = s.spi := by unfold State.countBy; split <;> rfl
@[simp] theorem State.countBy_logAt (s : State) (x k n : Nat) : (s.countBy x k n).logAt = s.logAt := by unfold State.countBy; split <;> rfl
@[simp] theorem State.countBy_logSeq (s : State) (x k n : Nat) : (s.countBy x k n).logSeq = s.logSeq := by unfold State.countBy; split <;> rfl
@[simp] theorem State.countBy_fuses (s : State) (x k n : Nat) : (s.countBy x k n).fuses = s.fuses := by unfold State.countBy; split <;> rfl
@[simp] theorem State.countBy_fw (s : State) (x k n : Nat) : (s.countBy x k n).fw = s.fw := by unfold State.countBy; split <;> rfl
@[simp] theorem State.countBy_rails (s : State) (x k n : Nat) : (s.countBy x k n).rails = s.rails := by unfold State.countBy; split <;> rfl
@[simp] theorem State.countBy_age (s : State) (x k n : Nat) : (s.countBy x k n).age = s.age := by unfold State.countBy; split <;> rfl
@[simp] theorem State.countBy_life (s : State) (x k n : Nat) : (s.countBy x k n).life = s.life := by unfold State.countBy; split <;> rfl
@[simp] theorem State.countBy_mgt (s : State) (x k n : Nat) : (s.countBy x k n).mgt = s.mgt := by unfold State.countBy; split <;> rfl
@[simp] theorem State.countBy_tray (s : State) (x k n : Nat) : (s.countBy x k n).tray = s.tray := by unfold State.countBy; split <;> rfl
@[simp] theorem State.countBy_ltpTakes (s : State) (x k n : Nat) : (s.countBy x k n).ltpTakes = s.ltpTakes := by unfold State.countBy; split <;> rfl

/-! ### State.raise -/

@[simp] theorem State.raise_pending (s : State) (n i : Nat) : (s.raise n i).pending = s.pending := by simp [State.raise]
@[simp] theorem State.raise_build (s : State) (n i : Nat) : (s.raise n i).build = s.build := by simp [State.raise]
@[simp] theorem State.raise_host (s : State) (n i : Nat) : (s.raise n i).host = s.host := by simp [State.raise]
@[simp] theorem State.raise_stnMem (s : State) (n i : Nat) : (s.raise n i).stnMem = s.stnMem := by simp [State.raise]
@[simp] theorem State.raise_out (s : State) (n i : Nat) : (s.raise n i).out = s.out := by simp [State.raise]
@[simp] theorem State.raise_fresh (s : State) (n i : Nat) : (s.raise n i).fresh = s.fresh := by simp [State.raise]
@[simp] theorem State.raise_mqi (s : State) (n i : Nat) : (s.raise n i).mqi = s.mqi := by simp [State.raise]
@[simp] theorem State.raise_fns (s : State) (n i : Nat) : (s.raise n i).fns = s.fns := by simp [State.raise]
@[simp] theorem State.raise_queues (s : State) (n i : Nat) : (s.raise n i).queues = s.queues := by simp [State.raise]
@[simp] theorem State.raise_cmds (s : State) (n i : Nat) : (s.raise n i).cmds = s.cmds := by simp [State.raise]
@[simp] theorem State.raise_admitted (s : State) (n i : Nat) : (s.raise n i).admitted = s.admitted := by simp [State.raise]
@[simp] theorem State.raise_arb (s : State) (n i : Nat) : (s.raise n i).arb = s.arb := by simp [State.raise]
@[simp] theorem State.raise_ctxs (s : State) (n i : Nat) : (s.raise n i).ctxs = s.ctxs := by simp [State.raise]
@[simp] theorem State.raise_parts (s : State) (n i : Nat) : (s.raise n i).parts = s.parts := by simp [State.raise]
@[simp] theorem State.raise_fences (s : State) (n i : Nat) : (s.raise n i).fences = s.fences := by simp [State.raise]
@[simp] theorem State.raise_edges (s : State) (n i : Nat) : (s.raise n i).edges = s.edges := by simp [State.raise]
@[simp] theorem State.raise_grf (s : State) (n i : Nat) : (s.raise n i).grf = s.grf := by simp [State.raise]
@[simp] theorem State.raise_tags (s : State) (n i : Nat) : (s.raise n i).tags = s.tags := by simp [State.raise]
@[simp] theorem State.raise_waiting (s : State) (n i : Nat) : (s.raise n i).waiting = s.waiting := by simp [State.raise]
@[simp] theorem State.raise_xlt (s : State) (n i : Nat) : (s.raise n i).xlt = s.xlt := by simp [State.raise]
@[simp] theorem State.raise_postbags (s : State) (n i : Nat) : (s.raise n i).postbags = s.postbags := by simp [State.raise]
@[simp] theorem State.raise_keys (s : State) (n i : Nat) : (s.raise n i).keys = s.keys := by simp [State.raise]
@[simp] theorem State.raise_tables (s : State) (n i : Nat) : (s.raise n i).tables = s.tables := by simp [State.raise]
@[simp] theorem State.raise_streams (s : State) (n i : Nat) : (s.raise n i).streams = s.streams := by simp [State.raise]
@[simp] theorem State.raise_eps (s : State) (n i : Nat) : (s.raise n i).eps = s.eps := by simp [State.raise]
@[simp] theorem State.raise_stns (s : State) (n i : Nat) : (s.raise n i).stns = s.stns := by simp [State.raise]
@[simp] theorem State.raise_want (s : State) (n i : Nat) : (s.raise n i).want = s.want := by simp [State.raise]
@[simp] theorem State.raise_rst (s : State) (n i : Nat) : (s.raise n i).rst = s.rst := by simp [State.raise]
@[simp] theorem State.raise_rcv (s : State) (n i : Nat) : (s.raise n i).rcv = s.rcv := by simp [State.raise]
@[simp] theorem State.raise_cores (s : State) (n i : Nat) : (s.raise n i).cores = s.cores := by simp [State.raise]
@[simp] theorem State.raise_links (s : State) (n i : Nat) : (s.raise n i).links = s.links := by simp [State.raise]
@[simp] theorem State.raise_cxSel (s : State) (n i : Nat) : (s.raise n i).cxSel = s.cxSel := by simp [State.raise]
@[simp] theorem State.raise_pwr (s : State) (n i : Nat) : (s.raise n i).pwr = s.pwr := by simp [State.raise]
@[simp] theorem State.raise_opts (s : State) (n i : Nat) : (s.raise n i).opts = s.opts := by simp [State.raise]
@[simp] theorem State.raise_shadow (s : State) (n i : Nat) : (s.raise n i).shadow = s.shadow := by simp [State.raise]
@[simp] theorem State.raise_nvm (s : State) (n i : Nat) : (s.raise n i).nvm = s.nvm := by simp [State.raise]
@[simp] theorem State.raise_spi (s : State) (n i : Nat) : (s.raise n i).spi = s.spi := by simp [State.raise]
@[simp] theorem State.raise_logAt (s : State) (n i : Nat) : (s.raise n i).logAt = s.logAt := by simp [State.raise]
@[simp] theorem State.raise_logSeq (s : State) (n i : Nat) : (s.raise n i).logSeq = s.logSeq := by simp [State.raise]
@[simp] theorem State.raise_fuses (s : State) (n i : Nat) : (s.raise n i).fuses = s.fuses := by simp [State.raise]
@[simp] theorem State.raise_fw (s : State) (n i : Nat) : (s.raise n i).fw = s.fw := by simp [State.raise]
@[simp] theorem State.raise_rails (s : State) (n i : Nat) : (s.raise n i).rails = s.rails := by simp [State.raise]
@[simp] theorem State.raise_age (s : State) (n i : Nat) : (s.raise n i).age = s.age := by simp [State.raise]
@[simp] theorem State.raise_life (s : State) (n i : Nat) : (s.raise n i).life = s.life := by simp [State.raise]
@[simp] theorem State.raise_incr (s : State) (n i : Nat) : (s.raise n i).incr = s.incr := by simp [State.raise]
@[simp] theorem State.raise_mgt (s : State) (n i : Nat) : (s.raise n i).mgt = s.mgt := by simp [State.raise]
@[simp] theorem State.raise_tray (s : State) (n i : Nat) : (s.raise n i).tray = s.tray := by simp [State.raise]
@[simp] theorem State.raise_ltpTakes (s : State) (n i : Nat) : (s.raise n i).ltpTakes = s.ltpTakes := by simp [State.raise]

/-! ### State.notify -/

@[simp] theorem State.notify_pending (s : State) (f c : Nat) : (s.notify f c).pending = s.pending := by simp [State.notify]
@[simp] theorem State.notify_build (s : State) (f c : Nat) : (s.notify f c).build = s.build := by simp [State.notify]
@[simp] theorem State.notify_host (s : State) (f c : Nat) : (s.notify f c).host = s.host := by simp [State.notify]
@[simp] theorem State.notify_stnMem (s : State) (f c : Nat) : (s.notify f c).stnMem = s.stnMem := by simp [State.notify]
@[simp] theorem State.notify_out (s : State) (f c : Nat) : (s.notify f c).out = s.out := by simp [State.notify]
@[simp] theorem State.notify_fresh (s : State) (f c : Nat) : (s.notify f c).fresh = s.fresh := by simp [State.notify]
@[simp] theorem State.notify_mqi (s : State) (f c : Nat) : (s.notify f c).mqi = s.mqi := by simp [State.notify]
@[simp] theorem State.notify_fns (s : State) (f c : Nat) : (s.notify f c).fns = s.fns := by simp [State.notify]
@[simp] theorem State.notify_queues (s : State) (f c : Nat) : (s.notify f c).queues = s.queues := by simp [State.notify]
@[simp] theorem State.notify_cmds (s : State) (f c : Nat) : (s.notify f c).cmds = s.cmds := by simp [State.notify]
@[simp] theorem State.notify_admitted (s : State) (f c : Nat) : (s.notify f c).admitted = s.admitted := by simp [State.notify]
@[simp] theorem State.notify_arb (s : State) (f c : Nat) : (s.notify f c).arb = s.arb := by simp [State.notify]
@[simp] theorem State.notify_ctxs (s : State) (f c : Nat) : (s.notify f c).ctxs = s.ctxs := by simp [State.notify]
@[simp] theorem State.notify_parts (s : State) (f c : Nat) : (s.notify f c).parts = s.parts := by simp [State.notify]
@[simp] theorem State.notify_fences (s : State) (f c : Nat) : (s.notify f c).fences = s.fences := by simp [State.notify]
@[simp] theorem State.notify_edges (s : State) (f c : Nat) : (s.notify f c).edges = s.edges := by simp [State.notify]
@[simp] theorem State.notify_grf (s : State) (f c : Nat) : (s.notify f c).grf = s.grf := by simp [State.notify]
@[simp] theorem State.notify_tags (s : State) (f c : Nat) : (s.notify f c).tags = s.tags := by simp [State.notify]
@[simp] theorem State.notify_waiting (s : State) (f c : Nat) : (s.notify f c).waiting = s.waiting := by simp [State.notify]
@[simp] theorem State.notify_xlt (s : State) (f c : Nat) : (s.notify f c).xlt = s.xlt := by simp [State.notify]
@[simp] theorem State.notify_postbags (s : State) (f c : Nat) : (s.notify f c).postbags = s.postbags := by simp [State.notify]
@[simp] theorem State.notify_keys (s : State) (f c : Nat) : (s.notify f c).keys = s.keys := by simp [State.notify]
@[simp] theorem State.notify_tables (s : State) (f c : Nat) : (s.notify f c).tables = s.tables := by simp [State.notify]
@[simp] theorem State.notify_streams (s : State) (f c : Nat) : (s.notify f c).streams = s.streams := by simp [State.notify]
@[simp] theorem State.notify_eps (s : State) (f c : Nat) : (s.notify f c).eps = s.eps := by simp [State.notify]
@[simp] theorem State.notify_stns (s : State) (f c : Nat) : (s.notify f c).stns = s.stns := by simp [State.notify]
@[simp] theorem State.notify_want (s : State) (f c : Nat) : (s.notify f c).want = s.want := by simp [State.notify]
@[simp] theorem State.notify_rst (s : State) (f c : Nat) : (s.notify f c).rst = s.rst := by simp [State.notify]
@[simp] theorem State.notify_rcv (s : State) (f c : Nat) : (s.notify f c).rcv = s.rcv := by simp [State.notify]
@[simp] theorem State.notify_cores (s : State) (f c : Nat) : (s.notify f c).cores = s.cores := by simp [State.notify]
@[simp] theorem State.notify_links (s : State) (f c : Nat) : (s.notify f c).links = s.links := by simp [State.notify]
@[simp] theorem State.notify_cxSel (s : State) (f c : Nat) : (s.notify f c).cxSel = s.cxSel := by simp [State.notify]
@[simp] theorem State.notify_pwr (s : State) (f c : Nat) : (s.notify f c).pwr = s.pwr := by simp [State.notify]
@[simp] theorem State.notify_opts (s : State) (f c : Nat) : (s.notify f c).opts = s.opts := by simp [State.notify]
@[simp] theorem State.notify_shadow (s : State) (f c : Nat) : (s.notify f c).shadow = s.shadow := by simp [State.notify]
@[simp] theorem State.notify_nvm (s : State) (f c : Nat) : (s.notify f c).nvm = s.nvm := by simp [State.notify]
@[simp] theorem State.notify_spi (s : State) (f c : Nat) : (s.notify f c).spi = s.spi := by simp [State.notify]
@[simp] theorem State.notify_logAt (s : State) (f c : Nat) : (s.notify f c).logAt = s.logAt := by simp [State.notify]
@[simp] theorem State.notify_logSeq (s : State) (f c : Nat) : (s.notify f c).logSeq = s.logSeq := by simp [State.notify]
@[simp] theorem State.notify_fuses (s : State) (f c : Nat) : (s.notify f c).fuses = s.fuses := by simp [State.notify]
@[simp] theorem State.notify_fw (s : State) (f c : Nat) : (s.notify f c).fw = s.fw := by simp [State.notify]
@[simp] theorem State.notify_rails (s : State) (f c : Nat) : (s.notify f c).rails = s.rails := by simp [State.notify]
@[simp] theorem State.notify_age (s : State) (f c : Nat) : (s.notify f c).age = s.age := by simp [State.notify]
@[simp] theorem State.notify_life (s : State) (f c : Nat) : (s.notify f c).life = s.life := by simp [State.notify]
@[simp] theorem State.notify_incr (s : State) (f c : Nat) : (s.notify f c).incr = s.incr := by simp [State.notify]
@[simp] theorem State.notify_mgt (s : State) (f c : Nat) : (s.notify f c).mgt = s.mgt := by simp [State.notify]
@[simp] theorem State.notify_tray (s : State) (f c : Nat) : (s.notify f c).tray = s.tray := by simp [State.notify]
@[simp] theorem State.notify_ltpTakes (s : State) (f c : Nat) : (s.notify f c).ltpTakes = s.ltpTakes := by simp [State.notify]

/-! ### State.count -/

@[simp] theorem State.count_pending (s : State) (x k : Nat) : (s.count x k).pending = s.pending := by simp [State.count]
@[simp] theorem State.count_build (s : State) (x k : Nat) : (s.count x k).build = s.build := by simp [State.count]
@[simp] theorem State.count_host (s : State) (x k : Nat) : (s.count x k).host = s.host := by simp [State.count]
@[simp] theorem State.count_stnMem (s : State) (x k : Nat) : (s.count x k).stnMem = s.stnMem := by simp [State.count]
@[simp] theorem State.count_out (s : State) (x k : Nat) : (s.count x k).out = s.out := by simp [State.count]
@[simp] theorem State.count_fresh (s : State) (x k : Nat) : (s.count x k).fresh = s.fresh := by simp [State.count]
@[simp] theorem State.count_mqi (s : State) (x k : Nat) : (s.count x k).mqi = s.mqi := by simp [State.count]
@[simp] theorem State.count_fns (s : State) (x k : Nat) : (s.count x k).fns = s.fns := by simp [State.count]
@[simp] theorem State.count_queues (s : State) (x k : Nat) : (s.count x k).queues = s.queues := by simp [State.count]
@[simp] theorem State.count_cmds (s : State) (x k : Nat) : (s.count x k).cmds = s.cmds := by simp [State.count]
@[simp] theorem State.count_admitted (s : State) (x k : Nat) : (s.count x k).admitted = s.admitted := by simp [State.count]
@[simp] theorem State.count_arb (s : State) (x k : Nat) : (s.count x k).arb = s.arb := by simp [State.count]
@[simp] theorem State.count_ctxs (s : State) (x k : Nat) : (s.count x k).ctxs = s.ctxs := by simp [State.count]
@[simp] theorem State.count_parts (s : State) (x k : Nat) : (s.count x k).parts = s.parts := by simp [State.count]
@[simp] theorem State.count_fences (s : State) (x k : Nat) : (s.count x k).fences = s.fences := by simp [State.count]
@[simp] theorem State.count_edges (s : State) (x k : Nat) : (s.count x k).edges = s.edges := by simp [State.count]
@[simp] theorem State.count_grf (s : State) (x k : Nat) : (s.count x k).grf = s.grf := by simp [State.count]
@[simp] theorem State.count_tags (s : State) (x k : Nat) : (s.count x k).tags = s.tags := by simp [State.count]
@[simp] theorem State.count_waiting (s : State) (x k : Nat) : (s.count x k).waiting = s.waiting := by simp [State.count]
@[simp] theorem State.count_xlt (s : State) (x k : Nat) : (s.count x k).xlt = s.xlt := by simp [State.count]
@[simp] theorem State.count_postbags (s : State) (x k : Nat) : (s.count x k).postbags = s.postbags := by simp [State.count]
@[simp] theorem State.count_keys (s : State) (x k : Nat) : (s.count x k).keys = s.keys := by simp [State.count]
@[simp] theorem State.count_tables (s : State) (x k : Nat) : (s.count x k).tables = s.tables := by simp [State.count]
@[simp] theorem State.count_streams (s : State) (x k : Nat) : (s.count x k).streams = s.streams := by simp [State.count]
@[simp] theorem State.count_evc (s : State) (x k : Nat) : (s.count x k).evc = s.evc := by simp [State.count]
@[simp] theorem State.count_eps (s : State) (x k : Nat) : (s.count x k).eps = s.eps := by simp [State.count]
@[simp] theorem State.count_stns (s : State) (x k : Nat) : (s.count x k).stns = s.stns := by simp [State.count]
@[simp] theorem State.count_want (s : State) (x k : Nat) : (s.count x k).want = s.want := by simp [State.count]
@[simp] theorem State.count_rst (s : State) (x k : Nat) : (s.count x k).rst = s.rst := by simp [State.count]
@[simp] theorem State.count_rcv (s : State) (x k : Nat) : (s.count x k).rcv = s.rcv := by simp [State.count]
@[simp] theorem State.count_cores (s : State) (x k : Nat) : (s.count x k).cores = s.cores := by simp [State.count]
@[simp] theorem State.count_links (s : State) (x k : Nat) : (s.count x k).links = s.links := by simp [State.count]
@[simp] theorem State.count_cxSel (s : State) (x k : Nat) : (s.count x k).cxSel = s.cxSel := by simp [State.count]
@[simp] theorem State.count_pwr (s : State) (x k : Nat) : (s.count x k).pwr = s.pwr := by simp [State.count]
@[simp] theorem State.count_opts (s : State) (x k : Nat) : (s.count x k).opts = s.opts := by simp [State.count]
@[simp] theorem State.count_shadow (s : State) (x k : Nat) : (s.count x k).shadow = s.shadow := by simp [State.count]
@[simp] theorem State.count_nvm (s : State) (x k : Nat) : (s.count x k).nvm = s.nvm := by simp [State.count]
@[simp] theorem State.count_spi (s : State) (x k : Nat) : (s.count x k).spi = s.spi := by simp [State.count]
@[simp] theorem State.count_logAt (s : State) (x k : Nat) : (s.count x k).logAt = s.logAt := by simp [State.count]
@[simp] theorem State.count_logSeq (s : State) (x k : Nat) : (s.count x k).logSeq = s.logSeq := by simp [State.count]
@[simp] theorem State.count_fuses (s : State) (x k : Nat) : (s.count x k).fuses = s.fuses := by simp [State.count]
@[simp] theorem State.count_fw (s : State) (x k : Nat) : (s.count x k).fw = s.fw := by simp [State.count]
@[simp] theorem State.count_rails (s : State) (x k : Nat) : (s.count x k).rails = s.rails := by simp [State.count]
@[simp] theorem State.count_age (s : State) (x k : Nat) : (s.count x k).age = s.age := by simp [State.count]
@[simp] theorem State.count_life (s : State) (x k : Nat) : (s.count x k).life = s.life := by simp [State.count]
@[simp] theorem State.count_mgt (s : State) (x k : Nat) : (s.count x k).mgt = s.mgt := by simp [State.count]
@[simp] theorem State.count_tray (s : State) (x k : Nat) : (s.count x k).tray = s.tray := by simp [State.count]
@[simp] theorem State.count_ltpTakes (s : State) (x k : Nat) : (s.count x k).ltpTakes = s.ltpTakes := by simp [State.count]

end Sys2Proof.Machine
end

