-- ==== Sys2Proof/Laws/Ops.lean ====
section
/-! SUPPORT. Sys2Proof/Laws/Ops.lean: for each shared operation, once, everything it can do: which fields it may change, and that it
keeps the memories in their form. -/
namespace Sys2Proof.Machine

/-! ### Operations over events, counters and ladder steps -/

theorem State.setInput_frame (s : State) (n : Nat) (l : Bool) (i : Nat) : ∃ e, s.setInput n l i = { s with evc := e } := by
  unfold State.setInput State.setSrc
  split
  · exact ⟨_, rfl⟩
  · exact ⟨s.evc, rfl⟩

/-- A happening changes the event controller alone. -/
theorem State.raise_frame (s : State) (n i : Nat) : ∃ e, s.raise n i = { s with evc := e } := by
  obtain ⟨e, h⟩ := s.setInput_frame n true i
  obtain ⟨f, k⟩ := (s.setInput n true i).setInput_frame n false i
  exact ⟨f, by rw [State.raise, k, h]⟩

theorem State.notify_frame (s : State) (f c : Nat) : ∃ e, s.notify f c = { s with evc := e } := s.raise_frame _ _

/-- A counter changes the companions alone. -/
theorem State.countBy_frame (s : State) (x k n : Nat) : ∃ t, s.countBy x k n = { s with incr := t } := by
  unfold State.countBy
  dsimp only
  split
  · exact ⟨s.incr, rfl⟩
  · exact ⟨_, rfl⟩

theorem State.count_frame (s : State) (x k : Nat) : ∃ t, s.count x k = { s with incr := t } := s.countBy_frame x k 1

theorem State.ask_frame (s : State) (k n : Nat) : ∃ w, s.ask k n = { s with want := w } := by
  unfold State.ask
  split
  · exact ⟨s.want, rfl⟩
  · exact ⟨_, rfl⟩

/-- A step asked for is due. -/
theorem State.mem_ask (s : State) (k n : Nat) : (k, n) ∈ (s.ask k n).want := by
  unfold State.ask
  split
  · rename_i h; simpa using h
  · simp

/-- An error record changes the recovery state and takes a draw. -/
theorem State.elog_frame (s : State) (r : ERec) : ∃ x, s.elog r = { s with fresh := s.fresh + 1, rcv := x } := ⟨_, rfl⟩

/-! ### Folds -/

/-- What each step of a fold keeps, the fold keeps. -/
theorem foldl_keeps {α σ : Type} (P : σ → Prop) (f : σ → α → σ) (l : List α) (h : ∀ s a, a ∈ l → P s → P (f s a)) (s : σ) (hs : P s) :
    P (l.foldl f s) := by
  induction l generalizing s with
  | nil => exact hs
  | cons a l ih => exact ih (fun s b hb => h s b (List.mem_cons_of_mem a hb)) _ (h s a (by simp) hs)

/-- Telling the functions of a partition changes the event controller alone. -/
theorem State.notifyPart_frame (s : State) (p c : Nat) : ∃ e, s.notifyPart p c = { s with evc := e } := by
  unfold State.notifyPart
  refine foldl_keeps (fun t => ∃ e, t = { s with evc := e }) _ _ ?_ s ⟨s.evc, rfl⟩
  rintro _ f - ⟨e, rfl⟩
  obtain ⟨e', h⟩ := State.notify_frame { s with evc := e } f c
  exact ⟨e', h⟩

/-! ### Host writes and interrupts -/

/-- A host write changes host memory and what was driven; a function that may issue nothing drops it (R353). -/
theorem State.hostWrite_cases (s : State) (fn : Nat) (pasid : Option Nat) (a : Nat) (bs : List Byte) (p : Bool) :
    s.hostWrite fn pasid a bs p = s ∨
      s.fnOk fn = true ∧ s.hostWrite fn pasid a bs p = { s with host := s.host.write a bs p, out := s.out ++ ltpWrites fn pasid a bs p } := by
  unfold State.hostWrite
  split
  · rename_i h; exact .inr ⟨h.1, rfl⟩
  · exact .inl rfl

/-- An interrupt is driven, or held by its function. -/
theorem State.irq_frame (s : State) (fn v : Nat) : ∃ o t, s.irq fn v = { s with out := o, fns := t } := by
  unfold State.irq State.emit
  split
  · exact ⟨s.out, s.fns, rfl⟩
  · split
    · exact ⟨_, s.fns, rfl⟩
    · exact ⟨s.out, _, rfl⟩

/-! ### Commands -/

/-- Deciding a command's status changes the command, and drops its notes of walks. -/
theorem State.finish_frame (s : State) (cl : Client) (st n x : Nat) : ∃ t y, s.finish cl st n x = { s with cmds := t, xlt := y } := ⟨_, _, rfl⟩

/-- A command that was not cancelled ends with the status and fields given. -/
theorem State.finish_at (s : State) (cl : Client) (c : Cmd) (st n x : Nat) (h : Tab.at? s.cmds cl = some c) (hc : c.cancel = none) :
    Tab.becomes s.cmds (s.finish cl st n x).cmds cl { c with phase := .done, status := st, count := n % 2 ^ 32, aux := min x (2 ^ 32 - 1) } := by
  refine ⟨?_, fun j hj => Tab.at?_upd_ne _ _ hj⟩
  show Tab.at? (Tab.upd s.cmds cl _) cl = _
  rw [Tab.at?_upd_self, h]
  simp [hc]

/-- A cancelled command keeps the status of its cancellation. -/
theorem State.finish_cancelled (s : State) (cl : Client) (c : Cmd) (k st n x : Nat) (h : Tab.at? s.cmds cl = some c) (hc : c.cancel = some k) :
    Tab.becomes s.cmds (s.finish cl st n x).cmds cl { c with phase := .done, status := k, poison := c.poison || c.left } := by
  refine ⟨?_, fun j hj => Tab.at?_upd_ne _ _ hj⟩
  show Tab.at? (Tab.upd s.cmds cl _) cl = _
  rw [Tab.at?_upd_self, h]
  simp [hc]

/-- A row runs its command's meaning, or nothing happens. -/
theorem State.start_cases (s : State) (q seq : Nat) (mine : Cmd → Bool) (f : Client → Cmd → State → State) :
    s.start q seq mine f = s ∨
      ∃ c, s.cmd (ckey q seq) = some c ∧ (s.mayStart c = true ∨ c.again = true) ∧ mine c = true ∧ s.start q seq mine f = f (ckey q seq) c s := by
  unfold State.start
  split
  · rename_i c hc
    split
    · rename_i h
      simp only [Bool.and_eq_true, Bool.or_eq_true] at h
      exact .inr ⟨c, hc, h.1, h.2, rfl⟩
    · exact .inl rfl
  · exact .inl rfl

/-- A command that may start, or goes on, runs. -/
theorem State.start_runs {s : State} {q seq : Nat} {mine : Cmd → Bool} {c : Cmd} (f : Client → Cmd → State → State)
    (h : s.cmd (ckey q seq) = some c) (hm : s.mayStart c = true ∨ c.again = true) (hc : mine c = true) :
    s.start q seq mine f = f (ckey q seq) c s := by
  unfold State.start
  rw [h]
  rcases hm with hm | hm <;> simp [hm, hc]

/-- Checks that pass go on. -/
@[simp] theorem State.checked_ok {α : Type} (s : State) (cl : Client) (a : α) (k : α → State) : s.checked cl (.ok a) k = k a := rfl
/-- A check that fails stops the command. -/
@[simp] theorem State.checked_error {α : Type} (s : State) (cl : Client) (e : Stop) (k : α → State) : s.checked cl (.error e) k = s.stop cl e := rfl

@[simp] theorem State.stop_fail_none (s : State) (cl : Client) (st : Nat) : s.stop cl (.fail st none) = s.finish cl st 0 0 := rfl

/-! ### Registers -/

/-- A register write reaches the block only when it is READY and the function is enabled (R353, R407). -/
theorem State.mmioOf_cases (s : State) (fn : Nat) (f : State → State) : s.mmioOf fn f = s ∨ s.reaches fn ∧ s.mmioOf fn f = f s := by
  unfold State.mmioOf
  split
  · rename_i h
    simp only [Bool.and_eq_true] at h
    refine .inr ⟨⟨h.1, ?_⟩, rfl⟩
    cases hf : (Tab.at? s.fns fn).map (·.en) <;> simp_all
  · exact .inl rfl

theorem State.mmioOf_reaches {s : State} {fn : Nat} (f : State → State) (h : s.reaches fn) : s.mmioOf fn f = f s := by
  unfold State.mmioOf
  simp [h.1, h.2]

theorem State.mmio_reaches {s : State} (f : State → State) (h : s.reaches 0) : s.mmio f = f s := State.mmioOf_reaches f h

/-! ### The memories keep their form -/

theorem State.count_memWf (s : State) (x k : Nat) : (s.count x k).memWf = s.memWf := State.memWf_congr (by simp) (by simp)
theorem State.raise_memWf (s : State) (n i : Nat) : (s.raise n i).memWf = s.memWf := State.memWf_congr (by simp) (by simp)
theorem State.notify_memWf (s : State) (f c : Nat) : (s.notify f c).memWf = s.memWf := State.memWf_congr (by simp) (by simp)
theorem State.ask_memWf (s : State) (k n : Nat) : (s.ask k n).memWf = s.memWf := State.memWf_congr (by simp) (by simp)
theorem State.emit_memWf (s : State) (o : Output) : (s.emit o).memWf = s.memWf := rfl
theorem State.draw_memWf (s : State) : s.draw.memWf = s.memWf := rfl
theorem State.updPb_memWf (s : State) (n : Nat) (f : Postbag → Postbag) : (s.updPb n f).memWf = s.memWf := rfl
theorem State.updCmd_memWf (s : State) (c : Client) (f : Cmd → Cmd) : (s.updCmd c f).memWf = s.memWf := rfl
theorem State.finish_memWf (s : State) (cl : Client) (st n x : Nat) : (s.finish cl st n x).memWf = s.memWf := rfl

theorem State.pbPut_memWf {s : State} (p : Nat) (r : FaultRec) (h : s.memWf = true) : (s.pbPut p r).memWf = true := by
  unfold State.pbPut
  rw [State.updPb_memWf]
  exact State.hostWrite_memWf _ _ _ _ _ (by rwa [State.count_memWf])

theorem State.pbOvf_memWf {s : State} (p : Nat) (h : s.memWf = true) : (s.pbOvf p).memWf = true := by
  unfold State.pbOvf
  dsimp only
  split
  · split
    · rw [State.updPb_memWf]; exact State.pbPut_memWf p _ h
    · exact h
  · exact h

theorem State.setFaultLost_memWf {s : State} (cid : Nat) (h : s.memWf = true) : (s.setFaultLost cid).memWf = true := by
  unfold State.setFaultLost
  split
  · split
    · exact h
    · rw [State.notify_memWf]; exact h
  · exact h

theorem State.pbLose_memWf {s : State} (p : Nat) (r : FaultRec) (h : s.memWf = true) : (s.pbLose p r).memWf = true := by
  unfold State.pbLose
  dsimp only
  split
  · exact h
  · exact State.setFaultLost_memWf _ h

theorem State.pbRecord_memWf {s : State} (p : Nat) (r : FaultRec) (h : s.memWf = true) : (s.pbRecord p r).memWf = true := by
  unfold State.pbRecord
  dsimp only
  split
  · exact State.pbPut_memWf p r h
  · exact State.pbLose_memWf p r h

theorem State.pbBatch_memWf {s : State} (p : Nat) (h : s.memWf = true) : (s.pbBatch p).memWf = true := by
  unfold State.pbBatch
  dsimp only
  split
  · exact h
  · rw [State.raise_memWf, State.updPb_memWf]
    exact foldl_keeps (fun t => t.memWf = true) _ _ (fun t r _ ht => State.pbRecord_memWf p r ht) s h

theorem State.post_memWf {s : State} (p : Nat) (r : FaultRec) (h : s.memWf = true) : (s.post p r).memWf = true := by
  unfold State.post
  split
  · dsimp only
    split
    · exact State.pbBatch_memWf p h
    · exact h
  · exact h

theorem State.isoFail_memWf {s : State} (r : Req) (h : s.memWf = true) : (s.isoFail r).memWf = true := by
  unfold State.isoFail
  dsimp only
  split
  · exact State.post_memWf _ _ h
  · rw [State.ask_memWf]; exact State.post_memWf _ _ h

/-- A request leaves the memories in their form. -/
theorem State.issue_memWf {s : State} (r : Req) (h : s.memWf = true) : (s.issue r).memWf = true := by
  have hr : (s.listRound r).memWf = true := by unfold State.listRound; split <;> exact h
  have hc : ∀ (t : State) (b : Bool) (p n : Nat), t.memWf = true → (if b = true then t.charge p n else t).memWf = true := fun t b p n ht => by
    unfold State.charge; split <;> (try split) <;> exact ht
  unfold State.issue
  split
  · exact h
  · split
    · exact State.isoFail_memWf r h
    · split
      · exact h
      · dsimp only
        split
        · exact hr
        · split
          · split <;> exact hc _ _ _ _ hr
          · exact hr

theorem State.refill_memWf {s : State} (n : Option Nat) (h : s.memWf = true) : (s.refill n).memWf = true := by
  unfold State.refill
  exact foldl_keeps (fun t : State => t.memWf = true) _ _ (fun t r _ ht => State.issue_memWf r ht) _ h

theorem State.refillLists_memWf {s : State} (h : s.memWf = true) : s.refillLists.memWf = true := by
  unfold State.refillLists
  exact foldl_keeps (fun t : State => t.memWf = true) _ _ (fun t r _ ht => State.issue_memWf r ht) _ h

theorem State.retire_memWf {s : State} (id : Nat) (h : s.memWf = true) : (s.retire id).memWf = true := by
  unfold State.retire
  split
  · exact h
  · dsimp only
    split
    · exact State.refillLists_memWf (State.refill_memWf _ h)
    · exact State.refill_memWf _ h

/-- A write behind a station's port leaves the memories in their form. -/
theorem State.stnWrite_memWf {s : State} (cl : Client) (n cid a : Nat) (bs : List Byte) (p : Bool) (h : s.memWf = true) :
    (s.stnWrite cl n cid a bs p).memWf = true := by
  unfold State.stnWrite
  split
  · exact h
  · dsimp only
    refine foldl_keeps (fun t : State => t.memWf = true) _ _ (fun t x _ ht => State.issue_memWf _ ht) _ ?_
    split
    · rw [State.memWf_iff]
      have hw := (State.memWf_iff s).1 h
      exact ⟨hw.1, memPut_wf n (Mem.write_wf a bs p (State.memOf_wf h n)) hw.2.1 hw.2.2⟩
    · exact h

theorem State.twrite_memWf {s : State} (cl : Client) (cid : Nat) (t : Tgt) (bs : List Byte) (p : Bool) (h : s.memWf = true) :
    (s.twrite cl cid t bs p).memWf = true := by
  unfold State.twrite
  split
  · exact State.hostWrite_memWf _ _ _ _ _ h
  · exact State.stnWrite_memWf _ _ _ _ _ _ h

/-- A write over a translated range leaves the memories in their form. -/
theorem State.pwrite_memWf {s : State} (cl : Client) (cid : Nat) (ps : List Piece) (o : Nat) (bs : List Byte) (p : Bool) (h : s.memWf = true) :
    (s.pwrite cl cid ps o bs p).memWf = true := by
  unfold State.pwrite
  refine foldl_keeps (fun t : State => t.memWf = true) _ _ (fun t x _ ht => ?_) s h
  dsimp only
  split
  · split
    · exact State.twrite_memWf _ _ _ _ _ ht
    · exact ht
  · exact ht

theorem State.rsWrite_wf {s : State} (a : Nat) (bs : List Byte) (h : cellsWf s.rcv.rsram = true) : cellsWf (s.rsWrite a bs).rcv.rsram = true :=
  cellsWrite_wf a bs h

theorem State.nvmProgram_wf {s : State} (a : Nat) (bs : List Byte) (h : cellsWf s.nvm = true) : cellsWf (s.nvmProgram a bs).nvm = true := by
  unfold State.nvmProgram
  split
  · exact cellsOr_wf a _ h
  · simpa using h

theorem State.nvmErase_wf {s : State} (a : Nat) (h : cellsWf s.nvm = true) : cellsWf (s.nvmErase a).nvm = true := by
  unfold State.nvmErase
  split
  · simpa using cells_filter_wf _ h
  · simpa using h

end Sys2Proof.Machine
end

