-- ==== Sys2Proof/WellFormed.lean ====
section
/-! DEFINITION. Sys2Proof/WellFormed.lean: which commands can arrive: every number lies in the range the spec gives it.
Ranges: functions 0 to 256 (R50), queues 15 bits (R61), sequence numbers 48 bits (R71), stations 0 to 47 (R32),
partitions 0 to 47 (R53), engine-port numbers 8 bits (R35), TIDs 16 bits (R85), CIDs 12 bits (R51), sources 0 to 1022
(R324), hub cores 0 to 7 (R29), LTP-H tags 0 to 1,023 (R348), memory-port tags 13 bits and lanes 0 to 15 (R364),
key slots 6 bits (R316), domains 0 to 48 (R460), fuse words 0 to 76 (R386), unit codes as in R416, words 0 to 65,535 of the retention
SRAM (R413). -/
namespace Sys2Proof

/-- A function number (R50). -/
def fnOk (fn : Nat) : Bool := decide (fn ≤ 256)
/-- Who accesses a register: a function, or 512 + c for sequencer core c (R344). -/
def whoOk (fn : Nat) : Bool := fnOk fn || decide (512 ≤ fn ∧ fn < 520)
/-- An offset in BAR0, 32 MiB for the PF and less for a VF (R55, R64). -/
def offOk (off : Nat) : Bool := decide (off < 2 ^ 32)
/-- The bytes of an access: other sizes than 4 and 8 have rules of their own (R66, R350). -/
def widthOk (width : Nat) : Bool := decide (1 ≤ width ∧ width ≤ 4096)
/-- A queue identifier (R61). -/
def qOk (q : Nat) : Bool := decide (q < 2 ^ 15)
/-- A sequence number (R71). -/
def seqOk (seq : Nat) : Bool := decide (seq < 2 ^ 48)
/-- A station slot (R32). -/
def stnOk (stn : Nat) : Bool := decide (stn < 48)
/-- A CAN identifier of 11 or 29 bits (R388). -/
def canOk (id : Nat) (ext : Bool) : Bool := decide (id < if ext then 2 ^ 29 else 2 ^ 11)
/-- A version number (R149). -/
def verOk (ver : Nat) : Bool := decide (ver < 2 ^ 32)

/-- A unit code (R416). -/
def unitOk (u : Nat) : Bool := decide ((1 ≤ u ∧ u ≤ 5) ∨ (0x10 ≤ u ∧ u < 0x18) ∨ (0x100 ≤ u ∧ u < 0x100 + 8 * 48))
/-- What a word holds names a partition, station, postbag, core or word there is (R392). -/
def ParityWord.wf : ParityWord → Bool
  | .data => true
  | .index => true
  | .envelope => true
  | .cacheEntry pid _ => decide (pid < 48)
  | .summary stn => stnOk stn
  | .stationCopy => true
  | .faultRecord pb => decide (pb < 49)
  | .eventRecord => true
  | .partitionState pid => decide (pid < 48)
  | .globalState => true
  | .core n => decide (n < 8)
  | .alwaysOn => true
  | .retention w => decide (w < 65536)
/-- The outcome of a step's parity checks (R391, R414). -/
def Parity.wf : Parity → Bool
  | .good => true
  | .replayed unit _ => unitOk unit
  | .persistent unit word addr h => unitOk unit && decide (word < 2 ^ 32) && decide (addr < 2 ^ 64) && h.wf

/-- Every operand of a command lies in the range the spec gives it. -/
def Instr.wf : Instr → Bool
  | .sqTailDoorbell fn off width _ => fnOk fn && offOk off && widthOk width
  | .cqHeadDoorbell fn off width _ => fnOk fn && offOk off && widthOk width
  | .queueSelectAndFetch => true
  | .expressWindowEnd => true
  | .envelopeReceived tag par => decide (tag < 65536 * 49) && par.wf
  | .commandCompletion q seq => qOk q && seqOk seq
  | .cqItimeExpiry q => qOk q
  | .qctlResume fn q => fnOk fn && qOk q
  | .qctlReset fn q => fnOk fn && qOk q
  | .guiltyQueueResetDone q => qOk q
  | .guiltyResetBoundExpiry q => qOk q
  | .mqiEnable => true
  | .registerWrite fn off width _ => whoOk fn && offOk off && widthOk width
  | .nop q seq => qOk q && seqOk seq
  | .fenceSignal q seq => qOk q && seqOk seq
  | .fenceCreate q seq => qOk q && seqOk seq
  | .fenceDestroy q seq => qOk q && seqOk seq
  | .fenceClearError q seq => qOk q && seqOk seq
  | .fenceWait q seq => qOk q && seqOk seq
  | .graphEdge q seq => qOk q && seqOk seq
  | .lookupPool q seq => qOk q && seqOk seq
  | .lookupGather q seq => qOk q && seqOk seq
  | .lookupMulti q seq => qOk q && seqOk seq
  | .occurrence q seq sub stn par => qOk q && seqOk seq && decide (sub < 64) && stnOk stn && par.wf
  | .partialArrival q seq sub stn pool => qOk q && seqOk seq && decide (sub < 64) && stnOk stn && decide (pool < 2 ^ 24)
  | .stationFinalReport q seq stn => qOk q && seqOk seq && stnOk stn
  | .updateRows q seq => qOk q && seqOk seq
  | .updateAccum q seq => qOk q && seqOk seq
  | .tableSwitchPublish q seq => qOk q && seqOk seq
  | .tableSwitchNewBase q seq => qOk q && seqOk seq
  | .tableSwitchDiscard q seq => qOk q && seqOk seq
  | .switchPoint tid => decide (tid < 65536)
  | .versionRetire tid ver => decide (tid < 65536) && verOk ver
  | .tableRetireWait q seq => qOk q && seqOk seq
  | .tableRetireTable q seq => qOk q && seqOk seq
  | .tableCompactCopy q seq => qOk q && seqOk seq
  | .copyInstall q seq => qOk q && seqOk seq
  | .tableCompactRebase q seq => qOk q && seqOk seq
  | .summaryRebuild stn => stnOk stn
  | .streamOpen q seq => qOk q && seqOk seq
  | .streamAppend q seq => qOk q && seqOk seq
  | .streamGather q seq => qOk q && seqOk seq
  | .streamClose q seq => qOk q && seqOk seq
  | .streamTrim q seq => qOk q && seqOk seq
  | .scanLutBuild q seq => qOk q && seqOk seq
  | .scanPq q seq => qOk q && seqOk seq
  | .dispatch q seq => qOk q && seqOk seq
  | .copy q seq => qOk q && seqOk seq
  | .census q seq => qOk q && seqOk seq
  | .programLoad q seq => qOk q && seqOk seq
  | .programUnload q seq => qOk q && seqOk seq
  | .contextCreate q seq => qOk q && seqOk seq
  | .contextDestroy q seq => qOk q && seqOk seq
  | .queueCreate q seq => qOk q && seqOk seq
  | .queueDestroy q seq => qOk q && seqOk seq
  | .queueDrained q => qOk q
  | .tableCreate q seq => qOk q && seqOk seq
  | .partitionCreate q seq => qOk q && seqOk seq
  | .partitionRemove q seq => qOk q && seqOk seq
  | .partitionDrained pid => decide (pid < 48)
  | .tDrainExpiry pid => decide (pid < 48)
  | .segmentSet q seq => qOk q && seqOk seq
  | .invalidateRange q seq => qOk q && seqOk seq
  | .extentAck q seq _ id => qOk q && seqOk seq && decide (id < 4096)
  | .invalidateAckTimeout q seq ep => qOk q && seqOk seq && decide (ep < 256)
  | .keyslotLoad q seq => qOk q && seqOk seq
  | .keyslotScrub q seq => qOk q && seqOk seq
  | .scrubTagsDrained slot _ => decide (slot < 64)
  | .keyAck stn slot op => stnOk stn && decide (slot < 64) && decide (op < 2)
  | .keyAckTimeout stn slot => stnOk stn && decide (slot < 64)
  | .firmwareStage q seq => qOk q && seqOk seq
  | .firmwareActivate q seq => qOk q && seqOk seq
  | .liveUpdate q seq => qOk q && seqOk seq
  | .trialConfirmTimer => true
  | .confirm => true
  | .commandTimeout q seq => qOk q && seqOk seq
  | .parkedHeadTimeout q => qOk q
  | .flr fn => fnOk fn
  | .flrComplete fn => fnOk fn
  | .flrIsolationTimeout fn => fnOk fn
  | .pfFunctionReset => true
  | .functionStateUpdate fn _ _ => fnOk fn
  | .hostHotReset => true
  | .inboundMmioRead fn off width tag => whoOk fn && offOk off && widthOk width && decide (tag < 1024)
  | .ltpCompletion tag x _ _ =>
    decide (tag < 1024 ∧ x.coff < 512 ∧ x.len ≤ 512 - x.coff ∧ x.data.length ≤ x.len) && decide (x.status < 4)
  | .ltpReadTimeout tag => decide (tag < 1024)
  | .memoryResponse stn lane tag cid key type beat _ par =>
    stnOk stn && decide (lane < 16 ∧ tag < 8192 ∧ cid < 4096 ∧ key < 64 ∧ type < 4 ∧ beat.data.length ≤ 128 ∧ beat.poison < 4) && par.wf
  | .memoryTimeout stn tag => stnOk stn && decide (tag < 8192)
  | .sweepStart => true
  | .memRdyRise stn => stnOk stn
  | .memRdyFall stn => stnOk stn
  | .postbagBatchWrite pb => decide (pb ≤ 48)
  | .postbagEnable _ => true
  | .postbagHeadWrite _ => true
  | .faultLostClear _ => true
  | .xltWmapWrite _ => true
  | .walkReadResponse tag status x => decide (tag < 65536 * 49 ∧ x.data.length ≤ 8) && decide (status < 8)
  | .eventInputChange src _ _ => decide (src < 1023)
  | .eventDelivery => true
  | .eventRingEnable fn _ => fnOk fn
  | .eventRingHeadWrite fn _ => fnOk fn
  | .evcAck _ => true
  | .evcSwset _ _ => true
  | .evcMaskSet _ i _ => decide (i < 32)
  | .evcMaskClr _ i _ => decide (i < 32)
  | .sourceConfigWrite _ _ _ => true
  | .evcClaim core => decide (core < 8)
  | .evcDone core _ => decide (core < 8)
  | .frankingCreditReturn ep n => decide (ep < 256) && decide (n < 2 ^ 16)
  | .upstreamBeat ep xid _ _ _ => decide (ep < 256) && decide (xid < 8)
  | .doneResponse ep did stat _ => decide (ep < 256) && decide (did < 65536) && decide (stat < 256)
  | .engRdyChange ep _ => decide (ep < 256)
  | .engineQuiesceAck ep => decide (ep < 256)
  | .engineReturnTimeout ep => decide (ep < 256)
  | .flitReceive slot _ x => stnOk slot && x.lost.all (fun j => decide (j < 8)) && decide (x.bytes.length = 256)
  | .replayTimeout slot _ => stnOk slot
  | .linkTrainTimeout slot => stnOk slot
  | .linkTrainDone slot _ _ => stnOk slot
  | .cxDisable => true
  | .cxRestart => true
  | .spareGo _ => true
  | .spareWindowCheck slot _ lane _ _ => stnOk slot && decide (lane < 16)
  | .spareRequest slot _ lane => stnOk slot && decide (lane < 16)
  | .switchOrder slot _ lane _ _ => stnOk slot && decide (lane < 16)
  | .spareLockTimeout slot _ => stnOk slot
  | .spareBackgroundRetrain slot _ => stnOk slot
  | .laneLoss slot _ phys => stnOk slot && decide (phys < 16)
  | .heartbeat => true
  | .heartbeatAnswer stn _ => stnOk stn
  | .stationWatchdogExpiry stn core => stnOk stn && decide (core < 8)
  | .stnHctlFence => true
  | .stationReturn stn => stnOk stn
  | .stnHctlReturn => true
  | .epRestart => true
  | .debugReadTimeout => true
  | .watchdogExpiry core => decide (core < 8)
  | .faultCoresHung => true
  | .contextStep cid => decide (cid < 4096)
  | .engineStep ep => decide (ep < 256)
  | .partitionStep pid => decide (pid < 48)
  | .chipStep => true
  | .escalationBoundExpiry step id => decide (1 ≤ step && step ≤ 5) && decide (id < 4096)
  | .powerCycleStep => true
  | .dumpRelease _ => true
  | .rsramDataRead tag => decide (tag < 1024)
  | .powerOn => true
  | .brownout => true
  | .brownoutRelease => true
  | .pinWarmReset => true
  | .trayReset => true
  | .softwareReset _ => true
  | .jtagChipReset => true
  | .tapReset => true
  | .clockCheckRetry _ _ _ => true
  | .memoryReadyTimeout stn => stnOk stn
  | .hubClockStopped => true
  | .idleTimerDoze stn => stnOk stn
  | .dozeTimerSleep stn => stnOk stn
  | .sleepTimerOff stn => stnOk stn
  | .entryCommit stn => stnOk stn
  | .idleRequestTimeout _ id => decide (id < 65536)
  | .stationDemand stn => stnOk stn
  | .psAck stn ack => stnOk stn && decide (ack < 4)
  | .wakeAckTimeout stn => stnOk stn
  | .keepWarmLapse q => qOk q
  | .policyWrite _ => true
  | .replan _ => true
  | .autoReplan => true
  | .frequencyStep stn => stnOk stn
  | .arithFack stn f => stnOk stn && decide (f < 16)
  | .arithFackTimeout stn => stnOk stn
  | .avsRailWrite rail _ _ => decide (rail < 32)
  | .uptimeTick => true
  | .lifetimeCommit => true
  | .optionCommit _ => true
  | .wallSet _ => true
  | .lcAdvance _ => true
  | .odRead _ => true
  | .odWrite _ => true
  | .canRequest f => canOk f.id f.ext && decide (f.data.length ≤ 64)
  | .canTime f => canOk f.id f.ext && decide (f.data.length ≤ 64)
  | .canHeartbeat => true
  | .canBusOff => true
  | .monitorHelp => true
  | .monitorId => true
  | .monitorStat => true
  | .monitorElog _ => true
  | .monitorLlog _ => true
  | .monitorAge d => decide (d < 49)
  | .monitorCx slot => stnOk slot
  | .monitorStn slot => stnOk slot
  | .monitorOdRead index sub => decide (index < 65536) && decide (sub < 256)
  | .monitorOdWrite index sub bytes => decide (index < 65536) && decide (sub < 256) && decide (bytes.length ≤ 64)
  | .unlock _ => true
  | .lock => true
  | .unlockExpiry => true
  | .unlockLockoutEnd => true
  | .monitorReplan => true
  | .baud _ => true
  | .monitorDump k => decide (k < 2)
  | .peek off => offOk off
  | .poke off _ => offOk off
  | .monitorReset _ => true
  | .fuseRead w => decide (w < 77)
  | .fuseProgram w _ _ => decide (w < 77)
  | .monitorLc _ _ => true
  | .bootromId => true
  | .bootlog => true
  | .xload slot image => decide (slot < 2) && decide (image.length ≤ 2 ^ 22)
  | .bootromReset => true
  | .bootromPeek off => offOk off
  | .bootromFuseRead w => decide (w < 77)
  | .spareLocked slot _ _ => stnOk slot
  | .spareSwitchCountReached slot _ => stnOk slot
  | .returnMemRdyTimeout stn => stnOk stn
  | .cxDisableClear => true
  | .tapInstructionLoad _ => true

end Sys2Proof
end

