-- ==== Sys2Proof/Tests/Slice0.lean ====
section
/-! SUPPORT. Sys2Proof/Tests/Slice0.lean: for every statement of Certificates/Slice0/Obligations.lean that has hypotheses, a
concrete state and operands that meet them, clause by clause; an ill-formed command for each check of WellFormed; and the
worked values of the spec. -/
namespace Sys2Proof.Tests
open Sys2Proof.Machine

set_option Elab.async false
set_option synthInstance.maxSize 1000

/-! ### Small states -/

/-- An envelope with the given opcode and fields: lowest bit, width, value. -/
def env (op : Nat) (fs : List Fld) : List Byte := leBytes 64 (packF ((0, 8, op) :: fs))
/-- An admitted command of queue 1 (R72). -/
def adm (op : Nat) (fs : List Fld) : Cmd := { q := 1, seq := 5, env := env op fs, ext := [], phase := .admitted }
/-- The same on queue 0. -/
def adm0 (op : Nat) (fs : List Fld) : Cmd := { adm op fs with q := 0 }
/-- A running command. -/
def run (op : Nat) (fs : List Fld) : Cmd := { adm op fs with phase := .running }
/-- Queue 1, of 16 slots, of context 1. -/
def q1 : Queue := { st := .active, cls := 1, cid := 1, dbs := 3, sq := 0x10000, cq := 0x20000, log2 := 4, vec := 7 }
/-- Queue 0 (R63). -/
def q0 : Queue := { st := .idle, cls := 1, cid := 0, dbs := 0, sq := 0x4000, cq := 0x5000, log2 := 4 }
/-- A segment without pages (R292). -/
def flat (base len : Nat) (host : Bool) (stn phys : Nat) : Seg := ⟨base, len, false, true, host, stn, phys, []⟩
/-- Context 1: host memory from 0, stations 0 and 1 from 2^24 and 2^25. -/
def c1 : Ctx :=
  { fn := 0, pasid := some 9, pid := some 0, dbp := 1, key := 1
    segs := [(0, flat 0 (2 ^ 24) true 0 (2 ^ 32)), (1, flat (2 ^ 24) (2 ^ 24) false 0 0), (2, flat (2 ^ 25) (2 ^ 24) false 1 0)] }
/-- Partition 0 owns stations 0 and 1. -/
def p0 : Part := { stns := [0, 1], defTmo := 4, quota := 64, bays := [(0, 0x800000), (1, 0x800000)], ways := 2, banks := 2 }
/-- A block that is enabled, with one partition, one context and two queues. -/
def base : State :=
  { State.reset with
    fns := [(0, { en := true, bme := true }), (3, { en := true })]
    mqi := { en := true, rdy := true, sqb := 0x4000, cqb := 0x5000, log2 := 4 }
    queues := [(0, q0), (1, q1)]
    ctxs := [(0, { fn := 0, pasid := none, pid := none, dbp := 0, key := 0 }), (1, c1)]
    parts := [(0, p0)]
    keys := [(1, { st := .loaded, pid := some 0, holders := [0, 1] })] }
/-- `base` with one command in flight. -/
def one (c : Cmd) : State := { base with cmds := [(ckey c.q c.seq, c)] }
/-- `one`, with two fences of context 1. -/
def fenced (c : Cmd) : State :=
  { one c with fences := [(4, { owner := 1, pid := some 0, shared := false, value := 10 }), (6, { owner := 1, pid := some 0, shared := true, value := 0 })] }
/-- `base` with queue 1 changed. -/
def withQ (f : Queue → Queue) : State := { base with queues := [(0, q0), (1, f q1)] }
/-- The state an outcome goes on to. -/
def nextOf : Out → State
  | .next t => t
  | _ => State.reset
/-- What a check gave, or `d`. -/
def okD {ε α : Type} (d : α) : Except ε α → α
  | .ok a => a
  | .error _ => d
/-- A check gave `v`. -/
def okB {ε α : Type} [DecidableEq α] (r : Except ε α) (v : α) : Bool :=
  match r with
  | .ok a => decide (a = v)
  | .error _ => false
theorem ok_eq {ε α : Type} [DecidableEq α] {r : Except ε α} {v : α} (h : okB r v = true) : r = .ok v := by
  cases r <;> simp_all [okB]
/-- A check failed with `e`. -/
def errB {ε α : Type} [DecidableEq ε] (r : Except ε α) (e : ε) : Bool :=
  match r with
  | .ok _ => false
  | .error x => decide (x = e)
theorem err_eq {ε α : Type} [DecidableEq ε] {r : Except ε α} {e : ε} (h : errB r e = true) : r = .error e := by
  cases r <;> simp_all [errB]

/-- A read of queue 1's ring. -/
def ringRead : Req :=
  { stn := none, client := ringClient 1, cid := 1, key := 1, fn := 0, pasid := some 9, addr := 2 ^ 32 + 0x10000, len := 64, pur := .fetch 1 0 1 false }
/-- A done command of queue 0. -/
def done0 : Cmd := { adm0 0 [] with phase := .done }
/-- A dispatch that is running on engine port 1. -/
def dispW1 : DispW := { ep := 1, engOp := 0, descs := [], did := some 2 }

/-- A fence with an error at 10. -/
def badFence : Fence := { owner := 1, pid := some 0, shared := false, value := 10, err := true, errVal := 10 }
/-- GRAPH_EDGE from value `sv` of fence 4 to value 1 of fence `dst` (R240). -/
def edge (sv dst : Nat) : Cmd := adm 3 [(96, 18, 4), (128, 64, sv), (192, 18, dst), (256, 64, 1)]
/-- A ROW stream on station 1 (R183). -/
def strm1 : Stream :=
  { pid := 0, row := true, strict := false, shared := false, stn := 1, tid := 0, fmt := 0, width := 16, cap := 64, base := 0x2100000, owner := 1, raw := [],
    ext := [{ off := 0, len := 64 * 64, tgt := some ⟨false, 1, 0x100000⟩, ca := 0x2100000, wr := true }] }

/-- 65,536 edges: all that there can be (R240). -/
@[irreducible] def fullEdges : Tab Edge := (List.range 65536).map (fun i => (i, ⟨4, 100, 6, 1⟩))
theorem has_of_mem {α : Type} {t : Tab α} {k : Nat} {v : α} (h : (k, v) ∈ t) : Tab.has t k = true := by
  induction t with
  | nil => cases h
  | cons e t ih =>
    obtain ⟨j, w⟩ := e
    by_cases hj : k = j
    · simp [Tab.has, Tab.at?, hj]
    · have hm : (k, v) ∈ t := by simpa [hj] using h
      simpa [Tab.has, Tab.at?, hj] using ih hm
theorem freeFrom_none {α : Type} (t : Tab α) (n i : Nat) (h : ∀ j, i ≤ j → j < i + n → Tab.has t j = true) : Tab.freeFrom t i n = none := by
  induction n generalizing i with
  | zero => rfl
  | succ n ih =>
    rw [Tab.freeFrom, if_pos (h i (Nat.le_refl i) (by omega))]
    exact ih (i + 1) (fun j h1 h2 => h j (by omega) (by omega))
theorem freeFrom_range (e : Edge) (n : Nat) : Tab.freeFrom ((List.range n).map (fun i => (i, e))) 0 n = none :=
  freeFrom_none _ _ _ (fun j _ h => has_of_mem (v := e) (List.mem_map.2 ⟨j, List.mem_range.2 (by omega), rfl⟩))
theorem fullEdges_full : Tab.freeFrom fullEdges 0 65536 = none := by
  unfold fullEdges
  exact freeFrom_range _ _

/-- Bytes of host memory that context 1 sees at `ca`. -/
def hostP (ca len : Nat) : List Piece := [{ off := 0, len := len, tgt := some ⟨true, 0, 2 ^ 32 + ca⟩, ca := ca, perm := true }]
/-- Bytes of station 0's memory that context 1 sees at 2^24 + `o`. -/
def stnP (o len : Nat) : List Piece := [{ off := 0, len := len, tgt := some ⟨false, 0, o⟩, ca := 2 ^ 24 + o, perm := true }]
/-- Table 1 of context 1: 64 rows of 16 FP32 elements on station 0 (R85). -/
def tbl1 : Table :=
  { pid := 0, fmt := 1, width := 16, owner := 1, shared := false, rows := 64, stride := 64, block := true, shift := 4, nshard := 1, dmode := 0,
    shardBytes := 65536, daddr := 0, ovlBase := 0x1100000, ovlSlots := 16, stns := [0], raw := [], vers := [⟨1, 0x1000000, 1, 0⟩],
    ext := [(0x1000000 * 64, stnP 0 65536)], ovl := [(0, stnP 0x100000 65536)] }
/-- `one`, with table 1. -/
def onT (c : Cmd) (t : Table) : State := { one c with tables := [(1, t)] }
/-- The operands of a lookup of table 1: FIXED pools, 4 indices, 2 pools (R268). -/
def lkF : List Fld := [(64, 16, 1), (80, 2, 1), (82, 1, 1), (88, 8, 1), (96, 25, 4), (128, 21, 2), (192, 64, 0x1000), (384, 64, 0x2000)]
/-- Its ranges. -/
def lkR : List (List Piece) := [hostP 0x1000 16, [], [], hostP 0x2000 128, []]
/-- A LOOKUP_POOL whose lists are read. -/
def lk2 : Cmd := { run 0x10 lkF with stage := 2, ranges := lkR }
/-- A LOOKUP_MULTI whose lists are read. -/
def mu2 : Cmd := { run 0x12 [(64, 7, 1), (192, 64, 0x3000)] with stage := 2, ranges := lkR ++ [hostP 0x3000 64] }
/-- Its block. -/
def muS : State := { onT mu2 tbl1 with host := ⟨cellsWrite [] (2 ^ 32 + 0x3000) (env 0x10 lkF), []⟩ }
/-- A SUM of table 1. -/
def sb1 : Sub := { tid := 1, ver := 1, op := 0, ofmt := 1, prog := 0, k := 0, n := [(0, 2), (1, 2)], zero := [], dflt := [], defaulted := 0 }
/-- Its destination. -/
def ds1 : Dest :=
  { subs := [0], p := 2, ep := none, out := hostP 0x2000 128, stride := 64, flags := [], nflags := 2, group := 1, fbits := [], width := 16, blk := 100, site := some 0 }
/-- The work of a lookup with one share. -/
def lw (sh : Share) : LookW := { subs := [sb1], dests := [ds1], shares := [(0, sh)], count := 2 }
/-- The command that carries it out. -/
def lkC (w : LookW) : Cmd := { run 0x10 lkF with stage := 8, work := .look w, pins := [(1, 1)] }
/-- An occurrence of row 3 in pool 0. -/
def oc3 : Occ := { row := some 3, pool := 0, scale := 0x3F800000 }
/-- An UPDATE_ROWS of two rows whose index list is read (R270). -/
def up1 : Cmd :=
  { run 0x18 [(64, 16, 1), (80, 2, 1), (96, 21, 2), (192, 64, 0x1000), (256, 64, 0x2000)] with stage := 1, ranges := [hostP 0x1000 8, hostP 0x2000 128] }
/-- The same, accepted. -/
def up3 : Cmd := { up1 with stage := 3, work := .upd ⟨1, 2, 1, [0, 5]⟩, pins := [(1, 1)] }

/-- Table 1 with one directory bucket, which is that of every row (R173). -/
def tblB : Table :=
  { tbl1 with ovlSlots := 2, ovl := [(0, stnP 0x100000 65536)], writers := [{ client := ckey 1 5, post := 2, resv := [0, 0], ents := [0, 0] }] }
theorem tblB_probes (n : Nat) : tblB.probes n = 1 := by simp [Table.probes, tblB, tbl1, ceilDiv, Nat.mod_one]
theorem tblB_bucket (sh l k : Nat) (h : sh = 0) : tblB.bucket 1 sh l k = some ⟨false, 0, 0x100000⟩ := by
  subst h
  have e : max 1 (ceilDiv tblB.ovlSlots 2) = 1 := by decide +kernel
  simp only [Table.bucket, e, Nat.mod_one]
  decide +kernel
theorem tblB_items (s : State) (row : Nat) (h : (tblB.locate row).1 = 0) :
    s.probeItems 1 tblB row = [{ tgt := ⟨false, 0, 0x100000⟩, len := 64, operand := false }] := by
  simp [State.probeItems, Table.bucketOf, tblB_probes, tblB_bucket _ _ _ h]
/-- What the update reads of it. -/
theorem tblB_reads (s : State) :
    ([0, 5] : List Nat).eraseDups.flatMap (s.probeItems 1 tblB) =
      [{ tgt := ⟨false, 0, 0x100000⟩, len := 64, operand := false }, { tgt := ⟨false, 0, 0x100000⟩, len := 64, operand := false }] := by
  have e : ([0, 5] : List Nat).eraseDups = [0, 5] := by decide
  simp [e, tblB_items s 0 (by decide +kernel), tblB_items s 5 (by decide +kernel)]
/-- `one`, with stream 2. -/
def onS (c : Cmd) (x : Stream) : State := { one c with streams := [(2, x)] }
/-- The descriptor of a ROW stream on station 1 (R183). -/
def sDesc : List Byte := recBytes 64 [(16, 1, 1), (24, 6, 1), (48, 8, 1), (64, 13, 16), (96, 25, 64), (128, 64, 0x2100000)]
/-- A STREAM_OPEN whose descriptor is read. -/
def so1 : Cmd := { run 0x20 [(192, 64, 0x1000)] with stage := 1, ranges := [hostP 0x1000 64] }
/-- Its block. -/
def soS : State := { one so1 with host := ⟨cellsWrite [] (2 ^ 32 + 0x1000) sDesc, []⟩ }
/-- A stream of 64 rows, of which 10 have been appended. -/
def strm2 : Stream := { strm1 with fmt := 1, total := 10 }
/-- A STREAM_GATHER of 4 rows of stream 0, whose SID list is read. -/
def ga1 : Cmd :=
  { run 0x22 [(64, 17, 1), (96, 17, 4), (192, 64, 0x1000), (256, 8, 1), (384, 64, 0x2000)] with stage := 1, ranges := [hostP 0x1000 2, []] }
/-- Its block. -/
def gaS : State := { one ga1 with streams := [(0, strm2)] }
/-- A STREAM_APPEND of `n` rows to stream 2. -/
def apC (n : Nat) : Cmd := adm 0x21 [(64, 14, 2), (96, 25, n), (192, 64, 0x1000)]
/-- A SCAN_LUT_BUILD with one query, one subspace and 16 codes, whose operands are read (R210). -/
def lut3 : Cmd :=
  { run 0x29 [(64, 5, 1), (69, 7, 1), (76, 1, 1), (80, 13, 1), (104, 8, 1), (128, 64, 0x1000), (192, 64, 0x2000), (256, 64, 0x3000)] with
    stage := 3, work := .scan { per := [{ stn := 0, bank := true, seg := some (0, 0) }] },
    ranges := [hostP 0x1000 4, hostP 0x2000 64, [{ off := 0, len := 32, tgt := some ⟨true, 0, 2 ^ 32 + 0x3000⟩, ca := 0x3000, wr := true, perm := true }]] }
/-- A SCAN_PQ whose identifiers are read. -/
def pq6 : Cmd := { run 0x28 [(64, 5, 1), (69, 7, 1), (77, 11, 4)] with stage := 5, work := .scan { per := [{ stn := 0, bank := true, sent := true }] } }
/-- A DISPATCH whose chain is read. -/
def dp1 : Cmd := { run 0x30 [(64, 10, 1), (96, 13, 1), (128, 64, 0x1000)] with stage := 1, ranges := [hostP 0x1000 64] }
/-- A DISPATCH that has sent END. -/
def dp8 (w : DispW) : Cmd := { run 0x30 [(64, 10, 1)] with stage := 8, work := .disp w }
/-- `base` with engine port 1 changed. -/
def withE (c : Cmd) (e : Ep) : State := { one c with eps := [(1, e)] }
/-- An OUTPUT transfer of two beats. -/
def xf1 : Xfer :=
  { client := ckey 1 5, kind := 1, len := 128, pieces := [{ off := 0, len := 128, tgt := some ⟨true, 0, 0x9000⟩, ca := 0x9000, wr := true, perm := true }] }
/-- Port 1 with it. -/
def epX : Ep := { rdy := true, rstN := true, xids := [(0, xf1)], granted := 2 }
/-- A COPY of two sectors whose source is read. -/
def cp1 : Cmd :=
  { run 0x31 [(64, 64, 128), (128, 64, 0x1000), (192, 64, 0x2000)] with
    stage := 1, ranges := [[⟨0, 128, some ⟨true, 0, 0x9000⟩, 0x1000, false, true⟩], [⟨0, 128, some ⟨true, 0, 0xA000⟩, 0x2000, true, true⟩]] }
/-- A PROGRAM LOAD whose image is read. -/
def pl1 : Cmd := { run 0x3F [(96, 32, 64), (128, 64, 0x1000)] with stage := 1, ranges := [hostP 0x1000 64] }
/-- A loaded program. -/
def prog : Prog := { kind := 0, cost := 1, code := [], const := [], fmts := 2, ops := 0 }

/-- A list of one vector, and the part of station 0 that is about to score it. -/
def lst5 : ScanL := { idx := 0, raw := recBytes 32 [(0, 64, 0x1000000), (64, 32, 1)], skip := false }
def per5 : ScanS := { stn := 0, bank := true, seg := some (0, 0), busy := some (0, 0) }
/-- A SCAN_PQ of that list. -/
def pq5 : Cmd := { pq6 with work := .scan { per := [per5], lists := [lst5] } }
/-- A block whose descriptor is read, on queue 0. -/
def blk (op : Nat) (fs : List Fld) (n : Nat) : Cmd := { adm0 op fs with phase := .running, stage := 1, ranges := [[⟨0, n, some ⟨true, 0, 0x1000⟩, 0x1000, false, true⟩]] }
/-- `one`, with bytes in host memory at 0x1000. -/
def withB (c : Cmd) (bs : List Byte) : State := { one c with host := ⟨cellsWrite [] 0x1000 bs, []⟩ }
/-- A CONTEXT_CREATE: function 3, PASID 7, partition 0, page 2, key slot 1 (R278). -/
def cc : Cmd := adm0 0x40 [(64, 9, 3), (80, 1, 1), (88, 6, 0), (96, 20, 7), (128, 12, 2), (144, 6, 1)]
/-- A QUEUE_CREATE for context 1 (R278). -/
def qc : Cmd := adm0 0x42 [(64, 12, 1), (80, 5, 4), (88, 4, 1), (96, 9, 5), (128, 64, 0x30000), (192, 64, 0x40000)]
/-- The descriptor of a table like table 1 (R85). -/
def tDesc : List Byte :=
  recBytes 128 [(24, 8, 1), (32, 13, 16), (48, 12, 1), (64, 41, 64), (144, 2, 1), (152, 8, 1), (160, 8, 4), (192, 64, 65536), (256, 64, 0x1000000),
    (384, 64, 0x1100000), (448, 24, 16)]
/-- A TABLE_CREATE whose descriptor is read. -/
def tc : Cmd := blk 0x44 [(192, 64, 0x1000)] 128
/-- A PARTITION_CREATE of partition 2 on stations 2 and 3, whose bays are read. -/
def pc : Cmd := blk 0x45 [(64, 6, 2), (128, 48, 12), (192, 19, 8), (256, 64, 0x1000)] 384
/-- A segment descriptor: 64 KiB of host memory at 2^40 (R292). -/
def gDesc : List Byte := recBytes 64 [(0, 64, 2 ^ 40), (64, 47, 65536), (129, 2, 3), (192, 64, 2 ^ 33)]
/-- A SEGMENT_SET of slot 5 of context 1, whose descriptor is read. -/
def ss : Cmd := blk 0x47 [(64, 12, 1), (80, 4, 5), (128, 64, 0x1000)] 64
/-- An INVALIDATE_RANGE of context 1. -/
def iv (lo len : Nat) : Cmd := adm0 0x48 [(64, 12, 1), (128, 64, lo), (192, 64, len)]
/-- The same, waiting for acknowledgements. -/
def ivW (w : InvW) : Cmd := { iv 0 65536 with phase := .running, stage := 8, work := .inv w }
/-- A paged segment. -/
def pgSeg : Seg := ⟨0, 2 ^ 30, true, true, true, 0, 0x100000, []⟩
/-- A context with it. -/
def c1p : Ctx := { c1 with segs := [(0, pgSeg)] }
/-- A walk of its second level. -/
def wk : Walker := { pid := 0, cid := 1, addr := 0x30000, seg := 0, level := 0, host := true, stn := 0, at_ := 0x200018 }
/-- A read of a walk. -/
def wkReq : Req := { stn := none, client := walkClient 0, cid := 1, key := 1, fn := 0, pasid := none, addr := 0x200018, len := 8, pur := .walk 0 }
/-- A KEYSLOT_LOAD whose material is read. -/
def kl : Cmd := blk 0x49 [(64, 6, 0), (96, 7, 32), (128, 64, 0x1000)] 32
/-- `base` with key slot 1 changed. -/
def withK (x : KeySlot) : State := { base with keys := [(1, x)] }

/-- `base` with sources, enabled. -/
def withX (xs : Tab Src) : State := { base with evc := { en := true, fwEn := true, srcs := xs } }
/-- A pending pulse source. -/
def puls : Src := { sense := 1, pending := true, masked := false, count := 1, info := 1 }
/-- Function 0 with an event ring. -/
def fnE : Fn := { en := true, bme := true, evEn := true, evBase := 0x8000, evLog2 := 4, evVec := 5 }
/-- A record in hub ring 0. -/
def hrR : HrRec := { src := 256, prio := 0x80, ovf := false, level := false, info := 1, stamp := 0, coalesced := 1, mode := 0, tmask := 0xFF, order := 0 }
/-- `base` with that ring. -/
def withH (r : HrRec) : State := { base with evc := { fwEn := true, rings := [(0, { recs := [(0, r)], tail := 1 })] } }
/-- A fault record (R308). -/
def fRec : FaultRec := { type := 1, agent := 0, write := false, level := 7, pid := 0, cid := 1, addr := 0x40 }
/-- `base` with the postbag of partition 0. -/
def withP (b : Postbag) : State := { base with postbags := [(0, b), (48, {})] }
/-- A read of station 0's memory, and a write. -/
def rqR : Req := { stn := some 0, client := ckey 1 5, cid := 1, key := 1, fn := 0, pasid := none, addr := 0, len := 64, pur := .item 0 }
def rqW : Req := { rqR with pur := .write [] }
/-- A read through LTP-H. -/
def rqL : Req := { rqR with stn := none }
/-- `base` with one request outstanding. -/
def withR (id : Nat) (r : Req) : State := { one (run 0x31 []) with tags := [(id, r)] }
/-- `base` with the link of station 3. -/
def withL (l : Link) : State := { base with links := [(3, l)], cxSel := 3 }
/-- A flit of a type with a SEQ (R370). -/
def flt (ftype seq : Nat) : List Byte := flitOf (recBytes 252 [(0, 12, seq), (24, 2, ftype)])

/-- `base` with one station changed. -/
def withN (n : Nat) (x : Stn) : State := { base with stns := [(n, x)] }
/-- `base` with other reset state. -/
def withRel (r : Rel) : State := { base with rst := { rel := r } }
/-- `base` with ladder state. -/
def withRcv (r : Recov) : State := { base with rcv := r }
/-- `base` with a measurement domain. -/
def withD (n : Nat) (d : Dom) : State := { base with age := { doms := [(n, d)] } }
/-- A reading of the hub's canaries. -/
def meas (ps : Int) : Measure := { dom := 48, shiftPpm := 0, slacks := [{ ps := ps, arith := false }], vmin := 0, kvFs := 1000 }
/-- `base` with rail 31, which feeds the hub, and the hub's offset planned. -/
def withV (r : Rail) : State :=
  { withD 48 { off := 10 } with opts := { Opts.default with rails := List.replicate 31 (zeros 5) ++ [[3, 0, 0, 0x20, 0x03]] }, rails := [(31, r)] }

/-- `base` with management state. -/
def withM (m : Mgt) : State := { base with mgt := m }
/-- `base` with a CAN FD port. -/
def withCan (m : Mgt) : State := { withM m with build := { Build.model with canfd := true } }
/-- `base` in lifecycle state `l`. -/
def withLc (l : Nat) (m : Mgt) : State := { withM m with fuses := [(76, l)] }
/-- `base` whose slot A is in TRIAL. -/
def trial : State := { base with nvm := cellsOr [] (slotLog 0 0) (((⟨1, 2, 1⟩ : SlotRec).bytes).map (fun b => 0xFF ^^^ b)) }
/-- A CAN FD request of 8 bytes: read (1) or write of an entry. -/
def canReq (op idx sub : Nat) : List Byte := leBytes 1 op ++ leBytes 1 9 ++ leBytes 2 idx ++ leBytes 1 sub ++ zeros 3
/-- A FIRMWARE_STAGE to slot `x` whose image is read. -/
def fs1 (x : Nat) : Cmd := { run 0x4B [(64, 1, x), (96, 32, 64), (128, 64, 0x1000)] with stage := 1, ranges := [hostP 0x1000 64] }
/-- A FIRMWARE_ACTIVATE. -/
def fa (live : Nat) : Cmd := adm 0x4C [(64, 1, 1), (72, 1, live)]

/-- Inputs that meet the hypotheses of StepTakesTheFrontCommand, clause by clause. -/
theorem witness_StepTakesTheFrontCommand :
    (∃ s : State, s.pending = []) :=
  ⟨State.reset, by decide +kernel⟩

/-- Inputs that meet the hypotheses of StepKeepsMemoriesCanonical, clause by clause. -/
theorem witness_StepKeepsMemoriesCanonical :
    (∃ (s : State) (t : State), s.memWf = true ∧ step s = .next t) :=
  ⟨{ base with pending := [.keepWarmLapse 1] }, nextOf (step { base with pending := [.keepWarmLapse 1] }), by exact ⟨by decide +kernel, rfl⟩⟩

/-- Inputs that meet the hypotheses of StepKeepsProgrammedFuses, clause by clause. -/
theorem witness_StepKeepsProgrammedFuses :
    (∃ (s : State) (t : State), step s = .next t) :=
  ⟨{ base with pending := [.tapReset] }, nextOf (step { base with pending := [.tapReset] }), by rfl⟩

/-- Inputs that meet the hypotheses of TrayPcrRisesByTheLastStepAlone, clause by clause. -/
theorem witness_TrayPcrRisesByTheLastStepAlone :
    (∃ (s : State) (t : State) (c : Instr) (rest : List Instr), s.pending = c :: rest ∧ step s = .next t ∧ s.tray = false ∧ t.tray = true) ∧
    (∃ (s : State) (t : State) (c : Instr) (rest : List Instr), s.pending = c :: rest ∧ step s = .next t ∧ s.tray = true ∧ t.tray = false) :=
  ⟨⟨{ base with pending := [.powerCycleStep], want := [(5, 0)] },
      nextOf (step { base with pending := [.powerCycleStep], want := [(5, 0)] }),
      .powerCycleStep,
      [],
      by exact ⟨rfl, rfl, by decide +kernel, by decide +kernel⟩⟩,
   ⟨{ base with pending := [.powerOn], tray := true },
      nextOf (step { base with pending := [.powerOn], tray := true }),
      .powerOn,
      [],
      by exact ⟨rfl, rfl, by decide +kernel, by decide +kernel⟩⟩⟩

/-- Inputs that meet the hypotheses of DoorbellsMoveRingPositions, clause by clause. -/
theorem witness_DoorbellsMoveRingPositions :
    (∃ (s : State) (fn : Nat) (dbp : Nat) (dbs : Nat) (v : BitVec 64) (qid : Nat) (q : Queue) (p : Nat), s.reaches fn ∧ dbs < 512 ∧ s.queueAt fn dbp dbs =
      some (qid, q) ∧ Tab.at? s.queues qid = some q ∧ (q.st = .idle ∨ q.st = .active) ∧ posDec q.n v.toNat = some p ∧ posSub q.n p q.h ≤ q.n ∧ posSub
      q.n q.t q.h ≤ posSub q.n p q.h) ∧
    (∃ (s : State) (fn : Nat) (dbp : Nat) (dbs : Nat) (v : BitVec 64) (qid : Nat) (q : Queue) (p : Nat), s.reaches fn ∧ dbs < 512 ∧ s.queueAt fn dbp dbs =
      some (qid, q) ∧ Tab.at? s.queues qid = some q ∧ posDec q.n v.toNat = some p ∧ posSub q.n p q.k ≤ posSub q.n q.c q.k) ∧
    (∃ (s : State) (fn : Nat) (dbp : Nat) (dbs : Nat) (v : BitVec 64) (qid : Nat) (q : Queue) (p : Nat), s.reaches fn ∧ dbs < 512 ∧ s.queueAt fn dbp dbs =
      some (qid, q) ∧ Tab.at? s.queues qid = some q ∧ (q.st = .idle ∨ q.st = .active) ∧ posDec q.n v.toNat = some p ∧ (q.n < posSub q.n p q.h ∨ posSub
      q.n p q.h < posSub q.n q.t q.h)) ∧
    (∃ (s : State) (fn : Nat) (dbp : Nat) (dbs : Nat) (_v : BitVec 64) (qid : Nat) (q : Queue), s.reaches fn ∧ dbs < 512 ∧ s.queueAt fn dbp dbs = some
      (qid, q) ∧ Tab.at? s.queues qid = some q ∧ q.st ≠ .idle ∧ q.st ≠ .active) ∧
    (∃ (s : State) (fn : Nat) (dbp : Nat) (dbs : Nat) (_v : BitVec 64) (f : Fn), s.reaches fn ∧ Tab.at? s.fns fn = some f ∧ dbs < 512 ∧ s.queueAt fn dbp
      dbs = none) :=
  ⟨⟨withQ (fun q => { q with t := 2 }), 0, 1, 3, 0x10000, 1, { q1 with t := 2 }, 16, by decide +kernel⟩,
   ⟨withQ (fun q => { q with c := 3 }), 0, 1, 3, 3, 1, { q1 with c := 3 }, 3, by decide +kernel⟩,
   ⟨withQ (fun q => { q with t := 5 }), 0, 1, 3, 4, 1, { q1 with t := 5 }, 4, by decide +kernel⟩,
   ⟨withQ (fun q => { q with st := .stopping }), 0, 1, 3, 1, 1, { q1 with st := .stopping }, by decide +kernel⟩,
   ⟨base, 0, 1, 511, 1, { en := true, bme := true }, by decide +kernel⟩⟩

/-- Inputs that meet the hypotheses of FetchEngineServesQidZeroFirst, clause by clause. -/
theorem witness_FetchEngineServesQidZeroFirst :
    (∃ (s : State) (q : Queue) (n : Nat) (id : Nat), Tab.at? s.queues 0 = some q ∧ q.cid = 0 ∧ q.sq % 4096 = 0 ∧ (∀ e ∈ s.queues, e.2.st ≠ .stopping) ∧
      s.fetchReads < 256 ∧ (∀ r ∈ s.waiting, r.list = false) ∧ s.mayFetch 0 q = n + 1 ∧ s.reqId 0 = (0, none) ∧ (Tab.at? s.ctxs 0).bind (·.pid) = none
      ∧ s.fnOk 0 = true ∧ Tab.freeFrom s.tags 0 1024 = some id) :=
  ⟨{ base with queues := [(0, { q0 with st := .active, t := 5 })] }, { q0 with st := .active, t := 5 }, 4, 0, by decide +kernel⟩

/-- Inputs that meet the hypotheses of ReceivedEnvelopeIsNumberedAndAdmitted, clause by clause. -/
theorem witness_ReceivedEnvelopeIsNumberedAndAdmitted :
    (∃ (s : State) (w : State) (tag : Nat) (r : Req) (qid : Nat) (q : Queue), 
      let env := w.host.read r.addr 64
      Tab.at? s.tags tag = some r ∧ r.stn = none ∧ r.pur = .fetch qid q.h 1 false ∧ r.bad = [] ∧ w = s.retire tag ∧ w.storedBad ⟨true, 0, r.addr⟩ 64 = [] ∧
        Tab.at? w.queues qid = some q ∧ q.gotten = [] ∧ q.h < 2 * q.n ∧ w.unadmitted qid = [] ∧ w.cmd (ckey qid q.nextSeq) = none ∧ bits (rd env 0 4)
        16 3 = 0 ∧ bits (rd env 0 4) 19 2 = 0 ∧ (opFields (rd env 0 1)).isSome = true ∧ opAllowed qid (rd env 0 1) = true) :=
  ⟨{ withQ (fun q => { q with t := 1, f := 1 }) with tags := [(0, ringRead)] },
      withQ (fun q => { q with t := 1, f := 1 }),
      0,
      ringRead,
      1,
      { q1 with t := 1, f := 1 },
      by and_intros <;> first | decide +kernel | exact ok_eq (by decide +kernel) | exact err_eq (by decide +kernel)⟩

/-- Inputs that meet the hypotheses of CompletionWritesOneRecord, clause by clause. -/
theorem witness_CompletionWritesOneRecord :
    (∃ (s : State) (q : Nat) (seq : Nat) (c : Cmd) (x : Queue), s.cmd (ckey q seq) = some c ∧ c.q = q ∧ c.phase = .done ∧ s.busy (ckey q seq) = false ∧
      Tab.at? s.queues q = some x ∧ x.room = true ∧ x.cid = 0 ∧ s.reqId 0 = (0, none) ∧ (Tab.at? s.ctxs 0).bind (·.pid) = none ∧ s.fnOk 0 = true) ∧
    (∃ (s : State) (q : Nat) (x : Queue), Tab.at? s.queues q = some x ∧ x.itimer = true ∧ x.vec ≠ 0x7FF ∧ s.fnOk (s.reqId x.cid).1 = true) ∧
    (∃ (s : State) (fn : Nat) (q : Nat) (x : Queue), s.reaches fn ∧ s.queueOf fn q = some x ∧ Tab.at? s.queues q = some x ∧ x.st = .stopped) ∧
    (∃ (s : State) (fn : Nat) (q : Nat) (f : Fn), s.reaches fn ∧ Tab.at? s.fns fn = some f ∧ s.queueOf fn q = none) :=
  ⟨⟨one done0, 0, 5, done0, q0, by decide +kernel⟩,
   ⟨withQ (fun q => { q with itimer := true }), 1, { q1 with itimer := true }, by decide +kernel⟩,
   ⟨withQ (fun q => { q with st := .stopped }), 0, 1, { q1 with st := .stopped }, by decide +kernel⟩,
   ⟨base, 3, 1, { en := true }, by decide +kernel⟩⟩

/-- Inputs that meet the hypotheses of NopAndFenceCommands, clause by clause. -/
theorem witness_NopAndFenceCommands :
    (∃ (s : State) (q : Nat) (seq : Nat) (c : Cmd), s.starts q seq c ∧ c.opcode = 0x00) ∧
    (∃ (s : State) (q : Nat) (seq : Nat) (c : Cmd) (fid : Nat), 
      let pid := if c.q = 0 then none else some (s.pidOf (s.cidOf c))
      s.starts q seq c ∧ c.opcode = 0x01 ∧ c.fmode = 1 ∧ c.fsigOk = true ∧ Tab.freeFrom s.fences 0 262144 = some fid ∧ s.fencesOf pid < s.quotaOf pid) ∧
    (∃ (s : State) (q : Nat) (seq : Nat) (c : Cmd), 
      let pid := if c.q = 0 then none else some (s.pidOf (s.cidOf c))
      s.starts q seq c ∧ c.opcode = 0x01 ∧ c.fmode = 1 ∧ c.fsigOk = true ∧ s.quotaOf pid ≤ s.fencesOf pid) ∧
    (∃ (s : State) (q : Nat) (seq : Nat) (c : Cmd) (f : Fence), s.starts q seq c ∧ c.opcode = 0x02 ∧ c.clean = true ∧ s.nameFence c.q (s.cidOf c) c.fid =
      .ok f ∧ c.fval ≤ f.value ∧ (¬(f.err = true ∧ f.errVal ≤ c.fval))) ∧
    (∃ (s : State) (q : Nat) (seq : Nat) (c : Cmd) (f : Fence), s.starts q seq c ∧ c.opcode = 0x02 ∧ c.clean = true ∧ s.nameFence c.q (s.cidOf c) c.fid =
      .ok f ∧ f.err = true ∧ f.errVal ≤ c.fval) ∧
    (∃ (s : State) (q : Nat) (seq : Nat) (c : Cmd) (f : Fence), s.starts q seq c ∧ c.opcode = 0x02 ∧ c.clean = true ∧ s.nameFence c.q (s.cidOf c) c.fid =
      .ok f ∧ f.value < c.fval ∧ (¬(f.err = true ∧ f.errVal ≤ c.fval)) ∧ c.nsig = 0) :=
  ⟨⟨one (adm 0 []), 1, 5, adm 0 [], by decide +kernel⟩,
   ⟨fenced (adm 1 [(64, 3, 1), (128, 64, 7)]), 1, 5, adm 1 [(64, 3, 1), (128, 64, 7)], 0, by and_intros <;> first | decide +kernel | exact ok_eq (by decide +kernel) | exact err_eq (by decide +kernel)⟩,
   ⟨{ fenced (adm 1 [(64, 3, 1)]) with parts := [(0, { p0 with quota := 2 })] }, 1, 5, adm 1 [(64, 3, 1)], by and_intros <;> first | decide +kernel | exact ok_eq (by decide +kernel) | exact err_eq (by decide +kernel)⟩,
   ⟨fenced (adm 2 [(96, 18, 4), (128, 64, 10)]),
      1,
      5,
      adm 2 [(96, 18, 4), (128, 64, 10)],
      { owner := 1, pid := some 0, shared := false, value := 10 },
      by and_intros <;> first | decide +kernel | exact ok_eq (by decide +kernel) | exact err_eq (by decide +kernel)⟩,
   ⟨{ one (adm 2 [(96, 18, 4), (128, 64, 10)]) with fences := [(4, badFence)] },
      1,
      5,
      adm 2 [(96, 18, 4), (128, 64, 10)],
      badFence,
      by and_intros <;> first | decide +kernel | exact ok_eq (by decide +kernel) | exact err_eq (by decide +kernel)⟩,
   ⟨fenced (adm 2 [(96, 18, 4), (128, 64, 11)]),
      1,
      5,
      adm 2 [(96, 18, 4), (128, 64, 11)],
      { owner := 1, pid := some 0, shared := false, value := 10 },
      by and_intros <;> first | decide +kernel | exact ok_eq (by decide +kernel) | exact err_eq (by decide +kernel)⟩⟩

/-- Inputs that meet the hypotheses of FencesAreSignalledAndCleared, clause by clause. -/
theorem witness_FencesAreSignalledAndCleared :
    (∃ (s : State) (q : Nat) (seq : Nat) (c : Cmd) (f : Fence), s.starts q seq c ∧ c.opcode = 0x01 ∧ c.fmode = 0 ∧ c.fsigOk = true ∧ s.nameFence c.q
      (s.cidOf c) c.fid = .ok f) ∧
    (∃ (s : State) (q : Nat) (seq : Nat) (c : Cmd) (f : Fence), s.starts q seq c ∧ c.opcode = 0x01 ∧ c.fmode = 3 ∧ c.fsigOk = true ∧ s.nameFence c.q
      (s.cidOf c) c.fid = .ok f ∧ (c.q = 0 ∨ f.owner = s.cidOf c)) ∧
    (∃ (s : State) (q : Nat) (seq : Nat) (c : Cmd) (f : Fence), s.starts q seq c ∧ c.opcode = 0x01 ∧ c.fmode = 2 ∧ c.fsigOk = true ∧ s.nameFence c.q
      (s.cidOf c) c.fid = .ok f ∧ (c.q = 0 ∨ f.owner = s.cidOf c)) :=
  ⟨⟨fenced (adm 1 [(96, 18, 4), (128, 64, 11)]),
      1,
      5,
      adm 1 [(96, 18, 4), (128, 64, 11)],
      { owner := 1, pid := some 0, shared := false, value := 10 },
      by and_intros <;> first | decide +kernel | exact ok_eq (by decide +kernel) | exact err_eq (by decide +kernel)⟩,
   ⟨fenced (adm 1 [(64, 3, 3), (96, 18, 4)]),
      1,
      5,
      adm 1 [(64, 3, 3), (96, 18, 4)],
      { owner := 1, pid := some 0, shared := false, value := 10 },
      by and_intros <;> first | decide +kernel | exact ok_eq (by decide +kernel) | exact err_eq (by decide +kernel)⟩,
   ⟨fenced (adm 1 [(64, 3, 2), (96, 18, 4)]),
      1,
      5,
      adm 1 [(64, 3, 2), (96, 18, 4)],
      { owner := 1, pid := some 0, shared := false, value := 10 },
      by and_intros <;> first | decide +kernel | exact ok_eq (by decide +kernel) | exact err_eq (by decide +kernel)⟩⟩

/-- Inputs that meet the hypotheses of GraphEdgeInstallsOrFires, clause by clause. -/
theorem witness_GraphEdgeInstallsOrFires :
    (∃ (s : State) (q : Nat) (seq : Nat) (c : Cmd) (f : Fence) (g : Fence) (k : Nat), s.starts q seq c ∧ c.opcode = 0x03 ∧ c.clean = true ∧ s.nameFence
      c.q (s.cidOf c) c.fid = .ok f ∧ s.nameFence c.q (s.cidOf c) (c.fld 24 4 0 18) = .ok g ∧ c.fid ≠ c.fld 24 4 0 18 ∧ Tab.freeFrom s.edges 0 65536 =
      some k ∧ s.waitSt c.fid (c.num 16 8) = .unmet) ∧
    (∃ (s : State) (q : Nat) (seq : Nat) (c : Cmd) (f : Fence) (g : Fence) (k : Nat), 
      let e : Edge := ⟨c.fid, c.num 16 8, c.fld 24 4 0 18, c.num 32 8⟩
      let t' := { s with edges := Tab.put s.edges k e }
      s.starts q seq c ∧ c.opcode = 0x03 ∧ c.clean = true ∧ s.nameFence c.q (s.cidOf c) c.fid = .ok f ∧ s.nameFence c.q (s.cidOf c) (c.fld 24 4 0 18) = .ok
        g ∧ c.fid ≠ c.fld 24 4 0 18 ∧ Tab.freeFrom s.edges 0 65536 = some k ∧ s.waitSt c.fid (c.num 16 8) = .unmet ∧ (t'.search (2 * c.fld 24 4 0
        18)).2 = false) ∧
    (∃ (s : State) (q : Nat) (seq : Nat) (c : Cmd) (f : Fence) (g : Fence) (k : Nat), 
      let e : Edge := ⟨c.fid, c.num 16 8, c.fld 24 4 0 18, c.num 32 8⟩
      let t' := { s with edges := Tab.put s.edges k e }
      s.starts q seq c ∧ c.opcode = 0x03 ∧ c.clean = true ∧ s.nameFence c.q (s.cidOf c) c.fid = .ok f ∧ s.nameFence c.q (s.cidOf c) (c.fld 24 4 0 18) = .ok
        g ∧ c.fid ≠ c.fld 24 4 0 18 ∧ Tab.freeFrom s.edges 0 65536 = some k ∧ s.waitSt c.fid (c.num 16 8) = .unmet ∧ (t'.search (2 * c.fld 24 4 0
        18)).2 = true) ∧
    (∃ (s : State) (q : Nat) (seq : Nat) (c : Cmd) (f : Fence) (g : Fence) (k : Nat), s.starts q seq c ∧ c.opcode = 0x03 ∧ c.clean = true ∧ s.nameFence
      c.q (s.cidOf c) c.fid = .ok f ∧ s.nameFence c.q (s.cidOf c) (c.fld 24 4 0 18) = .ok g ∧ c.fid ≠ c.fld 24 4 0 18 ∧ Tab.freeFrom s.edges 0 65536 =
      some k ∧ s.waitSt c.fid (c.num 16 8) ≠ .unmet) :=
  ⟨⟨fenced (edge 11 6),
      1,
      5,
      edge 11 6,
      { owner := 1, pid := some 0, shared := false, value := 10 },
      { owner := 1, pid := some 0, shared := true, value := 0 },
      0,
      by and_intros <;> first | decide +kernel | exact ok_eq (by decide +kernel) | exact err_eq (by decide +kernel)⟩,
   ⟨fenced (edge 11 6),
      1,
      5,
      edge 11 6,
      { owner := 1, pid := some 0, shared := false, value := 10 },
      { owner := 1, pid := some 0, shared := true, value := 0 },
      0,
      by and_intros <;> first | decide +kernel | exact ok_eq (by decide +kernel) | exact err_eq (by decide +kernel)⟩,
   ⟨{ fenced (edge 11 6) with edges := [(0, ⟨6, 1, 4, 11⟩)] },
      1,
      5,
      edge 11 6,
      { owner := 1, pid := some 0, shared := false, value := 10 },
      { owner := 1, pid := some 0, shared := true, value := 0 },
      1,
      by and_intros <;> first | decide +kernel | exact ok_eq (by decide +kernel) | exact err_eq (by decide +kernel)⟩,
   ⟨fenced (edge 10 6),
      1,
      5,
      edge 10 6,
      { owner := 1, pid := some 0, shared := false, value := 10 },
      { owner := 1, pid := some 0, shared := true, value := 0 },
      0,
      by and_intros <;> first | decide +kernel | exact ok_eq (by decide +kernel) | exact err_eq (by decide +kernel)⟩⟩

/-- Inputs that meet the hypotheses of GraphEdgeIsCheckedInOrder, clause by clause. -/
theorem witness_GraphEdgeIsCheckedInOrder :
    (∃ (s : State) (q : Nat) (seq : Nat) (c : Cmd), s.starts q seq c ∧ c.opcode = 0x03) ∧
    (∃ (s : State) (q : Nat) (seq : Nat) (c : Cmd), s.starts q seq c ∧ c.opcode = 0x03 ∧ c.clean = false) ∧
    (∃ (s : State) (q : Nat) (seq : Nat) (c : Cmd) (st : _) (r : _), 
      let named := fun (fid : Nat) => s.nameFence c.q (s.cidOf c) fid
      s.starts q seq c ∧ c.opcode = 0x03 ∧ c.clean = true ∧ named c.fid = .error (.fail st r)) ∧
    (∃ (s : State) (q : Nat) (seq : Nat) (c : Cmd) (f : _) (st : _) (r : _), 
      let dst := c.fld 24 4 0 18
      let named := fun (fid : Nat) => s.nameFence c.q (s.cidOf c) fid
      s.starts q seq c ∧ c.opcode = 0x03 ∧ c.clean = true ∧ named c.fid = .ok f ∧ named dst = .error (.fail st r)) ∧
    (∃ (s : State) (q : Nat) (seq : Nat) (c : Cmd) (f : _), 
      let dst := c.fld 24 4 0 18
      let named := fun (fid : Nat) => s.nameFence c.q (s.cidOf c) fid
      s.starts q seq c ∧ c.opcode = 0x03 ∧ c.clean = true ∧ named c.fid = .ok f ∧ c.fid = dst) ∧
    (∃ (s : State) (q : Nat) (seq : Nat) (c : Cmd) (f : _) (g : _), 
      let dst := c.fld 24 4 0 18
      let named := fun (fid : Nat) => s.nameFence c.q (s.cidOf c) fid
      s.starts q seq c ∧ c.opcode = 0x03 ∧ c.clean = true ∧ named c.fid = .ok f ∧ named dst = .ok g ∧ c.fid ≠ dst ∧ Tab.freeFrom s.edges 0 65536 = none) ∧
    (∃ (s : State) (q : Nat) (seq : Nat) (c : Cmd) (f : _) (g : _) (k : Nat), 
      let dst := c.fld 24 4 0 18
      let named := fun (fid : Nat) => s.nameFence c.q (s.cidOf c) fid
      s.starts q seq c ∧ c.opcode = 0x03 ∧ c.clean = true ∧ named c.fid = .ok f ∧ named dst = .ok g ∧ c.fid ≠ dst ∧ Tab.freeFrom s.edges 0 65536 = some k ∧
        s.waitSt c.fid (c.num 16 8) = .unmet ∧ ({ s with edges := Tab.put s.edges k ⟨c.fid, c.num 16 8, dst, c.num 32 8⟩ }.search (2 * dst)).2 = true) :=
  ⟨⟨fenced (edge 11 6), 1, 5, edge 11 6, by decide +kernel⟩,
   ⟨fenced { edge 11 6 with env := (edge 11 6).env.set 63 1 },
      1,
      5,
      { edge 11 6 with env := (edge 11 6).env.set 63 1 },
      by decide +kernel⟩,
   ⟨one (edge 11 6), 1, 5, edge 11 6, stBadFence, none, by and_intros <;> first | decide +kernel | exact ok_eq (by decide +kernel) | exact err_eq (by decide +kernel)⟩,
   ⟨fenced (edge 11 7),
      1,
      5,
      edge 11 7,
      { owner := 1, pid := some 0, shared := false, value := 10 },
      stBadFence,
      none,
      by and_intros <;> first | decide +kernel | exact ok_eq (by decide +kernel) | exact err_eq (by decide +kernel)⟩,
   ⟨fenced (edge 11 4), 1, 5, edge 11 4, { owner := 1, pid := some 0, shared := false, value := 10 }, by and_intros <;> first | decide +kernel | exact ok_eq (by decide +kernel) | exact err_eq (by decide +kernel)⟩,
   ⟨{ fenced (edge 11 6) with edges := fullEdges },
      1,
      5,
      edge 11 6,
      { owner := 1, pid := some 0, shared := false, value := 10 },
      { owner := 1, pid := some 0, shared := true, value := 0 },
      by exact ⟨by decide +kernel, by decide +kernel, by decide +kernel, ok_eq (by decide +kernel), ok_eq (by decide +kernel), by decide +kernel, fullEdges_full⟩⟩,
   ⟨{ fenced (edge 11 6) with edges := [(0, ⟨6, 1, 4, 11⟩)] },
      1,
      5,
      edge 11 6,
      { owner := 1, pid := some 0, shared := false, value := 10 },
      { owner := 1, pid := some 0, shared := true, value := 0 },
      1,
      by and_intros <;> first | decide +kernel | exact ok_eq (by decide +kernel) | exact err_eq (by decide +kernel)⟩⟩

/-- Inputs that meet the hypotheses of ResetsAndTimeoutsEndCommands, clause by clause. -/
theorem witness_ResetsAndTimeoutsEndCommands :
    (∃ (s : State) (fn : Nat) (q : Nat) (x : Queue), s.reaches fn ∧ s.queueOf fn q = some x ∧ Tab.at? s.queues q = some x ∧ (x.st = .idle ∨ x.st = .active
      ∨ x.st = .stopping ∨ x.st = .stopped)) ∧
    (∃ (s : State) (q : Nat) (x : Queue) (sps : List Span), Tab.at? s.queues q = some x ∧ x.st = .resetting ∧ s.received q = 0 ∧ x.room = true ∧ 0 < x.n ∧
      s.xlat (ringClient q) x.cid true (x.cq + 32 * (x.c % x.n)) 32 = .ok sps ∧ (∀ p ∈ sps, p.tgt.isSome = true)) ∧
    (∃ (s : State) (q : Nat) (x : Queue), Tab.at? s.queues q = some x ∧ s.resetLate q = true) ∧
    (∃ (s : State) (q : Nat) (c : Cmd) (x : Queue), (s.unadmitted q).head? = some c ∧ c.phase = .parked ∧ c.cancel = none ∧ c.q = q ∧ s.cmd (ckey q c.seq)
      = some c ∧ s.cmdsOf q = [ckey q c.seq] ∧ Tab.at? s.queues q = some x ∧ (x.st = .idle ∨ x.st = .active)) ∧
    (∃ (s : State) (q : Nat) (seq : Nat) (c : Cmd) (x : Queue), s.cmd (ckey q seq) = some c ∧ c.phase = .admitted ∧ c.cancel = none ∧ c.q = q ∧ c.opcode ≠
      0x02 ∧ c.opcode ≠ 0x1A ∧ c.opcode ≠ 0x30 ∧ s.cmdsOf q = [ckey q seq] ∧ Tab.at? s.queues q = some x ∧ (x.st = .idle ∨ x.st = .active)) ∧
    (∃ (s : State) (q : Nat) (seq : Nat) (c : Cmd), s.cmd (ckey q seq) = some c ∧ c.phase = .admitted ∧ c.cancel = none ∧ (c.opcode = 0x02 ∨ c.opcode =
      0x1A ∨ c.opcode = 0x30)) ∧
    (∃ (s : State) (q : Nat) (seq : Nat) (c : Cmd) (x : Queue), s.cmd (ckey q seq) = some c ∧ c.phase = .done ∧ s.busy (ckey q seq) = true ∧ c.q = q ∧
      s.cmdsOf q = [ckey q seq] ∧ Tab.at? s.queues q = some x ∧ (x.st = .idle ∨ x.st = .active)) ∧
    (∃ (s : State) (q : Nat) (seq : Nat) (c : Cmd), s.cmd (ckey q seq) = some c ∧ c.phase = .running ∧ c.cancel = none ∧ c.opcode = 0x02) ∧
    (∃ (s : State) (q : Nat) (seq : Nat) (c : Cmd), s.cmd (ckey q seq) = some c ∧ c.phase = .running ∧ c.opcode ≠ 0x02 ∧ ((s.tmoRecord c).beforeSwitch
      (ckey q seq) c = true ∨ (s.tmoRecord c).waitsStn (ckey q seq) c = true)) ∧
    (∃ (s : State) (q : Nat) (seq : Nat) (c : Cmd) (w : DispW) (did : Nat), s.cmd (ckey q seq) = some c ∧ c.phase = .running ∧ c.opcode ≠ 0x02 ∧
      (s.tmoRecord c).beforeSwitch (ckey q seq) c = false ∧ (s.tmoRecord c).waitsStn (ckey q seq) c = false ∧ c.work = .disp w ∧ w.did = some did ∧
      (s.tmoRecord c).onInput (ckey q seq) w = false ∧ (s.tmoRecord c).onEngine (ckey q seq) w = true ∧ (s.tmoRecord c).ending c.q = false) :=
  ⟨⟨one (run 0 []), 0, 1, q1, by decide +kernel⟩,
   ⟨withQ (fun q => { q with st := .resetting }),
      1,
      { q1 with st := .resetting },
      okD [] ((withQ (fun q => { q with st := .resetting })).xlat (ringClient 1) 1 true 0x20000 32),
      by and_intros <;> first | decide +kernel | exact ok_eq (by decide +kernel) | exact err_eq (by decide +kernel)⟩,
   ⟨{ withQ (fun q => { q with st := .resetting }) with cmds := [(ckey 1 5, run 2 [])] },
      1,
      { q1 with st := .resetting },
      by decide +kernel⟩,
   ⟨one { adm 0 [] with phase := .parked }, 1, { adm 0 [] with phase := .parked }, q1, by decide +kernel⟩,
   ⟨one (adm 0 []), 1, 5, adm 0 [], q1, by decide +kernel⟩,
   ⟨one (adm 0x1A []), 1, 5, adm 0x1A [], by decide +kernel⟩,
   ⟨{ one { adm 0 [] with phase := .done } with tags := [(stnTag 0 4096, rqW)] },
      1,
      5,
      { adm 0 [] with phase := .done },
      q1,
      by decide +kernel⟩,
   ⟨one (run 2 []), 1, 5, run 2 [], by decide +kernel⟩,
   ⟨{ one { run 0x21 [] with work := .append 2 0 1 } with streams := [(2, strm1)], stns := [(1, { state := 1 })] },
      1,
      5,
      { run 0x21 [] with work := .append 2 0 1 },
      by decide +kernel⟩,
   ⟨one { run 0x30 [] with work := .disp dispW1 }, 1, 5, { run 0x30 [] with work := .disp dispW1 }, dispW1, 2, by decide +kernel⟩⟩

/-- Inputs that meet the hypotheses of FunctionsAreResetAndEnabled, clause by clause. -/
theorem witness_FunctionsAreResetAndEnabled :
    (∃ (s : State) (fn : Nat) (f : Fn), s.up = true ∧ fn ≠ 0 ∧ Tab.at? s.fns fn = some f) ∧
    (∃ (s : State) (fn : Nat) (f : Fn), Tab.at? s.fns fn = some f ∧ f.flr = true ∧ Tab.ex s.tags (fun _ r => s.reqOf fn r) = false ∧ s.waiting.any
      (s.reqOf fn) = false) ∧
    (∃ (s : State) (fn : Nat) (id : Nat) (f : Fn) (r : Req), Tab.at? s.fns fn = some f ∧ f.flr = true ∧ Tab.keys s.tags (fun _ r => s.reqOf fn r) = [id] ∧
      Tab.at? s.tags id = some r ∧ s.waiting = []) ∧
    (∃ s : State, s.up = true) ∧
    (∃ (s : State) (_fn : Nat), s.up = false) ∧
    (∃ (s : State) (fn : Nat) (en : Bool) (bme : Bool), fn ≤ 256 ∧ (¬(s.up = true ∧ en = true ∧ bme = true))) ∧
    (∃ (s : State) (fn : Nat), fn ≤ 256 ∧ s.up = true) ∧
    (∃ s : State, s.reaches 0 ∧ s.mqi.en = false ∧ 4 ≤ s.mqi.log2 ∧ s.mqi.log2 ≤ 16 ∧ s.mqi.sqb % 4096 = 0 ∧ s.mqi.cqb % 4096 = 0) ∧
    (∃ s : State, s.reaches 0 ∧ s.mqi.en = false ∧ (s.mqi.log2 < 4 ∨ 16 < s.mqi.log2 ∨ s.mqi.sqb % 4096 ≠ 0 ∨ s.mqi.cqb % 4096 ≠ 0)) ∧
    (∃ s : State, s.mqi.en = true) :=
  ⟨⟨base, 3, { en := true }, by decide +kernel⟩,
   ⟨{ base with fns := [(3, { en := true, flr := true })] }, 3, { en := true, flr := true }, by decide +kernel⟩,
   ⟨{ base with fns := [(0, { en := true, bme := true, flr := true })], tags := [(0, ringRead)] },
      0,
      0,
      { en := true, bme := true, flr := true },
      ringRead,
      by decide +kernel⟩,
   ⟨base, by decide +kernel⟩,
   ⟨{ base with rst := { rel := .hold } }, 3, by decide +kernel⟩,
   ⟨base, 256, true, false, by decide +kernel⟩,
   ⟨base, 256, by decide +kernel⟩,
   ⟨{ State.reset with mqi := { log2 := 16 } }, by decide +kernel⟩,
   ⟨State.reset, by decide +kernel⟩,
   ⟨base, by decide +kernel⟩⟩

/-- Inputs that meet the hypotheses of LookupsReadTheirLists, clause by clause. -/
theorem witness_LookupsReadTheirLists :
    (∃ (s : State) (q : Nat) (seq : Nat) (c : Cmd) (g : Bool) (rs : List (Bool × Nat × Nat)) (ps : List (List Piece)), 
      let its := (ps.take 3).flatMap (itemsOf true)
      s.starts q seq c ∧ c.opcode = (if g = true then 0x11 else 0x10) ∧ (fmtMx (ofCode (lOfmt c.env)) = false ∨ s.build.mx = true) ∧ c.clean = true ∧
        s.lookChecks (ckey q seq) c g [c.env] none = .ok rs ∧ s.mapRanges (ckey q seq) c (s.cidOf c) rs = .ok ps ∧ its ≠ [] ∧ (∀ i ∈ its, i.tgt.host =
        true → s.fnOk (s.reqId (s.cidOf c)).1 = true)) ∧
    (∃ (s : State) (q : Nat) (seq : Nat) (c : Cmd) (ps : List Piece), s.starts q seq c ∧ c.opcode = 0x12 ∧ multiOk c = true ∧ s.mapAll (ckey q seq) c
      (s.cidOf c) false (c.num 24 8) (64 * c.nsub) = .ok ps ∧ itemsOf true ps ≠ [] ∧ (∀ i ∈ itemsOf true ps, i.tgt.host = true → s.fnOk (s.reqId
      (s.cidOf c)).1 = true)) ∧
    (∃ (s : State) (q : Nat) (seq : Nat) (c : Cmd) (g : Bool) (t : Table) (ps : Nat × List (Nat × List (Nat × Word))), s.cmd (ckey q seq) = some c ∧
      c.again = true ∧ c.stage = 2 ∧ c.opcode = (if g = true then 0x11 else 0x10) ∧ c.operandBad = false ∧ s.behind c = false ∧ Tab.at? s.tables (lTid
      c.env) = some t ∧ t.rebase = none ∧ s.subOf c g 0 c.env = some ps ∧ s.progOk (s.cidOf c) (lProg c.env) t.fmt (lKind g c.env) (s.mkDest c [0] 0 0
      0 3 (destOf c.env)).site.isNone = true) ∧
    (∃ (s : State) (q : Nat) (seq : Nat) (c : Cmd) (ps : List (Nat × List (Nat × List (Nat × Word)))), 
      let m := s.multiSubs c ((c.ranges.getLast?).getD [])
      s.cmd (ckey q seq) = some c ∧ c.again = true ∧ c.stage = 2 ∧ c.opcode = 0x12 ∧ c.operandBad = false ∧ s.behind c = false ∧ (∀ e ∈ m.1, ∃ t ∈ Tab.at?
        s.tables (lTid e), t.rebase = none) ∧ (∀ x ∈ m.1.zipIdx, ∀ t ∈ Tab.at? s.tables (lTid x.1), s.progOk (s.cidOf c) (lProg x.1) t.fmt (lOp x.1)
        (s.mkDest c [] 0 0 0 (3 * m.1.length + (if m.2.isSome = true then 0 else 2 * x.2)) (m.2.getD (destOf x.1))).site.isNone = true) ∧
        (m.1.zipIdx).mapM (fun x => s.subOf c false x.2 x.1) = some ps) :=
  ⟨⟨onT (adm 0x10 lkF) tbl1,
      1,
      5,
      adm 0x10 lkF,
      false,
      okD [] ((onT (adm 0x10 lkF) tbl1).lookChecks (ckey 1 5) (adm 0x10 lkF) false [env 0x10 lkF] none),
      lkR.map (fun ps => ps.map (fun p => { p with wr := p.ca == 0x2000 })),
      by and_intros <;> first | decide +kernel | exact ok_eq (by decide +kernel) | exact err_eq (by decide +kernel)⟩,
   ⟨onT (adm 0x12 [(64, 7, 64), (192, 64, 0x3000)]) tbl1,
      1,
      5,
      adm 0x12 [(64, 7, 64), (192, 64, 0x3000)],
      hostP 0x3000 4096,
      by and_intros <;> first | decide +kernel | exact ok_eq (by decide +kernel) | exact err_eq (by decide +kernel)⟩,
   ⟨onT lk2 tbl1, 1, 5, lk2, false, tbl1, ((onT lk2 tbl1).subOf lk2 false 0 lk2.env).getD (0, []), by decide +kernel⟩,
   ⟨muS, 1, 5, mu2, [(muS.subOf mu2 false 0 (env 0x10 lkF)).getD (0, [])], by exact ⟨by decide +kernel, by decide +kernel, by decide +kernel, by decide +kernel, by decide +kernel, by decide +kernel, by decide +kernel⟩⟩⟩

/-- Inputs that meet the hypotheses of OccurrenceEntersItsWindow, clause by clause. -/
theorem witness_OccurrenceEntersItsWindow :
    (∃ (s : State) (q : Nat) (seq : Nat) (sub : Nat) (stn : Nat) (c : Cmd) (w : LookW) (sb : Sub) (o : Occ), s.look (ckey q seq) = some (c, w) ∧ s.cmd
      (ckey q seq) = some c ∧ c.work = .look w ∧ w.nextOcc sub stn = some o ∧ w.subs[sub]? = some sb ∧ (w.dest.map (·.subs.contains sub)).getD false =
      true ∧ s.lookUp w = true ∧ s.lookHeld w = false ∧ s.otherFills (ckey q seq) sub stn = false ∧ ((w.share sub stn).win ≠ [] ∨ (s.outranked (ckey q
      seq) c stn = false ∧ s.scanning stn = false ∧ s.arithOk stn = true)) ∧ (w.share sub stn).winOcc < 2 ^ 24 ∧ ((w.share sub stn).win.length < 65536
      ∨ (w.share sub stn).win.any (fun e => e.row == o.row) = true) ∧ (w.share sub stn).win.length ≤ 65536) :=
  ⟨onT (lkC (lw { todo := [oc3] })) tbl1, 1, 5, 0, 0, lkC (lw { todo := [oc3] }), lw { todo := [oc3] }, sb1, oc3, by decide +kernel⟩

/-- Inputs that meet the hypotheses of PoolsAreCombined, clause by clause. -/
theorem witness_PoolsAreCombined :
    (∃ (s : State) (q : Nat) (seq : Nat) (sub : Nat) (stn : Nat) (pool : Nat) (c : Cmd) (w : LookW) (sb : Sub) (p : Partial), s.look (ckey q seq) = some
      (c, w) ∧ s.cmd (ckey q seq) = some c ∧ c.work = .look w ∧ Tab.at? (w.share sub stn).parts pool = some p ∧ w.subs[sub]? = some sb ∧ w.swept sub
      stn = true ∧ s.siteRoom w = true) ∧
    (∃ (s : State) (q : Nat) (seq : Nat) (stn : Nat) (c : Cmd) (w : LookW), s.look (ckey q seq) = some (c, w) ∧ s.cmd (ckey q seq) = some c ∧ c.work =
      .look w ∧ (s.blockStns w).contains stn = true ∧ w.reports.contains stn = false ∧ s.lookHeld w = false ∧ ((w.dest.map (·.subs)).getD []).all (fun
      i => w.swept i stn && (w.share i stn).parts == []) = true) ∧
    (∃ (a : Partial) (p : Partial) (op : Nat), a.acc ≠ [] ∧ p.acc ≠ [] ∧ op ≠ 3) ∧
    (∃ (a : Partial) (p : Partial), a.acc ≠ [] ∧ p.acc ≠ []) ∧
    (∃ (a : Partial) (p : Partial) (op : Nat), a.acc = [] ∧ p.acc ≠ [] ∧ op ≠ 3) ∧
    (∃ (s : State) (_cid : Nat) (w : LookW) (sub : Nat) (pool : Nat) (sb : Sub) (t : Table), w.subs[sub]? = some sb ∧ Tab.at? s.tables sb.tid = some t ∧
      Tab.atD sb.n pool 0 = 0) :=
  ⟨⟨onT (lkC (lw { todo := [], parts := [(1, { acc := [1] })] })) tbl1,
      1,
      5,
      0,
      0,
      1,
      lkC (lw { todo := [], parts := [(1, { acc := [1] })] }),
      lw { todo := [], parts := [(1, { acc := [1] })] },
      sb1,
      { acc := [1] },
      by decide +kernel⟩,
   ⟨onT (lkC (lw { todo := [] })) tbl1, 1, 5, 0, lkC (lw { todo := [] }), lw { todo := [] }, by decide +kernel⟩,
   ⟨{ acc := [0x3F800000] }, { acc := [0x40000000] }, 0, by decide +kernel⟩,
   ⟨{ acc := [0x3F800000] }, { acc := [0x40000000] }, by decide +kernel⟩,
   ⟨{}, { acc := [0x80000000] }, 0, by decide +kernel⟩,
   ⟨onT (lkC (lw { todo := [] })) tbl1, 1, lw { todo := [] }, 0, 2, sb1, tbl1, by decide +kernel⟩⟩

/-- Inputs that meet the hypotheses of UpdatesReserveAndStage, clause by clause. -/
theorem witness_UpdatesReserveAndStage :
    (∃ (s : State) (q : Nat) (seq : Nat) (c : Cmd) (acc : Bool) (t : Table), 
      let w := 2 ^ (c.uIw + 1)
      let rows := numsOf w (s.rangeBytes c 0 (c.uNr * w))
      let shs := rows.map (fun r => (t.locate r).1)
      s.cmd (ckey q seq) = some c ∧ c.again = true ∧ c.stage = 1 ∧ c.opcode = (if acc = true then 0x19 else 0x18) ∧ c.operandBad = false ∧ s.behind c =
        false ∧ Tab.at? s.tables (c.num 8 2) = some t ∧ rows.all (fun r => decide (r < t.rows) && r != 2 ^ (8 * w) - 1) = true ∧ t.rebase = none ∧ t.s
        ≤ 0xFFFFFFF0 ∧ t.roomFor shs = true) ∧
    (∃ (s : State) (q : Nat) (seq : Nat) (c : Cmd) (u : UpdW) (t : Table), 
      let its := u.rows.eraseDups.flatMap (s.probeItems u.tid t)
      s.cmd (ckey q seq) = some c ∧ c.again = true ∧ c.stage = 3 ∧ c.opcode = 0x18 ∧ c.work = .upd u ∧ c.num 8 2 = u.tid ∧ Tab.at? s.tables u.tid = some t ∧
        (t.writers.find? (fun w => !w.applied)).map (·.client) = some (ckey q seq) ∧ s.updUp u = true ∧ s.updTurn (ckey q seq) c u = true ∧ its ≠ [] ∧
        (∀ i ∈ its, i.tgt.host = false)) ∧
    (∃ (s : State) (q : Nat) (seq : Nat) (c : Cmd) (u : UpdW) (t : Table) (acc : Bool), s.cmd (ckey q seq) = some c ∧ c.again = true ∧ c.opcode = (if acc
      = true then 0x19 else 0x18) ∧ c.work = .upd u ∧ c.num 8 2 = u.tid ∧ c.status ≠ stFault ∧ c.publish = false ∧ Tab.at? s.tables u.tid = some t ∧
      (t.writers.find? (fun w => !w.applied)).map (·.client) = some (ckey q seq) ∧ s.updUp u = true ∧ (c.stage = (if acc = true then 5 else 4) ∨
      (c.stage = 3 ∧ acc = false ∧ s.updTurn (ckey q seq) c u = true ∧ u.rows.eraseDups.flatMap (s.probeItems u.tid t) = []))) :=
  ⟨⟨onT up1 tbl1, 1, 5, up1, false, tbl1, by and_intros <;> first | decide +kernel | exact ok_eq (by decide +kernel) | exact err_eq (by decide +kernel)⟩,
   ⟨onT up3 tblB, 1, 5, up3, ⟨1, 2, 1, [0, 5]⟩, tblB, by and_intros <;> first|decide +kernel|(show ([0, 5] : List Nat).eraseDups.flatMap _ ≠ []; rw [tblB_reads]; decide)|(show ∀ i : Item, i ∈ ([0, 5] : List Nat).eraseDups.flatMap _ → i.tgt.host = false; rw [tblB_reads]; decide +kernel)⟩,
   ⟨onT { up3 with stage := 4 } { tbl1 with writers := [{ client := ckey 1 5, post := 2, resv := [0, 0], ents := [0, 0] }] },
      1,
      5,
      { up3 with stage := 4 },
      ⟨1, 2, 1, [0, 5]⟩,
      { tbl1 with writers := [{ client := ckey 1 5, post := 2, resv := [0, 0], ents := [0, 0] }] },
      false,
      by decide +kernel⟩⟩

/-- Inputs that meet the hypotheses of SwitchesMakeVersionsCurrent, clause by clause. -/
theorem witness_SwitchesMakeVersionsCurrent :
    (∃ (s : State) (q : Nat) (seq : Nat) (c : Cmd) (t : Table) (d : Bool), s.starts q seq c ∧ c.opcode = 0x1A ∧ c.tmode = (if d = true then 2 else 0) ∧
      s.switchTable c = .ok t ∧ switchFree t = .ok () ∧ Tab.at? s.tables (c.num 8 2) = some t) ∧
    (∃ (s : State) (q : Nat) (seq : Nat) (c : Cmd) (t : Table) (n : Table), s.starts q seq c ∧ c.opcode = 0x1A ∧ c.tmode = 1 ∧ s.switchTable c = .ok t ∧
      s.newBase (ckey q seq) c t (c.num 16 8) false = .ok n ∧ switchFree t = .ok () ∧ Tab.at? s.tables (c.num 8 2) = some t) ∧
    (∃ (s : State) (tid : Nat) (t : Table) (p : Pend), Tab.at? s.tables tid = some t ∧ t.pend.head? = some p ∧ p.discard = false ∧ t.writers.any (fun w =>
      w.post == p.ver && (w.client != p.client || !w.applied)) = false ∧ t.liveAfter ≤ 8) ∧
    (∃ (s : State) (tid : Nat) (t : Table) (p : Pend), Tab.at? s.tables tid = some t ∧ t.pend.head? = some p ∧ (t.writers.any (fun w => w.post == p.ver &&
      (w.client != p.client || !w.applied)) = true ∨ 8 < t.liveAfter)) ∧
    (∃ (s : State) (tid : Nat) (ver : Nat) (t : Table), Tab.at? s.tables tid = some t ∧ t.retired.contains ver = true) :=
  ⟨⟨onT (adm 0x1A [(64, 16, 1), (80, 2, 2)]) tbl1, 1, 5, adm 0x1A [(64, 16, 1), (80, 2, 2)], tbl1, true, by and_intros <;> first | decide +kernel | exact ok_eq (by decide +kernel) | exact err_eq (by decide +kernel)⟩,
   ⟨onT (adm 0x1A [(64, 16, 1), (80, 2, 1), (128, 64, 0x1200000)]) tbl1,
      1,
      5,
      adm 0x1A [(64, 16, 1), (80, 2, 1), (128, 64, 0x1200000)],
      tbl1,
      okD tbl1 ((onT (adm 0x1A [(64, 16, 1), (80, 2, 1), (128, 64, 0x1200000)]) tbl1).newBase (ckey 1 5) (adm 0x1A [(64, 16, 1), (80, 2, 1), (128, 64, 0x1200000)]) tbl1 0x1200000 false),
      by and_intros <;> first | decide +kernel | exact ok_eq (by decide +kernel) | exact err_eq (by decide +kernel)⟩,
   ⟨onT (adm 0x1A []) { tbl1 with pend := [⟨ckey 1 5, false, 2, none⟩] },
      1,
      { tbl1 with pend := [⟨ckey 1 5, false, 2, none⟩] },
      ⟨ckey 1 5, false, 2, none⟩,
      by decide +kernel⟩,
   ⟨onT up3 { tbl1 with pend := [⟨ckey 1 9, false, 2, none⟩], writers := [{ client := ckey 1 5, post := 2, resv := [0], ents := [0] }] },
      1,
      { tbl1 with pend := [⟨ckey 1 9, false, 2, none⟩], writers := [{ client := ckey 1 5, post := 2, resv := [0], ents := [0] }] },
      ⟨ckey 1 9, false, 2, none⟩,
      by decide +kernel⟩,
   ⟨onT (adm 0 []) { tbl1 with retired := [1], cur := 2, vers := [⟨2, 0x1000000, 1, 0⟩] },
      1,
      1,
      { tbl1 with retired := [1], cur := 2, vers := [⟨2, 0x1000000, 1, 0⟩] },
      by decide +kernel⟩⟩

/-- Inputs that meet the hypotheses of TablesAreRetiredAndCompacted, clause by clause. -/
theorem witness_TablesAreRetiredAndCompacted :
    (∃ (s : State) (q : Nat) (seq : Nat) (c : Cmd) (t : Table), s.starts q seq c ∧ c.opcode = 0x1B ∧ c.clean = true ∧ s.ownTable c = .ok t ∧ Tab.at?
      s.tables (c.num 8 2) = some t ∧ c.cancel = none ∧ c.tmode = 0 ∧ c.num 12 4 ≤ t.cur) ∧
    (∃ (s : State) (q : Nat) (seq : Nat) (c : Cmd) (t : Table), s.starts q seq c ∧ c.opcode = 0x1B ∧ c.clean = true ∧ s.ownTable c = .ok t ∧ Tab.at?
      s.tables (c.num 8 2) = some t ∧ c.cancel = none ∧ c.tmode = 1 ∧ c.num 12 4 = 0) ∧
    (∃ (s : State) (q : Nat) (seq : Nat) (c : Cmd) (t : Table) (n : Table), s.starts q seq c ∧ c.opcode = 0x1C ∧ c.clean = true ∧ c.tmode = 0 ∧ c.fld 11 1
      0 5 ≤ 16 ∧ s.ownTable c = .ok t ∧ s.newBase (ckey q seq) c t (c.num 16 8) true = .ok n ∧ t.pend.all (fun p => p.discard || p.nb.isNone) = true ∧
      switchFree t = .ok () ∧ Tab.at? s.tables (c.num 8 2) = some t) ∧
    (∃ (s : State) (q : Nat) (seq : Nat) (c : Cmd) (t : Table) (tid : Nat) (vc : Nat), s.cmd (ckey q seq) = some c ∧ c.work = .table tid vc ∧ Tab.at?
      s.tables tid = some t ∧ c.opcode = 0x1C ∧ c.phase = .running ∧ c.stage = 7 ∧ c.cancel = none ∧ c.allBack = true ∧ (t.copying.map (·.1)) = some
      (ckey q seq) ∧ t.stations.all s.stnUp = true ∧ t.s ≤ 0xFFFFFFF0) ∧
    (∃ (s : State) (q : Nat) (seq : Nat) (c : Cmd) (t : Table), s.starts q seq c ∧ c.opcode = 0x1C ∧ c.tmode = 1 ∧ c.clean = true ∧ c.num 11 1 = 0 ∧ c.num
      16 8 = 0 ∧ s.ownTable c = .ok t ∧ Tab.at? s.tables (c.num 8 2) = some t ∧ (t.vers.all (fun v => v.ver == t.cur && v.pins == 0) && t.retired ==
      [] && t.writers == [] && t.pend == [] && t.copying.isNone && t.rebase.isNone) = true) ∧
    (∃ (s : State) (q : Nat) (seq : Nat) (c : Cmd) (t : Table), s.cmd (ckey q seq) = some c ∧ c.again = true ∧ c.stage = 1 ∧ c.opcode = 0x1C ∧ c.tmode = 1
      ∧ Tab.at? s.tables (c.num 8 2) = some t) ∧
    (∃ (s : State) (q : Nat) (seq : Nat) (c : Cmd) (t : Table), s.cmd (ckey q seq) = some c ∧ c.again = true ∧ c.stage = 2 ∧ c.opcode = 0x1C ∧ c.tmode = 1
      ∧ Tab.at? s.tables (c.num 8 2) = some t) ∧
    (∃ (s : State) (stn : Nat) (x : Stn), Tab.at? s.stns stn = some x ∧ (x.sumAll = true ∨ s.liveEntries stn < x.sumRel) ∧ s.stnUp stn = true) :=
  ⟨⟨onT (adm 0x1B [(64, 16, 1), (96, 32, 1)]) tbl1, 1, 5, adm 0x1B [(64, 16, 1), (96, 32, 1)], tbl1, by and_intros <;> first | decide +kernel | exact ok_eq (by decide +kernel) | exact err_eq (by decide +kernel)⟩,
   ⟨onT (adm 0x1B [(64, 16, 1), (80, 2, 1)]) tbl1, 1, 5, adm 0x1B [(64, 16, 1), (80, 2, 1)], tbl1, by and_intros <;> first | decide +kernel | exact ok_eq (by decide +kernel) | exact err_eq (by decide +kernel)⟩,
   ⟨onT (adm 0x1C [(64, 16, 1), (128, 64, 0x1200000)]) tbl1,
      1,
      5,
      adm 0x1C [(64, 16, 1), (128, 64, 0x1200000)],
      tbl1,
      okD tbl1 ((onT (adm 0x1C [(64, 16, 1), (128, 64, 0x1200000)]) tbl1).newBase (ckey 1 5) (adm 0x1C [(64, 16, 1), (128, 64, 0x1200000)]) tbl1 0x1200000 true),
      by and_intros <;> first | decide +kernel | exact ok_eq (by decide +kernel) | exact err_eq (by decide +kernel)⟩,
   ⟨onT { run 0x1C [(64, 16, 1), (128, 64, 0x1200000)] with stage := 7, work := .table 1 1 } { tbl1 with copying := some (ckey 1 5, 0x1200000) },
      1,
      5,
      { run 0x1C [(64, 16, 1), (128, 64, 0x1200000)] with stage := 7, work := .table 1 1 },
      { tbl1 with copying := some (ckey 1 5, 0x1200000) },
      1,
      1,
      by decide +kernel⟩,
   ⟨onT (adm 0x1C [(64, 16, 1), (80, 2, 1)]) tbl1, 1, 5, adm 0x1C [(64, 16, 1), (80, 2, 1)], tbl1, by and_intros <;> first | decide +kernel | exact ok_eq (by decide +kernel) | exact err_eq (by decide +kernel)⟩,
   ⟨onT { run 0x1C [(64, 16, 1), (80, 2, 1)] with stage := 1 } { tbl1 with rebase := some (ckey 1 5) },
      1,
      5,
      { run 0x1C [(64, 16, 1), (80, 2, 1)] with stage := 1 },
      { tbl1 with rebase := some (ckey 1 5) },
      by decide +kernel⟩,
   ⟨onT { run 0x1C [(64, 16, 1), (80, 2, 1)] with stage := 2 } { tbl1 with rebase := some (ckey 1 5) },
      1,
      5,
      { run 0x1C [(64, 16, 1), (80, 2, 1)] with stage := 2 },
      { tbl1 with rebase := some (ckey 1 5) },
      by decide +kernel⟩,
   ⟨{ base with stns := [(0, { sumAll := true })] }, 0, { sumAll := true }, by decide +kernel⟩⟩

/-- Inputs that meet the hypotheses of StreamsOpenTrimAndClose, clause by clause. -/
theorem witness_StreamsOpenTrimAndClose :
    (∃ (s : State) (q : Nat) (seq : Nat) (c : Cmd) (ps : List Piece) (sid : Nat), s.cmd (ckey q seq) = some c ∧ c.again = true ∧ c.stage = 1 ∧ c.opcode =
      0x20 ∧ c.operandBad = false ∧ s.streamChecks (ckey q seq) c (s.rangeBytes c 0 64) = .ok ps ∧ Tab.freeFrom s.streams 0 16384 = some sid) ∧
    (∃ (s : State) (q : Nat) (seq : Nat) (c : Cmd) (xs : List Stream) (rs : List (Bool × Nat × Nat)) (ps : List (List Piece)), s.cmd (ckey q seq) = some c
      ∧ c.again = true ∧ c.stage = 1 ∧ c.opcode = 0x22 ∧ c.operandBad = false ∧ s.behind c = false ∧ s.gatherChecks (ckey q seq) c = .ok (xs, rs) ∧
      s.mapRanges (ckey q seq) c (s.cidOf c) rs = .ok ps ∧ ((xs.filter (fun x => !x.row)).map (·.tid)).any (fun t => ((Tab.at? s.tables t).bind
      (·.rebase)).isSome) = false) ∧
    (∃ (s : State) (q : Nat) (seq : Nat) (c : Cmd) (x : Stream), s.starts q seq c ∧ c.opcode = 0x23 ∧ c.clean = true ∧ s.ownStream c = .ok x ∧ Tab.at?
      s.streams (c.fld 8 2 0 14) = some x ∧ c.tmode = 1) ∧
    (∃ (s : State) (q : Nat) (seq : Nat) (c : Cmd) (x : Stream), s.starts q seq c ∧ c.opcode = 0x23 ∧ c.clean = true ∧ s.ownStream c = .ok x ∧ Tab.at?
      s.streams (c.fld 8 2 0 14) = some x ∧ c.tmode = 0) ∧
    (∃ (s : State) (sid : Nat) (x : Stream) (cl : Client) (c : Cmd) (i : Nat) (keep : Nat), Tab.at? s.streams sid = some x ∧ x.order.head? = some cl ∧
      s.cmd cl = some c ∧ c.cancel = none ∧ c.phase = .running ∧ c.work = .trim i keep ∧ s.strTurn cl c x.stn = true) :=
  ⟨⟨soS, 1, 5, so1, okD [] (soS.streamChecks (ckey 1 5) so1 (soS.rangeBytes so1 0 64)), 0, by and_intros <;> first | decide +kernel | exact ok_eq (by decide +kernel) | exact err_eq (by decide +kernel)⟩,
   ⟨gaS,
      1,
      5,
      ga1,
      [strm2],
      (okD ([], []) (gaS.gatherChecks (ckey 1 5) ga1)).2,
      okD [] (gaS.mapRanges (ckey 1 5) ga1 1 (okD ([], []) (gaS.gatherChecks (ckey 1 5) ga1)).2),
      by and_intros <;> first | decide +kernel | exact ok_eq (by decide +kernel) | exact err_eq (by decide +kernel)⟩,
   ⟨onS (adm 0x23 [(64, 14, 2), (80, 2, 1), (96, 25, 3)]) strm2,
      1,
      5,
      adm 0x23 [(64, 14, 2), (80, 2, 1), (96, 25, 3)],
      strm2,
      by and_intros <;> first | decide +kernel | exact ok_eq (by decide +kernel) | exact err_eq (by decide +kernel)⟩,
   ⟨onS (adm 0x23 [(64, 14, 2)]) strm2, 1, 5, adm 0x23 [(64, 14, 2)], strm2, by and_intros <;> first | decide +kernel | exact ok_eq (by decide +kernel) | exact err_eq (by decide +kernel)⟩,
   ⟨onS { run 0x23 [(64, 14, 2)] with work := .trim 2 3 } { strm2 with order := [ckey 1 5] },
      2,
      { strm2 with order := [ckey 1 5] },
      ckey 1 5,
      { run 0x23 [(64, 14, 2)] with work := .trim 2 3 },
      2,
      3,
      by decide +kernel⟩⟩

/-- Inputs that meet the hypotheses of AppendsAndGathersTakeTheirTurn, clause by clause. -/
theorem witness_AppendsAndGathersTakeTheirTurn :
    (∃ (s : State) (q : Nat) (seq : Nat) (c : Cmd) (x : Stream) (ps : List (List Piece)), 
      let n := c.fld 12 4 0 25
      let st := c.num 16 4
      let sid := c.fld 8 2 0 14
      let es := if st = 0 then x.estride else st
      s.starts q seq c ∧ c.opcode = 0x21 ∧ c.clean = true ∧ n ≤ 2 ^ 24 ∧ st % 64 = 0 ∧ s.ownStream c = .ok x ∧ Tab.at? s.streams sid = some x ∧ (if x.row =
        true then st = 0 ∨ x.elemB ≤ st else st = 0) ∧ s.mapRanges (ckey q seq) c (s.cidOf c) [(false, c.num 24 8, if n = 0 then 0 else (n - 1) * es +
        x.elemB)] = .ok ps ∧ (x.strict = true → ((s.projected x).plan n).2.2 = true → bit c.flags 1 = true)) ∧
    (∃ (s : State) (q : Nat) (seq : Nat) (c : Cmd) (x : Stream) (ps : List (List Piece)), 
      let n := c.fld 12 4 0 25
      let st := c.num 16 4
      let es := if st = 0 then x.estride else st
      s.starts q seq c ∧ c.opcode = 0x21 ∧ c.clean = true ∧ n ≤ 2 ^ 24 ∧ st % 64 = 0 ∧ s.ownStream c = .ok x ∧ (if x.row = true then st = 0 ∨ x.elemB ≤ st
        else st = 0) ∧ s.mapRanges (ckey q seq) c (s.cidOf c) [(false, c.num 24 8, if n = 0 then 0 else (n - 1) * es + x.elemB)] = .ok ps ∧ x.strict =
        true ∧ ((s.projected x).plan n).2.2 = true ∧ bit c.flags 1 = false) ∧
    (∃ (s : State) (sid : Nat) (x : Stream) (cl : Client) (c : Cmd) (i : Nat) (skip : Nat) (n : Nat), Tab.at? s.streams sid = some x ∧ x.order.head? =
      some cl ∧ s.cmd cl = some c ∧ c.cancel = none ∧ c.phase = .running ∧ c.work = .append i skip n ∧ c.allBack = true ∧ s.strTurn cl c x.stn = true) ∧
    (∃ (x : Stream) (k : Nat) (off : Nat) (_align : Nat), 0 < k ∧ x.low < x.total - off) :=
  ⟨⟨onS (apC 3) strm2, 1, 5, apC 3, strm2, [hostP 0x1000 192], by and_intros <;> first | decide +kernel | exact ok_eq (by decide +kernel) | exact err_eq (by decide +kernel)⟩,
   ⟨onS (apC 1) { strm2 with strict := true, total := 64 },
      1,
      5,
      apC 1,
      { strm2 with strict := true, total := 64 },
      [hostP 0x1000 64],
      by and_intros <;> first | decide +kernel | exact ok_eq (by decide +kernel) | exact err_eq (by decide +kernel)⟩,
   ⟨onS { run 0x21 [] with work := .append 2 0 1 } { strm2 with order := [ckey 1 5] },
      2,
      { strm2 with order := [ckey 1 5] },
      ckey 1 5,
      { run 0x21 [] with work := .append 2 0 1 },
      2,
      0,
      1,
      by decide +kernel⟩,
   ⟨strm2, 1, 9, 0, by decide +kernel⟩⟩

/-- Inputs that meet the hypotheses of ScansKeepTheSmallestKeys, clause by clause. -/
theorem witness_ScansKeepTheSmallestKeys :
    (∃ (s : State) (q : Nat) (seq : Nat) (c : Cmd) (w : ScanW) (a : Nat) (ca : Nat) (perm : Bool), s.cmd (ckey q seq) = some c ∧ c.again = true ∧ c.stage
      = 3 ∧ c.opcode = 0x29 ∧ c.work = .scan w ∧ c.operandBad = false ∧ c.ranges[2]? = some
      [{ off := 0, len := c.lutB, tgt := some ⟨true, 0, a⟩, ca := ca, wr := true, perm := perm }] ∧ s.fnOk (s.reqId (s.cidOf c)).1 = true) ∧
    (∃ (s : State) (q : Nat) (seq : Nat) (c : Cmd), s.starts q seq c ∧ s.build.scan = false ∧ (c.opcode = 0x29 ∨ c.opcode = 0x28)) ∧
    (∃ (s : State) (q : Nat) (seq : Nat) (c : Cmd) (w : ScanW), s.cmd (ckey q seq) = some c ∧ c.again = true ∧ c.stage = 5 ∧ c.opcode = 0x28 ∧ c.work =
      .scan w ∧ w.per.all (·.sent) = true) ∧
    (∃ (s : State) (q : Nat) (seq : Nat) (c : Cmd) (w : ScanW) (x : ScanS) (b : Nat × Nat) (i : Nat) (v : Nat), s.cmd (ckey q seq) = some c ∧ c.again =
      true ∧ c.stage = 5 ∧ c.opcode = 0x28 ∧ c.work = .scan w ∧ w.per = [x] ∧ x.bank = true ∧ x.sent = false ∧ x.todo = [] ∧ x.seg = some (i, v) ∧
      x.busy = some b ∧ c.waitsFor b = false ∧ (w.list i).skip = false ∧ lCount (w.list i).raw ≤ v + segN (w.list i) v ∧ w.lists.all (fun l => !lIdArr
      l.raw) = true ∧ lIdArr (w.list i).raw = false ∧ x.all.kept = [] ∧ x.cur.kept = []) ∧
    (∃ (_a : Tally) (_b : Tally) (_k : Nat) (n : Nat) (q : Nat), q < n) ∧
    (∃ (q : Nat) (e : List Byte), listOk q e = true) :=
  ⟨⟨one lut3,
      1,
      5,
      lut3,
      { per := [{ stn := 0, bank := true, seg := some (0, 0) }] },
      2 ^ 32 + 0x3000,
      0x3000,
      true,
      by decide +kernel⟩,
   ⟨{ one (adm 0x28 []) with build := { Build.model with scan := false } }, 1, 5, adm 0x28 [], by decide +kernel⟩,
   ⟨one pq6, 1, 5, pq6, { per := [{ stn := 0, bank := true, sent := true }] }, by decide +kernel⟩,
   ⟨one pq5, 1, 5, pq5, { per := [per5], lists := [lst5] }, per5, (0, 0), 0, 0, by decide +kernel⟩,
   ⟨{}, {}, 4, 1, 0, by decide +kernel⟩,
   ⟨16, recBytes 32 [(0, 64, 0x1000000), (64, 32, 5), (112, 16, 0xFFFF)], by decide +kernel⟩⟩

/-- Inputs that meet the hypotheses of DispatchesStartAndEnd, clause by clause. -/
theorem witness_DispatchesStartAndEnd :
    (∃ (s : State) (q : Nat) (seq : Nat) (c : Cmd) (ms : List (Desc × Option FaultRec)), s.cmd (ckey q seq) = some c ∧ c.again = true ∧ c.stage = 1 ∧
      c.opcode = 0x30 ∧ c.operandBad = false ∧ (s.chain c).all descOk = true ∧ ((s.chain c).zipIdx).mapM (fun x => s.mapDesc (ckey q seq) c x.2 x.1) =
      .ok ms ∧ (∀ m ∈ ms, m.2 = none) ∧ (ms.map (fun m => extents m.1.pieces)).foldl (· + ·) 0 ≤ 16384) ∧
    (∃ (s : State) (q : Nat) (seq : Nat) (c : Cmd) (w : DispW), s.starts q seq c ∧ c.opcode = 0x30 ∧ s.dispFields c = .ok () ∧ c.work = .disp w) ∧
    (∃ (s : State) (ep : Nat) (did : Nat) (_stat : Nat) (_res : BitVec 32) (e : Ep) (c : Cmd) (cl : Client) (w : DispW), Tab.at? s.eps ep = some e ∧
      s.epIn ep e = true ∧ Tab.at? e.dids did = some cl ∧ s.cmd cl = some c ∧ c.work = .disp w ∧ w.endSent = true) ∧
    (∃ (s : State) (cl : Client) (c : Cmd) (w : DispW) (st : Nat) (res : Nat), s.cmd cl = some c ∧ c.work = .disp w ∧ w.doneStat = some (st, res) ∧
      w.endSent = true ∧ c.phase = .running ∧ c.cancel = none ∧ Tab.ex s.eps (fun _ e => Tab.ex e.xids (fun _ x => x.client == cl)) = false) ∧
    (∃ (s : State) (ep : Nat) (did : Nat) (_stat : Nat) (_res : BitVec 32) (e : Ep), Tab.at? s.eps ep = some e ∧ s.epIn ep e = true ∧ (Tab.at? e.dids did
      = none ∨ ∃ cl c w, Tab.at? e.dids did = some cl ∧ s.cmd cl = some c ∧ c.work = .disp w ∧ w.endSent = false)) :=
  ⟨⟨one dp1,
      1,
      5,
      dp1,
      okD [] ((((one dp1).chain dp1).zipIdx).mapM (fun x => (one dp1).mapDesc (ckey 1 5) dp1 x.2 x.1)),
      by and_intros <;> first | decide +kernel | exact ok_eq (by decide +kernel) | exact err_eq (by decide +kernel)⟩,
   ⟨one { adm 0x30 [(64, 10, 1), (96, 13, 1), (128, 64, 0x1000)] with work := .disp { dispW1 with did := none } },
      1,
      5,
      { adm 0x30 [(64, 10, 1), (96, 13, 1), (128, 64, 0x1000)] with work := .disp { dispW1 with did := none } },
      { dispW1 with did := none },
      by and_intros <;> first | decide +kernel | exact ok_eq (by decide +kernel) | exact err_eq (by decide +kernel)⟩,
   ⟨withE (dp8 { dispW1 with endSent := true }) { rstN := true, dids := [(2, ckey 1 5)] },
      1,
      2,
      0,
      7,
      { rstN := true, dids := [(2, ckey 1 5)] },
      dp8 { dispW1 with endSent := true },
      ckey 1 5,
      { dispW1 with endSent := true },
      by decide +kernel⟩,
   ⟨one (dp8 { dispW1 with endSent := true, doneStat := some (0, 7) }),
      ckey 1 5,
      dp8 { dispW1 with endSent := true, doneStat := some (0, 7) },
      { dispW1 with endSent := true, doneStat := some (0, 7) },
      0,
      7,
      by decide +kernel⟩,
   ⟨withE (adm 0 []) { rstN := true, dids := [(2, ckey 1 5)] },
      1,
      3,
      0,
      7,
      { rstN := true, dids := [(2, ckey 1 5)] },
      by exact ⟨by decide +kernel, by decide +kernel, Or.inl (by decide +kernel)⟩⟩⟩

/-- Inputs that meet the hypotheses of EnginePortsMoveDataAndStop, clause by clause. -/
theorem witness_EnginePortsMoveDataAndStop :
    (∃ (s : State) (ep : Nat) (n : Nat) (e : Ep), Tab.at? s.eps ep = some e ∧ s.epIn ep e = true ∧ e.credits + n ≤ 4095) ∧
    (∃ (s : State) (ep : Nat) (n : Nat) (e : Ep), Tab.at? s.eps ep = some e ∧ s.epIn ep e = true ∧ 4095 < e.credits + n) ∧
    (∃ (s : State) (ep : Nat) (xid : Nat) (a : Nat) (ca : Nat) (_data : BitVec 512) (_poison : Bool) (_last : Bool) (perm : Bool) (e : Ep) (x : Xfer) (c :
      Cmd), Tab.at? s.eps ep = some e ∧ s.epIn ep e = true ∧ Tab.at? e.xids xid = some x ∧ x.kind = 1 ∧ e.granted ≠ 0 ∧ 64 * (x.beats + 1) ≤ x.len ∧
      s.cmd x.client = some c ∧ x.pieces = [{ off := 0, len := x.len, tgt := some ⟨true, 0, a⟩, ca := ca, wr := true, perm := perm }] ∧ s.fnOk
      (s.reqId (s.cidOf c)).1 = true) ∧
    (∃ (s : State) (ep : Nat) (xid : Nat) (e : Ep) (x : Xfer), Tab.at? s.eps ep = some e ∧ (xid, x) ∈ e.xids ∧ x.kind = 1 ∧ x.len ≤ 64 * x.beats) ∧
    (∃ (s : State) (ep : Nat) (xid : Nat) (_data : BitVec 512) (_poison : Bool) (_last : Bool) (e : Ep), Tab.at? s.eps ep = some e ∧ s.epIn ep e = true ∧
      ((∃ x, Tab.at? e.xids xid = some x ∧ (x.kind ≠ 1 ∨ e.granted = 0 ∨ x.len ≤ 64 * x.beats)) ∨ (Tab.at? e.xids xid = none ∧ e.ended.contains xid =
      false))) ∧
    (∃ (s : State) (ep : Nat) (_xid : Nat) (_n : Nat) (_did : Nat) (_stat : Nat) (_res : BitVec 32) (_data : BitVec 512) (_poison : Bool) (_last : Bool)
      (e : Ep), Tab.at? s.eps ep = some e ∧ s.epIn ep e = false) ∧
    (∃ (s : State) (ep : Nat) (e : Ep), Tab.at? s.eps ep = some e) ∧
    (∃ (s : State) (ep : Nat) (e : Ep), Tab.at? s.eps ep = some e) ∧
    (∃ (s : State) (ep : Nat) (e : Ep), Tab.at? s.eps ep = some e ∧ e.qreq = true) ∧
    (∃ (s : State) (ep : Nat) (e : Ep), Tab.at? s.eps ep = some e ∧ e.qreq = true ∧ (Tab.atD s.stns (s.build.epStn ep) {}).pwr = 4) ∧
    (∃ (s : State) (ep : Nat) (e : Ep), Tab.at? s.eps ep = some e ∧ e.inReset = true) :=
  ⟨⟨withE (adm 0 []) { rstN := true, credits := 4000 }, 1, 95, { rstN := true, credits := 4000 }, by decide +kernel⟩,
   ⟨withE (adm 0 []) { rstN := true, credits := 4000 }, 1, 96, { rstN := true, credits := 4000 }, by decide +kernel⟩,
   ⟨withE (dp8 dispW1) epX, 1, 0, 0x9000, 0x9000, 5, false, false, true, epX, xf1, dp8 dispW1, by decide +kernel⟩,
   ⟨withE (dp8 dispW1) { epX with xids := [(0, { xf1 with beats := 2 })] },
      1,
      0,
      { epX with xids := [(0, { xf1 with beats := 2 })] },
      { xf1 with beats := 2 },
      by decide +kernel⟩,
   ⟨withE (dp8 dispW1) { epX with granted := 0 }, 1, 0, 5, false, false, { epX with granted := 0 }, by exact ⟨by decide +kernel, by decide +kernel, Or.inl ⟨xf1, by decide +kernel⟩⟩⟩,
   ⟨withE (adm 0 []) { rstN := false }, 1, 0, 0, 0, 0, 7, 5, false, false, { rstN := false }, by decide +kernel⟩,
   ⟨withE (adm 0 []) {}, 1, {}, by decide +kernel⟩,
   ⟨withE (dp8 dispW1) { rdy := true, dids := [(2, ckey 1 5)] }, 1, { rdy := true, dids := [(2, ckey 1 5)] }, by decide +kernel⟩,
   ⟨withE (adm 0 []) { qreq := true }, 1, { qreq := true }, by decide +kernel⟩,
   ⟨{ withE (adm 0 []) { qreq := true } with stns := [(0, { pwr := 4 })] }, 1, { qreq := true }, by decide +kernel⟩,
   ⟨withE (adm 0 []) { inReset := true }, 1, { inReset := true }, by decide +kernel⟩⟩

/-- Inputs that meet the hypotheses of CopiesAndCensus, clause by clause. -/
theorem witness_CopiesAndCensus :
    (∃ (s : State) (q : Nat) (seq : Nat) (c : Cmd), s.cmd (ckey q seq) = some c ∧ c.again = true ∧ c.stage = 1 ∧ c.opcode = 0x31) ∧
    (∃ (s : State) (_cl : Client) (c : Cmd) (k : Nat) (a : Nat) (b : Nat) (m : Nat) (n : Nat) (ca : Nat) (cb : Nat) (w : Bool) (p : Bool) (r : Bool),
      c.ranges = [[⟨0, m, some ⟨true, 0, a⟩, ca, w, p⟩], [⟨0, n, some ⟨true, 0, b⟩, cb, true, r⟩]] ∧ 64 * (k + 1) ≤ m ∧ 64 * (k + 1) ≤ n ∧ s.fnOk
      (s.reqId (s.cidOf c)).1 = true) ∧
    (∃ (s : State) (q : Nat) (seq : Nat) (c : Cmd), s.starts q seq c ∧ c.opcode = 0x38 ∧ c.q = 0 ∧ s.cidOf c = 0 ∧ c.clean = true ∧ c.fld 8 1 0 2 < 3 ∧
      c.num 24 8 % 64 = 0 ∧ c.num 32 8 % 64 = 0 ∧ c.num 24 8 + c.num 32 8 ≤ 2 ^ 64 ∧ (c.fld 8 1 0 2 = 0 → Tab.has s.ctxs (c.fld 10 2 0 12) = true) ∧
      (c.fld 8 1 0 2 = 1 → Tab.has s.parts (c.fld 10 2 0 12) = true)) ∧
    (∃ (s : State) (q : Nat) (seq : Nat) (c : Cmd), s.starts q seq c ∧ c.opcode = 0x38 ∧ c.q = 0 ∧ s.cidOf c = 0 ∧ c.clean = true ∧ c.fld 8 1 0 2 < 3 ∧
      c.num 24 8 % 64 = 0 ∧ c.num 32 8 % 64 = 0 ∧ c.num 24 8 + c.num 32 8 ≤ 2 ^ 64 ∧ (c.fld 8 1 0 2 = 0 → Tab.has s.ctxs (c.fld 10 2 0 12) = true) ∧
      (c.fld 8 1 0 2 = 1 → Tab.has s.parts (c.fld 10 2 0 12) = true) ∧ c.num 32 8 = 0) :=
  ⟨⟨one cp1, 1, 5, cp1, by decide +kernel⟩,
   ⟨one cp1, ckey 1 5, cp1, 1, 0x9000, 0xA000, 128, 128, 0x1000, 0x2000, false, true, true, by decide +kernel⟩,
   ⟨one (adm0 0x38 [(64, 2, 1), (192, 64, 0x4000), (256, 64, 4096)]),
      0,
      5,
      adm0 0x38 [(64, 2, 1), (192, 64, 0x4000), (256, 64, 4096)],
      by decide +kernel⟩,
   ⟨one (adm0 0x38 [(64, 2, 1), (192, 64, 0x4000)]), 0, 5, adm0 0x38 [(64, 2, 1), (192, 64, 0x4000)], by decide +kernel⟩⟩

/-- Inputs that meet the hypotheses of ProgramsLoadAndUnload, clause by clause. -/
theorem witness_ProgramsLoadAndUnload :
    (∃ (s : State) (q : Nat) (seq : Nat) (c : Cmd) (p : Part) (h : Nat), 
      let m := s.rangeBytes c 0 (c.num 12 4)
      s.cmd (ckey q seq) = some c ∧ c.again = true ∧ c.stage = 1 ∧ c.opcode = 0x3F ∧ c.pmode = 0 ∧ c.operandBad = false ∧ Tab.at? s.parts (s.pidOf (s.cidOf
        c)) = some p ∧ Tab.freeFrom p.progs 1 31 = some h ∧ (p.progs.map (fun g => g.2.code.length)).foldl (· + ·) 0 + pCode m ≤ 65536 ∧ (p.progs.map
        (fun g => g.2.const.length)).foldl (· + ·) 0 + pConst m ≤ 49152) ∧
    (∃ (s : State) (q : Nat) (seq : Nat) (c : Cmd) (p : Part) (g : Prog), s.starts q seq c ∧ c.opcode = 0x3F ∧ c.pmode = 1 ∧ c.clean = true ∧ 1 ≤
      c.phandle ∧ c.num 12 4 = 0 ∧ c.num 16 8 = 0 ∧ Tab.at? s.parts (s.pidOf (s.cidOf c)) = some p ∧ Tab.at? p.progs c.phandle = some g ∧ g.unloading
      = false) :=
  ⟨⟨one pl1, 1, 5, pl1, p0, 1, by and_intros <;> first | decide +kernel | exact ok_eq (by decide +kernel) | exact err_eq (by decide +kernel)⟩,
   ⟨{ one (adm 0x3F [(64, 1, 1), (72, 5, 3)]) with parts := [(0, { p0 with progs := [(3, prog)] })] },
      1,
      5,
      adm 0x3F [(64, 1, 1), (72, 5, 3)],
      { p0 with progs := [(3, prog)] },
      prog,
      by decide +kernel⟩⟩

/-- Inputs that meet the hypotheses of ContextsAndQueuesAreMade, clause by clause. -/
theorem witness_ContextsAndQueuesAreMade :
    (∃ (s : State) (q : Nat) (seq : Nat) (c : Cmd) (f : Fn) (cid : Nat), 
      let pasid := if c.fld 10 1 0 1 = 1 then some (c.fld 12 4 0 20) else none
      s.starts q seq c ∧ c.opcode = 0x40 ∧ ctxFields c = true ∧ Tab.at? s.fns (c.fld 8 2 0 9) = some f ∧ f.en = true ∧ s.bindingFree (c.fld 8 2 0 9) pasid
        (c.fld 16 2 0 12) = true ∧ s.partOk (c.fld 11 1 0 6) = true ∧ (c.fld 18 1 0 6 = 0 ∨ (s.build.keys = true ∧ (s.keySlot (c.fld 18 1 0 6)).st =
        .loaded ∧ (s.keySlot (c.fld 18 1 0 6)).pid = some (c.fld 11 1 0 6))) ∧ Tab.freeFrom s.ctxs 1 4095 = some cid) ∧
    (∃ (s : State) (q : Nat) (seq : Nat) (c : Cmd), s.starts q seq c ∧ c.opcode = 0x41 ∧ c.clean = true ∧ c.fld 8 2 0 12 ≠ 0 ∧ Tab.has s.ctxs (c.fld 8 2 0
      12) = true) ∧
    (∃ (s : State) (q : Nat) (seq : Nat) (c : Cmd), s.starts q seq c ∧ c.opcode = 0x41 ∧ c.clean = true ∧ c.fld 8 2 0 12 ≠ 0 ∧ Tab.has s.ctxs (c.fld 8 2 0
      12) = false) ∧
    (∃ (s : State) (q : Nat) (seq : Nat) (c : Cmd) (qid : Nat), s.starts q seq c ∧ c.opcode = 0x42 ∧ s.queueChecks (ckey q seq) c = .ok () ∧ Tab.freeFrom
      s.queues 1 32767 = some qid) ∧
    (∃ (s : State) (q : Nat) (seq : Nat) (c : Cmd) (x : Queue), s.starts q seq c ∧ c.opcode = 0x43 ∧ c.clean = true ∧ c.fld 8 2 0 15 ≠ 0 ∧ Tab.at?
      s.queues (c.fld 8 2 0 15) = some x) ∧
    (∃ (s : State) (qid : Nat) (x : Queue), Tab.at? s.queues qid = some x ∧ x.st = .draining ∧ s.received qid = 0 ∧ s.queueTags qid = false) :=
  ⟨⟨one cc, 0, 5, cc, { en := true }, 2, by and_intros <;> first | decide +kernel | exact ok_eq (by decide +kernel) | exact err_eq (by decide +kernel)⟩,
   ⟨one (adm0 0x41 [(64, 12, 1)]), 0, 5, adm0 0x41 [(64, 12, 1)], by decide +kernel⟩,
   ⟨one (adm0 0x41 [(64, 12, 4095)]), 0, 5, adm0 0x41 [(64, 12, 4095)], by decide +kernel⟩,
   ⟨one qc, 0, 5, qc, 2, by and_intros <;> first | decide +kernel | exact ok_eq (by decide +kernel) | exact err_eq (by decide +kernel)⟩,
   ⟨one (adm0 0x43 [(64, 15, 1)]), 0, 5, adm0 0x43 [(64, 15, 1)], q1, by decide +kernel⟩,
   ⟨withQ (fun q => { q with st := .draining }), 1, { q1 with st := .draining }, by decide +kernel⟩⟩

/-- Inputs that meet the hypotheses of TablesAndPartitionsComeAndGo, clause by clause. -/
theorem witness_TablesAndPartitionsComeAndGo :
    (∃ (s : State) (q : Nat) (seq : Nat) (c : Cmd) (t : Table) (tid : Nat), s.cmd (ckey q seq) = some c ∧ c.again = true ∧ c.stage = 1 ∧ c.opcode = 0x44 ∧
      c.operandBad = false ∧ s.tableChecks (ckey q seq) c (s.rangeBytes c 0 128) = .ok t ∧ Tab.freeFrom s.tables 0 65536 = some tid) ∧
    (∃ (s : State) (q : Nat) (seq : Nat) (c : Cmd) (sl : Nat), 
      let pid := c.fld 8 1 0 6
      let d := s.rangeBytes c 0 384
      let ns := maskStns (c.fld 16 8 0 48)
      s.cmd (ckey q seq) = some c ∧ c.again = true ∧ c.stage = 1 ∧ c.opcode = 0x45 ∧ c.operandBad = false ∧ Tab.has s.parts pid = false ∧ ns ≠ [] ∧
        s.freeSlice = some sl ∧ (∀ n ∈ ns, n < s.build.nstn ∧ (Tab.atD s.stns n {}).state = 0 ∧ s.ownerOf n = none ∧ bayAt d n % 65536 = 0 ∧ bayAt d n
        + 2 ^ 28 ≤ s.build.memBytes n)) ∧
    (∃ (s : State) (q : Nat) (seq : Nat) (c : Cmd) (p : Part), s.starts q seq c ∧ c.opcode = 0x46 ∧ c.clean = true ∧ Tab.at? s.parts (c.fld 8 1 0 6) =
      some p ∧ p.st = 0) ∧
    (∃ (s : State) (q : Nat) (seq : Nat) (c : Cmd) (p : Part), s.starts q seq c ∧ c.opcode = 0x46 ∧ c.clean = true ∧ Tab.at? s.parts (c.fld 8 1 0 6) =
      some p ∧ p.st ≠ 0) ∧
    (∃ (s : State) (pid : Nat), s.drained pid = true) ∧
    (∃ (s : State) (pid : Nat) (p : Part), Tab.at? s.parts pid = some p ∧ p.st = 1 ∧ p.scrubbing = false ∧ s.drained pid = false) :=
  ⟨⟨withB tc tDesc,
      0,
      5,
      tc,
      okD tbl1 ((withB tc tDesc).tableChecks (ckey 0 5) tc ((withB tc tDesc).rangeBytes tc 0 128)),
      0,
      by and_intros <;> first | decide +kernel | exact ok_eq (by decide +kernel) | exact err_eq (by decide +kernel)⟩,
   ⟨withB pc (recBytes 384 [(128, 64, 0x10000), (192, 64, 0x10000)]), 0, 5, pc, 0, by and_intros <;> first | decide +kernel | exact ok_eq (by decide +kernel) | exact err_eq (by decide +kernel)⟩,
   ⟨one (adm0 0x46 [(64, 6, 0)]), 0, 5, adm0 0x46 [(64, 6, 0)], p0, by decide +kernel⟩,
   ⟨{ one (adm0 0x46 [(64, 6, 0)]) with parts := [(0, { p0 with st := 1 })] },
      0,
      5,
      adm0 0x46 [(64, 6, 0)],
      { p0 with st := 1 },
      by decide +kernel⟩,
   ⟨{ base with parts := [(0, { p0 with st := 1 })] }, 0, by decide +kernel⟩,
   ⟨{ one (run 0 []) with parts := [(0, { p0 with st := 1 })] }, 0, { p0 with st := 1 }, by decide +kernel⟩⟩

/-- Inputs that meet the hypotheses of SegmentsAndTranslation, clause by clause. -/
theorem witness_SegmentsAndTranslation :
    (∃ (s : State) (q : Nat) (seq : Nat) (c : Cmd) (x : Ctx), s.cmd (ckey q seq) = some c ∧ c.again = true ∧ c.stage = 1 ∧ c.opcode = 0x47 ∧ c.operandBad
      = false ∧ s.segChecks (c.fld 8 2 0 12) (c.fld 10 1 0 4) (s.rangeBytes c 0 64) = .ok () ∧ Tab.at? s.ctxs (c.fld 8 2 0 12) = some x) ∧
    (∃ (s : State) (_cid : Nat) (_lo : Nat) (_len : Nat) (pid : Nat) (p : Part), Tab.at? s.parts pid = some p) ∧
    (∃ (s : State) (q : Nat) (seq : Nat) (c : Cmd), s.starts q seq c ∧ c.opcode = 0x48 ∧ c.clean = true ∧ c.fld 8 2 0 12 ≠ 0 ∧ c.num 16 8 % 65536 = 0 ∧
      c.num 24 8 % 65536 = 0 ∧ c.num 16 8 + c.num 24 8 ≤ 2 ^ 64 ∧ (Tab.at? s.ctxs (c.fld 8 2 0 12)).map (·.detached) = some false) ∧
    (∃ (s : State) (q : Nat) (seq : Nat) (c : Cmd), s.starts q seq c ∧ c.opcode = 0x48 ∧ c.clean = true ∧ c.fld 8 2 0 12 ≠ 0 ∧ c.num 16 8 % 65536 = 0 ∧
      c.num 24 8 % 65536 = 0 ∧ c.num 16 8 + c.num 24 8 ≤ 2 ^ 64 ∧ (Tab.at? s.ctxs (c.fld 8 2 0 12)).map (·.detached) = some false ∧ c.num 24 8 = 0) ∧
    (∃ (s : State) (q : Nat) (seq : Nat) (c : Cmd), s.starts q seq c ∧ c.opcode = 0x48 ∧ c.clean = true ∧ c.fld 8 2 0 12 ≠ 0 ∧ c.num 16 8 % 65536 = 0 ∧
      c.num 24 8 % 65536 = 0 ∧ c.num 16 8 + c.num 24 8 ≤ 2 ^ 64 ∧ (Tab.at? s.ctxs (c.fld 8 2 0 12)).map (·.detached) ≠ some false) ∧
    (∃ (s : State) (q : Nat) (seq : Nat) (id : Nat) (c : Cmd) (w : InvW), s.cmd (ckey q seq) = some c ∧ c.work = .inv w ∧ c.stage = 8 ∧ c.phase = .running
      ∧ w.stns.contains id = true ∧ w.old.any (fun r => r.stn == some id && s.inFlight r) = false) ∧
    (∃ (s : State) (q : Nat) (seq : Nat) (ep : Nat) (c : Cmd) (w : InvW), s.cmd (ckey q seq) = some c ∧ c.work = .inv w ∧ c.stage = 8 ∧ c.phase = .running
      ∧ w.ports.contains ep = true) ∧
    (∃ (s : State) (v : BitVec 32) (p : Part), s.reaches 0 ∧ s.xlt.sys = false ∧ Tab.at? s.parts s.xlt.psel = some p ∧ v.toNat.testBit 31 = false) ∧
    (∃ (s : State) (_k : Nat) (e : Nat) (w : Walker) (x : Ctx) (g : Seg) (p : Part), Tab.at? s.ctxs w.cid = some x ∧ Tab.at? x.segs w.seg = some g ∧
      Tab.at? s.parts w.pid = some p ∧ e.testBit 0 = true ∧ e.testBit 2 = true ∧ s.badLeaf w.level e ((w.addr - g.base) / pageSize w.level) = false) ∧
    (∃ (p : Part) (n : CacheEnt) (e : _), p.place e ≠ p.place n) ∧
    (∃ (s : State) (tag : Nat) (_status : Nat) (k : Nat) (_data : List (BitVec 8)) (_poison : Bool) (r : Req), Tab.at? s.tags tag = some r ∧ r.stn = none
      ∧ r.pur = .walk k) :=
  ⟨⟨withB ss gDesc, 0, 5, ss, c1, by and_intros <;> first | decide +kernel | exact ok_eq (by decide +kernel) | exact err_eq (by decide +kernel)⟩,
   ⟨base, 1, 0, 65536, 0, p0, by decide +kernel⟩,
   ⟨one (iv 0 (2 ^ 63)), 0, 5, iv 0 (2 ^ 63), by decide +kernel⟩,
   ⟨one (iv 0 0), 0, 5, iv 0 0, by decide +kernel⟩,
   ⟨{ one (iv 0 65536) with ctxs := [(1, { c1 with detached := true })] }, 0, 5, iv 0 65536, by decide +kernel⟩,
   ⟨one (ivW { cid := 1, lo := 0, len := 65536, stns := [0] }),
      0,
      5,
      0,
      ivW { cid := 1, lo := 0, len := 65536, stns := [0] },
      { cid := 1, lo := 0, len := 65536, stns := [0] },
      by decide +kernel⟩,
   ⟨one (ivW { cid := 1, lo := 0, len := 65536, ports := [1] }),
      0,
      5,
      1,
      ivW { cid := 1, lo := 0, len := 65536, ports := [1] },
      { cid := 1, lo := 0, len := 65536, ports := [1] },
      by decide +kernel⟩,
   ⟨base, 0x7FFFFFFF, p0, by decide +kernel⟩,
   ⟨{ base with ctxs := [(1, c1p)] }, 0, 0x5000D, wk, c1p, pgSeg, p0, by decide +kernel⟩,
   ⟨p0, ⟨1, 0, 65536, true, true, 0, 0, 0, 0⟩, ⟨1, 65536, 65536, true, true, 0, 0, 0, 0⟩, by decide +kernel⟩,
   ⟨{ base with tags := [(0, wkReq)] }, 0, 0, 0, [13], false, wkReq, by decide +kernel⟩⟩

/-- Inputs that meet the hypotheses of KeysAndSweeps, clause by clause. -/
theorem witness_KeysAndSweeps :
    (∃ (s : State) (q : Nat) (seq : Nat) (c : Cmd) (k : Nat), s.cmd (ckey q seq) = some c ∧ c.again = true ∧ c.stage = 1 ∧ c.opcode = 0x49 ∧ c.operandBad
      = false ∧ s.partOk (c.fld 8 1 0 6) = true ∧ (runFrom 1 63).find? (fun k => (s.keySlot k).st == .free) = some k) ∧
    (∃ (s : State) (q : Nat) (seq : Nat) (c : Cmd), s.starts q seq c ∧ c.opcode = 0x4A ∧ s.build.keys = true ∧ c.clean = true ∧ c.fld 8 1 0 6 ≠ 0 ∧ Tab.ex
      s.ctxs (fun _ x => x.key == c.fld 8 1 0 6 && !x.detached) = false) ∧
    (∃ (s : State) (k : Nat), (s.keySlot k).waits = true ∧ s.keyTags k = 0 ∧ (s.keySlot k).holders ≠ []) ∧
    (∃ (s : State) (stn : Nat) (k : Nat), (s.keySlot k).await = [stn] ∧ (s.keySlot k).erasing = true) ∧
    (∃ (s : State) (stn : Nat) (k : Nat), (s.keySlot k).await.contains stn = true) ∧
    (∃ s : State, s.up = true ∧ s.xlt.sweep = none) ∧
    (∃ (s : State) (k : Nat) (x : _), Tab.at? s.keys k = some x) ∧
    (∃ s : State, s.xlt.sweep.isSome = true) :=
  ⟨⟨one kl, 0, 5, kl, 2, by decide +kernel⟩,
   ⟨{ one (adm0 0x4A [(64, 6, 63)]) with keys := [(63, { st := .loaded, pid := some 0 })] },
      0,
      5,
      adm0 0x4A [(64, 6, 63)],
      by decide +kernel⟩,
   ⟨withK { st := .scrubbing, holders := [0, 1] }, 1, by decide +kernel⟩,
   ⟨withK { st := .scrubbing, erasing := true, await := [1] }, 1, 1, by decide +kernel⟩,
   ⟨withK { st := .loaded, await := [0, 1] }, 1, 1, by decide +kernel⟩,
   ⟨base, by decide +kernel⟩,
   ⟨withK { st := .scrubbed, sweeps := 1 }, 1, { st := .scrubbed, sweeps := 1 }, by decide +kernel⟩,
   ⟨{ base with xlt := { sweep := some [(0, 0)] } }, by decide +kernel⟩⟩

/-- Inputs that meet the hypotheses of SourcesSampleTheirInputs, clause by clause. -/
theorem witness_SourcesSampleTheirInputs :
    (∃ (s : State) (n : Nat) (_info : BitVec 32), s.srcBuilt n = true ∧ (s.src n).sense = 1 ∧ (s.src n).raw = false) ∧
    (∃ (s : State) (n : Nat) (_level : Bool) (_info : BitVec 32), s.srcBuilt n = true ∧ (s.src n).sense = 0) ∧
    (∃ (s : State) (n : Nat) (_level : Bool) (_info : BitVec 32), s.srcBuilt n = false) ∧
    (∃ (s : State) (v : BitVec 32), s.reaches 0 ∧ 896 ≤ bits v.toNat 0 10 ∧ bits v.toNat 0 10 ≤ 959 ∧ (s.src (bits v.toNat 0 10)).sense = 1 ∧ (s.src (bits
      v.toNat 0 10)).raw = false) ∧
    (∃ (s : State) (v : BitVec 32), s.reaches 0 ∧ srcFw (bits v.toNat 0 10) = false ∧ (s.src (bits v.toNat 0 10)).sense = 0 ∧ (s.src (bits v.toNat 0
      10)).active = true) ∧
    (∃ (s : State) (fw : Bool) (_set : Bool) (_i : Nat) (_v : BitVec 32), (fw = true ∨ s.reaches 0)) ∧
    (∃ (s : State) (fw : Bool) (_v : BitVec 32), (fw = true ∨ s.reaches 0) ∧ s.mayCfg fw s.evc.ssel = true) ∧
    (∃ (s : State) (fw : Bool) (_route : Bool) (_v : BitVec 32), s.mayCfg fw s.evc.ssel = false) :=
  ⟨⟨base, 1015, 7, by decide +kernel⟩,
   ⟨base, 256, false, 7, by decide +kernel⟩,
   ⟨base, 1022, true, 7, by decide +kernel⟩,
   ⟨base, 959, by decide +kernel⟩,
   ⟨withX [(64, { sense := 0, active := true, masked := false })], 64, by decide +kernel⟩,
   ⟨base, true, true, 31, 0x80000000, by decide +kernel⟩,
   ⟨{ base with evc := { ssel := 67 } }, false, 0x1234, by decide +kernel⟩,
   ⟨{ base with evc := { ssel := 68 } }, false, true, 0x1234, by decide +kernel⟩⟩

/-- Inputs that meet the hypotheses of RecordsReachTheRings, clause by clause. -/
theorem witness_RecordsReachTheRings :
    (∃ (s : State) (ltp : Bool) (n : Nat) (x : Src), Tab.sorted s.evc.srcs = true ∧ s.winner ltp = some (n, x)) ∧
    (∃ (s : State) (ltp : Bool) (n : Nat) (x : Src) (m : _) (y : _), Tab.sorted s.evc.srcs = true ∧ s.winner ltp = some (n, x) ∧ (m, y) ∈ s.evc.srcs ∧
      s.mayWin ltp m y = true) ∧
    (∃ (s : State) (n : Nat) (x : Src), s.winner false = some (n, x)) ∧
    (∃ s : State, s.winner s.ltpTakes = none) ∧
    (∃ (s : State) (n : Nat) (x : Src) (f : Fn), s.ltpTakes = true ∧ s.winner true = some (n, x) ∧ srcFw n = false ∧ Tab.at? s.fns x.fn = some f ∧ f.evEn
      = true ∧ f.evFull = false ∧ s.fnOk x.fn = true ∧ (f.evArmed = false ∨ f.evVec ≠ 0x7FF)) ∧
    (∃ (s : State) (n : Nat) (x : Src) (f : Fn), s.ltpTakes = true ∧ s.winner true = some (n, x) ∧ srcFw n = false ∧ Tab.at? s.fns x.fn = some f ∧ f.evEn
      = true ∧ f.evFull = false ∧ s.fnOk x.fn = true ∧ (f.evArmed = false ∨ f.evVec ≠ 0x7FF) ∧ f.evArmed = true) ∧
    (∃ (s : State) (n : Nat) (x : Src), s.winner s.ltpTakes = some (n, x) ∧ srcFw n = true ∧ (s.hring x.hring).full = false) ∧
    (∃ (s : State) (fn : Nat) (v : BitVec 32) (f : Fn), s.reaches fn ∧ Tab.at? s.fns fn = some f ∧ f.evEn = false ∧ v.toNat.testBit 0 = true ∧ f.evOvf =
      false) ∧
    (∃ (s : State) (fn : Nat) (h : Nat) (v : BitVec 32) (f : Fn), s.reaches fn ∧ Tab.at? s.fns fn = some f ∧ posDec f.evN v.toNat = some h ∧ posSub f.evN
      h f.evHead ≤ posSub f.evN f.evTail f.evHead ∧ f.evOvf = false ∧ s.fnOk fn = true ∧ f.evVec ≠ 0x7FF) :=
  ⟨⟨withX [(64, puls), (65, puls)], true, 64, puls, by decide +kernel⟩,
   ⟨withX [(64, puls), (65, puls)], true, 64, puls, 65, puls, by decide +kernel⟩,
   ⟨withX [(64, puls), (770, puls)], 770, puls, by decide +kernel⟩,
   ⟨withX [(64, { puls with masked := true })], by decide +kernel⟩,
   ⟨{ withX [(64, puls)] with fns := [(0, fnE)] }, 64, puls, fnE, by decide +kernel⟩,
   ⟨{ withX [(64, puls)] with fns := [(0, { fnE with evArmed := true, evVec := 7 })] },
      64,
      puls,
      { fnE with evArmed := true, evVec := 7 },
      by decide +kernel⟩,
   ⟨withX [(770, puls)], 770, puls, by decide +kernel⟩,
   ⟨base, 0, 1, { en := true, bme := true }, by decide +kernel⟩,
   ⟨{ base with fns := [(0, { fnE with evTail := 3 })] }, 0, 3, 3, { fnE with evTail := 3 }, by decide +kernel⟩⟩

/-- Inputs that meet the hypotheses of CoresClaimAndEndRecords, clause by clause. -/
theorem witness_CoresClaimAndEndRecords :
    (∃ (s : State) (core : Nat), core < 8 ∧ s.claimPick core = none) ∧
    (∃ (s : State) (core : Nat) (r : Nat) (slot : Nat) (e : HrRec), core < 8 ∧ s.claimPick core = some (r, slot, e)) ∧
    (∃ (s : State) (core : Nat) (v : BitVec 32) (e : HrRec), core < 8 ∧ s.claims core ≠ [] ∧ Tab.at? (s.hring (bits v.toNat 10 2)).recs (bits v.toNat 12
      8) = some e ∧ e.by_ = some core ∧ e.level = false ∧ (s.hring (bits v.toNat 10 2)).ovf = false) ∧
    (∃ (s : State) (core : Nat) (_v : BitVec 32), core < 8 ∧ s.claims core = []) :=
  ⟨⟨base, 7, by decide +kernel⟩,
   ⟨withH hrR, 7, 0, 0, hrR, by decide +kernel⟩,
   ⟨withH { hrR with by_ := some 7 }, 7, 0, { hrR with by_ := some 7 }, by decide +kernel⟩,
   ⟨base, 0, 0, by decide +kernel⟩⟩

/-- Inputs that meet the hypotheses of PostbagsTakeFaultRecords, clause by clause. -/
theorem witness_PostbagsTakeFaultRecords :
    (∃ (s : State) (p : Nat) (b : Postbag) (r : FaultRec), Tab.at? s.postbags p = some b ∧ b.staged = [r] ∧ b.en = true ∧ b.full = false ∧ b.ovf = none ∧
      s.fnOk 0 = true) ∧
    (∃ (s : State) (v : BitVec 32) (p : Nat) (b : Postbag), s.reaches 0 ∧ s.pbSel = some p ∧ Tab.at? s.postbags p = some b ∧ b.en = false ∧
      v.toNat.testBit 0 = true ∧ b.ovf = none) ∧
    (∃ (s : State) (v : BitVec 32) (p : Nat) (h : Nat) (b : Postbag), s.reaches 0 ∧ s.pbSel = some p ∧ Tab.at? s.postbags p = some b ∧ posDec b.n v.toNat
      = some h ∧ posSub b.n h b.head ≤ posSub b.n b.tail b.head ∧ b.ovf = none) ∧
    (∃ (s : State) (v : BitVec 32) (x : Ctx), s.reaches 0 ∧ Tab.at? s.ctxs (bits v.toNat 0 12) = some x) :=
  ⟨⟨withP { en := true, log2 := 4, staged := [fRec] }, 0, { en := true, log2 := 4, staged := [fRec] }, fRec, by decide +kernel⟩,
   ⟨withP {}, 1, 0, {}, by decide +kernel⟩,
   ⟨withP { en := true, log2 := 4, tail := 2 }, 2, 0, 2, { en := true, log2 := 4, tail := 2 }, by decide +kernel⟩,
   ⟨base, 1, c1, by decide +kernel⟩⟩

/-- Inputs that meet the hypotheses of LateResponsesAreDeadLetters, clause by clause. -/
theorem witness_LateResponsesAreDeadLetters :
    (∃ (s : State) (stn : Nat) (_lane : Nat) (tag : Nat) (cid : Nat) (key : Nat) (_type : Nat) (_poison : Nat) (_data : List (BitVec 8)) (_last : Bool),
      s.portHeld stn = false ∧ (∀ r ∈ Tab.at? s.tags (stnTag stn tag), r.cid ≠ cid ∨ r.key ≠ key)) ∧
    (∃ (s : State) (stn : Nat) (_lane : Nat) (tag : Nat) (_poison : Nat) (_data : List (BitVec 8)) (_last : Bool) (r : Req) (i : Nat), s.portHeld stn =
      false ∧ Tab.at? s.tags (stnTag stn tag) = some r ∧ r.stn = some stn ∧ r.pur = .item i) ∧
    (∃ (s : State) (stn : Nat) (_lane : Nat) (_tag : Nat) (_cid : Nat) (_key : Nat) (_type : Nat) (_poison : Nat) (_data : List (BitVec 8)) (_last :
      Bool), s.portHeld stn = true) :=
  ⟨⟨withR (stnTag 0 3) rqR, 0, 0, 3, 1, 2, 0, 0, [], true, by decide +kernel⟩,
   ⟨withR (stnTag 0 3) rqR, 0, 0, 3, 1, [7], true, rqR, 0, by decide +kernel⟩,
   ⟨{ withR (stnTag 0 3) rqR with stns := [(0, { pwr := 2 })] }, 0, 0, 3, 1, 1, 0, 0, [], true, by decide +kernel⟩⟩

/-- Inputs that meet the hypotheses of AnswersReachTheirRequests, clause by clause. -/
theorem witness_AnswersReachTheirRequests :
    (∃ (s : State) (stn : Nat) (lane : Nat) (tag : Nat) (cid : Nat) (key : Nat) (type : Nat) (_poison : Nat) (_data : List (BitVec 8)) (_last : Bool),
      s.portHeld stn = false ∧ (∀ r ∈ Tab.at? s.tags (stnTag stn tag), r.answeredBy lane cid key type = false)) ∧
    (∃ (s : State) (stn : Nat) (lane : Nat) (tag : Nat) (cid : Nat) (key : Nat) (type : Nat) (_poison : Nat) (_data : List (BitVec 8)) (r : Req),
      s.portHeld stn = false ∧ Tab.at? s.tags (stnTag stn tag) = some r ∧ r.answeredBy lane cid key type = true) ∧
    (∃ (s : State) (stn : Nat) (lane : Nat) (tag : Nat) (cid : Nat) (key : Nat) (_poison : Nat) (_data : List (BitVec 8)) (r : Req) (p : List (List
      (BitVec 8) × Bool)), s.portHeld stn = false ∧ Tab.at? s.tags (stnTag stn tag) = some r ∧ r.answeredBy lane cid key 1 = true ∧ r.pur = .write p ∧
      r.bad = []) ∧
    (∃ (s : State) (stn : Nat) (lane : Nat) (tag : Nat) (cid : Nat) (key : Nat) (_poison : Nat) (_data : List (BitVec 8)) (r : Req) (p : List (List
      (BitVec 8) × Bool)), s.portHeld stn = false ∧ Tab.at? s.tags (stnTag stn tag) = some r ∧ r.answeredBy lane cid key 3 = true ∧ r.pur = .write p) ∧
    (∃ (s : State) (stn : Nat) (tag : Nat), Tab.has s.tags (stnTag stn tag) = true) ∧
    (∃ (s : State) (tag : Nat) (_coff : Nat) (_len : Nat) (_status : Nat) (_data : List (BitVec 8)) (_poison : Bool) (_last : Bool), s.ltpTag tag = false
      ∧ s.ltpHeld = false) ∧
    (∃ (s : State) (tag : Nat) (coff : Nat) (len : Nat) (status : Nat) (i : Nat) (_data : List (BitVec 8)) (_poison : Bool) (r : Req), s.ltpHeld = false ∧
      Tab.at? s.tags tag = some r ∧ r.stn = none ∧ r.pur = .item i ∧ (status = 0 → r.len ≤ coff + len)) ∧
    (∃ (s : State) (tag : Nat) (i : Nat) (r : Req), Tab.at? s.tags tag = some r ∧ r.stn = none ∧ r.pur = .item i ∧ r.got < r.len) ∧
    (∃ (s : State) (stn : Nat) (_lane : Nat) (_tag : Nat) (_cid : Nat) (_key : Nat) (_type : Nat) (_poison : Nat) (_data : List (BitVec 8)) (_last :
      Bool), s.portHeld stn = true) ∧
    (∃ (s : State) (_tag : Nat) (_coff : Nat) (_len : Nat) (_status : Nat) (_data : List (BitVec 8)) (_poison : Bool) (_last : Bool), s.ltpHeld = true) ∧
    (∃ (s : State) (n : Nat), s.built n = true ∧ (s.stnAt n).state = 0 ∧ (s.stnAt n).pwr ≤ 1 ∧ s.up = true) ∧
    (∃ (s : State) (n : Nat), s.built n = true ∧ (s.stnAt n).state = 1) ∧
    (∃ (s : State) (n : Nat), s.built n = true) :=
  ⟨⟨withR (stnTag 0 3) rqR, 0, 0, 3, 1, 1, 1, 0, [], true, by decide +kernel⟩,
   ⟨withR (stnTag 0 3) { rqR with len := 256 }, 0, 0, 3, 1, 1, 0, 2, [7], { rqR with len := 256 }, by decide +kernel⟩,
   ⟨withR (stnTag 0 4096) rqW, 0, 0, 4096, 1, 1, 0, [], rqW, [], by decide +kernel⟩,
   ⟨withR (stnTag 0 4096) rqW, 0, 0, 4096, 1, 1, 0, [], rqW, [], by decide +kernel⟩,
   ⟨withR (stnTag 0 3) rqR, 0, 3, by decide +kernel⟩,
   ⟨base, 1023, 0, 64, 0, [], false, true, by decide +kernel⟩,
   ⟨withR 1023 rqL, 1023, 0, 64, 0, 0, [7], true, rqL, by decide +kernel⟩,
   ⟨withR 1023 rqL, 1023, 0, rqL, by decide +kernel⟩,
   ⟨withRel .hold, 0, 0, 3, 1, 1, 0, 0, [], true, by decide +kernel⟩,
   ⟨{ withR 1023 rqL with rst := { rel := .hold } }, 1023, 0, 64, 0, [], false, true, by decide +kernel⟩,
   ⟨base, 3, by decide +kernel⟩,
   ⟨{ base with stns := [(3, { state := 1 })] }, 3, by decide +kernel⟩,
   ⟨base, 3, by decide +kernel⟩⟩

/-- Inputs that meet the hypotheses of FlitsAreTakenOrResent, clause by clause. -/
theorem witness_FlitsAreTakenOrResent :
    (∃ (s : State) (n : Nat) (atStn : Bool) (b : List (BitVec 8)), s.built n = true ∧ (s.link n).st = 5 ∧ bits (rd b 0 8) 24 2 = 1 ∧ b.length = 256 ∧ rd b
      252 4 = crc32 (b.take 252) ∧ bits (rd b 0 8) 0 12 = ((s.link n).side atStn).rxNext) ∧
    (∃ (s : State) (_n : Nat) (_k : Nat) (atStn : Bool) (m : List (List (BitVec 8))), (atStn = true ∨ s.built (bits (rd (m.headD []) 0 8) 20 6) = false)) ∧
    (∃ (s : State) (_n : Nat) (_k : Nat) (m : List (List (BitVec 8))), s.built (bits (rd (m.headD []) 0 8) 20 6) = true) ∧
    (∃ (s : State) (n : Nat) (atStn : Bool) (b : List (BitVec 8)), s.built n = true ∧ (s.link n).st = 5 ∧ bits (rd b 0 8) 24 2 = 1 ∧ (b.length ≠ 256 ∨ rd
      b 252 4 ≠ crc32 (b.take 252) ∨ bits (rd b 0 8) 0 12 ≠ ((s.link n).side atStn).rxNext)) ∧
    (∃ (s : State) (n : Nat) (atStn : Bool) (b : List (BitVec 8)), s.built n = true ∧ (s.link n).st = 5 ∧ bits (rd b 0 8) 24 2 = 1 ∧ (b.length ≠ 256 ∨ rd
      b 252 4 ≠ crc32 (b.take 252) ∨ bits (rd b 0 8) 0 12 ≠ ((s.link n).side atStn).rxNext) ∧ ((s.link n).side atStn).asking = true) ∧
    (∃ (s : State) (n : Nat) (j : Nat) (_atStn : Bool) (lost : List Nat) (_b : List (BitVec 8)), s.built n = true ∧ s.build.remote n = true ∧ (s.link
      n).st = 5 ∧ j ∈ lost ∧ j < 4) ∧
    (∃ (s : State) (n : Nat) (atStn : Bool) (b : List (BitVec 8)), s.built n = true ∧ (s.link n).st = 5 ∧ (bits (rd b 0 8) 24 2 = 0 ∨ bits (rd b 0 8) 24 2
      = 2) ∧ b.length = 256 ∧ rd b 252 4 = crc32 (b.take 252) ∧ ((s.link n).side atStn).asking = false) ∧
    (∃ (s : State) (n : Nat) (atStn : Bool), s.built n = true ∧ (s.link n).st = 5 ∧ ((s.link n).side atStn).kept ≠ []) ∧
    (∃ (s : State) (n : Nat) (_atStn : Bool) (b : List (BitVec 8)), s.built n = true ∧ (s.link n).st = 4 ∧ bits (rd b 0 8) 24 2 = 3 ∧ b.length = 256 ∧ rd
      b 252 4 = crc32 (b.take 252)) :=
  ⟨⟨withL { st := 5, hub := { rxNext := 4095 } }, 3, false, flt 1 4095, by decide +kernel⟩,
   ⟨base, 3, 3, false, [recBytes 16 [(14, 6, 3), (20, 6, 63)]], by decide +kernel⟩,
   ⟨base, 3, 3, [recBytes 16 [(14, 6, 3), (20, 6, 2)]], by decide +kernel⟩,
   ⟨withL { st := 5 }, 3, false, recBytes 256 [(24, 2, 1)], by decide +kernel⟩,
   ⟨withL { st := 5, hub := { asking := true } }, 3, false, recBytes 256 [(24, 2, 1)], by decide +kernel⟩,
   ⟨withL { st := 5 }, 3, 3, false, [3], flt 1 0, by decide +kernel⟩,
   ⟨withL { st := 5, hub := { kept := [(0, flt 1 0)] } }, 3, false, flt 2 0, by decide +kernel⟩,
   ⟨withL { st := 5, hub := { kept := [(0, flt 1 0)] } }, 3, false, by decide +kernel⟩,
   ⟨withL { st := 4 }, 3, true, flt 3 0, by decide +kernel⟩⟩

/-- Inputs that meet the hypotheses of LinksTrainAndSpareLanes, clause by clause. -/
theorem witness_LinksTrainAndSpareLanes :
    (∃ (s : State) (n : Nat) (_tx : Nat) (_rx : Nat) (_slow : Bool), s.built n = true ∧ s.build.remote n = true) ∧
    (∃ (s : State) (n : Nat) (_tx : Nat) (_rx : Nat) (_slow : Bool), s.built n = true ∧ s.build.remote n = true ∧ (s.link n).st = 2) ∧
    (∃ (s : State) (n : Nat) (tx : Nat) (rx : Nat) (_slow : Bool), 
      let gt := lanesIn tx (s.link n).txOff
      let gr := lanesIn rx (s.link n).rxOff
      s.built n = true ∧ s.build.remote n = true ∧ (((s.link n).st = 3 ∨ (s.link n).st = 6) ∧ 4 ≤ gt.length ∧ 4 ≤ gr.length ∧ (s.link n).txLanes ≠ 0 ∧
        (s.link n).rxLanes ≠ 0)) ∧
    (∃ (s : State) (n : Nat) (tx : Nat) (rx : Nat) (_slow : Bool), 
      let gt := lanesIn tx (s.link n).txOff
      let gr := lanesIn rx (s.link n).rxOff
      s.built n = true ∧ s.build.remote n = true ∧ (((s.link n).st = 3 ∨ (s.link n).st = 6) ∧ (gt.length < 4 ∨ gr.length < 4))) ∧
    (∃ (s : State) (n : Nat) (_tx : Nat) (_rx : Nat) (_slow : Bool), s.built n = true ∧ s.build.remote n = true ∧ ((s.link n).st = 4 ∧ (s.link n).agreed =
      false)) ∧
    (∃ (s : State) (n : Nat) (_tx : Nat) (_rx : Nat) (_slow : Bool), s.built n = true ∧ s.build.remote n = true ∧ ((s.link n).st = 4 ∧ (s.link n).agreed =
      true ∧ (s.link n).again = false)) ∧
    (∃ (s : State) (n : Nat) (_tx : Nat) (_rx : Nat) (_slow : Bool), s.built n = true ∧ s.build.remote n = false ∧ (s.link n).st = 4 ∧ (s.link n).agreed =
      true ∧ (s.link n).again = false) ∧
    (∃ (s : State) (n : Nat), s.built n = true ∧ (s.link n).again = false ∧ ((s.link n).st = 2 ∨ (s.link n).st = 3)) ∧
    (∃ (s : State) (n : Nat), s.built n = true ∧ s.build.remote n = true ∧ (s.link n).st = 6) ∧
    (∃ (s : State) (n : Nat), s.built n = true ∧ (s.link n).again = true ∧ ((s.link n).st = 2 ∨ (s.link n).st = 3)) ∧
    (∃ s : State, s.reaches 0 ∧ s.built s.cxSel = true ∧ (s.link s.cxSel).disable = false) ∧
    (∃ s : State, s.reaches 0 ∧ s.built s.cxSel = true ∧ (s.link s.cxSel).disable = true) ∧
    (∃ s : State, s.reaches 0 ∧ s.built s.cxSel = true ∧ (s.link s.cxSel).st ≠ 0 ∧ (s.link s.cxSel).disable = false) ∧
    (∃ (s : State) (n : Nat) (phys : Nat) (_toHub : Bool), s.built n = true ∧ s.build.remote n = true ∧ phys < 9 ∧ (s.link n).st = 5) ∧
    (∃ (s : State) (n : Nat) (lane : Nat) (toHub : Bool), s.built n = true ∧ s.build.remote n = true ∧ (s.link n).st = 5 ∧ (s.link n).spared toHub = 15 ∧
      (s.link n).spare toHub = none ∧ lane < 8) ∧
    (∃ (s : State) (v : BitVec 32), s.reaches 0 ∧ s.built s.cxSel = true ∧ s.build.remote s.cxSel = true ∧ (s.link s.cxSel).st = 5 ∧ (s.link
      s.cxSel).spared (v.toNat.testBit 5) = 15 ∧ (s.link s.cxSel).spare (v.toNat.testBit 5) = none) ∧
    (∃ (s : State) (n : Nat) (lane : Nat) (corrected : Nat) (unc : Nat) (_toHub : Bool), s.built n = true ∧ s.build.remote n = true ∧ lane < 9 ∧ corrected
      ≤ (s.link n).thr ∧ (s.link n).unc = [] ∧ unc < 16) ∧
    (∃ (s : State) (n : Nat) (_now : Nat) (toHub : Bool) (p : Spare), (s.link n).spare toHub = some p) ∧
    (∃ (s : State) (n : Nat) (lane : Nat) (count : Nat) (now : Nat) (toHub : Bool) (p : Spare), (s.link n).spare toHub = some p ∧ p.lane = lane ∧ p.locked
      = true ∧ (count + 4096 - now % 4096) % 4096 ≠ 0 ∧ (count + 4096 - now % 4096) % 4096 ≤ 2048) ∧
    (∃ (s : State) (n : Nat) (k : Nat) (toHub : Bool) (p : Spare), (s.link n).spare toHub = some p ∧ p.at_ = some k) ∧
    (∃ (s : State) (n : Nat) (toHub : Bool) (p : Spare), s.build.remote n = true ∧ (s.link n).spare toHub = some p ∧ p.locked = false ∧ (s.link n).st = 5) ∧
    (∃ (s : State) (n : Nat) (toHub : Bool), s.built n = true ∧ (s.link n).spareRdy = true ∧ (s.link n).spared toHub = 15) :=
  ⟨⟨withL { st := 1 }, 3, 0xFF, 0x1FE, false, by decide +kernel⟩,
   ⟨withL { st := 2 }, 3, 8, 8, false, by decide +kernel⟩,
   ⟨withL { st := 6, txLanes := 8, rxLanes := 8, txOff := 1 }, 3, 0x1F, 0x1FF, false, by and_intros <;> first | decide +kernel | exact ok_eq (by decide +kernel) | exact err_eq (by decide +kernel)⟩,
   ⟨withL { st := 3 }, 3, 0xF, 0x106, false, by and_intros <;> first | decide +kernel | exact ok_eq (by decide +kernel) | exact err_eq (by decide +kernel)⟩,
   ⟨withL { st := 4 }, 3, 0xFF, 0xFF, false, by decide +kernel⟩,
   ⟨withL { st := 4, hub := { init := true }, stn := { init := true } }, 3, 0xFF, 0xFF, false, by decide +kernel⟩,
   ⟨{ base with links := [(0, { st := 4, hub := { init := true }, stn := { init := true } })] }, 0, 64, 63, false, by decide +kernel⟩,
   ⟨withL { st := 3 }, 3, by decide +kernel⟩,
   ⟨withL { st := 6 }, 3, by decide +kernel⟩,
   ⟨withL { st := 2, again := true, failed := [0, 0] }, 3, by decide +kernel⟩,
   ⟨withL { st := 5 }, by decide +kernel⟩,
   ⟨withL { disable := true }, by decide +kernel⟩,
   ⟨withL { st := 7, txLanes := 4, degraded := true }, by decide +kernel⟩,
   ⟨withL { st := 5 }, 3, 8, true, by decide +kernel⟩,
   ⟨withL { st := 5 }, 3, 7, false, by decide +kernel⟩,
   ⟨withL { st := 5 }, 0x21, by decide +kernel⟩,
   ⟨withL { st := 5, thr := 4 }, 3, 8, 4, 15, false, by decide +kernel⟩,
   ⟨withL { st := 5, tx := some { lane := 2 } }, 3, 9, false, { lane := 2 }, by decide +kernel⟩,
   ⟨withL { st := 5, tx := some { lane := 2, locked := true } },
      3,
      2,
      2048,
      0,
      false,
      { lane := 2, locked := true },
      by decide +kernel⟩,
   ⟨withL { st := 5, rx := some { lane := 2, locked := true, at_ := some 9 } },
      3,
      9,
      true,
      { lane := 2, locked := true, at_ := some 9 },
      by decide +kernel⟩,
   ⟨withL { st := 5, rx := some { lane := 2 } }, 3, true, { lane := 2 }, by decide +kernel⟩,
   ⟨withL { st := 5, spareRdy := true }, 3, true, by decide +kernel⟩⟩

/-- Inputs that meet the hypotheses of StationsAreFencedAndReturn, clause by clause. -/
theorem witness_StationsAreFencedAndReturn :
    (∃ s : State, s.up = true) ∧
    (∃ (s : State) (n : Nat), (s.stnAt n).state = 0 ∧ (s.stnAt n).pwr = 0 ∧ 3 ≤ (s.stnAt n).missed) ∧
    (∃ (s : State) (n : Nat), (s.stnAt n).state = 0 ∧ (s.stnAt n).pwr = 0 ∧ (s.stnAt n).missed < 3) ∧
    (∃ (s : State) (n : Nat) (_us : List (Nat × Bool)), s.built n = true ∧ (s.stnAt n).state = 0 ∧ (s.stnAt n).pwr = 0) ∧
    (∃ s : State, s.reaches 0 ∧ s.built s.rcv.hsel = true ∧ (s.stnAt s.rcv.hsel).state = 0) ∧
    (∃ s : State, s.reaches 0 ∧ s.built s.rcv.hsel = true ∧ (s.stnAt s.rcv.hsel).state = 0 ∧ s.ownerOf s.rcv.hsel = some 0) ∧
    (∃ (s : State) (n : Nat), s.up = true ∧ s.built n = true ∧ (s.stnAt n).state = 1 ∧ (s.stnAt n).byDriver = false ∧ (s.attempts n).length < 3) ∧
    (∃ (s : State) (n : Nat), s.up = true ∧ s.built n = true ∧ (s.stnAt n).state = 1 ∧ (s.stnAt n).byDriver = false ∧ 3 ≤ (s.attempts n).length) ∧
    (∃ s : State, s.reaches 0 ∧ s.built s.rcv.hsel = true ∧ ((s.stnAt s.rcv.hsel).state = 1 ∨ (s.stnAt s.rcv.hsel).state = 3)) ∧
    (∃ (s : State) (n : Nat), (s.stnAt n).state = 2 ∧ (s.link n).st = 5 ∧ (s.stnAt n).memRdy = true ∧ s.ownerOf n = none) ∧
    (∃ (s : State) (n : Nat), s.built n = true ∧ (s.stnAt n).state = 2 ∧ (s.stnAt n).memRdy = false) ∧
    (∃ s : State, s.reaches 0 ∧ s.built s.rcv.hsel = true ∧ (∀ ep ∈ s.build.epsOf s.rcv.hsel, ∃ e ∈ Tab.at? s.eps ep, e.out = false ∧ e.busy = false ∧
      e.qreq = false ∧ e.inReset = false)) :=
  ⟨⟨base, by decide +kernel⟩,
   ⟨withN 3 { missed := 3 }, 3, by decide +kernel⟩,
   ⟨withN 3 { missed := 2 }, 3, by decide +kernel⟩,
   ⟨withN 3 { stalled := [(2, 5)] }, 3, [(2, true), (3, false)], by decide +kernel⟩,
   ⟨withRcv { hsel := 3 }, by decide +kernel⟩,
   ⟨withRcv { hsel := 1 }, by decide +kernel⟩,
   ⟨{ withN 3 { state := 1, attempts := [100, 200, 300] } with mgt := { uptime := 3700 } }, 3, by decide +kernel⟩,
   ⟨{ withN 3 { state := 1, attempts := [101, 200, 300] } with mgt := { uptime := 3700 } }, 3, by decide +kernel⟩,
   ⟨{ withN 3 { state := 3 } with rcv := { hsel := 3 } }, by decide +kernel⟩,
   ⟨{ withN 3 { state := 2 } with links := [(3, { st := 5 })] }, 3, by decide +kernel⟩,
   ⟨withN 3 { state := 2, memRdy := false }, 3, by decide +kernel⟩,
   ⟨withRcv { hsel := 3 }, by decide +kernel⟩⟩

/-- Inputs that meet the hypotheses of StepsOfTheLadderRun, clause by clause. -/
theorem witness_StepsOfTheLadderRun :
    (∃ (s : State) (cid : Nat), Tab.has s.ctxs cid = true ∧ s.up = true ∧ (s.unask 1 cid).absorbed 1 cid (s.pidOf cid) = false) ∧
    (∃ (s : State) (ep : Nat) (e : Ep), Tab.at? s.eps ep = some e ∧ (s.unask 2 ep).absorbed 2 ep ((s.ownerOf (s.build.epStn ep)).getD 0x3F) = false) ∧
    (∃ (s : State) (pid : Nat) (p : Part), Tab.at? s.parts pid = some p ∧ (s.unask 3 pid).absorbed 3 pid pid = false) ∧
    (∃ (s : State) (_step : Nat) (_id : Nat), s.up = false) ∧
    (∃ (s : State) (id : Nat), s.rcv.running.contains (1, id) = true ∧ s.ctxLate id = true) ∧
    (∃ (s : State) (id : Nat), s.rcv.running.contains (3, id) = true) ∧
    (∃ (s : State) (id : Nat), s.rcv.running.contains (4, id) = true) :=
  ⟨⟨{ one (run 0 []) with want := [(1, 1)] }, 1, by decide +kernel⟩,
   ⟨{ base with want := [(2, 7)] }, 7, { rstN := true }, by decide +kernel⟩,
   ⟨{ base with want := [(3, 0)] }, 0, p0, by decide +kernel⟩,
   ⟨withRel .hold, 3, 0, by decide +kernel⟩,
   ⟨{ one { run 0 [] with cancel := some 0 } with rcv := { running := [(1, 1)] } }, 1, by decide +kernel⟩,
   ⟨withRcv { running := [(3, 0)] }, 0, by decide +kernel⟩,
   ⟨withRcv { running := [(4, 0)] }, 0, by decide +kernel⟩⟩

/-- Inputs that meet the hypotheses of ParityErrorsAreCountedAndHandled, clause by clause. -/
theorem witness_ParityErrorsAreCountedAndHandled :
    (∃ (_s : State) (u : Nat) (_n : Nat), u < 0x100) ∧
    (∃ (_s : State) (u : Nat) (_n : Nat), 0x100 ≤ u) ∧
    (∃ (_s : State) (u : Nat) (_i : Nat) (_a : Nat) (_h : ParityWord), u < 2 ^ 16) ∧
    (∃ (s : State) (p : Nat) (r : FaultRec) (rs : List FaultRec), p ≠ 48 ∧ (s.pb p).staged = r :: rs ∧ Tab.has s.postbags p = true) ∧
    (∃ (s : State) (p : Nat), Tab.has s.parts p = true) ∧
    (∃ s : State, s.want.contains (4, 16) = false ∧ s.want.contains (4, 32) = true) ∧
    (∃ (s : State) (p : Nat) (_k : Nat) (x : Part), Tab.at? s.parts p = some x) ∧
    (∃ (_s : State) (w : Nat), w < 0x1000 ∧ w % 16 ≠ 0) ∧
    (∃ (s : State) (stn : Nat) (lane : Nat) (tag : Nat) (cid : Nat) (key : Nat) (_u : Nat) (_i : Nat) (a : Nat) (_data : List (BitVec 8)) (r : Req),
      s.portHeld stn = false ∧ Tab.at? s.tags (stnTag stn tag) = some r ∧ r.answeredBy lane cid key 0 = true ∧ r.bad = [] ∧ r.addr ≤ a ∧ a < r.addr +
      r.len) ∧
    (∃ (s : State) (w : State) (tag : Nat) (_u : Nat) (_i : Nat) (_a : Nat) (qid : Nat) (r : Req) (q : Queue), Tab.at? s.tags tag = some r ∧ r.pur =
      .fetch qid q.h 1 false ∧ w = s.retire tag ∧ Tab.at? w.queues qid = some q ∧ (q.st = .idle ∨ q.st = .active)) ∧
    (∃ (s : State) (q : Nat) (seq : Nat) (_sub : Nat) (_stn : Nat) (_u : Nat) (_i : Nat) (_a : Nat) (c : Cmd) (w : LookW), s.look (ckey q seq) = some (c,
      w) ∧ s.cmd (ckey q seq) = some c ∧ c.phase = .running ∧ c.cancel = none) :=
  ⟨⟨base, 5, 3, by decide +kernel⟩,
   ⟨base, 0x149, 3, by decide +kernel⟩,
   ⟨base, 0x149, 5, 64, .index, by decide +kernel⟩,
   ⟨{ base with postbags := [(1, { staged := [{ type := 1, agent := 1, write := false, level := 1, pid := 1, cid := 1, addr := 0 }] })] },
      1,
      { type := 1, agent := 1, write := false, level := 1, pid := 1, cid := 1, addr := 0 },
      [],
      by decide +kernel⟩,
   ⟨base, 0, by decide +kernel⟩,
   ⟨{ base with want := [(4, 32)] }, by decide +kernel⟩,
   ⟨{ base with parts := [(1, { stns := [0], defTmo := 1, quota := 1, bays := [], ways := 1, banks := 1 })] },
      1,
      0,
      { stns := [0], defTmo := 1, quota := 1, bays := [], ways := 1, banks := 1 },
      by decide +kernel⟩,
   ⟨base, 17, by decide +kernel⟩,
   ⟨withR (stnTag 0 3) rqR, 0, 0, 3, 1, 1, 0x100, 1, 63, [], rqR, by decide +kernel⟩,
   ⟨{ withQ (fun q => { q with t := 1, f := 1 }) with tags := [(0, ringRead)] },
      withQ (fun q => { q with t := 1, f := 1 }),
      0,
      1,
      2,
      64,
      1,
      ringRead,
      { q1 with t := 1, f := 1 },
      by decide +kernel⟩,
   ⟨onT (lkC (lw { todo := [oc3] })) tbl1,
      1,
      5,
      0,
      0,
      0x101,
      0,
      0,
      lkC (lw { todo := [oc3] }),
      lw { todo := [oc3] },
      by decide +kernel⟩⟩

/-- Inputs that meet the hypotheses of WatchdogsAndChipSteps, clause by clause. -/
theorem witness_WatchdogsAndChipSteps :
    (∃ (s : State) (core : Nat), core < 8 ∧ core ≠ 4 ∧ s.rst.rel = .ready ∧ s.fw.update = none ∧ (Tab.atD s.cores core {}).expired ≠ some s.mgt.uptime) ∧
    (∃ (s : State) (core : Nat), core < 8 ∧ s.rst.rel = .ready ∧ s.fw.update = none ∧ (Tab.atD s.cores core {}).expired = some s.mgt.uptime) ∧
    (∃ s : State, s.up = true ∧ s.want.any (fun w => w.1 == 4) = false) ∧
    (∃ s : State, s.want.any (fun w => w.1 == 4) = true) ∧
    (∃ (s : State) (_cause : Nat), s.want.any (fun w => w.1 == 4) = false ∧ s.rcv.running.contains (4, 0) = false ∧ s.chipSteps < 2) ∧
    (∃ (s : State) (_cause : Nat), s.want.any (fun w => w.1 == 4) = false ∧ s.rcv.running.contains (4, 0) = false ∧ 2 ≤ s.chipSteps) ∧
    (∃ s : State, s.want.contains (5, 0) = true) ∧
    (∃ s : State, s.want.contains (5, 0) = false) :=
  ⟨⟨base, 7, by decide +kernel⟩,
   ⟨{ base with cores := [(2, { expired := some 0 })] }, 2, by decide +kernel⟩,
   ⟨base, by decide +kernel⟩,
   ⟨{ base with want := [(4, 33)] }, by decide +kernel⟩,
   ⟨{ withRcv { hist := [(4, 0, 1), (4, 0, 2)] } with mgt := { uptime := 601 } }, 5, by decide +kernel⟩,
   ⟨{ withRcv { hist := [(4, 0, 1), (4, 0, 2)] } with mgt := { uptime := 600 } }, 4, by decide +kernel⟩,
   ⟨{ base with want := [(5, 0)] }, by decide +kernel⟩,
   ⟨{ base with want := [(4, 0)] }, by decide +kernel⟩⟩

/-- Inputs that meet the hypotheses of DumpsAreReadAndReleased, clause by clause. -/
theorem witness_DumpsAreReadAndReleased :
    (∃ (s : State) (_v : BitVec 32), s.reaches 0) ∧
    (∃ (s : State) (c : Coll) (cs : List Coll) (u : Nat) (us : List Nat), s.rcv.colls = c :: cs ∧ c.todo = u :: us) :=
  ⟨⟨base, 3, by decide +kernel⟩,
   ⟨withRcv { colls := [⟨0, 6, [6, 7], 0, 0, none, 0, 0⟩] }, ⟨0, 6, [6, 7], 0, 0, none, 0, 0⟩, [], 6, [7], by decide +kernel⟩⟩

/-- Inputs that meet the hypotheses of HubResetsClearTheBlock, clause by clause. -/
theorem witness_HubResetsClearTheBlock :
    (∃ s : State, (s.rst.rel = .ready ∨ s.rst.rel = .failed) ∧ s.opts.val 3 = 0) ∧
    (∃ (s : State) (v : BitVec 32), s.reaches 0 ∧ s.opts.val 3 = 0 ∧ bits v.toNat 8 8 = 0xA5 ∧ bit v.toNat 0 = true ∧ bit v.toNat 1 = false) ∧
    (∃ (_s : State) (v : BitVec 32), (bits v.toNat 8 8 ≠ 0xA5 ∨ bit v.toNat 0 = false)) ∧
    (∃ s : State, (s.rst.rel = .hold ∨ s.rst.rel = .collect)) ∧
    (∃ s : State, s.rst.rel ≠ .hold) ∧
    (∃ s : State, s.rst.rel = .hold) ∧
    (∃ s : State, s.rst.rel ≠ .hold) :=
  ⟨⟨withRel .failed, by decide +kernel⟩,
   ⟨base, 0xA501, by decide +kernel⟩,
   ⟨base, 0xA502, by decide +kernel⟩,
   ⟨withRel .collect, by decide +kernel⟩,
   ⟨withRel .failed, by decide +kernel⟩,
   ⟨withRel .hold, by decide +kernel⟩,
   ⟨base, by decide +kernel⟩⟩

/-- Inputs that meet the hypotheses of TheReleaseGoesInOrder, clause by clause. -/
theorem witness_TheReleaseGoesInOrder :
    (∃ s : State, s.rst.rel = .clocks) ∧
    (∃ (s : State) (h : Bool) (q : Bool) (l : Bool), s.rst.rel = .clocks ∧ (h && q && l) = false) ∧
    (∃ s : State, s.boot.2 = false) ∧
    (∃ s : State, s.rst.rel = .memory ∧ (∀ n, n < s.build.nstn → (s.stnAt n).enum ≠ 0)) ∧
    (∃ (s : State) (n : Nat), (s.rst.rel = .links ∨ s.rst.rel = .memory) ∧ s.built n = true ∧ s.slotKnown n = false ∧ (s.link n).st = 1) ∧
    (∃ (s : State) (n : Nat), (s.rst.rel = .links ∨ s.rst.rel = .memory) ∧ s.built n = true ∧ s.slotKnown n = false ∧ (s.link n).st ≠ 1) ∧
    (∃ s : State, (s.rst.rel = .ready ∨ s.rst.rel = .links ∨ s.rst.rel = .memory)) ∧
    (∃ (s : State) (i : TapInstr), s.lc = 1 ∧ (i = .other ∨ i = .wrapper1500 ∧ s.mgt.unlocked = false)) ∧
    (∃ (s : State) (i : TapInstr), s.tapOk i = true ∧ i ≠ .wrapper1500 ∧ i ≠ .chipReset) ∧
    (∃ s : State, (s.lc ≠ 1 ∨ s.mgt.unlocked = true) ∧ (5, 0) ∉ s.mgt.asked) ∧
    (∃ (s : State) (i : TapInstr) (tdi : List Bool), tdi ≠ [] ∧ s.tapOk i = true ∧ i ≠ .wrapper1500 ∧ i ≠ .chipReset) :=
  ⟨⟨withRel .clocks, by decide +kernel⟩,
   ⟨withRel .clocks, true, true, false, by decide +kernel⟩,
   ⟨base, by decide +kernel⟩,
   ⟨{ withRel .memory with stns := [(0, { enum := 1 }), (1, { enum := 2 }), (2, { enum := 3 }), (3, { enum := 1 })] },
      by decide +kernel⟩,
   ⟨{ withRel .links with links := [(3, { st := 1 })] }, 3, by decide +kernel⟩,
   ⟨{ withRel .memory with links := [(3, { st := 5 })], stns := [(3, { memRdy := false })] }, 3, by decide +kernel⟩,
   ⟨withRel .links, by decide +kernel⟩,
   ⟨{ base with fuses := [(76, 1)] }, .wrapper1500, by decide +kernel⟩,
   ⟨{ base with fuses := [(76, 1)] }, .sample, by decide +kernel⟩,
   ⟨{ base with fuses := [(76, 1)], mgt := { unlocked := true } }, by decide +kernel⟩,
   ⟨{ base with fuses := [(76, 1)] }, .idcode, [true, false], by decide +kernel⟩⟩

/-- Inputs that meet the hypotheses of IdleStationsPowerDown, clause by clause. -/
theorem witness_IdleStationsPowerDown :
    (∃ (s : State) (n : Nat), s.built n = true ∧ (s.stnAt n).pwr = 0 ∧ (s.stnAt n).state = 0 ∧ s.up = true ∧ (s.stnAt n).policy ≠ 3 ∧ (s.stnAt n).policy ≠
      1 ∧ s.pwr.tDoze ≠ 0 ∧ s.stnIdle n = true ∧ s.kwLevel n ≤ 1) ∧
    (∃ (s : State) (n : Nat), s.built n = true ∧ (s.stnAt n).pwr = 1 ∧ (s.stnAt n).state = 0 ∧ s.up = true ∧ (s.stnAt n).policy = 0 ∧ s.pwr.tSleep ≠ 0 ∧
      s.stnIdle n = true ∧ s.kwLevel n = 0 ∧ (∀ ep ∈ s.build.epsOf n, ∃ e ∈ Tab.at? s.eps ep, e.rstN = true ∧ e.out = false)) ∧
    (∃ (s : State) (n : Nat), s.built n = true ∧ (s.stnAt n).pwr = 2 ∧ (s.stnAt n).state = 0 ∧ s.up = true ∧ (s.stnAt n).policy = 2 ∧ s.build.remote n =
      false ∧ s.pwr.tOff ≠ 0 ∧ s.kwLevel n = 0) ∧
    (∃ (s : State) (n : Nat), (s.stnAt n).pwr = 4 ∧ (s.stnAt n).idleReq = [] ∧ (s.stnAt n).state = 0) ∧
    (∃ (s : State) (n : Nat), (s.stnAt n).pwr = 4 ∧ (s.stnAt n).idleReq = [] ∧ (s.stnAt n).state = 0 ∧ (s.stnAt n).toward ≠ 3) ∧
    (∃ (s : State) (b : IdleBlock) (n : Nat), (b = .station ∨ b = .memoryPort ∨ b = .courierEnd) ∧ (s.stnAt n).pwr = 4 ∧ (s.stnAt n).idleReq ≠ []) ∧
    (∃ (s : State) (ep : Nat) (e : Ep), Tab.at? s.eps ep = some e ∧ e.qreq = true ∧ (s.stnAt (s.build.epStn ep)).pwr = 4) ∧
    (∃ (s : State) (ep : Nat) (e : Ep), Tab.at? s.eps ep = some e ∧ e.qreq = true ∧ (s.stnAt (s.build.epStn ep)).pwr ≠ 4) ∧
    (∃ s : State, s.mgt.asked.contains (5, 0) = true) ∧
    (∃ (s : State) (core : Nat), s.mgt.asked.contains (4, core) = true) :=
  ⟨⟨{ base with queues := [(1, { q1 with kwLevel := 1 })] }, 0, by decide +kernel⟩,
   ⟨withN 0 { pwr := 1 }, 0, by decide +kernel⟩,
   ⟨{ withN 2 { pwr := 2, policy := 2 } with pwr := { tOff := 1 } }, 2, by decide +kernel⟩,
   ⟨withN 0 { pwr := 4, toward := 3 }, 0, by decide +kernel⟩,
   ⟨withN 0 { pwr := 4, toward := 2 }, 0, by decide +kernel⟩,
   ⟨withN 0 { pwr := 4, idleReq := [0, 1] }, .courierEnd, 0, by decide +kernel⟩,
   ⟨{ withN 3 { pwr := 4, idleReq := [7] } with eps := [(7, { rstN := true, qreq := true })] },
      7,
      { rstN := true, qreq := true },
      by decide +kernel⟩,
   ⟨{ base with eps := [(7, { rstN := true, qreq := true })] }, 7, { rstN := true, qreq := true }, by decide +kernel⟩,
   ⟨{ base with mgt := { asked := [(5, 0)] } }, by decide +kernel⟩,
   ⟨{ base with mgt := { asked := [(4, 7)] } }, 7, by decide +kernel⟩⟩

/-- Inputs that meet the hypotheses of DemandsWakeStations, clause by clause. -/
theorem witness_DemandsWakeStations :
    (∃ (s : State) (n : Nat), s.built n = true ∧ s.demanded n = true ∧ (s.stnAt n).policy ≠ 3 ∧ (s.stnAt n).state = 0 ∧ (s.stnAt n).pwr = 1) ∧
    (∃ (s : State) (n : Nat), s.built n = true ∧ s.demanded n = true ∧ (s.stnAt n).policy ≠ 3 ∧ (s.stnAt n).state = 0 ∧ ((s.stnAt n).pwr = 2 ∨ (s.stnAt
      n).pwr = 3) ∧ (s.stnAt n).psAck ≠ 0) ∧
    (∃ (s : State) (n : Nat), s.built n = true ∧ s.demanded n = true ∧ (s.stnAt n).policy ≠ 3 ∧ (s.stnAt n).state = 0 ∧ (s.stnAt n).pwr = 4 ∧ (s.stnAt
      n).idleReq = []) ∧
    (∃ (s : State) (n : Nat), s.built n = true ∧ s.demanded n = true ∧ (s.stnAt n).policy ≠ 3 ∧ (s.stnAt n).state = 0 ∧ (s.stnAt n).pwr = 4 ∧ (s.stnAt
      n).idleReq ≠ []) ∧
    (∃ (s : State) (n : Nat), (s.built n = false ∨ s.demanded n = false)) ∧
    (∃ (s : State) (n : Nat) (ack : Nat), s.built n = true ∧ ack < 4 ∧ ((s.stnAt n).pwr ≠ 5 ∨ ack ≠ 0)) ∧
    (∃ (s : State) (n : Nat), s.built n = true ∧ (s.stnAt n).pwr = 5 ∧ (s.stnAt n).state = 0 ∧ (s.stnAt n).wakeFrom = 2) ∧
    (∃ (s : State) (n : Nat), (s.stnAt n).pwr = 5 ∧ (s.stnAt n).state = 0 ∧ (s.stnAt n).psAck ≠ 0 ∧ (s.stnAt n).wakeTried = false) ∧
    (∃ (s : State) (n : Nat), (s.stnAt n).pwr = 5 ∧ (s.stnAt n).state = 0 ∧ (s.stnAt n).psAck ≠ 0 ∧ (s.stnAt n).wakeTried = true) ∧
    (∃ (s : State) (q : Nat) (x : Queue), Tab.at? s.queues q = some x) ∧
    (∃ (s : State) (v : BitVec 32), s.reaches 0 ∧ s.built s.pwr.sel = true ∧ (s.build.remote s.pwr.sel && bits v.toNat 8 2 == 3) = false) ∧
    (∃ (s : State) (v : BitVec 32), s.reaches 0 ∧ s.built s.pwr.sel = true ∧ s.build.remote s.pwr.sel = true ∧ bits v.toNat 8 2 = 3 ∧ bit v.toNat 3 =
      false) ∧
    (∃ (s : State) (n : Nat), (s.stnAt n).policy ≠ 3) :=
  ⟨⟨withN 3 { pwr := 1, policy := 1 }, 3, by decide +kernel⟩,
   ⟨withN 3 { pwr := 3, policy := 1, psAck := 3 }, 3, by decide +kernel⟩,
   ⟨withN 3 { pwr := 4, policy := 1 }, 3, by decide +kernel⟩,
   ⟨withN 3 { pwr := 4, policy := 1, idleReq := [6] }, 3, by decide +kernel⟩,
   ⟨base, 4, by decide +kernel⟩,
   ⟨withN 3 { pwr := 5 }, 3, 3, by decide +kernel⟩,
   ⟨withN 3 { pwr := 5, wakeFrom := 2, psAck := 2 }, 3, by decide +kernel⟩,
   ⟨withN 3 { pwr := 5, psAck := 2 }, 3, by decide +kernel⟩,
   ⟨withN 3 { pwr := 5, psAck := 2, wakeTried := true }, 3, by decide +kernel⟩,
   ⟨withQ (fun q => { q with kwHold := 1, kwOn := true }), 1, { q1 with kwHold := 1, kwOn := true }, by decide +kernel⟩,
   ⟨{ base with pwr := { sel := 2 } }, 0x300, by decide +kernel⟩,
   ⟨{ base with pwr := { sel := 3 } }, 0x300, by decide +kernel⟩,
   ⟨withN 3 { policy := 2 }, 3, by decide +kernel⟩⟩

/-- Inputs that meet the hypotheses of ReplansMeasureAndPlan, clause by clause. -/
theorem witness_ReplansMeasureAndPlan :
    (∃ (s : State) (m : Measure) (r : SlackReading), m.slacks = [r] ∧ s.sramBases m.dom = [] ∧ Int.ofNat (s.opts.val 10) ≤ r.ps ∧ (s.dom m.dom).off ≤
      s.opts.val 12) ∧
    (∃ (s : State) (m : Measure) (r : SlackReading) (n : Nat), m.slacks = [r] ∧ s.sramBases m.dom = [] ∧ r.ps < Int.ofNat (s.opts.val 10) ∧ m.kvFs ≠ 0 ∧
      Int.ofNat n = Int.ofNat (s.dom m.dom).off + ceil5 ((Int.ofNat (s.opts.val 10) - r.ps) * 1000) (Int.ofNat m.kvFs) ∧ n ≤ s.opts.val 12) ∧
    (∃ (s : State) (_ms : List Measure), s.fwUp = true) ∧
    (∃ s : State, s.age.running = true ∧ (∀ d ∈ s.age.doms, d.2.plan ≤ d.2.fstep)) ∧
    (∃ s : State, s.up = true ∧ s.age.cut = false ∧ s.age.auto = true ∧ s.mgt.toReplan = 0) ∧
    (∃ s : State, s.up = true ∧ s.age.cut = true ∧ s.rst.readyAt + 60 ≤ s.mgt.uptime) ∧
    (∃ (s : State) (n : Nat), s.built n = true ∧ (s.dom n).fstep < (s.dom n).plan ∧ (s.stnAt n).fstepTo = none ∧ s.stnUp n = true ∧ s.arithIdle n = true ∧
      s.fwUp = true) ∧
    (∃ (s : State) (n : Nat) (f : Nat), (s.stnAt n).fstepTo = some f) ∧
    (∃ (s : State) (n : Nat) (f : Nat), (s.stnAt n).fstepTo = some f ∧ (s.stnAt n).fTried = false) ∧
    (∃ (s : State) (n : Nat) (f : Nat), (s.stnAt n).fstepTo = some f ∧ (s.stnAt n).fTried = true) :=
  ⟨⟨base, meas 25, { ps := 25, arith := false }, by decide +kernel⟩,
   ⟨base, meas 24, { ps := 24, arith := false }, 5, by decide +kernel⟩,
   ⟨base, [meas 24], by decide +kernel⟩,
   ⟨{ withD 0 { plan := 2, fstep := 2 } with age := { running := true, doms := [(0, { plan := 2, fstep := 2 })] } },
      by decide +kernel⟩,
   ⟨{ base with mgt := { toReplan := 0 } }, by decide +kernel⟩,
   ⟨{ base with age := { cut := true }, mgt := { uptime := 60 } }, by decide +kernel⟩,
   ⟨withD 3 { plan := 1 }, 3, by decide +kernel⟩,
   ⟨withN 3 { fsel := 1, fstepTo := some 1 }, 3, 1, by decide +kernel⟩,
   ⟨withN 3 { fsel := 1, fstepTo := some 1 }, 3, 1, by decide +kernel⟩,
   ⟨withN 3 { fsel := 1, fstepTo := some 1, fTried := true }, 3, 1, by decide +kernel⟩⟩

/-- Inputs that meet the hypotheses of RailsAndTheCalendar, clause by clause. -/
theorem witness_RailsAndTheCalendar :
    (∃ (s : State) (r : Nat) (_volts : Nat), s.fwUp = true ∧ s.railOn r = true ∧ (s.rail r).status = 0 ∧ (s.rail r).off < s.railPlan r) ∧
    (∃ (s : State) (r : Nat) (_volts : Nat) (_a : RailAnswer), ((s.rail r).status ≠ 0 ∨ s.railPlan r ≤ (s.rail r).off)) ∧
    (∃ (s : State) (_v : BitVec 64), s.fwUp = true) ∧
    (∃ s : State, s.fwUp = true ∧ s.spi = true) :=
  ⟨⟨withV { off := 9 }, 31, 809, by decide +kernel⟩,
   ⟨withV { off := 10 }, 31, 810, .silent, by decide +kernel⟩,
   ⟨withRel .links, 5, by decide +kernel⟩,
   ⟨base, by decide +kernel⟩⟩

/-- Inputs that meet the hypotheses of DictionaryAnswersTheMirror, clause by clause. -/
theorem witness_DictionaryAnswersTheMirror :
    (∃ (s : State) (v : BitVec 32), s.reaches 0 ∧ bits v.toNat 0 2 = 1 ∧ s.mgt.odBusy = false ∧ (s.odRead 0 (bits s.mgt.odAddr 0 16) (bits s.mgt.odAddr 16
      8)).1 ≠ 0) ∧
    (∃ (s : State) (v : BitVec 32), s.reaches 0 ∧ bits v.toNat 0 2 = 1 ∧ s.mgt.odBusy = false ∧ (s.odRead 0 (bits s.mgt.odAddr 0 16) (bits s.mgt.odAddr 16
      8)).1 = 0 ∧ bits v.toNat 16 16 < (s.odRead 0 (bits s.mgt.odAddr 0 16) (bits s.mgt.odAddr 16 8)).2.1) ∧
    (∃ (s : State) (idx : Nat) (_sub : Nat) (_i : Nat), s.odTop idx = none) ∧
    (∃ (s : State) (v : BitVec 32), s.reaches 0 ∧ bits v.toNat 0 2 = 2 ∧ s.mgt.odBusy = false ∧ (bits v.toNat 8 7 = 0 ∨ 64 < bits v.toNat 8 7)) ∧
    (∃ (s : State) (v : BitVec 32), s.reaches 0 ∧ bits v.toNat 0 2 = 2 ∧ s.mgt.odBusy = false ∧ 1 ≤ bits v.toNat 8 7 ∧ bits v.toNat 8 7 ≤ 64 ∧ bits
      s.mgt.odAddr 0 16 ≠ 0x2602) ∧
    (∃ (s : State) (_v : BitVec 32), s.mgt.odBusy = true) :=
  ⟨⟨{ base with mgt := { odAddr := 0x5000 } }, 1, by decide +kernel⟩,
   ⟨{ base with mgt := { odAddr := 0x12010 } }, 1, by decide +kernel⟩,
   ⟨base, 0x5000, 1, 2, by decide +kernel⟩,
   ⟨base, 0x4102, by decide +kernel⟩,
   ⟨{ base with mgt := { odAddr := 0x12110 } }, 0x402, by decide +kernel⟩,
   ⟨{ base with mgt := { odBusy := true } }, 1, by decide +kernel⟩⟩

/-- Inputs that meet the hypotheses of OptionsAreCommitted, clause by clause. -/
theorem witness_OptionsAreCommitted :
    (∃ (s : State) (r : List Byte), s.fwUp = true ∧ s.spi = true ∧ s.shadow.bytes.length = 256 ∧ s.mgt.commit = some (0, r)) ∧
    (∃ (s : State) (r : List Byte), s.fwUp = true ∧ s.mgt.commit = some (0, r)) ∧
    (∃ (s : State) (_b : Bool), s.fwUp = false) ∧
    (∃ (s : State) (req : List Byte), s.canUp = true ∧ 8 ≤ req.length ∧ req.length ≤ 64 ∧ (s.mgt.commit.map (·.1)) ≠ some 1 ∧ req = s.mgt.lastReq) ∧
    (∃ (s : State) (req : List Byte), s.canUp = true ∧ 8 ≤ req.length ∧ req.length ≤ 64 ∧ (s.mgt.commit.map (·.1)) ≠ some 1 ∧ req ≠ s.mgt.lastReq ∧ rd req
      0 1 = 1 ∧ (s.odRead 1 (rd req 2 2) (rd req 4 1)).1 = 0 ∧ rd req 6 2 < (s.odRead 1 (rd req 2 2) (rd req 4 1)).2.1) ∧
    (∃ (s : State) (req : List Byte) (r : List Byte), s.canUp = true ∧ 8 ≤ req.length ∧ req.length ≤ 64 ∧ s.mgt.commit = some (1, r)) ∧
    (∃ (s : State) (id : Nat) (ext : Bool) (_f : List Byte), (ext = true ∨ id ≠ 0x200 + s.node)) ∧
    (∃ (_s : State) (id : Nat) (ext : Bool) (_f : List Byte), (ext = true ∨ id ≠ 0)) ∧
    (∃ (_s : State) (_id : Nat) (b : List Byte), b.length ≤ 8) ∧
    (∃ (s : State) (f : List Byte), s.canUp = true ∧ f.length = 8) ∧
    (∃ s : State, s.canUp = true ∧ s.opts.val 8 = 1) ∧
    (∃ s : State, s.canUp = true) ∧
    (∃ (s : State) (_id : Nat) (_ext : Bool) (_f : List Byte), s.canUp = false) :=
  ⟨⟨withM { commit := some (0, []) }, [], by decide +kernel⟩,
   ⟨withM { commit := some (0, []) }, [], by decide +kernel⟩,
   ⟨withRel .failed, true, by decide +kernel⟩,
   ⟨withCan { lastReq := canReq 1 0x2000 1 }, canReq 1 0x2000 1, by decide +kernel⟩,
   ⟨withCan {}, canReq 1 0x2000 1, by decide +kernel⟩,
   ⟨withCan { commit := some (1, []) }, canReq 1 0x2000 1, [], by decide +kernel⟩,
   ⟨withCan {}, 0x200, true, zeros 8, by decide +kernel⟩,
   ⟨withCan {}, 1, false, zeros 8, by decide +kernel⟩,
   ⟨withCan {}, 0x280, zeros 8, by decide +kernel⟩,
   ⟨withCan {}, zeros 8, by decide +kernel⟩,
   ⟨withCan {}, by decide +kernel⟩,
   ⟨withCan {}, by decide +kernel⟩,
   ⟨{ withCan {} with rst := { rel := .failed } }, 0x200, false, [], by decide +kernel⟩⟩

/-- Inputs that meet the hypotheses of TrialsAndTheLifecycle, clause by clause. -/
theorem witness_TrialsAndTheLifecycle :
    (∃ (s : State) (r : SlotRec), s.fwUp = true ∧ s.slotRec s.fw.slot = some r ∧ r.st = 2) ∧
    (∃ s : State, (s.slotRec s.fw.slot).map (·.st) ≠ some 2) ∧
    (∃ s : State, s.fwUp = true ∧ s.inTrial = true ∧ s.confirmS ≠ 0 ∧ s.fw.toConfirm = 0) ∧
    (∃ s : State, (s.confirmS = 0 ∨ s.fw.toConfirm ≠ 0)) ∧
    (∃ s : State, s.fwUp = true ∧ s.lc = 0 ∧ (anyByte (s.keyHash 0) || anyByte (s.keyHash 1)) = true ∧ anyByte (s.keyHash 2) = true) ∧
    (∃ s : State, s.fwUp = true ∧ s.lc ≤ 1 ∧ s.mgt.unlocked = true) ∧
    (∃ (s : State) (_v : BitVec 8), s.lc ≠ 0 ∧ s.mgt.unlocked = false) ∧
    (∃ (s : State) (_v : BitVec 8), 2 ≤ s.lc) :=
  ⟨⟨trial, ⟨1, 2, 1⟩, by decide +kernel⟩,
   ⟨base, by decide +kernel⟩,
   ⟨trial, by decide +kernel⟩,
   ⟨{ trial with fw := { toConfirm := 1 } }, by decide +kernel⟩,
   ⟨{ base with fuses := [(0, 1), (24, 1)] }, by decide +kernel⟩,
   ⟨withLc 1 { unlocked := true }, by decide +kernel⟩,
   ⟨withLc 1 {}, 3, by decide +kernel⟩,
   ⟨withLc 2 {}, 3, by decide +kernel⟩⟩

/-- Inputs that meet the hypotheses of FirmwareIsStagedAndActivated, clause by clause. -/
theorem witness_FirmwareIsStagedAndActivated :
    (∃ (s : State) (q : Nat) (seq : Nat) (c : Cmd), s.resumes q seq c ∧ c.opcode = 0x4B ∧ c.fld 8 1 0 1 ≠ s.fw.slot) ∧
    (∃ (s : State) (q : Nat) (seq : Nat) (c : Cmd), s.resumes q seq c ∧ c.opcode = 0x4B ∧ c.fld 8 1 0 1 = s.fw.slot) ∧
    (∃ (s : State) (q : Nat) (seq : Nat) (c : Cmd), s.starts q seq c ∧ c.opcode = 0x4C ∧ c.fld 9 1 0 1 = 0 ∧ c.clean = true) ∧
    (∃ (s : State) (q : Nat) (seq : Nat) (c : Cmd), s.starts q seq c ∧ c.opcode = 0x4C ∧ c.fld 9 1 0 1 = 1 ∧ c.clean = true) :=
  ⟨⟨one (fs1 1), 1, 5, fs1 1, by decide +kernel⟩,
   ⟨one (fs1 0), 1, 5, fs1 0, by decide +kernel⟩,
   ⟨one (fa 0), 1, 5, fa 0, by decide +kernel⟩,
   ⟨one (fa 1), 1, 5, fa 1, by decide +kernel⟩⟩

/-- Inputs that meet the hypotheses of MonitorPrintsWithoutAKey, clause by clause. -/
theorem witness_MonitorPrintsWithoutAKey :
    (∃ s : State, s.fwUp = true) ∧
    (∃ (s : State) (_n : Nat), s.fwUp = true) ∧
    (∃ (s : State) (_n : Nat), s.fwUp = true) ∧
    (∃ (s : State) (d : Nat), s.fwUp = true ∧ (d = 48 ∨ d < 48 ∧ s.built d = true)) ∧
    (∃ (s : State) (n : Nat), s.fwUp = true ∧ s.built n = true) ∧
    (∃ (s : State) (n : Nat), s.fwUp = true ∧ s.built n = false) ∧
    (∃ (s : State) (_idx : Nat) (_sub : Nat), s.fwUp = true) ∧
    (∃ s : State, s.fwUp = true ∧ s.lc ≠ 0 ∧ s.mgt.unlocked = false) :=
  ⟨⟨base, by decide +kernel⟩,
   ⟨base, 300, by decide +kernel⟩,
   ⟨base, 3, by decide +kernel⟩,
   ⟨base, 3, by decide +kernel⟩,
   ⟨base, 3, by decide +kernel⟩,
   ⟨base, 4, by decide +kernel⟩,
   ⟨base, 0x2000, 1, by decide +kernel⟩,
   ⟨withLc 1 {}, by decide +kernel⟩⟩

/-- Inputs that meet the hypotheses of AnOpenMonitorActs, clause by clause. -/
theorem witness_AnOpenMonitorActs :
    (∃ s : State, s.fwUp = true ∧ (s.lc = 0 ∨ s.mgt.unlocked = true)) ∧
    (∃ (s : State) (idx : Nat) (_sub : Nat) (_b : List (BitVec 8)), s.fwUp = true ∧ (s.lc = 0 ∨ s.mgt.unlocked = true) ∧ idx ≠ 0x2602) ∧
    (∃ (s : State) (_n : Nat), s.fwUp = true ∧ (s.lc = 0 ∨ s.mgt.unlocked = true)) ∧
    (∃ (s : State) (_k : Nat), s.fwUp = true ∧ (s.lc = 0 ∨ s.mgt.unlocked = true)) ∧
    (∃ (s : State) (_off : Nat), s.fwUp = true ∧ (s.lc = 0 ∨ s.mgt.unlocked = true)) ∧
    (∃ (s : State) (_off : Nat) (_v : BitVec 32), s.fwUp = true ∧ (s.lc = 0 ∨ s.mgt.unlocked = true)) ∧
    (∃ (s : State) (_d : Bool), s.fwUp = true ∧ (s.lc = 0 ∨ s.mgt.unlocked = true)) ∧
    (∃ (s : State) (_w : Nat), s.fwUp = true ∧ (s.lc = 0 ∨ s.mgt.unlocked = true)) ∧
    (∃ (s : State) (w : Nat) (_v : BitVec 32), s.fwUp = true ∧ (s.lc = 0 ∨ s.mgt.unlocked = true) ∧ s.lc = 0 ∧ (w < 36 ∨ w = 76)) ∧
    (∃ (s : State) (w : Nat) (_v : BitVec 32) (_ok : Bool), s.fwUp = true ∧ (s.lc = 0 ∨ s.mgt.unlocked = true) ∧ s.lc = 0 ∧ (¬(w < 36 ∨ w = 76))) ∧
    (∃ (s : State) (v : BitVec 8), s.fwUp = true ∧ (s.lc = 0 ∨ s.mgt.unlocked = true) ∧ s.lc ≤ 1 ∧ s.mgt.unlocked = true ∧ v = 3#8) ∧
    (∃ (s : State) (v : BitVec 8), s.fwUp = true ∧ (s.lc = 0 ∨ s.mgt.unlocked = true) ∧ v ≠ 1#8 ∧ v ≠ 3#8) :=
  ⟨⟨base, by decide +kernel⟩,
   ⟨base, 0x2600, 8, [3], by decide +kernel⟩,
   ⟨withLc 1 { unlocked := true }, 921600, by decide +kernel⟩,
   ⟨base, 1, by decide +kernel⟩,
   ⟨base, 0, by decide +kernel⟩,
   ⟨base, 0x6000, 1, by decide +kernel⟩,
   ⟨base, true, by decide +kernel⟩,
   ⟨base, 76, by decide +kernel⟩,
   ⟨base, 35, 1, by decide +kernel⟩,
   ⟨base, 36, 1, true, by decide +kernel⟩,
   ⟨withLc 1 { unlocked := true }, 3, by decide +kernel⟩,
   ⟨base, 2, by decide +kernel⟩⟩

/-- Inputs that meet the hypotheses of UnlockingNeedsASignature, clause by clause. -/
theorem witness_UnlockingNeedsASignature :
    (∃ s : State, s.fwUp = true ∧ s.mgt.lockout = true) ∧
    (∃ s : State, s.fwUp = true ∧ s.mgt.lockout = false) ∧
    (∃ (s : State) (_r : Nat) (_t : Nat) (at_ : Nat) (c : List Byte), s.fwUp = true ∧ s.mgt.challenge = some (at_, c) ∧ s.mgt.uptime ≤ at_ + 60) ∧
    (∃ (s : State) (_r : Nat) (_t : Nat) (at_ : Nat) (c : List Byte), s.fwUp = true ∧ s.mgt.challenge = some (at_, c) ∧ at_ + 60 < s.mgt.uptime) ∧
    (∃ s : State, s.mgt.test = false ∧ s.fwUp = true) ∧
    (∃ s : State, s.mgt.test = false) ∧
    (∃ s : State, s.mgt.test = true ∧ s.lc = 1 ∧ s.mgt.unlocked = true ∧ (5, 0) ∉ s.mgt.asked) :=
  ⟨⟨withM { lockout := true }, by decide +kernel⟩,
   ⟨base, by decide +kernel⟩,
   ⟨withM { challenge := some (0, zeros 16), uptime := 60 }, 1, 1, 0, zeros 16, by decide +kernel⟩,
   ⟨withM { challenge := some (0, zeros 16), uptime := 61 }, 1, 1, 0, zeros 16, by decide +kernel⟩,
   ⟨withM { unlocked := true }, by decide +kernel⟩,
   ⟨withM { unlocked := true }, by decide +kernel⟩,
   ⟨withLc 1 { test := true, unlocked := true }, by decide +kernel⟩⟩

/-- Inputs that meet the hypotheses of TheBootRomAnswersInFailed, clause by clause. -/
theorem witness_TheBootRomAnswersInFailed :
    (∃ s : State, s.rst.rel = .failed) ∧
    (∃ (s : State) (_x : Nat) (_m : List Byte), s.rst.rel = .failed) ∧
    (∃ s : State, s.rst.rel = .failed ∧ 2 ≤ s.lc) ∧
    (∃ s : State, s.rst.rel = .failed ∧ s.lc < 2) ∧
    (∃ s : State, s.rst.rel ≠ .failed) :=
  ⟨⟨withRel .failed, by decide +kernel⟩,
   ⟨withRel .failed, 0, [], by decide +kernel⟩,
   ⟨{ withRel .failed with fuses := [(76, 2)] }, by decide +kernel⟩,
   ⟨withRel .failed, by decide +kernel⟩,
   ⟨base, by decide +kernel⟩⟩

/-- Inputs that meet the hypotheses of RegistersAreReadAndWritten, clause by clause. -/
theorem witness_RegistersAreReadAndWritten :
    (∃ (s : State) (fn : Nat) (_off : Nat) (_width : Nat) (_tag : Nat), fn < 512 ∧ s.up = true ∧ (s.fn fn).en = true) ∧
    (∃ (s : State) (fn : Nat) (_off : Nat) (_width : Nat) (_tag : Nat), fn < 512 ∧ s.up = true ∧ (s.fn fn).en = false) ∧
    (∃ (s : State) (fn : Nat) (off : Nat) (width : Nat) (_tag : Nat), fn < 512 ∧ s.up = false ∧ (¬(fn = 0 ∧ width = 4 ∧ (off = 0x6824 ∨ off = 0x6840 ∨ off
      = 0x6844)))) ∧
    (∃ (s : State) (_tag : Nat), s.up = false) ∧
    (∃ (_s : State) (_fn : Nat) (off : Nat) (width : Nat), (width ≠ 4 ∨ off % 4 ≠ 0) ∧ (width ≠ 8 ∨ off % 8 ≠ 0)) ∧
    (∃ (s : State) (_tag : Nat), s.up = true ∧ (s.fn 0).en = true) ∧
    (∃ (s : State) (fn : Nat) (_tag : Nat), fn ≠ 0 ∧ fn < 512 ∧ s.up = true ∧ (s.fn fn).en = true) ∧
    (∃ (s : State) (_v : BitVec 64), s.reaches 0) ∧
    (∃ (s : State) (_v : BitVec 64), s.reaches 0 ∧ s.mqi.en = true) ∧
    (∃ (s : State) (_v : BitVec 64), s.reaches 0 ∧ s.mqi.en = false) ∧
    (∃ (s : State) (fn : Nat) (_off : Nat) (_width : Nat) (_v : BitVec 64), fn < 512 ∧ (s.up = false ∨ (s.fn fn).en = false)) ∧
    (∃ (_s : State) (fn : Nat) (off : Nat) (width : Nat) (_v : BitVec 64), fn < 512 ∧ off < 0x01000000 ∧ (width ≠ 4 ∨ off % 4 ≠ 0) ∧ (width ≠ 8 ∨ off % 8
      ≠ 0)) ∧
    (∃ (_s : State) (fn : Nat) (off : Nat) (_v : BitVec 64), fn ≠ 0 ∧ fn < 512 ∧ 0x1000 ≤ off ∧ off < 0x01000000) ∧
    (∃ (s : State) (fn : Nat) (off : Nat) (_width : Nat) (_v : BitVec 64), s.reaches fn ∧ fn < 512 ∧ 0x01000000 ≤ off ∧ off < 0x02000000) :=
  ⟨⟨base, 0, 0x6824, 4, 9, by decide +kernel⟩,
   ⟨base, 511, 0, 8, 9, by decide +kernel⟩,
   ⟨withRel .hold, 0, 0x6820, 4, 9, by decide +kernel⟩,
   ⟨withRel .hold, 9, by decide +kernel⟩,
   ⟨base, 0, 4, 8, by decide +kernel⟩,
   ⟨base, 9, by decide +kernel⟩,
   ⟨base, 3, 9, by decide +kernel⟩,
   ⟨base, 0xFFFF, by decide +kernel⟩,
   ⟨base, 0x8000, by decide +kernel⟩,
   ⟨{ base with mqi := {} }, 0x8000, by decide +kernel⟩,
   ⟨base, 511, 0x6000, 4, 1, by decide +kernel⟩,
   ⟨base, 0, 0x6002, 4, 1, by decide +kernel⟩,
   ⟨base, 3, 0x6000, 1, by decide +kernel⟩,
   ⟨base, 0, 0x1000000, 4, 1, by decide +kernel⟩⟩

/-! ### Commands that cannot arrive: every check of WellFormed refuses -/

/-- Each differs from a command that can arrive in one operand, which is out of its range. -/
def ill1 : List Instr :=
  [.envelopeReceived 1 (.replayed 0 1), .occurrence 1 1 1 1 (.persistent 1 (2 ^ 32) 0 .index), .occurrence 1 1 1 1 (.persistent 1 0 (2 ^ 64) .index),
   .memoryResponse 1 1 1 1 1 1 ⟨[], 1⟩ true (.persistent 1 0 0 (.cacheEntry 48 0)), .envelopeReceived 1 (.persistent 1 0 0 (.summary 48)),
   .envelopeReceived 1 (.persistent 1 0 0 (.faultRecord 49)), .envelopeReceived 1 (.persistent 1 0 0 (.partitionState 48)),
   .envelopeReceived 1 (.persistent 1 0 0 (.core 8)), .envelopeReceived 1 (.persistent 1 0 0 (.retention 65536)),
   .sqTailDoorbell 257 1 1 0, .sqTailDoorbell 1 (2 ^ 32) 1 0, .sqTailDoorbell 1 1 0 0, .sqTailDoorbell 1 1 4097 0, .cqHeadDoorbell 257 1 1 0,
   .cqHeadDoorbell 1 (2 ^ 32) 1 0, .cqHeadDoorbell 1 1 0 0, .cqHeadDoorbell 1 1 4097 0, .envelopeReceived (65536 * 49) .good,
   .commandCompletion 32768 1, .commandCompletion 1 (2 ^ 48), .cqItimeExpiry 32768, .qctlResume 257 1, .qctlResume 1 32768, .qctlReset 257 1,
   .qctlReset 1 32768, .guiltyQueueResetDone 32768, .guiltyResetBoundExpiry 32768, .registerWrite 257 1 1 0, .registerWrite 520 1 1 0,
   .registerWrite 1 (2 ^ 32) 1 0, .registerWrite 1 1 0 0, .registerWrite 1 1 4097 0, .nop 32768 1, .nop 1 (2 ^ 48), .fenceSignal 32768 1,
   .fenceSignal 1 (2 ^ 48), .fenceCreate 32768 1, .fenceCreate 1 (2 ^ 48), .fenceDestroy 32768 1, .fenceDestroy 1 (2 ^ 48),
   .fenceClearError 32768 1, .fenceClearError 1 (2 ^ 48), .fenceWait 32768 1, .fenceWait 1 (2 ^ 48), .graphEdge 32768 1, .graphEdge 1 (2 ^ 48),
   .lookupPool 32768 1, .lookupPool 1 (2 ^ 48), .lookupGather 32768 1]
/-- Each differs from a command that can arrive in one operand, which is out of its range. -/
def ill2 : List Instr :=
  [.lookupGather 1 (2 ^ 48), .lookupMulti 32768 1, .lookupMulti 1 (2 ^ 48), .occurrence 32768 1 1 1 .good, .occurrence 1 (2 ^ 48) 1 1 .good,
   .occurrence 1 1 64 1 .good, .occurrence 1 1 1 48 .good, .partialArrival 32768 1 1 1 1, .partialArrival 1 (2 ^ 48) 1 1 1, .partialArrival 1 1 64 1 1,
   .partialArrival 1 1 1 48 1, .partialArrival 1 1 1 1 (2 ^ 24), .stationFinalReport 32768 1 1, .stationFinalReport 1 (2 ^ 48) 1,
   .stationFinalReport 1 1 48, .updateRows 32768 1, .updateRows 1 (2 ^ 48), .updateAccum 32768 1, .updateAccum 1 (2 ^ 48),
   .tableSwitchPublish 32768 1, .tableSwitchPublish 1 (2 ^ 48), .tableSwitchNewBase 32768 1, .tableSwitchNewBase 1 (2 ^ 48),
   .tableSwitchDiscard 32768 1, .tableSwitchDiscard 1 (2 ^ 48), .switchPoint 65536, .versionRetire 65536 1, .versionRetire 1 (2 ^ 32),
   .tableRetireWait 32768 1, .tableRetireWait 1 (2 ^ 48), .tableRetireTable 32768 1, .tableRetireTable 1 (2 ^ 48), .tableCompactCopy 32768 1,
   .tableCompactCopy 1 (2 ^ 48), .copyInstall 32768 1, .copyInstall 1 (2 ^ 48), .tableCompactRebase 32768 1, .tableCompactRebase 1 (2 ^ 48),
   .summaryRebuild 48, .streamOpen 32768 1]
/-- Each differs from a command that can arrive in one operand, which is out of its range. -/
def ill3 : List Instr :=
  [.streamOpen 1 (2 ^ 48), .streamAppend 32768 1, .streamAppend 1 (2 ^ 48), .streamGather 32768 1, .streamGather 1 (2 ^ 48),
   .streamClose 32768 1, .streamClose 1 (2 ^ 48), .streamTrim 32768 1, .streamTrim 1 (2 ^ 48), .scanLutBuild 32768 1, .scanLutBuild 1 (2 ^ 48),
   .scanPq 32768 1, .scanPq 1 (2 ^ 48), .dispatch 32768 1, .dispatch 1 (2 ^ 48), .copy 32768 1, .copy 1 (2 ^ 48), .census 32768 1,
   .census 1 (2 ^ 48), .programLoad 32768 1, .programLoad 1 (2 ^ 48), .programUnload 32768 1, .programUnload 1 (2 ^ 48), .contextCreate 32768 1,
   .contextCreate 1 (2 ^ 48), .contextDestroy 32768 1, .contextDestroy 1 (2 ^ 48), .queueCreate 32768 1, .queueCreate 1 (2 ^ 48),
   .queueDestroy 32768 1, .queueDestroy 1 (2 ^ 48), .queueDrained 32768, .tableCreate 32768 1, .tableCreate 1 (2 ^ 48),
   .partitionCreate 32768 1, .partitionCreate 1 (2 ^ 48), .partitionRemove 32768 1, .partitionRemove 1 (2 ^ 48), .partitionDrained 48,
   .tDrainExpiry 48]
/-- Each differs from a command that can arrive in one operand, which is out of its range. -/
def ill4 : List Instr :=
  [.segmentSet 32768 1, .segmentSet 1 (2 ^ 48), .invalidateRange 32768 1, .invalidateRange 1 (2 ^ 48), .extentAck 32768 1 true 1,
   .extentAck 1 (2 ^ 48) true 1, .extentAck 1 1 true 4096, .invalidateAckTimeout 32768 1 1, .invalidateAckTimeout 1 (2 ^ 48) 1,
   .invalidateAckTimeout 1 1 256, .keyslotLoad 32768 1, .keyslotLoad 1 (2 ^ 48), .keyslotScrub 32768 1, .keyslotScrub 1 (2 ^ 48),
   .scrubTagsDrained 64 true, .keyAck 48 1 1, .keyAck 1 64 1, .keyAck 1 1 2, .keyAckTimeout 48 1, .keyAckTimeout 1 64, .firmwareStage 32768 1,
   .firmwareStage 1 (2 ^ 48), .firmwareActivate 32768 1, .firmwareActivate 1 (2 ^ 48), .liveUpdate 32768 1, .liveUpdate 1 (2 ^ 48),
   .commandTimeout 32768 1, .commandTimeout 1 (2 ^ 48), .parkedHeadTimeout 32768, .flr 257, .flrComplete 257, .flrIsolationTimeout 257,
   .functionStateUpdate 257 true true, .inboundMmioRead 257 1 1 1, .inboundMmioRead 520 1 1 1, .inboundMmioRead 1 (2 ^ 32) 1 1,
   .inboundMmioRead 1 1 0 1, .inboundMmioRead 1 1 4097 1, .inboundMmioRead 1 1 1 1024, .ltpCompletion 1024 ⟨1, 1, 1, []⟩ true true, .ltpCompletion 1 ⟨512, 0, 1, []⟩ true true,
   .ltpCompletion 1 ⟨256, 257, 1, []⟩ true true, .ltpCompletion 1 ⟨1, 1, 1, [0, 0]⟩ true true]
/-- Each differs from a command that can arrive in one operand, which is out of its range. -/
def ill5 : List Instr :=
  [.ltpCompletion 1 ⟨1, 1, 4, []⟩ true true, .ltpReadTimeout 1024, .memoryResponse 48 1 1 1 1 1 ⟨[], 1⟩ true .good, .memoryResponse 1 16 1 1 1 1 ⟨[], 1⟩ true .good,
   .memoryResponse 1 1 8192 1 1 1 ⟨[], 1⟩ true .good, .memoryResponse 1 1 1 4096 1 1 ⟨[], 1⟩ true .good, .memoryResponse 1 1 1 1 64 1 ⟨[], 1⟩ true .good,
   .memoryResponse 1 1 1 1 1 4 ⟨[], 1⟩ true .good, .memoryResponse 1 1 1 1 1 1 ⟨(zeros 129), 1⟩ true .good,
   .memoryResponse 1 1 1 1 1 1 ⟨[], 4⟩ true .good, .memoryTimeout 48 1, .memoryTimeout 1 8192, .memRdyRise 48, .memRdyFall 48, .postbagBatchWrite 49,
   .walkReadResponse (65536 * 49) 1 ⟨[], true⟩, .walkReadResponse 1 8 ⟨[], true⟩, .walkReadResponse 1 1 ⟨(zeros 9), true⟩, .eventInputChange 1023 true 0, .eventRingEnable 257 0,
   .eventRingHeadWrite 257 0, .evcMaskSet true 32 0, .evcMaskClr true 32 0, .evcClaim 8, .evcDone 8 0, .frankingCreditReturn 256 1,
   .frankingCreditReturn 1 (2 ^ 16), .upstreamBeat 256 1 0 true true, .upstreamBeat 1 8 0 true true, .doneResponse 256 1 1 0,
   .doneResponse 1 65536 1 0, .doneResponse 1 1 256 0, .engRdyChange 256 true, .engineQuiesceAck 256, .engineReturnTimeout 256,
   .flitReceive 48 true ⟨[], zeros 256⟩, .flitReceive 1 true ⟨[], zeros 255⟩, .flitReceive 1 true ⟨[8], zeros 256⟩, .replayTimeout 48 true, .linkTrainTimeout 48, .linkTrainDone 48 ⟨1, 1⟩ true,
   .spareWindowCheck 48 true 1 1 1, .spareWindowCheck 1 true 16 1 1, .spareRequest 48 true 1]
/-- Each differs from a command that can arrive in one operand, which is out of its range. -/
def ill6 : List Instr :=
  [.spareRequest 1 true 16, .switchOrder 48 true 1 1 1, .switchOrder 1 true 16 1 1, .spareLockTimeout 48 true, .spareBackgroundRetrain 48 true,
   .laneLoss 48 true 1, .laneLoss 1 true 16, .heartbeatAnswer 48 [], .stationWatchdogExpiry 48 1, .stationWatchdogExpiry 1 8, .stationReturn 48,
   .watchdogExpiry 8, .contextStep 4096, .engineStep 256, .partitionStep 48, .escalationBoundExpiry 0 1, .escalationBoundExpiry 6 1,
   .escalationBoundExpiry 1 4096, .rsramDataRead 1024, .memoryReadyTimeout 48, .idleTimerDoze 48, .dozeTimerSleep 48, .sleepTimerOff 48,
   .entryCommit 48, .idleRequestTimeout .station 65536, .stationDemand 48, .psAck 48 1, .psAck 1 4, .wakeAckTimeout 48, .keepWarmLapse 32768,
   .frequencyStep 48, .arithFack 48 1, .arithFack 1 16, .arithFackTimeout 48, .avsRailWrite 32 .ok 1, .canRequest ⟨2048, false, []⟩, .canRequest ⟨(2 ^ 29), true, []⟩,
   .canRequest ⟨1, true, (zeros (64 + 1))⟩, .canTime ⟨2048, false, []⟩,
   .canTime ⟨1, true, (zeros (64 + 1))⟩, .monitorAge 49, .monitorCx 48, .monitorStn 48]
/-- Each differs from a command that can arrive in one operand, which is out of its range. -/
def ill7 : List Instr :=
  [.monitorOdRead 65536 1, .monitorOdRead 1 256, .monitorOdWrite 65536 1 [], .monitorOdWrite 1 256 [], .monitorOdWrite 1 1 (zeros (64 + 1)),
   .monitorDump 2, .peek (2 ^ 32), .poke (2 ^ 32) 0, .fuseRead 77, .fuseProgram 77 0 true, .xload 2 [], .bootromPeek (2 ^ 32),
   .bootromFuseRead 77, .spareLocked 48 true 1, .spareSwitchCountReached 48 true, .returnMemRdyTimeout 48]
/-- Commands with a check, with operands in range. -/
def well1 : List Instr :=
  [.sqTailDoorbell 1 1 1 0, .cqHeadDoorbell 1 1 1 0, .envelopeReceived 1 .good, .commandCompletion 1 1, .cqItimeExpiry 1, .qctlResume 1 1,
   .qctlReset 1 1, .guiltyQueueResetDone 1, .guiltyResetBoundExpiry 1, .registerWrite 1 1 1 0, .nop 1 1, .fenceSignal 1 1, .fenceCreate 1 1,
   .fenceDestroy 1 1, .fenceClearError 1 1, .fenceWait 1 1, .graphEdge 1 1, .lookupPool 1 1, .lookupGather 1 1, .lookupMulti 1 1,
   .occurrence 1 1 1 1 .good, .partialArrival 1 1 1 1 1, .stationFinalReport 1 1 1, .updateRows 1 1, .updateAccum 1 1, .tableSwitchPublish 1 1,
   .tableSwitchNewBase 1 1, .tableSwitchDiscard 1 1, .switchPoint 1, .versionRetire 1 1, .tableRetireWait 1 1, .tableRetireTable 1 1,
   .tableCompactCopy 1 1, .copyInstall 1 1, .tableCompactRebase 1 1, .summaryRebuild 1, .streamOpen 1 1, .streamAppend 1 1, .streamGather 1 1,
   .streamClose 1 1]
/-- Commands with a check, with operands in range. -/
def well2 : List Instr :=
  [.streamTrim 1 1, .scanLutBuild 1 1, .scanPq 1 1, .dispatch 1 1, .copy 1 1, .census 1 1, .programLoad 1 1, .programUnload 1 1,
   .contextCreate 1 1, .contextDestroy 1 1, .queueCreate 1 1, .queueDestroy 1 1, .queueDrained 1, .tableCreate 1 1, .partitionCreate 1 1,
   .partitionRemove 1 1, .partitionDrained 1, .tDrainExpiry 1, .segmentSet 1 1, .invalidateRange 1 1, .extentAck 1 1 true 1,
   .invalidateAckTimeout 1 1 1, .keyslotLoad 1 1, .keyslotScrub 1 1, .scrubTagsDrained 1 true, .keyAck 1 1 1, .keyAckTimeout 1 1,
   .firmwareStage 1 1, .firmwareActivate 1 1, .liveUpdate 1 1, .commandTimeout 1 1, .parkedHeadTimeout 1, .flr 1, .flrComplete 1,
   .flrIsolationTimeout 1, .functionStateUpdate 1 true true, .inboundMmioRead 1 1 1 1, .ltpCompletion 1 ⟨1, 1, 1, []⟩ true true, .ltpReadTimeout 1,
   .memoryResponse 1 1 1 1 1 1 ⟨[], 1⟩ true .good]
/-- Commands with a check, with operands in range. -/
def well3 : List Instr :=
  [.memoryTimeout 1 1, .memRdyRise 1, .memRdyFall 1, .postbagBatchWrite 1, .walkReadResponse 1 1 ⟨[], true⟩, .eventInputChange 1 true 0,
   .eventRingEnable 1 0, .eventRingHeadWrite 1 0, .evcMaskSet true 1 0, .evcMaskClr true 1 0, .evcClaim 1, .evcDone 1 0,
   .frankingCreditReturn 1 1, .upstreamBeat 1 1 0 true true, .doneResponse 1 1 1 0, .engRdyChange 1 true, .engineQuiesceAck 1,
   .engineReturnTimeout 1, .flitReceive 1 true ⟨[7], zeros 256⟩, .replayTimeout 1 true, .linkTrainTimeout 1, .linkTrainDone 1 ⟨1, 1⟩ true,
   .spareWindowCheck 1 true 1 1 1, .spareRequest 1 true 1, .switchOrder 1 true 1 1 1, .spareLockTimeout 1 true, .spareBackgroundRetrain 1 true,
   .laneLoss 1 true 1, .heartbeatAnswer 1 [], .stationWatchdogExpiry 1 1, .stationReturn 1, .watchdogExpiry 1, .contextStep 1, .engineStep 1,
   .partitionStep 1, .escalationBoundExpiry 1 1, .rsramDataRead 1, .memoryReadyTimeout 1, .idleTimerDoze 1, .dozeTimerSleep 1]
/-- Commands with a check, with operands in range. -/
def well4 : List Instr :=
  [.sleepTimerOff 1, .entryCommit 1, .idleRequestTimeout .station 1, .stationDemand 1, .psAck 1 1, .wakeAckTimeout 1, .keepWarmLapse 1,
   .frequencyStep 1, .arithFack 1 1, .arithFackTimeout 1, .avsRailWrite 1 .ok 1, .canRequest ⟨1, true, []⟩, .canTime ⟨1, true, []⟩, .monitorAge 1, .monitorCx 1,
   .monitorStn 1, .monitorOdRead 1 1, .monitorOdWrite 1 1 [], .monitorDump 1, .peek 1, .poke 1 0, .fuseRead 1, .fuseProgram 1 0 true,
   .xload 1 [], .bootromPeek 1, .bootromFuseRead 1, .spareLocked 1 true 1, .spareSwitchCountReached 1 true, .returnMemRdyTimeout 1]
/-- Each check refuses its ill-formed command. -/
theorem test_ill_formed_refused : (ill1 ++ ill2 ++ ill3 ++ ill4 ++ ill5 ++ ill6 ++ ill7).all (fun c => !c.wf) = true := by decide +kernel
/-- The same commands with that operand in range can arrive. -/
theorem test_well_formed_accepted : (well1 ++ well2 ++ well3 ++ well4).all Instr.wf = true := by decide +kernel
/-- An image longer than a slot is refused. -/
theorem test_long_image_refused : (Instr.xload 1 (List.replicate (2 ^ 22 + 1) 0)).wf = false := by
  simp only [Instr.wf, List.length_replicate]
  decide

/-! ### Worked values of the spec -/

/-- Chapter 00's build of a PK4-S: revision 4.1, MQI 2.0, 24 slots, two Courier ports, CAN FD and keys. -/
theorem test_identity_registers :
    (let b := { Build.model with variant := 2, nstn := 24, ncxp := 2, scan := false, mx := false, canfd := true, keys := true }
     (b.hubId, b.hubCap)) = (0x02020401, 0x00002C18) := by decide +kernel

/-- Chapter 02: H = 1,021, F = 1,022, T = 1,023 of a ring of 1,024, tail INDEX 3, PHASE 1; an earlier command runs. -/
def bell : State := { withQ (fun q => { q with log2 := 10, h := 1021, f := 1022, t := 1023 }) with cmds := [(ckey 1 5, run 0x02 [])] }
/-- The tail becomes position 1,027. -/
theorem test_doorbell_takes_tail :
    (Tab.at? (nextOf (exec (.sqTailDoorbell 0 (0x01001000 + 8 * 3) 4 0x10003) bell)).queues 1).map (fun q => (q.t, q.st)) = some (1027, .active) := by
  decide +kernel
/-- A tail of INDEX 1,020, PHASE 0 is stale. -/
theorem test_doorbell_stale :
    (Tab.at? (nextOf (exec (.sqTailDoorbell 0 (0x01001000 + 8 * 3) 4 1020) bell)).queues 1).map (fun q => (q.t, q.stale)) = some (1023, 1) := by
  decide +kernel
/-- A tail of INDEX 1,030 is beyond the ring: STOPPING, CAUSE 1. -/
theorem test_doorbell_beyond_ring :
    (Tab.at? (nextOf (exec (.sqTailDoorbell 0 (0x01001000 + 8 * 3) 4 1030) bell)).queues 1).map (fun q => (q.st, q.cause)) = some (.stopping, 1) := by
  decide +kernel

/-- Chapter 03: row 123,456,789 of a table of 16 shards in BLOCK mode, SHIFT 0. -/
theorem test_row_is_located :
    ({ tbl1 with block := true, shift := 0, nshard := 16 } : Table).locate 123456789 = (5, 7716049) := by decide +kernel

/-- Chapter 04: elements of several formats. -/
theorem test_elements_decode :
    [decodeElem 0x14 32 (zeros 16 ++ [0x83]) 0x5 0, decodeElem 0x14 32 (zeros 16 ++ [0x83]) 0xB 0, decodeElem 0x14 32 (zeros 16 ++ [0x83]) 0x1 0,
     decodeElem 0x15 32 (zeros 32 ++ [0x7E]) 0x9C 0, decodeElem 0x11 32 (zeros 32 ++ [0x80]) 0x7C 0, decodeElem 0x14 32 (zeros 16 ++ [0xFF]) 0x5 0,
     decodeElem 0x20 1 ([0xDB] ++ leBytes 4 0x3C800000 ++ leBytes 4 0x3F000000) 0xDB 0,
     decodeElem 0x21 2 ([0x09] ++ leBytes 4 0x3DCCCCCD ++ leBytes 4 0) 0x9 0] =
    [0x42400000, 0xC1C00000, 0x41000000, 0xBF480000, 0x7F800000, 0x7FC00000, 0xBDA00000, 0xBF333333] := by decide +kernel
/-- Chapter 04: 1 and 2^-24, scaled by 3 or added in two orders. -/
theorem test_sums_round :
    [ffma 0x40400000 0x33800000 0x3F800000, fadd (fadd 0x3F800000 0x33800000) 0x33800000, fadd (fadd 0x33800000 0x33800000) 0x3F800000] =
    [0x3F800002, 0x3F800000, 0x3F800001] := by decide +kernel
/-- Chapter 04: 300, -1.3 and 0.01 in a block of MXFP8 E4M3; and 480, which saturates. -/
theorem test_block_converts :
    (encodeRow 0x10 false ([0x43960000, 0xBFA66666, 0x3C23D70A] ++ List.replicate 29 0), (convBlock 0x10 [0x43F00000]).2) =
    ([0x79, 0xBA, 0x05] ++ zeros 29 ++ [0x7F], [0x7E]) := by decide +kernel

/-- Chapter 06: three streams, K = 8, OFFSET 2, ALIGN 0. -/
theorem test_sequences_fill :
    [({ strm1 with cap := 1024, total := 3000 } : Stream).fill 8 2 0, ({ strm1 with cap := 1024, total := 5 } : Stream).fill 8 2 0,
     ({ strm1 with cap := 256, strict := true, total := 2 } : Stream).fill 8 2 0, ({ strm1 with cap := 1024, total := 5 } : Stream).fill 8 2 1] =
    [(List.range 8).map (fun i => (2990 + i, i)), [(0, 5), (1, 6), (2, 7)], [], [(0, 2), (1, 1), (2, 0)]] := by decide +kernel

/-- Chapter 09: the envelope of the 4,096-pool batch. -/
def batch : List Byte :=
  [0x10, 0x00, 0x40, 0x00, 0x34, 0x12, 0x00, 0x00, 0x07, 0x00, 0x0D, 0x01, 0x00, 0x00, 0x04, 0x00, 0x00, 0x10, 0x00, 0x00, 0x00, 0x00, 0x00, 0x00,
   0x00, 0x00, 0x00, 0x00, 0x40, 0x00, 0x00, 0x00] ++ zeros 16 ++ [0x03] ++ zeros 15
/-- Its fields as read. -/
theorem test_envelope_is_read :
    ([({ adm 0 [] with env := batch } : Cmd).opcode, lTid batch, lIw batch, lOp batch, lOfmt batch, lN batch, lProg batch, lP batch, lK batch, lIdx batch, lOut batch],
     lFixed batch, lEng batch, lookOk false false batch) =
    ([0x10, 7, 1, 0, 1, 262144, 0, 4096, 0, 0x4000000000, 3], true, true, true) := by decide +kernel

/-- Chapter 15: 22 ps at 20 mV with k_v 0.6 ps per mV needs 25 mV. -/
theorem test_replan_need : base.needOf { meas 22 with dom := 12, kvFs := 600 } 20 22 = 25 := by decide +kernel

/-- The CRC of R370, on the nine digits 1 to 9: the check value of IEEE 802.3's CRC-32. -/
theorem test_crc32 : crc32 [0x31, 0x32, 0x33, 0x34, 0x35, 0x36, 0x37, 0x38, 0x39] = 0xCBF43926 := by decide +kernel

/-- The table of commands gives no bits: a word spells none. -/
theorem test_no_word_is_a_command : decodeTableWord 16 0 = none := by decide +kernel

end Sys2Proof.Tests
end

section
/-! Inbound reads before READY (R24, R350, R407): the two words of an 8-byte read are answered each on its own, so a read that covers
RST_REC_STAT shows it. -/
namespace Sys2Proof.Machine

/-- RST_REC_STAT, a 32-bit register of the PF, reads the recovery state and the time elapsed (R420). -/
theorem State.regWord_recStat (s : State) : s.regWord 0 0x6824 = packF [(0, 2, s.rcv.state), (8, 24, s.rcv.elapsed)] := by
  simp [State.regWord, State.reg64, State.reg32, State.rstReg]

/-- Bits 7:2 of RST_REC_STAT are reserved, so it never reads as all ones. -/
theorem recStat_lt_allOnes (state elapsed : Nat) : packF [(0, 2, state), (8, 24, elapsed)] < allOnes 4 := by
  simp only [packF, allOnes]
  omega

/-- The word below RST_REC_STAT reads as ones, RST_REC_STAT as itself, and the read of both clears nothing. -/
theorem State.openRead_over_recStat (s : State) :
    s.openRead 0 0x6820 8 = (allOnes 4 + 2 ^ 32 * packF [(0, 2, s.rcv.state), (8, 24, s.rcv.elapsed)], s) := by
  simp [State.openRead, openReg, s.regWord_recStat, State.rcAt, State.rstRc]

/-- Before READY a function's read completes with what a recovering block answers (R407). -/
theorem exec_inboundMmioRead_before_ready {s : State} {fn : Nat} (off width tag : Nat) (hfn : fn < 512) (hup : s.up = false) :
    exec (.inboundMmioRead fn off width tag) s =
      .next ((s.openRead fn off width).2.emit (.cpl fn tag 0 width (s.openRead fn off width).1)) := by
  simp [exec, execInboundMmioRead, State.inbound, hup, Nat.not_le.mpr hfn]

/-- Before READY no 8-byte read that ends in RST_REC_STAT completes with all ones. -/
theorem exec_inboundMmioRead_over_recStat_ne_ones {s : State} (tag : Nat) (hup : s.up = false) :
    exec (.inboundMmioRead 0 0x6820 8 tag) s ≠ .next { s with out := s.out ++ [.cpl 0 tag 0 8 (2 ^ (8 * 8) - 1)] } := by
  rw [exec_inboundMmioRead_before_ready _ _ _ (by decide) hup, s.openRead_over_recStat]
  intro hones
  have hdata : allOnes 4 + 2 ^ 32 * packF [(0, 2, s.rcv.state), (8, 24, s.rcv.elapsed)] = 2 ^ (8 * 8) - 1 := by
    simpa using congrArg State.out (Host.Outcome.next.inj hones)
  have hlt := recStat_lt_allOnes s.rcv.state s.rcv.elapsed
  simp only [allOnes] at hdata hlt
  omega

/-- A block out of reset whose links still train (R428 steps 6 and 7). -/
def linksTraining : State := { State.reset with rst := { rel := .links } }

/-- Refutes O60 by its clause of reads before READY: its exception names the 4-byte reads of RST_REC_STAT and of the window of the retention
SRAM alone, and an 8-byte read of the PF at 0x6820 has RST_REC_STAT in its upper word, which is answered with its value (R24, R407). -/
theorem not_registersAreReadAndWritten : ¬ Obligations.RegistersAreReadAndWritten := by
  unfold Obligations.RegistersAreReadAndWritten
  rintro ⟨⟨-, -, hones, -⟩, -⟩
  exact exec_inboundMmioRead_over_recStat_ne_ones 0 rfl (hones linksTraining 0 0x6820 8 0 (by decide) rfl (by decide))

end Sys2Proof.Machine
end

section
/-! The Courier layer of a link (R370-R373): what changing a link reads back as, what a flit that arrives does, and what a replay sends. -/
namespace Sys2Proof.Machine

/-! ### Links after a change -/

@[simp] theorem State.link_updLink_self (s : State) (n : Nat) (f : Link → Link) : (s.updLink n f).link n = f (s.link n) := by
  simp [State.link]

theorem State.updLink_becomes (s : State) (n : Nat) (f : Link → Link) :
    Tab.becomes s.links (s.updLink n f).links n (f (s.link n)) := by
  simpa using Tab.becomes_put s.links n (f (s.link n))

@[simp] theorem Link.side_updSide (l : Link) (stn : Bool) (f : LEnd → LEnd) : (l.updSide stn f).side stn = f (l.side stn) := by
  cases stn <;> rfl

@[simp] theorem Link.updSide_st (l : Link) (stn : Bool) (f : LEnd → LEnd) : (l.updSide stn f).st = l.st := by
  cases stn <;> rfl

@[simp] theorem LEnd.credited_req_got (e : LEnd) (h : Nat) : (e.credited h).req.got = bits h 28 12 := rfl
@[simp] theorem LEnd.credited_rsp_got (e : LEnd) (h : Nat) : (e.credited h).rsp.got = bits h 40 12 := rfl
@[simp] theorem LEnd.credited_dbg_got (e : LEnd) (h : Nat) : (e.credited h).dbg.got = bits h 52 12 := rfl

/-! ### A flit arrives -/

/-- A flit as it left the other end (R370): 256 bytes, the last four the CRC of the rest. -/
abbrev FlitGood (b : List Byte) : Prop := b.length = 256 ∧ rd b 252 4 = crc32 (b.take 252)

/-- A PAYLOAD flit that an end cannot take makes it ask for a resend, unless it has asked already (R372). -/
def State.askResend (s : State) (n : Nat) (atStn : Bool) : State :=
  if ((s.link n).side atStn).asking then s
  else (s.updLink n (fun l => l.updSide atStn (fun e => { e with asking := true }))).emit
    (.flit n atStn (((s.link n).side atStn).flit 2 0 [] 0))

theorem State.askResend_asking {s : State} {n : Nat} {atStn : Bool} (h : ((s.link n).side atStn).asking = true) : s.askResend n atStn = s :=
  if_pos h

/-- An end that asks marks that it does, and sends one RETRY flit. -/
theorem State.askResend_asks {s : State} {n : Nat} {atStn : Bool} (h : ((s.link n).side atStn).asking = false) :
    s.askResend n atStn = { s with links := (s.askResend n atStn).links, out := (s.askResend n atStn).out } ∧
      Tab.becomes s.links (s.askResend n atStn).links n ((s.link n).updSide atStn (fun e => { e with asking := true })) ∧
      (s.askResend n atStn).out = s.out ++ [.flit n atStn (((s.link n).side atStn).flit 2 0 [] 0)] := by
  simp only [State.askResend, h, Bool.false_eq_true, if_false]
  exact ⟨rfl, s.updLink_becomes n (fun l => l.updSide atStn (fun e => { e with asking := true })), rfl⟩

section
variable {s : State} {n : Nat} {b : List Byte} (atStn : Bool)

/-- The end takes a good PAYLOAD flit with the SEQ it expects. -/
theorem State.flitIn_payload_expected (hst : (s.link n).st = 5) (htype : bits (rd b 0 8) 24 2 = 1) (hb : FlitGood b)
    (hseq : bits (rd b 0 8) 0 12 = ((s.link n).side atStn).rxNext) :
    s.flitIn n atStn [] b =
      ((((s.updLink n (fun l => l.updSide atStn (fun e => { e.credited (rd b 0 8) with rxNext := (e.rxNext + 1) % 4096, asking := false }))).takeSlots
        n atStn b).ackFlit n atStn), false) := by
  obtain ⟨hlen, hcrc⟩ := hb
  simp [State.flitIn, hst, htype, hlen, hcrc, hseq]

/-- Any other PAYLOAD flit is answered with a wish for a resend. -/
theorem State.flitIn_payload_unexpected (hst : (s.link n).st = 5) (htype : bits (rd b 0 8) 24 2 = 1)
    (hb : b.length ≠ 256 ∨ rd b 252 4 ≠ crc32 (b.take 252) ∨ bits (rd b 0 8) 0 12 ≠ ((s.link n).side atStn).rxNext) :
    s.flitIn n atStn [] b = (s.askResend n atStn, false) := by
  have hbad : ¬((b.length = 256 ∧ rd b 252 4 = crc32 (b.take 252)) ∧ bits (rd b 0 8) 0 12 = ((s.link n).side atStn).rxNext) :=
    fun ⟨⟨hlen, hcrc⟩, hseq⟩ => hb.elim (· hlen) (·.elim (· hcrc) (· hseq))
  cases hask : ((s.link n).side atStn).asking <;> simp [State.flitIn, State.askResend, hst, htype, hask, if_neg hbad]

/-- A flit of which a codeword was lost, whatever its bytes then read as, is at most answered with a wish for a resend. -/
theorem State.flitIn_lost {lost : List Nat} {j : Nat} (hrem : s.build.remote n = true) (hst : (s.link n).st = 5) (hj : j ∈ lost) (hj4 : j < 4) :
    s.flitIn n atStn lost b = (s, false) ∨ s.flitIn n atStn lost b = (s.askResend n atStn, false) := by
  have hlost : lost.filter (fun j => decide (j < if (if atStn then (s.link n).txLanes else (s.link n).rxLanes) = 4 then 4 else 8)) ≠ [] := by
    refine List.ne_nil_of_mem (List.mem_filter.2 ⟨hj, decide_eq_true (Nat.lt_of_lt_of_le hj4 ?_)⟩)
    split <;> split <;> decide
  simp only [State.flitIn, hrem, hst, if_true, List.isEmpty_eq_false_iff.2 hlost, Bool.false_and, Bool.not_false, Bool.true_or, if_neg hlost]
  generalize bits (rd _ 0 8) 24 2 = type
  by_cases htype : type = 1
  · cases hask : ((s.link n).side atStn).asking <;> simp [State.askResend, htype, hask]
  · simp [htype]

/-- A good NULL or RETRY flit brings its ACK and credits, unless the end waits for a PAYLOAD flit; a RETRY is answered with a resend. -/
theorem State.flitIn_control (hst : (s.link n).st = 5) (htype : bits (rd b 0 8) 24 2 = 0 ∨ bits (rd b 0 8) 24 2 = 2) (hb : FlitGood b)
    (hask : ((s.link n).side atStn).asking = false) :
    s.flitIn n atStn [] b =
      ((if bits (rd b 0 8) 24 2 = 2 then (s.updLink n (fun l => l.updSide atStn (fun e => e.credited (rd b 0 8)))).resend n atStn
        else s.updLink n (fun l => l.updSide atStn (fun e => e.credited (rd b 0 8)))).send n atStn, false) := by
  obtain ⟨hlen, hcrc⟩ := hb
  rcases htype with htype | htype <;> simp [State.flitIn, hst, htype, hlen, hcrc, hask]

/-- While a link is in INIT, a good INIT flit that agrees is kept, and one that does not takes the link down (R373). -/
theorem State.flitIn_init (hst : (s.link n).st = 4) (htype : bits (rd b 0 8) 24 2 = 3) (hb : FlitGood b) :
    s.flitIn n atStn [] b =
      if Config.initAgrees b = true then
        (s.updLink n (fun l => l.updSide atStn (fun e =>
          { (e.credited (rd b 0 8)) with kept := e.kept, resent := e.resent, init := true })), false)
      else (s, true) := by
  obtain ⟨hlen, hcrc⟩ := hb
  simp [State.flitIn, hst, htype, hlen, hcrc]

/-- A flit that does not take the link down does what its end makes of it. -/
theorem exec_flitReceive_keeps {lost : List Nat} {t : State} (hn : s.built n = true) (h : s.flitIn n atStn lost b = (t, false)) :
    exec (.flitReceive n atStn ⟨lost, b⟩) s = .next t := by
  simp [exec, execFlitReceive, hn, h]

theorem exec_flitReceive_takesDown {lost : List Nat} {t : State} (hn : s.built n = true) (h : s.flitIn n atStn lost b = (t, true)) :
    exec (.flitReceive n atStn ⟨lost, b⟩) s = .next (t.linkDown n) := by
  simp [exec, execFlitReceive, hn, h]

end

/-! ### A message has arrived whole -/

/-- A message for this end returns its credits (R371). -/
theorem State.arrive_here {s : State} (n k : Nat) {atStn : Bool} {m : List (List Byte)}
    (h : atStn = true ∨ s.built (bits (rd (m.headD []) 0 8) 20 6) = false) :
    s.arrive n atStn k m =
      s.updLink n (fun l => l.updSide atStn (fun e => e.updChan k (fun c => { c with crt := (c.crt + m.length) % 4096 }))) := by
  have hno : ¬((!atStn && s.built (bits (rd (m.headD []) 0 8) 20 6)) = true) := by
    rcases h with h | h <;> rw [h] <;> simp
  exact if_neg hno

/-- A message for a station waits at the hub's end of that station's link, and goes over it as soon as it can (R38). -/
theorem State.arrive_onward {s : State} (n k : Nat) {m : List (List Byte)} (h : s.built (bits (rd (m.headD []) 0 8) 20 6) = true) :
    s.arrive n false k m = s.queueMsg (bits (rd (m.headD []) 0 8) 20 6) false k n m :=
  if_pos (by rw [h]; rfl)

/-! ### Replay -/

/-- A replay counts at the end, for its oldest flit, and at the link. -/
def Link.replayed (l : Link) (stn : Bool) : Link :=
  { l.updSide stn (fun e => { e with resent := e.resent + 1 }) with retry := satAdd 32 l.retry 1 }

theorem Link.replayed_side (l : Link) (stn : Bool) : (l.replayed stn).side stn = { l.side stn with resent := (l.side stn).resent + 1 } := by
  cases stn <;> rfl

/-- An end counts a replay, tells of it, and sends every flit it keeps again (R372 rule 3). -/
def State.replayed (s : State) (n : Nat) (stn : Bool) : State :=
  (((s.updLink n (fun l => l.replayed stn)).count 0x2104 1).raise (112 + n) 1).emits (((s.link n).side stn).kept.map (fun f => .flit n stn f.2))

/-- The fourth replay of the same oldest flit makes the link retrain (R372 rule 5). -/
theorem State.resend_active {s : State} {n : Nat} {stn : Bool} (hst : (s.link n).st = 5) (hkept : ((s.link n).side stn).kept ≠ []) :
    s.resend n stn = if 4 ≤ ((s.link n).side stn).resent + 1 then (s.replayed n stn).retrain n else s.replayed n stn :=
  if_neg (by simp [hst, hkept])

theorem State.replayed_frame (s : State) (n : Nat) (stn : Bool) :
    s.replayed n stn = { s with
      links := (s.replayed n stn).links, incr := (s.replayed n stn).incr, evc := (s.replayed n stn).evc, out := (s.replayed n stn).out } := by
  obtain ⟨i, hcount⟩ := (s.updLink n (fun l => l.replayed stn)).count_frame 0x2104 1
  obtain ⟨e, hraise⟩ := ((s.updLink n (fun l => l.replayed stn)).count 0x2104 1).raise_frame (112 + n) 1
  rw [State.replayed, hraise, hcount]
  rfl

theorem State.replayed_out (s : State) (n : Nat) (stn : Bool) :
    (s.replayed n stn).out = s.out ++ ((s.link n).side stn).kept.map (fun f => .flit n stn f.2) := by
  simp [State.replayed]

theorem State.replayed_link (s : State) (n : Nat) (stn : Bool) : (s.replayed n stn).link n = (s.link n).replayed stn := by
  simp [State.replayed, State.link]

theorem exec_replayTimeout {s : State} {n : Nat} (atStn : Bool) (hn : s.built n = true) : exec (.replayTimeout n atStn) s = .next (s.resend n atStn) := by
  simp [exec, execReplayTimeout, hn]

/-! ### The statement -/

/-- Settles O39: each flit that arrives is one of the cases of `State.flitIn` above (R38, R370 to R373, R377). -/
theorem flitsAreTakenOrResent : Obligations.FlitsAreTakenOrResent := by
  unfold Obligations.FlitsAreTakenOrResent
  refine ⟨?taken, ?here, ?onward, ?unexpected, ?lost, ?control, ?replay, ?init⟩
  case taken =>
    intro s n atStn b hn hst htype hlen hcrc hseq
    exact ⟨_, exec_flitReceive_keeps atStn hn (State.flitIn_payload_expected atStn hst htype ⟨hlen, hcrc⟩ hseq), rfl, s.updLink_becomes n _,
      by simp, by simp, by simp⟩
  case here =>
    intro s n k atStn m hdest
    rw [State.arrive_here n k hdest]
    exact ⟨rfl, s.updLink_becomes n _⟩
  case onward =>
    intro s n k m hdest
    exact ⟨_, State.arrive_onward n k hdest, rfl, s.updLink_becomes _ _⟩
  case unexpected =>
    intro s n atStn b hn hst htype hb
    exact ⟨_, exec_flitReceive_keeps atStn hn (State.flitIn_payload_unexpected atStn hst htype hb), State.askResend_asking, State.askResend_asks⟩
  case lost =>
    intro s n j atStn lost b hn hrem hst hj hj4
    rcases State.flitIn_lost atStn hrem hst hj hj4 (b := b) with h | h
    · exact ⟨s, exec_flitReceive_keeps atStn hn h, .inl rfl⟩
    · refine ⟨_, exec_flitReceive_keeps atStn hn h, ?_⟩
      cases hask : ((s.link n).side atStn).asking with
      | true => exact .inl (State.askResend_asking hask)
      | false => exact .inr ⟨rfl, State.askResend_asks hask⟩
  case control =>
    intro s n atStn b hn hst htype hlen hcrc hask
    exact ⟨_, exec_flitReceive_keeps atStn hn (State.flitIn_control atStn hst htype ⟨hlen, hcrc⟩ hask), rfl, s.updLink_becomes n _⟩
  case replay =>
    intro s n atStn hn hst hkept
    exact ⟨s.replayed n atStn, by rw [exec_replayTimeout atStn hn, State.resend_active hst hkept], s.replayed_frame n atStn,
      s.replayed_out n atStn, by rw [s.replayed_link, Link.replayed],
      by rw [s.replayed_link, Link.replayed_side], by rw [s.replayed_link, Link.replayed_side]⟩
  case init =>
    intro s n atStn b hn hst htype hlen hcrc
    have hflit := State.flitIn_init atStn hst htype ⟨hlen, hcrc⟩
    by_cases hagrees : Config.initAgrees b = true
    · rw [if_pos hagrees] at hflit
      simp only [if_pos hagrees]
      exact ⟨_, exec_flitReceive_keeps atStn hn hflit, rfl, by simp, by simp [hst]⟩
    · rw [if_neg hagrees] at hflit
      simp only [if_neg hagrees]
      exact ⟨_, exec_flitReceive_takesDown atStn hn hflit, rfl⟩

end Sys2Proof.Machine
end

section
/-! Completion (R43, R70, R73, R74): where a record goes, and what the message rule changes after it. -/
namespace Sys2Proof.Machine

/-! ### The bytes of a record -/

@[simp] theorem leBytes_length (n v : Nat) : (leBytes n v).length = n := by
  induction n generalizing v with
  | zero => rfl
  | succ n ih => simp [leBytes, ih]

@[simp] theorem State.cmdRecord_length (s : State) (q : Queue) (c : Cmd) : (s.cmdRecord q c).length = 32 := leBytes_length 32 _

/-! ### A record in an untranslated ring -/

/-- A range of bus addresses, as context 0 uses them: one stretch, in host memory (R260). -/
def busSpan (a len : Nat) : Span := { lo := a, hi := a + len, tgt := some ⟨true, 0, a⟩ }

theorem State.xlat_busSpan (s : State) (cl : Client) (write : Bool) (a : Nat) {len : Nat} (hlen : len ≠ 0) :
    s.xlat cl 0 write a len = .ok [busSpan a len] := by
  simp [State.xlat, hlen, busSpan]

/-- Bus addresses are all mapped. -/
theorem find?_unmapped_busSpan (a len : Nat) : [busSpan a len].find? (fun p => p.tgt.isNone) = none := rfl

/-- A write that fills a range of bus addresses is one write of host memory, by context 0's function. -/
theorem State.pwrite_busSpan (s : State) (cl : Client) (a : Nat) {bs : List Byte} {len : Nat} (p : Bool) (hlen : bs.length = len) (hpos : 0 < len) :
    s.pwrite cl 0 (piecesOf a [busSpan a len]) 0 bs p = s.hostWrite (s.reqId 0).1 (s.reqId 0).2 a bs p := by
  subst hlen
  simp [State.pwrite, State.twrite, piecesOf, busSpan, hpos]

/-- A context in no partition has no hits to count (R323). -/
theorem State.touch_no_part {s : State} {cid : Nat} (sps : List Span) (h : (Tab.at? s.ctxs cid).bind (·.pid) = none) : s.touch cid sps = s := by
  simp only [State.touch, h]

/-- Record `bs` of queue `qid` is stored at the completion tail of its ring, which advances; no message is due yet (R70). -/
def State.storeRecord (s : State) (qid : Nat) (q : Queue) (bs : List Byte) : State :=
  ((s.draw.dropNotes (ringClient qid)).hostWrite 0 none (q.cq + 32 * (q.c % q.n)) bs false).updQ qid (fun x => { x with c := posAdd x.n x.c 1 })

/-- A completion ring of context 0 is not translated: its record never misses. -/
theorem State.writeRecord_untranslated {s : State} {q : Queue} {bs : List Byte} (qid : Nat) (marker : Bool) (hcid : q.cid = 0)
    (hreq : s.reqId 0 = (0, none)) (hpid : (Tab.at? s.ctxs 0).bind (·.pid) = none) (hlen : bs.length = 32) :
    s.writeRecord qid q bs marker = .ok ((s.storeRecord qid q bs).afterRecord qid q marker) := by
  have hreq' : (s.draw.dropNotes (ringClient qid)).reqId 0 = (0, none) := hreq
  have hpid' : (Tab.at? (s.draw.dropNotes (ringClient qid)).ctxs 0).bind (·.pid) = none := hpid
  simp only [State.writeRecord, hcid, State.xlat_busSpan _ _ _ _ (by decide : 32 ≠ 0), find?_unmapped_busSpan, State.touch_no_part _ hpid',
    State.pwrite_busSpan _ _ _ _ hlen (by decide), hreq', State.storeRecord]

/-- While context 0's function may issue requests, the record is in host memory. -/
theorem State.storeRecord_eq {s : State} {q : Queue} {bs : List Byte} (qid : Nat) (hfn : s.fnOk 0 = true) (hbs : bs ≠ []) :
    s.storeRecord qid q bs = { s with
      queues := Tab.upd s.queues qid (fun x => { x with c := posAdd x.n x.c 1 })
      host := s.host.write (q.cq + 32 * (q.c % q.n)) bs false
      out := s.out ++ ltpWrites 0 none (q.cq + 32 * (q.c % q.n)) bs false
      fresh := s.fresh + 1
      xlt := (s.dropNotes (ringClient qid)).xlt } := by
  have hw : (s.draw.dropNotes (ringClient qid)).hostWrite 0 none (q.cq + 32 * (q.c % q.n)) bs false = _ := if_pos ⟨hfn, hbs⟩
  rw [State.storeRecord, hw]
  rfl

/-! ### The message rule -/

theorem State.updQ_becomes {s : State} {qid : Nat} {y : Queue} (f : Queue → Queue) (h : Tab.at? s.queues qid = some y) :
    Tab.becomes s.queues (s.updQ qid f).queues qid (f y) :=
  Tab.becomes_upd f h

/-- After a record a message is driven or held, or counts as delayed, and nothing else changes (R74). -/
theorem State.afterRecord_cases {s : State} {qid : Nat} {y : Queue} (q : Queue) (marker : Bool) (hy : Tab.at? s.queues qid = some y) :
    ∃ (qs : Tab Queue) (o : List Output) (fs : Tab Fn) (v : Nat) (i : Bool), s.afterRecord qid q marker = { s with queues := qs, out := o, fns := fs } ∧
      Tab.becomes s.queues qs qid { y with since := v, itimer := i } := by
  simp only [State.afterRecord]
  generalize (if qid = 0 then s.mqi.vec else q.vec) = vec
  split
  · exact ⟨s.queues, s.out, s.fns, y.since, y.itimer, rfl, hy, fun _ _ => rfl⟩
  split
  · obtain ⟨o, fs, hirq⟩ := (s.updQ qid (fun q => { q with since := 0, itimer := false })).irq_frame (s.reqId q.cid).1 vec
    exact ⟨_, o, fs, 0, false, hirq, s.updQ_becomes (fun q => { q with since := 0, itimer := false }) hy⟩
  · exact ⟨_, s.out, s.fns, y.since + 1, true, rfl, s.updQ_becomes (fun q => { q with since := q.since + 1, itimer := true }) hy⟩

/-! ### The command leaves -/

/-- Once its record is written, command `cl` is gone, and counts as completed. -/
def State.dropCmd (s : State) (cl : Client) : State := ({ s with cmds := Tab.del s.cmds cl } : State).count 0x2105 1

theorem State.dropCmd_frame (s : State) (cl : Client) : ∃ t, s.dropCmd cl = { s with cmds := Tab.del s.cmds cl, incr := t } :=
  State.count_frame { s with cmds := Tab.del s.cmds cl } 0x2105 1

/-- A completed command that waits for nothing has its record written, and then its signals, pins and reservations settled (R43, R44). -/
theorem State.complete_done {s t : State} {cl : Client} {c : Cmd} {q : Queue} (hq : Tab.at? s.queues c.q = some q) (hdone : c.phase = .done)
    (hbusy : s.busy cl = false) (hroom : q.room = true) (hw : s.writeRecord c.q q (s.cmdRecord q c) false = .ok t) :
    s.complete cl c = (((((t.dropCmd cl).signalAll c).releasePins c).endWriter cl c).freeFences).settleQueue c.q := by
  simp [State.complete, hq, hdone, hbusy, hroom, hw, State.dropCmd]

theorem exec_commandCompletion {s : State} {q seq : Nat} {c : Cmd} (h : s.cmd (ckey q seq) = some c) :
    exec (.commandCompletion q seq) s = .next (s.complete (ckey q seq) c).settleAfter := by
  simp [exec, execCommandCompletion, State.completeCmd, h]

/-- Command `cl` of queue `qid` leaves with its record `bs`; its signals, pins and reservations are still to be settled. -/
def State.leaveWith (s : State) (cl : Client) (qid : Nat) (q : Queue) (bs : List Byte) : State :=
  ((s.storeRecord qid q bs).afterRecord qid q false).dropCmd cl

theorem State.leaveWith_spec {s : State} {q : Queue} {bs : List Byte} (cl : Client) (qid : Nat) (hq : Tab.at? s.queues qid = some q)
    (hfn : s.fnOk 0 = true) (hbs : bs ≠ []) :
    ∃ (qs : Tab Queue) (o : List Output) (fs : Tab Fn) (k : Tab Nat) (v : Nat) (i : Bool),
      s.leaveWith cl qid q bs = { s with
        cmds := Tab.del s.cmds cl, queues := qs, host := s.host.write (q.cq + 32 * (q.c % q.n)) bs false, out := o, fresh := s.fresh + 1,
        xlt := (s.dropNotes (ringClient qid)).xlt, fns := fs, incr := k } ∧
      Tab.becomes s.queues qs qid { q with c := posAdd q.n q.c 1, since := v, itimer := i } := by
  have hstore := s.storeRecord_eq qid hfn hbs (q := q)
  have hadv : Tab.becomes s.queues (s.storeRecord qid q bs).queues qid { q with c := posAdd q.n q.c 1 } := by
    rw [hstore]
    exact Tab.becomes_upd (fun x => { x with c := posAdd x.n x.c 1 }) hq
  obtain ⟨qs, o, fs, v, i, hafter, hqs⟩ := State.afterRecord_cases q false hadv.1
  obtain ⟨k, hdrop⟩ := ((s.storeRecord qid q bs).afterRecord qid q false).dropCmd_frame cl
  refine ⟨qs, o, fs, k, v, i, ?_, Tab.becomes_trans hadv hqs⟩
  rw [State.leaveWith, hdrop, hafter, hstore]

/-! ### The queue's other events -/

theorem exec_cqItimeExpiry_running {s : State} {q : Nat} {x : Queue} (hx : Tab.at? s.queues q = some x) (hrun : x.itimer = true) :
    exec (.cqItimeExpiry q) s = .next ((s.updQ q (fun x => { x with since := 0, itimer := false })).irq (s.reqId x.cid).1 x.vec) := by
  simp [exec, execCqItimeExpiry, hx, hrun]

/-- A message on a vector in use, of a function that may issue requests, is driven (R352, R353). -/
theorem State.irq_driven {s : State} {fn vec : Nat} (hvec : vec ≠ 0x7FF) (hfn : s.fnOk fn = true) : s.irq fn vec = s.emit (.irq fn vec) := by
  simp [State.irq, hvec, hfn]

theorem exec_qctlResume {s : State} {fn : Nat} (q : Nat) (hfn : s.reaches fn) : exec (.qctlResume fn q) s = .next (s.resume fn q) :=
  congrArg Host.Outcome.next (State.mmioOf_reaches _ hfn)

theorem State.resume_stopped {s : State} {fn q : Nat} {x : Queue} (hx : s.queueOf fn q = some x) (hst : x.st = .stopped) :
    s.resume fn q = s.updQ q (fun x => { x with st := .idle }) := by
  simp [State.resume, hx, hst]

theorem State.resume_unnamed {s : State} {fn q : Nat} (h : s.queueOf fn q = none) : s.resume fn q = s.badQctl fn := by
  simp [State.resume, h]

/-! ### The statement -/

/-- Settles O9: the record by `State.complete_done` over an untranslated ring, the timer's message by `State.irq_driven`, RESUME by what it
finds under the queue's number (R43, R44, R58, R70, R73 to R75). -/
theorem completionWritesOneRecord : Obligations.CompletionWritesOneRecord := by
  unfold Obligations.CompletionWritesOneRecord
  refine ⟨?record, ?timer, ?resume, ?unnamed⟩
  case record =>
    rintro s q seq c x hc rfl hdone hbusy hx hroom hcid hreq hpid hfn
    have hbs : s.cmdRecord x c ≠ [] := List.ne_nil_of_length_pos (by simp)
    have hw := State.writeRecord_untranslated c.q false hcid hreq hpid (s.cmdRecord_length x c)
    have hexec := exec_commandCompletion hc
    rw [State.complete_done hx hdone hbusy hroom hw] at hexec
    obtain ⟨qs, o, fs, k, v, i, hleave, hqs⟩ := State.leaveWith_spec (ckey c.q seq) c.q hx hfn hbs
    have hi : (Tab.atD qs c.q x).itimer = i := by simp [Tab.atD, hqs.1]
    refine ⟨s.leaveWith (ckey c.q seq) c.q x (s.cmdRecord x c), v, hexec, ?_⟩
    rw [hleave, hi]
    exact ⟨rfl, Tab.loses_del s.cmds _, rfl, hqs⟩
  case timer =>
    intro s q x hx hrun hvec hfn
    have hfn' : (s.updQ q (fun x => { x with since := 0, itimer := false })).fnOk (s.reqId x.cid).1 = true := hfn
    have hexec := exec_cqItimeExpiry_running hx hrun
    rw [State.irq_driven hvec hfn'] at hexec
    exact ⟨_, hexec, rfl, rfl, State.updQ_becomes (fun x => { x with since := 0, itimer := false }) hx⟩
  case resume =>
    intro s fn q x hfn hqueue hx hst
    exact ⟨_, by rw [exec_qctlResume q hfn, State.resume_stopped hqueue hst], rfl, State.updQ_becomes (fun x => { x with st := .idle }) hx⟩
  case unnamed =>
    intro s fn q f hfn hf hqueue
    exact ⟨_, by rw [exec_qctlResume q hfn, State.resume_unnamed hqueue], rfl,
      Tab.becomes_upd (fun f => { f with badQctl := satAdd 16 f.badQctl 1 }) hf⟩

end Sys2Proof.Machine
end

section
/-! Requests and writes through the ports (R106, R107, R309, R311, R313, R348, R365): all that they can change. -/
namespace Sys2Proof.Machine

/-- From `s` to `t` nothing changed but what the ports carry, host memory, and what the check at a memory port records (R307 to R313). -/
def State.portsMoved (s t : State) : Prop :=
  t = { s with
    host := t.host, out := t.out, fresh := t.fresh, arb := t.arb, tags := t.tags, waiting := t.waiting, xlt := t.xlt
    postbags := t.postbags, evc := t.evc, want := t.want, rcv := t.rcv, incr := t.incr }

theorem State.portsMoved.refl (s : State) : s.portsMoved s := rfl

theorem State.portsMoved.trans {s t u : State} (h : s.portsMoved t) (k : t.portsMoved u) : s.portsMoved u := by
  unfold State.portsMoved at *
  rw [k, h]

/-- Station memory is not among what moves, so it may be set before or after. -/
theorem State.portsMoved.withStnMem {s t : State} (h : s.portsMoved t) (m : Tab Mem) :
    State.portsMoved { s with stnMem := m } { t with stnMem := m } := by
  unfold State.portsMoved at *
  rw [h]

theorem State.portsMoved.cmds {s t : State} (h : s.portsMoved t) : t.cmds = s.cmds := by unfold State.portsMoved at h; rw [h]
theorem State.portsMoved.queues {s t : State} (h : s.portsMoved t) : t.queues = s.queues := by unfold State.portsMoved at h; rw [h]
theorem State.portsMoved.tables {s t : State} (h : s.portsMoved t) : t.tables = s.tables := by unfold State.portsMoved at h; rw [h]
theorem State.portsMoved.streams {s t : State} (h : s.portsMoved t) : t.streams = s.streams := by unfold State.portsMoved at h; rw [h]
theorem State.portsMoved.parts {s t : State} (h : s.portsMoved t) : t.parts = s.parts := by unfold State.portsMoved at h; rw [h]
theorem State.portsMoved.fences {s t : State} (h : s.portsMoved t) : t.fences = s.fences := by unfold State.portsMoved at h; rw [h]
theorem State.portsMoved.stnMem {s t : State} (h : s.portsMoved t) : t.stnMem = s.stnMem := by unfold State.portsMoved at h; rw [h]

theorem foldl_portsMoved {α : Type} {f : State → α → State} (h : ∀ (s : State) a, s.portsMoved (f s a)) (l : List α) (s : State) :
    s.portsMoved (l.foldl f s) :=
  foldl_keeps s.portsMoved f l (fun _ a _ hs => hs.trans (h _ a)) s (.refl s)

/-! ### The system postbag (R307 to R311) -/

theorem State.count_portsMoved (s : State) (x k : Nat) : s.portsMoved (s.count x k) := by
  obtain ⟨t, h⟩ := s.count_frame x k
  rw [h]
  rfl

theorem State.raise_portsMoved (s : State) (n i : Nat) : s.portsMoved (s.raise n i) := by
  obtain ⟨e, h⟩ := s.raise_frame n i
  rw [h]
  rfl

theorem State.updPb_portsMoved (s : State) (p : Nat) (f : Postbag → Postbag) : s.portsMoved (s.updPb p f) := rfl

theorem State.hostWrite_portsMoved (s : State) (fn : Nat) (pasid : Option Nat) (a : Nat) (bs : List Byte) (p : Bool) :
    s.portsMoved (s.hostWrite fn pasid a bs p) := by
  rcases s.hostWrite_cases fn pasid a bs p with h | ⟨-, h⟩ <;> rw [h] <;> rfl

theorem State.pbPut_portsMoved (s : State) (p : Nat) (r : FaultRec) : s.portsMoved (s.pbPut p r) :=
  ((s.count_portsMoved 0x2105 5).trans (State.hostWrite_portsMoved ..)).trans (State.updPb_portsMoved ..)

/-- A record that the system postbag loses marks no context. -/
theorem State.pbRecord_system_portsMoved (s : State) (r : FaultRec) : s.portsMoved (s.pbRecord 48 r) := by
  simp only [State.pbRecord]
  split
  · exact s.pbPut_portsMoved 48 r
  · rfl

theorem State.pbBatch_system_portsMoved (s : State) : s.portsMoved (s.pbBatch 48) := by
  simp only [State.pbBatch]
  split
  · rfl
  · exact ((foldl_portsMoved (fun s r => s.pbRecord_system_portsMoved r) (s.pb 48).staged s).trans (State.updPb_portsMoved ..)).trans (State.raise_portsMoved ..)

theorem State.post_system_portsMoved (s : State) (r : FaultRec) : s.portsMoved (s.post 48 r) := by
  simp only [State.post]
  split
  · split
    · refine State.portsMoved.trans ?_ (State.pbBatch_system_portsMoved _)
      rfl
    · rfl
  · rfl

/-! ### Requests (R313, R348, R365) -/

theorem State.ask_portsMoved (s : State) (k n : Nat) : s.portsMoved (s.ask k n) := by
  obtain ⟨w, h⟩ := s.ask_frame k n
  rw [h]
  rfl

theorem State.elog_portsMoved (s : State) (r : ERec) : s.portsMoved (s.elog r) := by
  obtain ⟨x, h⟩ := s.elog_frame r
  rw [h]
  rfl

theorem State.isoFail_portsMoved (s : State) (r : Req) : s.portsMoved (s.isoFail r) := by
  unfold State.isoFail
  extract_lets n c p w x t u
  have ht : s.portsMoved t := by
    refine State.portsMoved.trans ?_ (State.post_system_portsMoved _ _)
    rfl
  have hu : s.portsMoved u := ht.trans (t.elog_portsMoved _)
  split
  · exact hu
  · exact hu.trans (u.ask_portsMoved 3 p)

theorem State.listRound_portsMoved (s : State) (r : Req) : s.portsMoved (s.listRound r) := by
  unfold State.listRound
  split <;> rfl

/-- A read of an operand list is charged to its partition (R81). -/
theorem State.listCharge_portsMoved (s : State) (r : Req) : s.portsMoved (if r.list then s.charge (s.pidOf r.cid) r.len else s) := by
  unfold State.charge
  split
  · split <;> rfl
  · rfl

/-- Request `r` goes out under tag `id`. -/
def State.sendUnder (s : State) (id : Nat) (r : Req) : State :=
  { s with tags := Tab.put s.tags id r, out := s.out ++ [r.drives id] }

theorem State.sendUnder_portsMoved (s : State) (id : Nat) (r : Req) : s.portsMoved (s.sendUnder id r) := rfl

/-- Request `r` waits for a tag, for its turn or, answered already, to be consumed. -/
theorem State.waits_portsMoved (s : State) (r : Req) : s.portsMoved { s with waiting := s.waiting ++ [r] } := rfl

/-- A request goes out, waits, or fails the check at its port. -/
theorem State.issue_portsMoved (s : State) (r : Req) : s.portsMoved (s.issue r) := by
  unfold State.issue
  split
  · exact s.waits_portsMoved r
  split
  · exact s.isoFail_portsMoved r
  split
  · exact s.waits_portsMoved { r with iso := true }
  refine (s.listRound_portsMoved r).trans ?_
  generalize s.listRound r = t
  show t.portsMoved (if _ then _ else _)
  split
  · exact t.waits_portsMoved r
  split
  · exact (t.listCharge_portsMoved _).trans (State.sendUnder_portsMoved ..)
  · exact t.waits_portsMoved r

/-! ### Writes (R312, R364, R365) -/

/-- A write behind a station's port changes station memory besides. -/
theorem State.stnWrite_portsMoved (s : State) (cl : Client) (n cid a : Nat) (bs : List Byte) (p : Bool) :
    ∃ m, State.portsMoved { s with stnMem := m } (s.stnWrite cl n cid a bs p) := by
  simp only [State.stnWrite]
  split
  · exact ⟨s.stnMem, rfl⟩
  split
  · exact ⟨_, foldl_portsMoved (fun _ _ => State.issue_portsMoved ..) _ _⟩
  · exact ⟨s.stnMem, foldl_portsMoved (fun _ _ => State.issue_portsMoved ..) _ _⟩

theorem State.twrite_portsMoved (s : State) (cl : Client) (cid : Nat) (t : Tgt) (bs : List Byte) (p : Bool) :
    ∃ m, State.portsMoved { s with stnMem := m } (s.twrite cl cid t bs p) := by
  unfold State.twrite
  split
  · exact ⟨s.stnMem, State.hostWrite_portsMoved ..⟩
  · exact State.stnWrite_portsMoved ..

/-- Folded over a list, an operation that moves the ports and changes station memory does no more than that. -/
theorem foldl_portsMoved_stnMem {α : Type} {f : State → α → State}
    (h : ∀ (s : State) a, ∃ m, State.portsMoved { s with stnMem := m } (f s a)) (l : List α) (s : State) : ∃ m, State.portsMoved { s with stnMem := m } (l.foldl f s) := by
  refine foldl_keeps (fun t => ∃ m, State.portsMoved { s with stnMem := m } t) f l ?_ s ⟨s.stnMem, rfl⟩
  rintro t a - ⟨m, ht⟩
  obtain ⟨m', hm'⟩ := h t a
  exact ⟨m', (ht.withStnMem m').trans hm'⟩

/-- A write over a translated range. -/
theorem State.pwrite_portsMoved (s : State) (cl : Client) (cid : Nat) (ps : List Piece) (o : Nat) (bs : List Byte) (p : Bool) :
    ∃ m, State.portsMoved { s with stnMem := m } (s.pwrite cl cid ps o bs p) := by
  unfold State.pwrite
  refine foldl_portsMoved_stnMem (fun t x => ?_) ps s
  dsimp only
  split
  · split
    · exact State.twrite_portsMoved ..
    · exact ⟨t.stnMem, rfl⟩
  · exact ⟨t.stnMem, rfl⟩

end Sys2Proof.Machine
end

section
/-! How a command starts, and goes on with what its reads brought (R72, R77, R279, R303, R351). -/
namespace Sys2Proof.Machine

/-! ### Its start and its stages -/

theorem State.mayStart_stage {s : State} {c : Cmd} (h : s.mayStart c = true) : c.stage = 0 := by
  simp only [State.mayStart, Bool.and_eq_true, beq_iff_eq] at h
  obtain ⟨⟨⟨⟨-, hstage⟩, -⟩, -⟩, -⟩ := h
  exact hstage

theorem State.mayStart_cancel {s : State} {c : Cmd} (h : s.mayStart c = true) : c.cancel = none := by
  simp only [State.mayStart, Bool.and_eq_true, Option.isNone_iff_eq_none] at h
  obtain ⟨⟨⟨-, hcancel⟩, -⟩, -⟩ := h
  exact hcancel

theorem Cmd.cancel_of_again {c : Cmd} (h : c.again = true) : c.cancel = none := by
  simp only [Cmd.again, Bool.and_eq_true, Option.isNone_iff_eq_none] at h
  obtain ⟨⟨-, hcancel⟩, -⟩ := h
  exact hcancel

theorem State.withOperands_good {s : State} {c : Cmd} (cl : Client) (k : Cmd → State → State) (hagain : c.again = true)
    (hbad : c.operandBad = false) : s.withOperands cl c k = k c s := by
  simp [State.withOperands, Cmd.cancel_of_again hagain, hbad]

/-- With its block read and good, an administrative command runs (R279). -/
theorem State.admBlock_read {s : State} {c : Cmd} (cl : Client) (pre : Chk Unit) (a n : Nat) (k : Client → Cmd → State → State)
    (hagain : c.again = true) (hst : c.stage = 1) (hbad : c.operandBad = false) : s.admBlock cl c pre a n k = k cl c s := by
  simp [State.admBlock, hst, State.withOperands_good _ _ hagain hbad]

/-! ### Checks -/

theorem need_true {b : Bool} (st : Nat) (h : b = true) : need b st = .ok () := if_pos h

theorem need_false {b : Bool} (st : Nat) (h : b = false) : need b st = .error (.fail st none) := if_neg (by simp [h])

end Sys2Proof.Machine
end

section
/-! Lookups from their start to their acceptance (R98 to R100, R150, R158, R262): how their lists are read, and what pins a table. -/
namespace Sys2Proof.Machine

/-! ### Reading lists -/

theorem State.touch_frame (s : State) (cid : Nat) (sps : List Span) : ∃ ps, s.touch cid sps = { s with parts := ps } := by
  unfold State.touch
  split
  · exact ⟨s.parts, rfl⟩
  · exact ⟨_, rfl⟩

/-- Hits are counted in partitions alone (R301, R323). -/
theorem State.touchRanges_frame (s : State) (cl : Client) (cid : Nat) (rs : List (Bool × Nat × Nat)) :
    ∃ ps, s.touchRanges cl cid rs = { s with parts := ps } := by
  refine foldl_keeps (fun t => ∃ ps, t = { s with parts := ps }) _ _ ?_ s ⟨s.parts, rfl⟩
  rintro _ r - ⟨ps, rfl⟩
  split
  · exact State.touch_frame _ cid _
  · exact ⟨ps, rfl⟩

/-- Reads start outstanding. -/
theorem itemsOf_not_back {operand : Bool} {ps : List Piece} {i : Item} (h : i ∈ itemsOf operand ps) : i.back = false := by
  obtain ⟨p, -, hi⟩ := List.mem_flatMap.1 h
  split at hi
  · cases hi
  · obtain ⟨x, -, rfl⟩ := List.mem_map.1 hi
    rfl

/-- Reads of a function that may issue them all go out (R353). -/
theorem State.ready?_eq {s : State} {cid : Nat} {its : List Item} (h : ∀ i ∈ its, i.tgt.host = true → s.fnOk (s.reqId cid).1 = true) :
    s.ready? cid its = its := by
  refine (List.map_congr_left fun i hi => ?_).trans (List.map_id its)
  cases hhost : i.tgt.host with
  | false => simp
  | true => simp [h i hi hhost]

/-- Command `cl` is in stage `stage`, with reads `its` out. -/
def State.reading (s : State) (cl : Client) (stage : Nat) (its : List Item) : State :=
  s.updCmd cl (fun c => { c with phase := .running, stage := stage, items := its })

/-- A command whose reads are out waits for them. -/
theorem State.fetchThen_waits {s : State} {cl : Client} {c : Cmd} {cid : Nat} {its : List Item} (stage : Nat) (k : Client → Cmd → State → State)
    (hc : s.cmd cl = some c) (hne : its ≠ []) (hout : ∀ i ∈ its, i.back = false)
    (hfn : ∀ i ∈ its, i.tgt.host = true → s.fnOk (s.reqId cid).1 = true) :
    (s.reading cl stage its).portsMoved (s.fetchThen cl cid stage its k) := by
  have hmoved : (s.reading cl stage its).portsMoved (s.fetchItems cl cid stage its) := by
    simp only [State.fetchItems, State.ready?_eq hfn]
    exact foldl_portsMoved (fun t x => t.issue_portsMoved _) _ (s.reading cl stage its)
  have hcmd : (s.fetchItems cl cid stage its).cmd cl = some { c with phase := .running, stage := stage, items := its } := by
    rw [State.cmd, hmoved.cmds]
    exact (Tab.becomes_upd _ hc).1
  have hwaits : Cmd.allBack { c with phase := .running, stage := stage, items := its } = false := by
    obtain ⟨i, hi⟩ := List.exists_mem_of_ne_nil its hne
    exact List.all_eq_false.2 ⟨i, hi, by simp [hout i hi]⟩
  simpa only [State.fetchThen, hcmd, hwaits, Bool.false_eq_true, if_false] using hmoved

/-- A command that has translated its ranges reads them: it keeps the ranges, waits, and nothing else of the block's objects changes. -/
theorem State.readRanges {s : State} {cl : Client} {c : Cmd} {cid : Nat} {its : List Item} (stage : Nat) (rs : List (Bool × Nat × Nat))
    (ps : List (List Piece)) (k : Client → Cmd → State → State) (hc : s.cmd cl = some c) (hne : its ≠ []) (hout : ∀ i ∈ its, i.back = false)
    (hfn : ∀ i ∈ its, i.tgt.host = true → s.fnOk (s.reqId cid).1 = true) :
    ∃ t : State, ((s.touchRanges cl cid rs).updCmd cl (fun c => { c with ranges := ps })).fetchThen cl cid stage its k = t ∧
      Tab.becomes s.cmds t.cmds cl { c with phase := .running, stage := stage, ranges := ps, items := its } ∧
      t.tables = s.tables ∧ t.queues = s.queues ∧ t.stnMem = s.stnMem := by
  obtain ⟨parts, htouch⟩ := s.touchRanges_frame cl cid rs
  rw [htouch]
  have hranges := Tab.becomes_upd (fun c : Cmd => { c with ranges := ps }) hc
  have hmoved := State.fetchThen_waits (s := State.updCmd { s with parts := parts } cl (fun c => { c with ranges := ps })) stage k hranges.1 hne hout hfn
  refine ⟨_, rfl, ?_, hmoved.tables, hmoved.queues, hmoved.stnMem⟩
  rw [hmoved.cmds]
  exact Tab.becomes_trans hranges (Tab.becomes_upd _ hranges.1)

/-- The rows of LOOKUP_GATHER and LOOKUP_POOL run one meaning. -/
theorem exec_lookupRow {s : State} {q seq : Nat} {c : Cmd} {g : Bool} (hc : s.cmd (ckey q seq) = some c)
    (hruns : s.mayStart c = true ∨ c.again = true) (hop : c.opcode = (if g = true then 0x11 else 0x10)) :
    exec (if g = true then .lookupGather q seq else .lookupPool q seq) s = .next (State.doLookup g (ckey q seq) c s) := by
  cases g with
  | true => exact congrArg Host.Outcome.next (State.start_runs _ hc hruns (by simp [hop]))
  | false => exact congrArg Host.Outcome.next (State.start_runs _ hc hruns (by simp [hop]))

theorem exec_lookupMulti_runs {s : State} {q seq : Nat} {c : Cmd} (hc : s.cmd (ckey q seq) = some c)
    (hruns : s.mayStart c = true ∨ c.again = true) (hop : c.opcode = 0x12) :
    exec (.lookupMulti q seq) s = .next (State.doMulti (ckey q seq) c s) :=
  congrArg Host.Outcome.next (State.start_runs _ hc hruns (by simp [hop]))

/-- A lookup that passes the checks of R100 steps 1 to 6 reads its lists. -/
theorem State.doLookup_reads {s : State} {cl : Client} {c : Cmd} {g : Bool} {rs : List (Bool × Nat × Nat)} {ps : List (List Piece)}
    (hst : c.stage = 0) (hmx : fmtMx (ofCode (lOfmt c.env)) = false ∨ s.build.mx = true) (hclean : c.clean = true)
    (hrs : s.lookChecks cl c g [c.env] none = .ok rs) (hps : s.mapRanges cl c (s.cidOf c) rs = .ok ps) :
    ∃ k, State.doLookup g cl c s =
      ((s.touchRanges cl (s.cidOf c) rs).updCmd cl (fun c => { c with ranges := ps })).fetchThen cl (s.cidOf c) 2 ((ps.take 3).flatMap (itemsOf true)) k := by
  have hbuilt : (fmtMx (ofCode (lOfmt c.env)) && !s.build.mx) = false := by rcases hmx with h | h <;> simp [h]
  have hplan : (do let rs ← s.lookChecks cl c g [c.env] none; let ps ← s.mapRanges cl c (s.cidOf c) rs; pure (rs, ps)) = Except.ok (rs, ps) := by
    rw [hrs]
    exact congrArg (· >>= fun ps => pure (rs, ps)) hps
  refine ⟨fun cl d s => s.withOperands cl d (fun d s => s.lookSplit cl d g [c.env] none), ?_⟩
  simp only [State.doLookup, hst, if_true, hbuilt, Bool.false_eq_true, if_false, need_true _ hclean, State.checked_ok, State.lookPlan, hplan]
  rfl

/-- A LOOKUP_MULTI first reads its sub-lookup array (R98, R262). -/
theorem State.doMulti_reads {s : State} {cl : Client} {c : Cmd} {ps : List Piece} (hst : c.stage = 0) (hok : multiOk c = true)
    (hps : s.mapAll cl c (s.cidOf c) false (c.num 24 8) (64 * c.nsub) = .ok ps) :
    ∃ k, State.doMulti cl c s =
      ((s.touchRanges cl (s.cidOf c) [(false, c.num 24 8, 64 * c.nsub)]).updCmd cl (fun c => { c with ranges := [ps] })).fetchThen cl (s.cidOf c) 1
        (itemsOf true ps) k := by
  have hplan : (do need (multiOk c) stBadOperand; s.mapAll cl c (s.cidOf c) false (c.num 24 8) (64 * c.nsub)) = Except.ok ps := by
    rw [need_true _ hok]
    exact hps
  refine ⟨fun cl c s => s.withOperands cl c (State.doMulti.planOf cl), ?_⟩
  simp only [State.doMulti, hst, if_true, hplan, State.checked_ok]

/-! ### Pins (R99, R158) -/

theorem nodup_eraseDups (l : List Nat) : l.eraseDups.Nodup := by
  induction hn : l.length using Nat.strongRecOn generalizing l with
  | ind n ih =>
    cases l with
    | nil => exact List.nodup_nil
    | cons a l =>
      rw [List.eraseDups_cons, List.nodup_cons]
      refine ⟨by simp [List.mem_eraseDups], ih _ ?_ _ rfl⟩
      subst hn
      exact Nat.lt_succ_of_le (List.length_filter_le _ l)

/-- Command `cl` pins the current version of table `tid`. -/
def State.pinOne (s : State) (cl : Client) (tid : Nat) (t : Table) : State :=
  ({ s with tables := Tab.put s.tables tid t.pin }).updCmd cl (fun c => { c with pins := c.pins ++ [(tid, t.cur)] })

/-- From `s` to `u` command `cl`, which is `c` in `s`, pinned the current version of each table of the list, once, and gained those pins. -/
structure State.Pinned (s : State) (cl : Client) (c : Cmd) (tids : List Nat) (pins : List (Nat × Nat)) (u : State) : Prop where
  frame : u = { s with tables := u.tables, cmds := u.cmds }
  cmds : Tab.becomes s.cmds u.cmds cl { c with pins := c.pins ++ pins }
  tables : ∀ tid ∈ tids, ∀ t, Tab.at? s.tables tid = some t → Tab.at? u.tables tid = some t.pin
  others : ∀ tid, tid ∉ tids → Tab.at? u.tables tid = Tab.at? s.tables tid
  named : ∀ tid ∈ tids, ∀ t, Tab.at? s.tables tid = some t → (tid, t.cur) ∈ pins

theorem State.Pinned.nil {s : State} {cl : Client} {c : Cmd} (hc : s.cmd cl = some c) : s.Pinned cl c [] [] s where
  frame := rfl
  cmds := ⟨by rw [List.append_nil]; exact hc, fun _ _ => rfl⟩
  tables := fun _ h => nomatch h
  others := fun _ _ => rfl
  named := fun _ h => nomatch h

/-- A table is pinned before the others of a list in which it does not come again. -/
theorem State.Pinned.cons {s u : State} {cl : Client} {c : Cmd} {tid : Nat} {tids : List Nat} {pins : List (Nat × Nat)} {t : Table}
    (ht : Tab.at? s.tables tid = some t) (hnew : tid ∉ tids)
    (h : (s.pinOne cl tid t).Pinned cl { c with pins := c.pins ++ [(tid, t.cur)] } tids pins u) (hc : s.cmd cl = some c) :
    s.Pinned cl c (tid :: tids) ((tid, t.cur) :: pins) u where
  frame := h.frame
  cmds := by
    have hone : Tab.becomes s.cmds (s.pinOne cl tid t).cmds cl { c with pins := c.pins ++ [(tid, t.cur)] } := Tab.becomes_upd _ hc
    simpa using Tab.becomes_trans hone h.cmds
  tables := by
    intro i hi x hx
    rcases List.mem_cons.1 hi with rfl | hi
    · obtain rfl : t = x := Option.some.inj (ht.symm.trans hx)
      rw [h.others _ hnew]
      exact Tab.at?_put_self ..
    · have hne : i ≠ tid := fun heq => hnew (heq ▸ hi)
      exact h.tables i hi x ((Tab.at?_put_ne s.tables _ hne).trans hx)
  others := by
    intro i hi
    obtain ⟨hne, hi⟩ := not_or.1 (mt List.mem_cons.2 hi)
    exact (h.others i hi).trans (Tab.at?_put_ne s.tables _ hne)
  named := by
    intro i hi x hx
    rcases List.mem_cons.1 hi with rfl | hi
    · obtain rfl : t = x := Option.some.inj (ht.symm.trans hx)
      exact List.mem_cons_self
    · have hne : i ≠ tid := fun heq => hnew (heq ▸ hi)
      exact List.mem_cons_of_mem _ (h.named i hi x ((Tab.at?_put_ne s.tables _ hne).trans hx))

/-- Command `cl` pins table `tid`, if there is one. -/
def State.pinTid (s : State) (cl : Client) (tid : Nat) : State :=
  match Tab.at? s.tables tid with
  | none => s
  | some t => s.pinOne cl tid t

theorem State.pinAll_eq (s : State) (cl : Client) (tids : List Nat) :
    s.pinAll cl tids = tids.eraseDups.foldl (fun s tid => s.pinTid cl tid) s := rfl

theorem State.pinTid_some {s : State} {tid : Nat} {t : Table} (cl : Client) (ht : Tab.at? s.tables tid = some t) :
    s.pinTid cl tid = s.pinOne cl tid t := by
  simp only [State.pinTid, ht]

/-- Pinning each of a list of distinct tables. -/
theorem State.pinEach {s : State} {cl : Client} {c : Cmd} {tids : List Nat} (hc : s.cmd cl = some c) (hnodup : tids.Nodup)
    (hts : ∀ tid ∈ tids, ∃ t, Tab.at? s.tables tid = some t) :
    ∃ pins, s.Pinned cl c tids pins (tids.foldl (fun s tid => s.pinTid cl tid) s) := by
  induction tids generalizing s c with
  | nil => exact ⟨[], .nil hc⟩
  | cons tid tids ih =>
    obtain ⟨hnew, hnodup⟩ := List.nodup_cons.1 hnodup
    obtain ⟨t, ht⟩ := hts tid List.mem_cons_self
    have hone : Tab.becomes s.cmds (s.pinOne cl tid t).cmds cl { c with pins := c.pins ++ [(tid, t.cur)] } := Tab.becomes_upd _ hc
    obtain ⟨pins, hpins⟩ := ih hone.1 hnodup (fun i hi => by
      obtain ⟨x, hx⟩ := hts i (List.mem_cons_of_mem _ hi)
      have hne : i ≠ tid := fun heq => hnew (heq ▸ hi)
      exact ⟨x, (Tab.at?_put_ne s.tables _ hne).trans hx⟩)
    refine ⟨(tid, t.cur) :: pins, .cons ht hnew ?_ hc⟩
    rwa [List.foldl_cons, State.pinTid_some cl ht]

/-- The tables that a command names are pinned, each once however often it is named. -/
theorem State.pinAll_pinned {s : State} {cl : Client} {c : Cmd} {tids : List Nat} (hc : s.cmd cl = some c)
    (hts : ∀ tid ∈ tids, ∃ t, Tab.at? s.tables tid = some t) : ∃ pins, s.Pinned cl c tids.eraseDups pins (s.pinAll cl tids) := by
  rw [State.pinAll_eq]
  exact State.pinEach hc (nodup_eraseDups tids) fun tid h => hts tid (List.mem_eraseDups.1 h)

/-! ### Acceptance (R99, R100 step 7) -/

theorem length_of_mapM_some {α β : Type} {f : α → Option β} {l : List α} {r : List β} (h : l.mapM f = some r) : r.length = l.length := by
  induction l generalizing r with
  | nil => cases h; rfl
  | cons a l ih =>
    rw [List.mapM_cons] at h
    obtain ⟨b, -, h⟩ := Option.bind_eq_some_iff.1 h
    obtain ⟨r', hr', h⟩ := Option.bind_eq_some_iff.1 h
    cases h
    simp [ih hr']

/-- Where `f` gives a value for each element, its values stand beside their elements. -/
theorem mem_zip_filterMap {α β : Type} {f : α → Option β} {l : List α} (h : ∀ a ∈ l, ∃ b, f a = some b) {x : α × β}
    (hx : x ∈ l.zip (l.filterMap f)) : f x.1 = some x.2 := by
  induction l with
  | nil => cases hx
  | cons a l ih =>
    obtain ⟨b, hb⟩ := h a List.mem_cons_self
    rw [List.filterMap_cons_some hb, List.zip_cons_cons] at hx
    rcases List.mem_cons.1 hx with rfl | hx
    · exact hb
    · exact ih (fun y hy => h y (List.mem_cons_of_mem _ hy)) hx

/-- Only one element of a list has index `x.2`. -/
theorem any_zipIdx_at {α : Type} {l : List α} {x : α × Nat} (hx : x ∈ l.zipIdx) (p : α × Nat → Bool) :
    l.zipIdx.any (fun y => x.2 == y.2 && p y) = p x := by
  rw [Bool.eq_iff_iff, List.any_eq_true]
  refine ⟨?_, fun hp => ⟨x, hx, by simpa using hp⟩⟩
  rintro ⟨y, hy, hp⟩
  rw [Bool.and_eq_true, beq_iff_eq] at hp
  obtain ⟨hindex, hp⟩ := hp
  have hsame : some y.1 = some x.1 := by
    rw [← List.mem_zipIdx_iff_getElem?.1 hy, ← List.mem_zipIdx_iff_getElem?.1 hx, hindex]
  rwa [Prod.ext (Option.some.inj hsame) hindex.symm] at hp

theorem State.pinAll_queues (s : State) (cl : Client) (tids : List Nat) : (s.pinAll cl tids).queues = s.queues := by
  rw [State.pinAll_eq]
  refine foldl_keeps (fun t => t.queues = s.queues) _ _ (fun t tid _ ht => ?_) s rfl
  rw [State.pinTid, ← ht]
  split <;> rfl

/-- Command `cl` is accepted with work `w`. -/
def State.accepted (s : State) (cl : Client) (w : LookW) : State := s.updCmd cl (fun c => { c with stage := 8, items := [], work := .look w })

theorem State.cidOf_congr {s t : State} (c : Cmd) (h : t.queues = s.queues) : t.cidOf c = s.cidOf c := by
  rw [State.cidOf, State.cidOf, h]

/-- The combining site of a destination whose output is range `base` of the command (R109). -/
def State.siteAt (s : State) (c : Cmd) (base : Nat) (d : DestOp) : Option Nat := (s.mkDest c [] 0 0 0 base d).site

theorem State.mkDest_site (s : State) (c : Cmd) (subs : List Nat) (p size a base : Nat) (d : DestOp) :
    (s.mkDest c subs p size a base d).site = s.siteAt c base d := rfl

theorem State.mkDest_subs (s : State) (c : Cmd) (subs : List Nat) (p size a base : Nat) (d : DestOp) :
    (s.mkDest c subs p size a base d).subs = subs := rfl

theorem State.lookSplit_accepts {s : State} {cl : Client} {c : Cmd} {g : Bool} {es : List (List Byte)} {d : Option DestOp}
    {ps : List (Nat × List (Nat × List (Nat × Word)))} (hps : (es.zipIdx).mapM (fun x => s.subOf c g x.2 x.1) = some ps)
    (hts : ∀ e ∈ es, ∃ t ∈ Tab.at? s.tables (lTid e), t.rebase = none) (hbehind : s.behind c = false)
    (hprog : ∀ x ∈ es.zipIdx, ∀ t ∈ Tab.at? s.tables (lTid x.1),
      s.progOk (s.cidOf c) (lProg x.1) t.fmt (lKind g x.1) 
        (s.siteAt c (3 * es.length + (if d.isSome = true then 0 else 2 * x.2)) (d.getD (destOf x.1))).isNone = true) :
    ∃ w, s.lookSplit cl c g es d = State.nextBlock cl (s.cidOf c) ((if d.isSome = true then 1 else es.length) + 1) ((s.pinAll cl (es.map lTid)).accepted cl w) ∧
      w.subs.map (·.ver) = (es.filterMap (fun e => Tab.at? s.tables (lTid e))).map (·.cur) ∧ w.subs.length = es.length ∧
      w.count = (es.map (lRows g)).foldl (· + ·) 0 ∧ w.written = 0 := by
  have hnamed : ∀ e ∈ es, ∃ t, Tab.at? s.tables (lTid e) = some t := fun e he => (hts e he).imp fun t ht => ht.1
  have hready : ((es.filterMap (fun e => Tab.at? s.tables (lTid e))).any (·.rebase.isSome) || s.behind c) = false := by
    rw [hbehind, Bool.or_false, List.any_eq_false]
    intro t ht
    obtain ⟨e, he, het⟩ := List.mem_filterMap.1 ht
    obtain ⟨x, hx, hidle⟩ := hts e he
    obtain rfl : x = t := Option.some.inj (hx.symm.trans het)
    simp [hidle]
  unfold State.lookSplit
  split
  case h_1 hnone => rw [hps] at hnone; cases hnone
  case h_2 ps' hsome =>
    extract_lets ts subs shares base size wid ets dests hubOf w pinned
    have hlts : ts.length = es.length := List.filterMap_length_eq_length.2 fun e he => Option.isSome_iff_exists.2 (hnamed e he)
    have hlps : ps'.length = es.length := (length_of_mapM_some hsome).trans List.length_zipIdx
    have hdests : dests.length = if d.isSome = true then 1 else es.length := by
      cases d <;> simp [dests, ets, hlts]
    have hsite : ∀ x ∈ ets.zipIdx,
        hubOf x.2 = (s.siteAt c (3 * es.length + (if d.isSome = true then 0 else 2 * x.2)) (d.getD (destOf x.1.1))).isNone := by
      intro x hx
      cases d with
      | none =>
        show hubOf x.2 = (s.siteAt c (base + 2 * x.2) (destOf x.1.1)).isNone
        have hany := any_zipIdx_at hx (fun y => (s.siteAt c (base + 2 * y.2) (destOf y.1.1)).isNone)
        simpa only [hubOf, dests, List.any_map, Function.comp_def, State.mkDest_site, State.mkDest_subs, List.contains_cons, List.contains_nil,
          Bool.or_false] using hany
      | some d =>
        have hlt : x.2 < es.length := by simpa [ets, hlts] using List.snd_lt_of_mem_zipIdx hx
        simp [hubOf, dests, base, hlt, State.mkDest_site, State.mkDest_subs]
    have hprogs : (!ets.zipIdx.all (fun x => s.progOk (s.cidOf c) (lProg x.1.1) x.1.2.fmt (lKind g x.1.1) (hubOf x.2))) = false := by
      rw [Bool.not_eq_false', List.all_eq_true]
      intro x hx
      have hx' := List.mem_zipIdx_iff_getElem?.1 hx
      rw [hsite x hx]
      exact hprog (x.1.1, x.2) (List.mem_zipIdx_iff_getElem?.2 (List.getElem?_zip_eq_some.1 hx').1) x.1.2
        (mem_zip_filterMap hnamed (List.mem_of_getElem? hx'))
    have hbeside : ((ets.zip ps').map Prod.fst).map Prod.snd = ts := by
      rw [List.map_fst_zip (by simp [ets, hlts, hlps]), List.map_snd_zip (Nat.le_of_eq hlts)]
    have hvers : w.subs.map (·.ver) = ts.map (·.cur) := by
      rw [← hbeside]
      simp only [w, subs, List.map_map]
      rfl
    refine ⟨w, ?_, hvers, by simp [w, subs, hlts, hlps], rfl, rfl⟩
    rw [if_neg (ne_true_of_eq_false hready), if_neg (ne_true_of_eq_false hprogs), hdests, State.cidOf_congr c (s.pinAll_queues cl _)]
    rfl

theorem State.accepted_cmds {s : State} {cl : Client} {c : Cmd} (w : LookW) (hc : s.cmd cl = some c) :
    Tab.becomes s.cmds (s.accepted cl w).cmds cl { c with stage := 8, items := [], work := .look w } := Tab.becomes_upd _ hc

theorem State.pinAll_one {s : State} {tid : Nat} {t : Table} (cl : Client) (ht : Tab.at? s.tables tid = some t) :
    s.pinAll cl [tid] = s.pinOne cl tid t := by
  rw [State.pinAll_eq, List.eraseDups_cons]
  exact State.pinTid_some cl ht

/-- A lookup whose lists have been read is split (R99). -/
theorem State.doLookup_splits {s : State} {cl : Client} {c : Cmd} {g : Bool} (hagain : c.again = true) (hst : c.stage = 2)
    (hbad : c.operandBad = false) : State.doLookup g cl c s = s.lookSplit cl c g [c.env] none := by
  simp [State.doLookup, hst, State.withOperands_good _ _ hagain hbad]

theorem State.doMulti_splits {s : State} {cl : Client} {c : Cmd} (hagain : c.again = true) (hst : c.stage = 2) (hbad : c.operandBad = false) :
    State.doMulti cl c s = s.lookSplit cl c false (s.multiSubs c ((c.ranges.getLast?).getD [])).1 (s.multiSubs c ((c.ranges.getLast?).getD [])).2 := by
  simp [State.doMulti, hst, State.withOperands_good _ _ hagain hbad]

/-! ### The statement -/

/-- Settles O16: reading by `State.readRanges`, acceptance by `State.lookSplit_accepts` and by the pins of `State.pinAll_pinned` (R98 to
R100, R150, R158, R262). -/
theorem lookupsReadTheirLists : Obligations.LookupsReadTheirLists := by
  unfold Obligations.LookupsReadTheirLists
  refine ⟨⟨?reads, ?multiReads⟩, ?accepted, ?multiAccepted⟩
  case reads =>
    intro s q seq c g rs ps hstarts hop hmx hclean hrs hps its hne hfn
    obtain ⟨hc, hmay⟩ := hstarts
    obtain ⟨k, hreads⟩ := State.doLookup_reads (State.mayStart_stage hmay) hmx hclean hrs hps
    obtain ⟨t, ht, hkept⟩ := State.readRanges 2 rs ps k hc hne
      (fun i hi => by obtain ⟨p, -, hi⟩ := List.mem_flatMap.1 hi; exact itemsOf_not_back hi) hfn
    exact ⟨t, by rw [exec_lookupRow hc (.inl hmay) hop, hreads, ht], hkept⟩
  case multiReads =>
    intro s q seq c ps hstarts hop hok hps hne hfn
    obtain ⟨hc, hmay⟩ := hstarts
    obtain ⟨k, hreads⟩ := State.doMulti_reads (State.mayStart_stage hmay) hok hps
    obtain ⟨t, ht, hkept⟩ := State.readRanges 1 [(false, c.num 24 8, 64 * c.nsub)] [ps] k hc hne (fun _ => itemsOf_not_back) hfn
    exact ⟨t, by rw [exec_lookupMulti_runs hc (.inl hmay) hop, hreads, ht], hkept⟩
  case accepted =>
    intro s q seq c g t ps hc hagain hst hop hbad hbehind ht hidle hsub hprog
    obtain ⟨w, hsplit, hvers, -, hcount, hwritten⟩ := State.lookSplit_accepts (cl := ckey q seq) (g := g) (es := [c.env]) (d := none) (ps := [ps])
      (by simp [hsub]) (by simpa using ⟨t, ht, hidle⟩) hbehind (by
        intro x hx x' ht'
        obtain rfl : x = (c.env, 0) := by simpa using hx
        obtain rfl : t = x' := Option.some.inj (ht.symm.trans ht')
        exact hprog)
    have hpin : s.pinAll (ckey q seq) ([c.env].map lTid) = s.pinOne (ckey q seq) (lTid c.env) t := State.pinAll_one _ ht
    rw [hpin] at hsplit
    refine ⟨(s.pinOne (ckey q seq) (lTid c.env) t).accepted (ckey q seq) w, w,
      by rw [exec_lookupRow hc (.inr hagain) hop, State.doLookup_splits hagain hst hbad, hsplit]; rfl, rfl, Tab.becomes_put .., ?_,
      by simpa [ht] using hvers, by simpa using hcount, hwritten⟩
    have hone : Tab.becomes s.cmds (s.pinOne (ckey q seq) (lTid c.env) t).cmds (ckey q seq) _ := Tab.becomes_upd _ hc
    exact Tab.becomes_trans hone (State.accepted_cmds w hone.1)
  case multiAccepted =>
    intro s q seq c ps hc hagain hst hop hbad hbehind m hts hprog hps
    obtain ⟨w, hsplit, -, hlen, -, -⟩ := State.lookSplit_accepts (cl := ckey q seq) (g := false) hps hts hbehind hprog
    have hnamed : ∀ tid ∈ m.1.map lTid, ∃ t, Tab.at? s.tables tid = some t := by
      intro tid htid
      obtain ⟨e, he, rfl⟩ := List.mem_map.1 htid
      obtain ⟨t, ht, -⟩ := hts e he
      exact ⟨t, ht⟩
    obtain ⟨pins, hpins⟩ := State.pinAll_pinned hc hnamed
    have hmem : ∀ e ∈ m.1, lTid e ∈ (m.1.map lTid).eraseDups := fun e he => List.mem_eraseDups.2 (List.mem_map_of_mem he)
    refine ⟨(s.pinAll (ckey q seq) (m.1.map lTid)).accepted (ckey q seq) w, w,
      { c with stage := 8, items := [], pins := c.pins ++ pins, work := .look w }, _,
      by rw [exec_lookupMulti_runs hc (.inr hagain) hop, State.doMulti_splits hagain hst hbad, hsplit], ?_,
      fun e he t ht => hpins.tables _ (hmem e he) t ht, (State.accepted_cmds w hpins.cmds.1).1, rfl, rfl, hlen,
      fun e he t ht => List.mem_append_right _ (hpins.named _ (hmem e he) t ht)⟩
    rw [State.accepted, hpins.frame]
    rfl

end Sys2Proof.Machine
end

section
/-! An occurrence at its station's Sorter (R101, R102), in a lookup whose shares are listed twice. -/
namespace Sys2Proof.Machine

/-- While a station's drained bank is in use none of its windows closes (R102). -/
theorem State.closeEnded_of_not_drainFree {s : State} {stn : Nat} (h : s.drainFree stn = false) : s.closeEnded stn = s := by
  refine foldl_keeps (fun t => t = s) _ _ ?_ s rfl
  rintro _ e - rfl
  split
  · refine foldl_keeps (fun t => t = _) _ _ ?_ _ rfl
    rintro _ sh - rfl
    simp [h]
  · rfl

/-- A lookup with a closed window whose spilled entries are being read back keeps its station's drained bank in use (R104). -/
theorem State.drainFree_of_held {s : State} {cl : Client} {c : Cmd} {w : LookW} {k : Nat} {sh : Share} (hc : s.cmd cl = some c)
    (hw : c.work = .look w) (hsh : (k, sh) ∈ w.shares) (hheld : sh.held ≠ []) : s.drainFree (k % 64) = false := by
  have hcmd : (cl, c) ∈ s.cmds := Tab.mem_of_at? hc
  simp only [State.drainFree, Bool.not_eq_false', Tab.ex, List.any_eq_true]
  refine ⟨(cl, c), hcmd, ?_⟩
  simp only [hw, List.any_eq_true]
  exact ⟨(k, sh), hsh, by simp [hheld]⟩

/-- An occurrence of row 3 in pool 0. -/
def row3Occ : Occ := { row := some 3, pool := 0, scale := 0x3F800000 }

/-- A share with one more occurrence to sort: its window names the row already, and a window closed before is being read back. -/
def fillingShare (bank : Nat) : Share :=
  { todo := [row3Occ], win := [⟨some 3, [row3Occ]⟩], winOcc := 1, ents := 1, bank := bank, held := [⟨some 5, [row3Occ]⟩], heldLeft := 1 }

/-- A SUM of table 1, one pool of two indices. -/
def sharesTwiceSub : Sub :=
  { tid := 1, ver := 1, op := 0, ofmt := 1, prog := 0, k := 0, n := [(0, 2)], zero := [], dflt := [], defaulted := 0 }

/-- Its work, whose one share, of sub-lookup 0 at station 0, is listed twice; the two differ in their Sorter bank. -/
def sharesTwice : LookW :=
  { subs := [sharesTwiceSub]
    dests := [{ subs := [0], p := 1, ep := none, out := [], stride := 64, flags := [], nflags := 1, group := 1, fbits := [], width := 16, blk := 1, site := some 0 }]
    shares := [(0, fillingShare 0), (0, fillingShare 1)], count := 1 }

/-- The LOOKUP_POOL that carries it out. -/
def sharesTwiceCmd : Cmd := { q := 1, seq := 5, env := leBytes 64 0x10, ext := [], phase := .running, stage := 8, work := .look sharesTwice }

/-- A block with that command alone in flight. -/
def sharesTwiceState : State := { State.reset with cmds := [(ckey 1 5, sharesTwiceCmd)] }

/-- The work after the occurrence: both shares have it, and both have the bank of the first. -/
def sharesTwiceSorted : LookW :=
  let sh : Share := { fillingShare 0 with todo := [], win := [⟨some 3, [{ row3Occ with scale := 0x40000000, count := 2 }]⟩], winOcc := 2 }
  { sharesTwice with shares := [(0, sh), (0, sh)] }

theorem occurrence_sharesTwice : sharesTwiceState.occurrence (ckey 1 5) 0 0 =
    { sharesTwiceState with cmds := [(ckey 1 5, { sharesTwiceCmd with work := .look sharesTwiceSorted })] } := by
  decide +kernel

/-- An occurrence whose parity is good goes to its Sorter, if its command is a lookup under way. -/
theorem exec_occurrence_good {s : State} {q seq : Nat} {x : Cmd × LookW} (sub stn : Nat) (h : s.look (ckey q seq) = some x) :
    exec (.occurrence q seq sub stn .good) s = .next (s.occurrence (ckey q seq) sub stn) := by
  simp [exec, execOccurrence, h, parLost, State.parity]

/-- Refutes O17, which ranges over every state: where a lookup's table of shares lists the share of sub-lookup 0 and station 0 twice, as no
acceptance leaves it, the occurrence sets the bank of both entries to that of the first, and the statement keeps each its own (R101, R102). -/
theorem not_occurrenceEntersItsWindow : ¬ Obligations.OccurrenceEntersItsWindow := by
  unfold Obligations.OccurrenceEntersItsWindow
  intro h
  obtain ⟨u, hexec, -, -, -, hsorted, -⟩ := h sharesTwiceState 1 5 0 0 sharesTwiceCmd sharesTwice sharesTwiceSub row3Occ rfl rfl rfl rfl rfl
    (by decide) (by decide +kernel) (by decide) (by decide +kernel) (.inl (by decide)) (by decide) (.inl (by decide)) (by decide)
  have hdrain : u.drainFree 0 = false := State.drainFree_of_held hsorted rfl (List.Mem.head _) (by decide)
  rw [State.closeEnded_of_not_drainFree hdrain, exec_occurrence_good 0 0 (x := (sharesTwiceCmd, sharesTwice)) rfl, occurrence_sharesTwice] at hexec
  rw [← Host.Outcome.next.inj hexec] at hsorted
  exact absurd hsorted (by decide +kernel)

end Sys2Proof.Machine
end

section
/-! The pools of a lookup (R92, R94, R107 to R111, R133): what a change to a lookup's work reads back as, what a partial and a report do, and
how partials merge. -/
namespace Sys2Proof.Machine

/-! ### The work of a lookup -/

theorem State.updLook_frame (s : State) (cl : Client) (f : LookW → LookW) : s.updLook cl f = { s with cmds := (s.updLook cl f).cmds } := rfl

theorem State.updLook_becomes {s : State} {cl : Client} {c : Cmd} {w : LookW} (f : LookW → LookW) (hc : s.cmd cl = some c) (hw : c.work = .look w) :
    Tab.becomes s.cmds (s.updLook cl f).cmds cl { c with work := .look (f w) } := by
  refine ⟨?_, fun j hj => Tab.at?_upd_ne _ _ hj⟩
  show Tab.at? (Tab.upd s.cmds cl _) cl = _
  rw [Tab.at?_upd_self, show Tab.at? s.cmds cl = some c from hc]
  simp [hw]

/-- A share that has partials is one of the work's. -/
theorem LookW.at?_shares_of_part {w : LookW} {sub stn pool : Nat} {p : Partial} (h : Tab.at? (w.share sub stn).parts pool = some p) :
    Tab.at? w.shares (64 * sub + stn) = some (w.share sub stn) := by
  cases hsh : Tab.at? w.shares (64 * sub + stn) with
  | none => simp [LookW.share, Tab.atD, hsh] at h
  | some sh => simp [LookW.share, Tab.atD, hsh]

/-! ### Partials and reports -/

/-- The work after partial `p` of a pool was taken from its station: it is merged into the site's accumulator (R133). -/
def LookW.takePart (w : LookW) (sub stn pool op : Nat) (p : Partial) : LookW :=
  { w with acc := Tab.put w.acc (accKey sub pool) ((Tab.atD w.acc (accKey sub pool) {}).merge p op) }.updShare sub stn
    (fun sh => { sh with parts := Tab.del sh.parts pool })

/-- The partial that was taken has left its station. -/
theorem LookW.takePart_parts {w : LookW} {sub stn pool : Nat} {p : Partial} (op : Nat) (h : Tab.at? (w.share sub stn).parts pool = some p) :
    Tab.at? ((w.takePart sub stn pool op p).share sub stn).parts pool = none := by
  have hshare := LookW.at?_shares_of_part h
  generalize w.share sub stn = sh at hshare
  simp [LookW.takePart, LookW.updShare, LookW.share, Tab.atD, hshare]

/-- A partial of a station that has done its part is taken while the site has room for the block (R107, R111). -/
theorem exec_partialArrival_taken {s : State} {q seq sub stn pool : Nat} {c : Cmd} {w : LookW} {sb : Sub} {p : Partial}
    (hlook : s.look (ckey q seq) = some (c, w)) (hp : Tab.at? (w.share sub stn).parts pool = some p) (hsub : w.subs[sub]? = some sb)
    (hswept : w.swept sub stn = true) (hroom : s.siteRoom w = true) :
    exec (.partialArrival q seq sub stn pool) s = .next (s.updLook (ckey q seq) (fun w => w.takePart sub stn pool sb.op p)) := by
  show Host.Outcome.next (s.partialArrival (ckey q seq) sub stn pool) = _
  simp [State.partialArrival, hlook, hp, hsub, hswept, hroom, LookW.takePart]

/-- A station that has sent its last partial reports for the block; the last report makes the block's pools final (R110). -/
theorem exec_stationFinalReport_noted {s : State} {q seq stn : Nat} {c : Cmd} {w : LookW} (hlook : s.look (ckey q seq) = some (c, w))
    (hstn : (s.blockStns w).contains stn = true) (hnew : w.reports.contains stn = false) (hheld : s.lookHeld w = false)
    (hdone : ((w.dest.map (·.subs)).getD []).all (fun i => w.swept i stn && (w.share i stn).parts == []) = true) :
    exec (.stationFinalReport q seq stn) s =
      .next (if (s.blockStns w).all (fun n => n == stn || w.reports.contains n) then
          ((s.updLook (ckey q seq) (fun w => { w with reports := stn :: w.reports })).finishBlock (ckey q seq)).pumpAll
        else (s.updLook (ckey q seq) (fun w => { w with reports := stn :: w.reports })).pumpAll) := by
  have hmay : ((s.blockStns w).contains stn && !w.reports.contains stn && !s.lookHeld w &&
      ((w.dest.map (·.subs)).getD []).all (fun i => w.swept i stn && (w.share i stn).parts == [])) = true := by
    rw [hstn, hnew, hheld, hdone]
    rfl
  have hblock : (s.updLook (ckey q seq) (fun w => { w with reports := stn :: w.reports })).blockStns w = s.blockStns w := rfl
  show Host.Outcome.next (s.finalReport (ckey q seq) stn).pumpAll = _
  simp only [State.finalReport, hlook, hmay, if_true, hblock]
  split <;> rfl

/-! ### How partials merge (R133) -/

theorem Partial.merge_acc {a p : Partial} (op : Nat) (ha : a.acc ≠ []) (hp : p.acc ≠ []) :
    (a.merge p op).acc = List.zipWith (if op = 3 then fmax else fadd) a.acc p.acc := by
  simp [Partial.merge, ha, hp]

theorem Partial.merge_acc_first {a p : Partial} (op : Nat) (ha : a.acc = []) (hp : p.acc ≠ []) :
    (a.merge p op).acc = if op = 3 then p.acc else p.acc.map (fun x => fadd 0 x) := by
  simp [Partial.merge, ha, hp]

/-- Whatever the accumulators hold, poison spreads, placed rows join and counts add up. -/
theorem Partial.merge_rest (a p : Partial) (op : Nat) :
    (a.merge p op).poison = (a.poison || p.poison) ∧ (a.merge p op).placed = a.placed ++ p.placed ∧ (a.merge p op).count = a.count + p.count := by
  unfold Partial.merge
  split
  · exact ⟨rfl, rfl, rfl⟩
  · split <;> exact ⟨rfl, rfl, rfl⟩

/-- A pool in which no index is counted is empty: a zero row of its accumulator's width (R92, R94). -/
theorem State.poolValue_empty {s : State} (cid : Nat) {w : LookW} {sub pool : Nat} {sb : Sub} {t : Table} (hsub : w.subs[sub]? = some sb)
    (ht : Tab.at? s.tables sb.tid = some t) (hn : Tab.atD sb.n pool 0 = 0) :
    (s.poolValue cid w sub pool).1 = List.replicate (accWidth sb.op sb.k t.width) 0 ∧ (s.poolValue cid w sub pool).2.2 = true := by
  simp [State.poolValue, hsub, ht, hn]

/-! ### The statement -/

/-- Settles O18: arrivals by `exec_partialArrival_taken`, reports by `exec_stationFinalReport_noted`, the arithmetic by the cases of
`Partial.merge` (R92, R94, R107, R109 to R111, R133). -/
theorem poolsAreCombined : Obligations.PoolsAreCombined := by
  unfold Obligations.PoolsAreCombined
  refine ⟨⟨?arrives, ?reports⟩, ?sums, ?maxima, ?first, Partial.merge_rest, ?empty⟩
  case arrives =>
    intro s q seq sub stn pool c w sb p hlook hc hw hp hsub hswept hroom
    exact ⟨_, exec_partialArrival_taken hlook hp hsub hswept hroom, State.updLook_frame .., w.takePart sub stn pool sb.op p,
      State.updLook_becomes _ hc hw, Tab.becomes_put .., LookW.takePart_parts sb.op hp, rfl, rfl⟩
  case reports =>
    intro s q seq stn c w hlook hc hw hstn hnew hheld hdone
    exact ⟨_, State.updLook_frame .., State.updLook_becomes _ hc hw, exec_stationFinalReport_noted hlook hstn hnew hheld hdone⟩
  case sums =>
    intro a p op ha hp hop
    rw [Partial.merge_acc op ha hp, if_neg hop]
  case maxima => exact fun a p ha hp => Partial.merge_acc 3 ha hp
  case first =>
    intro a p op ha hp hop
    rw [Partial.merge_acc_first op ha hp, if_neg hop]
  case empty => exact fun s cid w sub pool sb t hsub ht hn => State.poolValue_empty cid hsub ht hn

end Sys2Proof.Machine
end

section
/-! Tables and partitions (R53, R75, R86, R149, R155, R278 to R280, R302, R321): what making and removing them changes. -/
namespace Sys2Proof.Machine

/-! ### TABLE_CREATE (R86, R149, R155) -/

/-- Whatever checks pass give satisfies `P`. -/
def Chk.gives {α : Type} (x : Chk α) (P : α → Prop) : Prop := ∀ a, x = .ok a → P a

/-- Checks before the last may give anything. -/
theorem Chk.gives_bind {α β : Type} {P : β → Prop} {x : Chk α} {f : α → Chk β} (h : ∀ a, Chk.gives (f a) P) : Chk.gives (x >>= f) P := by
  cases x with
  | error e => exact fun b hb => nomatch hb
  | ok a => exact h a

theorem Chk.gives_pure {α : Type} {P : α → Prop} {a : α} (h : P a) : Chk.gives (pure a) P := by
  rintro _ ⟨⟩
  exact h

/-- The table that descriptor `d` makes begins with version 1 current, 2 staging and an empty overlay. -/
structure Table.Fresh (t : Table) (d : List Byte) : Prop where
  cur : t.cur = 1
  staging : t.s = 2
  dir : t.dir = []
  vers : t.vers = [⟨1, rd d 32 8, 1, 0⟩]

theorem State.tableChecks_fresh (s : State) (cl : Client) (c : Cmd) (d : List Byte) : Chk.gives (s.tableChecks cl c d) (Table.Fresh · d) := by
  unfold State.tableChecks
  extract_lets t base rest
  have hrest : ∀ u, Chk.gives (rest u) (Table.Fresh · d) := by
    intro u
    iterate 5 refine Chk.gives_bind fun _ => ?_
    exact Chk.gives_pure ⟨rfl, rfl, rfl, rfl⟩
  iterate 5 refine Chk.gives_bind fun _ => ?_
  split
  · exact Chk.gives_bind hrest
  · exact hrest ()

theorem exec_tableCreate_read {s : State} {q seq : Nat} {c : Cmd} (hc : s.cmd (ckey q seq) = some c) (hagain : c.again = true) (hst : c.stage = 1)
    (hop : c.opcode = 0x44) (hbad : c.operandBad = false) : exec (.tableCreate q seq) s = .next (State.tableStore (ckey q seq) c s) := by
  show Host.Outcome.next (s.start q seq (fun c => c.opcode == 0x44) State.doTableCreate) = _
  rw [State.start_runs _ hc (.inr hagain) (by simp [hop]), State.doTableCreate, State.admBlock_read _ _ _ _ _ hagain hst hbad]

/-- The table as the block holds it: its descriptor with the TID that it was given (R85). -/
def Table.withTid (t : Table) (tid : Nat) (d : List Byte) : Table := { t with raw := leBytes 2 tid ++ d.drop 2 }

/-- Directories are set to all ones (R155), which moves the ports and station memory alone. -/
theorem State.tableStore_made {s : State} {cl : Client} {c : Cmd} {t : Table} {tid : Nat} (ht : s.tableChecks cl c (s.rangeBytes c 0 128) = .ok t)
    (htid : Tab.freeFrom s.tables 0 65536 = some tid) :
    ∃ m w, State.portsMoved { s with tables := Tab.put s.tables tid (t.withTid tid (s.rangeBytes c 0 128)), stnMem := m } w ∧
      State.tableStore cl c s = w.finish cl stOk tid 0 := by
  obtain ⟨m, hm⟩ := foldl_portsMoved_stnMem (fun s (o : Nat × List Piece) => s.pwrite_portsMoved cl t.owner o.2 0
    (List.replicate (32 * t.ovlSlots) 0xFF) false) t.ovl { s with tables := Tab.put s.tables tid (t.withTid tid (s.rangeBytes c 0 128)) }
  exact ⟨m, _, hm, by simp only [State.tableStore, ht, State.checked_ok, htid, Table.withTid]⟩

/-! ### PARTITION_CREATE (R53, R278, R302) -/

/-- The copies of R313 are pushed to stations alone. -/
theorem State.pushIso_frame (s : State) : ∃ ns, s.pushIso = { s with stns := ns } := by
  unfold State.pushIso
  refine foldl_keeps (fun t => ∃ ns, t = { s with stns := ns }) _ _ ?_ s ⟨s.stns, rfl⟩
  rintro _ n - ⟨ns, rfl⟩
  extract_lets x l
  split
  · exact ⟨ns, rfl⟩
  · exact ⟨_, rfl⟩

/-- The partition that PARTITION_CREATE makes, with cache slice `sl` (R278). -/
def newPart (c : Cmd) (d : List Byte) (sl : Nat) : Part :=
  { stns := maskStns (c.fld 16 8 0 48), weight := if c.num 9 1 = 0 then 1 else c.num 9 1
    defTmo := if c.fld 12 4 0 26 = 0 then 50000 else c.fld 12 4 0 26, quota := c.fld 24 4 0 19
    bays := (maskStns (c.fld 16 8 0 48)).map (fun n => (n, bayAt d n)), ways := 2 ^ (sl % 16), banks := 2 ^ (sl / 16) }

/-- The block with partition `p` made as number `pid`, with an empty postbag, and its stations' copies of R313 in `st`. -/
def State.withPart (s : State) (pid : Nat) (p : Part) (st : Tab Stn) : State :=
  { s with parts := Tab.put s.parts pid p, postbags := Tab.put s.postbags pid {}, stns := st }

theorem exec_partitionCreate_read {s : State} {q seq : Nat} {c : Cmd} (hc : s.cmd (ckey q seq) = some c) (hagain : c.again = true)
    (hst : c.stage = 1) (hop : c.opcode = 0x45) (hbad : c.operandBad = false) :
    exec (.partitionCreate q seq) s = .next (State.partStore (ckey q seq) c s) := by
  show Host.Outcome.next (s.start q seq (fun c => c.opcode == 0x45) State.doPartCreate) = _
  rw [State.start_runs _ hc (.inr hagain) (by simp [hop]), State.doPartCreate, State.admBlock_read _ _ _ _ _ hagain hst hbad]

theorem State.partStore_made {s : State} {c : Cmd} {sl : Nat} (cl : Client) (hnew : Tab.has s.parts (c.fld 8 1 0 6) = false)
    (hne : maskStns (c.fld 16 8 0 48) ≠ []) (hsl : s.freeSlice = some sl)
    (hstns : ∀ n ∈ maskStns (c.fld 16 8 0 48), n < s.build.nstn ∧ (Tab.atD s.stns n {}).state = 0 ∧ s.ownerOf n = none ∧
      bayAt (s.rangeBytes c 0 384) n % 65536 = 0 ∧ bayAt (s.rangeBytes c 0 384) n + 2 ^ 28 ≤ s.build.memBytes n) :
    ∃ st, State.partStore cl c s = (s.withPart (c.fld 8 1 0 6) (newPart c (s.rangeBytes c 0 384) sl) st).finish cl stOk (c.fld 8 1 0 6) 0 := by
  have hfree : (maskStns (c.fld 16 8 0 48)).all (fun n => decide (n < s.build.nstn) && (Tab.atD s.stns n {}).state == 0 && (s.ownerOf n).isNone) = true := by
    refine List.all_eq_true.2 fun n hn => ?_
    obtain ⟨hlt, hstate, howner, -⟩ := hstns n hn
    simp [hlt, hstate, howner]
  have hbays : (maskStns (c.fld 16 8 0 48)).all (fun n => bayAt (s.rangeBytes c 0 384) n % 65536 == 0 &&
      decide (bayAt (s.rangeBytes c 0 384) n + 2 ^ 28 ≤ s.build.memBytes n)) = true := by
    refine List.all_eq_true.2 fun n hn => ?_
    obtain ⟨-, -, -, halign, hfits⟩ := hstns n hn
    simpa [halign] using hfits
  have hname : (!Tab.has s.parts (c.fld 8 1 0 6) && maskStns (c.fld 16 8 0 48) != []) = true := by simp [hnew, hne]
  obtain ⟨st, hpush⟩ := (s.withPart (c.fld 8 1 0 6) (newPart c (s.rangeBytes c 0 384) sl) s.stns).pushIso_frame
  refine ⟨st, ?_⟩
  rw [← show _ = s.withPart (c.fld 8 1 0 6) (newPart c (s.rangeBytes c 0 384) sl) st from hpush]
  simp only [State.partStore, need_true _ hname, need_true _ hfree, need_true _ hbays, hsl]
  rfl

/-! ### PARTITION_REMOVE (R75, R321) -/

/-- Draining queues changes them and marks their ring reads (R75). -/
theorem State.drainQueues_frame (s : State) (qids : List Nat) :
    ∃ qs tg wt, qids.foldl (fun (s : State) q => s.drainQueue q) s = { s with queues := qs, tags := tg, waiting := wt } := by
  refine foldl_keeps (fun t => ∃ qs tg wt, t = { s with queues := qs, tags := tg, waiting := wt }) _ _ ?_ s ⟨s.queues, s.tags, s.waiting, rfl⟩
  rintro _ q - ⟨qs, tg, wt, rfl⟩
  exact ⟨_, _, _, rfl⟩

theorem State.drainQueue_draining {s : State} {i : Nat} {x : Queue} (q : Nat) (hx : Tab.at? s.queues i = some x) (h : i = q ∨ x.st = .draining) :
    ∃ y, Tab.at? (s.drainQueue q).queues i = some y ∧ y.st = .draining := by
  show ∃ y, Tab.at? (Tab.upd (Tab.upd s.queues q _) q _) i = some y ∧ _
  by_cases hi : i = q
  · subst hi
    exact ⟨{ x with st := .draining, gotten := [] }, by simp [hx], rfl⟩
  · rw [Tab.at?_upd_ne _ _ hi, Tab.at?_upd_ne _ _ hi]
    exact ⟨x, hx, h.resolve_left hi⟩

/-- Every queue of the list is DRAINING. -/
theorem State.drainQueues_draining (qids : List Nat) (s : State) {i : Nat} {x : Queue} (hx : Tab.at? s.queues i = some x)
    (h : i ∈ qids ∨ x.st = .draining) : ∃ y, Tab.at? (qids.foldl (fun (s : State) q => s.drainQueue q) s).queues i = some y ∧ y.st = .draining := by
  induction qids generalizing s x with
  | nil => exact ⟨x, hx, h.resolve_left (by simp)⟩
  | cons q qids ih =>
    by_cases hi : i = q ∨ x.st = .draining
    · obtain ⟨y, hy, hst⟩ := State.drainQueue_draining q hx hi
      exact ih (s.drainQueue q) hy (.inr hst)
    · obtain ⟨hq, hst⟩ := not_or.1 hi
      have hy : Tab.at? (s.drainQueue q).queues i = some x := by
        show Tab.at? (Tab.upd (Tab.upd s.queues q _) q _) i = _
        rw [Tab.at?_upd_ne _ _ hq, Tab.at?_upd_ne _ _ hq, hx]
      exact ih (s.drainQueue q) hy (.inl (((List.mem_cons.1 (h.resolve_right hst)).resolve_left hq)))

theorem State.mem_queuesPart {s : State} {i pid : Nat} {x : Queue} (hx : Tab.at? s.queues i = some x) (hi : i ≠ 0) (hpid : s.pidOf x.cid = pid) :
    i ∈ s.queuesPart pid :=
  List.mem_map.2 ⟨(i, x), List.mem_filter.2 ⟨Tab.mem_of_at? hx, by simp [hi, hpid]⟩, rfl⟩

/-- The partition is DRAINING (R321 step 1). -/
def State.partDraining (s : State) (pid : Nat) : State :=
  { s with parts := Tab.upd s.parts pid (fun p => { p with st := 1, wrapped := false, scrubbing := false }) }

/-- The partition's queues drain, and the functions of its contexts are told (R75, R321 step 1). -/
def State.beginRemoval (s : State) (pid : Nat) : State :=
  (((s.partDraining pid).queuesPart pid).foldl (fun (s : State) q => s.drainQueue q) (s.partDraining pid)).notifyPart pid 1

theorem State.beginRemoval_frame (s : State) (pid : Nat) :
    ∃ qs tg wt e, s.beginRemoval pid = { s.partDraining pid with queues := qs, tags := tg, waiting := wt, evc := e } ∧
      ∀ i x, Tab.at? s.queues i = some x → i ≠ 0 → s.pidOf x.cid = pid → ∃ y, Tab.at? qs i = some y ∧ y.st = .draining := by
  obtain ⟨qs, tg, wt, hdrain⟩ := (s.partDraining pid).drainQueues_frame ((s.partDraining pid).queuesPart pid)
  obtain ⟨e, hnotify⟩ := State.notifyPart_frame { s.partDraining pid with queues := qs, tags := tg, waiting := wt } pid 1
  refine ⟨qs, tg, wt, e, by rw [State.beginRemoval, hdrain, hnotify], fun i x hx hi hpid => ?_⟩
  have hdraining := State.drainQueues_draining ((s.partDraining pid).queuesPart pid) (s.partDraining pid) hx (.inl (State.mem_queuesPart hx hi hpid))
  rwa [hdrain] at hdraining

/-- A removal that names a partition is refused, or begins and waits (R279, R321). -/
theorem exec_partitionRemove_named {s : State} {q seq : Nat} {c : Cmd} {p : Part} (hstarts : s.starts q seq c) (hop : c.opcode = 0x46)
    (hclean : c.clean = true) (hp : Tab.at? s.parts (c.fld 8 1 0 6) = some p) :
    exec (.partitionRemove q seq) s = .next (if p.st = 0 then (s.beginRemoval (c.fld 8 1 0 6)).waitFor (ckey q seq) (.obj (c.fld 8 1 0 6))
      else s.finish (ckey q seq) stBusy 0 0) := by
  obtain ⟨hc, hmay⟩ := hstarts
  have hname : (c.clean && Tab.has s.parts (c.fld 8 1 0 6)) = true := by simp [hclean, Tab.has, hp]
  show Host.Outcome.next (s.start q seq (fun c => c.opcode == 0x46) State.doPartRemove) = _
  rw [State.start_runs _ hc (.inl hmay) (by simp [hop])]
  by_cases hst : p.st = 0
  · have hok : s.partOk (c.fld 8 1 0 6) = true := by simp [State.partOk, hp, hst]
    simp only [State.doPartRemove, need_true _ hname, need_true _ hok, if_pos hst]
    rfl
  · have hbusy : s.partOk (c.fld 8 1 0 6) = false := by simp [State.partOk, hp, hst]
    simp only [State.doPartRemove, need_true _ hname, need_false _ hbusy, if_neg hst]
    rfl

/-! ### The statement -/

/-- Settles O30: a table by `State.tableStore_made`, a partition by `State.partStore_made`, the steps of a removal by
`exec_partitionRemove_named` and by the conditions of the two events that follow it (R53, R75, R86, R149, R155, R278, R280, R302, R321). -/
theorem tablesAndPartitionsComeAndGo : Obligations.TablesAndPartitionsComeAndGo := by
  unfold Obligations.TablesAndPartitionsComeAndGo
  refine ⟨⟨?table, ?partition⟩, ?removal, ?busy, ?drained, ?expiry⟩
  case table =>
    intro s q seq c t tid hc hagain hst hop hbad ht htid
    obtain ⟨hcur, hstaging, hdir, hvers⟩ := s.tableChecks_fresh _ _ _ t ht
    obtain ⟨m, w, hw, hstore⟩ := State.tableStore_made ht htid
    have hcw : Tab.at? w.cmds (ckey q seq) = some c := by rw [hw.cmds]; exact hc
    have hends := w.finish_at _ c stOk tid 0 hcw (Cmd.cancel_of_again hagain)
    refine ⟨w.finish (ckey q seq) stOk tid 0, t.withTid tid (s.rangeBytes c 0 128), by rw [exec_tableCreate_read hc hagain hst hop hbad, hstore], ?_, rfl,
      hcur, hstaging, hdir, hvers, ?_, hw.queues, hw.streams, hw.parts, hw.fences⟩
    · rw [show (w.finish (ckey q seq) stOk tid 0).tables = w.tables from rfl, hw.tables]
      exact Tab.becomes_put ..
    · rwa [hw.cmds] at hends
  case partition =>
    intro s q seq c sl hc hagain hst hop hbad pid d ns hnew hne hsl hstns
    obtain ⟨st, hmade⟩ := State.partStore_made (ckey q seq) hnew hne hsl hstns
    exact ⟨(s.withPart pid (newPart c d sl) st).finish (ckey q seq) stOk pid 0, newPart c d sl,
      by rw [exec_partitionCreate_read hc hagain hst hop hbad, hmade], rfl, Tab.becomes_put .., rfl, Tab.becomes_put ..,
      State.finish_at _ _ c stOk pid 0 hc (Cmd.cancel_of_again hagain)⟩
  case removal =>
    intro s q seq c p hstarts hop hclean hp hst
    obtain ⟨qs, tg, wt, e, hbegin, hqueues⟩ := s.beginRemoval_frame (c.fld 8 1 0 6)
    refine ⟨(s.beginRemoval (c.fld 8 1 0 6)).waitFor (ckey q seq) (.obj (c.fld 8 1 0 6)),
      { c with phase := .running, stage := 8, items := [], work := .obj (c.fld 8 1 0 6) },
      by rw [exec_partitionRemove_named hstarts hop hclean hp, if_pos hst], ?_⟩
    rw [hbegin]
    exact ⟨Tab.becomes_upd _ hp, hqueues, Tab.becomes_upd _ hstarts.1, rfl, rfl, rfl, rfl, rfl, rfl⟩
  case busy =>
    intro s q seq c p hstarts hop hclean hp hst
    exact ⟨_, by rw [exec_partitionRemove_named hstarts hop hclean hp, if_neg hst], rfl,
      s.finish_at _ c stBusy 0 0 hstarts.1 (State.mayStart_cancel hstarts.2)⟩
  case drained =>
    intro s pid h
    exact congrArg Host.Outcome.next (if_pos h)
  case expiry =>
    intro s pid p hp hst hscrub hleft
    refine ⟨{ s with parts := Tab.upd s.parts pid (fun p => { p with wrapped := true }) }, ?_, rfl, Tab.becomes_upd _ hp⟩
    show Host.Outcome.next (s.drainExpiry pid) = _
    simp [State.drainExpiry, hp, hst, hscrub, hleft]

end Sys2Proof.Machine
end

section
/-! Pooling programs (R140, R141, R143, R277): loading verified images, and unloading their handles. -/
namespace Sys2Proof

/-- What is read from a table that keeps some entries is an entry that was kept. -/
theorem Tab.mem_of_at?_keep {α : Type} {t : Tab α} {p : Nat → α → Bool} {k : Nat} {v : α} (h : Tab.at? (Tab.keep t p) k = some v) :
    (k, v) ∈ t ∧ p k v = true :=
  List.mem_filter.1 (Tab.mem_of_at? h)

/-- Under a changed key stand changed values alone. -/
theorem Tab.mem_upd_self {α : Type} {t : Tab α} {k : Nat} {f : α → α} {v : α} (h : (k, v) ∈ Tab.upd t k f) : ∃ w, v = f w := by
  induction t with
  | nil => cases h
  | cons e t ih =>
    unfold Tab.upd at h
    split at h
    · rcases List.mem_cons.1 h with h | h
      · exact ⟨e.2, congrArg Prod.snd h⟩
      · exact ih h
    · rename_i hk
      rcases List.mem_cons.1 h with h | h
      · exact absurd (congrArg Prod.fst h) hk
      · exact ih h

end Sys2Proof

namespace Sys2Proof.Machine

/-! ### PROGRAM LOAD (R140, R143) -/

/-- The program that a PROGRAM image holds (R476). -/
def imageProg (m : List Byte) : Prog :=
  { kind := pKind m, cost := pCost m, code := (m.drop 4096).take (pCode m), const := (m.drop (4096 + pCode m)).take (pConst m),
    fmts := rd m 284 8, ops := rd m 292 1 }

/-- The block with program `g` loaded under handle `h` of partition `pid`. -/
def State.withProg (s : State) (pid h : Nat) (g : Prog) : State :=
  { s with parts := Tab.upd s.parts pid (fun p => { p with progs := Tab.put p.progs h g }) }

theorem exec_programLoad_read {s : State} {q seq : Nat} {c : Cmd} (hc : s.cmd (ckey q seq) = some c) (hagain : c.again = true)
    (hst : c.stage = 1) (hop : c.opcode = 0x3F) (hmode : c.pmode = 0) (hbad : c.operandBad = false) :
    exec (.programLoad q seq) s = .next (s.progLoad (ckey q seq) c) := by
  show Host.Outcome.next (s.start q seq (fun c => c.opcode == 0x3F && c.pmode == 0) State.doProgLoad) = _
  rw [State.start_runs _ hc (.inr hagain) (by simp [hop, hmode]), State.doProgLoad, if_neg (by simp [hst]),
    State.withOperands_good _ _ hagain hbad]

/-- An image that does not verify is not loaded (R140 step 1). -/
theorem State.progLoad_unverified {s : State} {c : Cmd} (cl : Client) (hcheck : s.imageCheck 2 (s.rangeBytes c 0 (c.num 12 4)) ≠ 0) :
    s.progLoad cl c = s.finish cl stBadSignature 0 0 := if_pos hcheck

/-- An image that verifies and fits the space of R143 takes the lowest free handle. -/
theorem State.progLoad_verified {s : State} {c : Cmd} {p : Part} {h : Nat} (cl : Client) (hp : Tab.at? s.parts (s.pidOf (s.cidOf c)) = some p)
    (hfree : Tab.freeFrom p.progs 1 31 = some h) (hcheck : s.imageCheck 2 (s.rangeBytes c 0 (c.num 12 4)) = 0)
    (hcode : (p.progs.map (fun g => g.2.code.length)).foldl (· + ·) 0 + pCode (s.rangeBytes c 0 (c.num 12 4)) ≤ 65536)
    (hconst : (p.progs.map (fun g => g.2.const.length)).foldl (· + ·) 0 + pConst (s.rangeBytes c 0 (c.num 12 4)) ≤ 49152) :
    s.progLoad cl c = (s.withProg (s.pidOf (s.cidOf c)) h (imageProg (s.rangeBytes c 0 (c.num 12 4)))).finish cl stOk h 0 := by
  simp only [State.progLoad, hcheck, ne_eq, not_true_eq_false, if_false, hp, hfree, if_pos (And.intro hcode hconst)]
  rfl

/-! ### PROGRAM UNLOAD (R141) -/

/-- The block with handle `h` of partition `pid` being unloaded. -/
def State.progUnloading (s : State) (pid h : Nat) : State :=
  { s with parts := Tab.upd s.parts pid (fun p => { p with progs := Tab.upd p.progs h (fun g => { g with unloading := true }) }) }

theorem exec_programUnload_named {s : State} {q seq : Nat} {c : Cmd} {p : Part} {g : Prog} (hstarts : s.starts q seq c) (hop : c.opcode = 0x3F)
    (hmode : c.pmode = 1) (hclean : c.clean = true) (hpos : 1 ≤ c.phandle) (hlen : c.num 12 4 = 0) (haddr : c.num 16 8 = 0)
    (hp : Tab.at? s.parts (s.pidOf (s.cidOf c)) = some p) (hg : Tab.at? p.progs c.phandle = some g) (hloaded : g.unloading = false) :
    exec (.programUnload q seq) s =
      .next ((s.progUnloading (s.pidOf (s.cidOf c)) c.phandle).freeProgs.finish (ckey q seq) stOk c.phandle 0) := by
  obtain ⟨hc, hmay⟩ := hstarts
  show Host.Outcome.next (s.start q seq (fun c => c.opcode == 0x3F && c.pmode == 1) State.doProgUnload) = _
  rw [State.start_runs _ hc (.inl hmay) (by simp [hop, hmode]), State.doProgUnload, need_true _ (by simp [hclean, hpos, hlen, haddr, hp, hg, hloaded]),
    State.checked_ok]
  rfl

/-- Program `g` of partition `pid` keeps its handle `h`: it is not being unloaded, or a running command names it. -/
def State.progKept (s : State) (pid h : Nat) (g : Prog) : Bool := !(g.unloading && !s.progNamed pid h)

/-- Freeing keeps programs of the partition, and one being unloaded only while a running command names its handle. -/
theorem State.freeProgs_part {s : State} {pid : Nat} {p : Part} (hp : Tab.at? s.parts pid = some p) :
    ∃ p', Tab.at? s.freeProgs.parts pid = some p' ∧
      ∀ h g, Tab.at? p'.progs h = some g → (h, g) ∈ p.progs ∧ (g.unloading = true → s.progNamed pid h = true) := by
  refine ⟨{ p with progs := Tab.keep p.progs (s.progKept pid) }, by rw [State.freeProgs, Tab.at?_mapV, hp]; rfl, fun h g hg => ?_⟩
  obtain ⟨hmem, hkept⟩ := Tab.mem_of_at?_keep (p := s.progKept pid) hg
  exact ⟨hmem, fun hunloading => by simpa [State.progKept, hunloading] using hkept⟩

/-- What a handle that was unloaded still holds is marked, and a running command of its partition names it. -/
theorem State.freeProgs_progUnloading {s : State} {pid : Nat} {p : Part} (h : Nat) (hp : Tab.at? s.parts pid = some p) :
    ∃ p', Tab.at? (s.progUnloading pid h).freeProgs.parts pid = some p' ∧
      ∀ g, Tab.at? p'.progs h = some g → g.unloading = true ∧ s.progNamed pid h = true := by
  obtain ⟨p', hp', hkept⟩ := State.freeProgs_part (s := s.progUnloading pid h) (Tab.becomes_upd _ hp).1
  refine ⟨p', hp', fun g hg => ?_⟩
  obtain ⟨hmem, hnamed⟩ := hkept h g hg
  obtain ⟨w, rfl⟩ := Tab.mem_upd_self hmem
  exact ⟨rfl, hnamed rfl⟩

/-! ### The statement -/

/-- Settles O28: a load goes by whether its image verifies (`State.progLoad_verified`, `State.progLoad_unverified`), and what an unload
leaves under its handle is as `State.freeProgs_progUnloading` says (R140, R141, R143). -/
theorem programsLoadAndUnload : Obligations.ProgramsLoadAndUnload := by
  unfold Obligations.ProgramsLoadAndUnload
  refine ⟨?load, ?unload⟩
  case load =>
    intro s q seq c p h hc hagain hst hop hmode hbad hp hfree m hcode hconst
    have hexec := exec_programLoad_read hc hagain hst hop hmode hbad
    refine ⟨s.progLoad (ckey q seq) c, Tab.put p.progs h (imageProg m), hexec, ?_⟩
    by_cases hcheck : s.imageCheck 2 m = 0
    · rw [State.progLoad_verified _ hp hfree hcheck hcode hconst, if_pos hcheck]
      exact ⟨rfl, Tab.becomes_upd _ hp, Tab.becomes_put .., State.finish_at _ _ c stOk h 0 hc (Cmd.cancel_of_again hagain)⟩
    · rw [State.progLoad_unverified _ hcheck, if_neg hcheck]
      exact ⟨rfl, rfl, s.finish_at _ c stBadSignature 0 0 hc (Cmd.cancel_of_again hagain)⟩
  case unload =>
    intro s q seq c p g hstarts hop hmode hclean hpos hlen haddr hp hg hloaded
    obtain ⟨p', hp', hleft⟩ := State.freeProgs_progUnloading c.phandle hp
    refine ⟨_, exec_programUnload_named hstarts hop hmode hclean hpos hlen haddr hp hg hloaded, rfl,
      State.finish_at _ _ c stOk c.phandle 0 hstarts.1 (State.mayStart_cancel hstarts.2), p', hp', fun g' hg' => (hleft g' hg').1, fun hunnamed => ?_⟩
    refine Option.eq_none_iff_forall_ne_some.2 fun g' hg' => ?_
    obtain ⟨-, hnamed⟩ := hleft g' hg'
    simp [hnamed] at hunnamed

end Sys2Proof.Machine
end

section
/-! Switches of a table (R150, R166 to R171): what the check of a new base gives, what closing the staging version changes, the switch
point, and the release of a retired version's entries. -/
namespace Sys2Proof.Machine

/-! ### Checks that pass -/

theorem Chk.ok_bind {α β : Type} {x : Chk α} {a : α} {f : α → Chk β} (h : x = .ok a) : (x >>= f) = f a := by
  rw [h]
  rfl

/-- The install of a new base gives a table new extent lists, for its overlay regions and default row too, and changes no more (R88, R300). -/
theorem State.newBase_extents (s : State) (cl : Client) (c : Cmd) (t : Table) (nb : Nat) (whole : Bool) :
    Chk.gives (s.newBase cl c t nb whole) (fun n => n = { t with ext := n.ext, dext := n.dext, ovl := n.ovl }) := by
  unfold State.newBase
  extract_lets cid
  refine Chk.gives_bind fun sps => ?_
  extract_lets ext rest
  split
  · exact fun _ h => nomatch h
  · iterate 4 refine Chk.gives_bind fun _ => ?_
    exact Chk.gives_pure rfl

/-! ### Closing the staging version (R166, R167) -/

/-- Staging version S is closed for command `cl`, with the base and floor that it installs. -/
def Table.closed (t : Table) (cl : Client) (nb : Option (Nat × Nat)) (discard : Bool) : Table :=
  { t with pend := t.pend ++ [⟨cl, discard, t.s, nb⟩], s := t.s + 1 }

/-- The command waits for the version that it closed, and nothing else changes. -/
theorem State.closeS_closes {s : State} {cl : Client} {c : Cmd} {tid : Nat} {t : Table} (nb : Option (Nat × Nat)) (discard : Bool)
    (ht : Tab.at? s.tables tid = some t) (hc : s.cmd cl = some c) :
    s.closeS cl tid nb discard = { s with tables := (s.closeS cl tid nb discard).tables, cmds := (s.closeS cl tid nb discard).cmds } ∧
      Tab.becomes s.tables (s.closeS cl tid nb discard).tables tid (t.closed cl nb discard) ∧
      Tab.becomes s.cmds (s.closeS cl tid nb discard).cmds cl { c with phase := .running, stage := 8, work := .table tid t.s } := by
  simp only [State.closeS, ht]
  exact ⟨rfl, Tab.becomes_upd _ ht, Tab.becomes_upd _ hc⟩

/-- A PUBLISH or DISCARD that passes its checks closes the staging version (R170). -/
theorem exec_tableSwitch_closes {s : State} {q seq : Nat} {c : Cmd} {t : Table} {d : Bool} (hstarts : s.starts q seq c) (hop : c.opcode = 0x1A)
    (hmode : c.tmode = if d = true then 2 else 0) (hown : s.switchTable c = .ok t) (hfree : switchFree t = .ok ()) :
    exec (if d = true then .tableSwitchDiscard q seq else .tableSwitchPublish q seq) s =
      .next ((s.closeS (ckey q seq) (c.num 8 2) none d).settleTable (c.num 8 2)) := by
  obtain ⟨hc, hmay⟩ := hstarts
  have hdiscard : (c.tmode == 2) = d := by cases d <;> simp [hmode]
  have hswitch : State.doSwitch (ckey q seq) c s = (s.closeS (ckey q seq) (c.num 8 2) none d).settleTable (c.num 8 2) := by
    rw [State.doSwitch, Chk.ok_bind hown, Chk.ok_bind hfree, hdiscard]
    rfl
  rw [← hswitch]
  cases d with
  | true => exact congrArg Host.Outcome.next (State.start_runs _ hc (.inl hmay) (by simp [hop, hmode]))
  | false => exact congrArg Host.Outcome.next (State.start_runs _ hc (.inl hmay) (by simp [hop, hmode]))

/-- Table `tid` is `n`, whose new base lies in the ranges `rs` of a command of context `cid`; their cache hits are counted (R301, R323). -/
def State.installed (s : State) (cl : Client) (cid tid : Nat) (n : Table) (rs : List (Bool × Nat × Nat)) : State :=
  (s.touchRanges cl cid rs).updTable tid (fun _ => n)

theorem State.installed_frame (s : State) (cl : Client) (cid tid : Nat) (n : Table) (rs : List (Bool × Nat × Nat)) :
    ∃ ps, s.installed cl cid tid n rs = { s with tables := Tab.upd s.tables tid (fun _ => n), parts := ps } := by
  obtain ⟨ps, h⟩ := s.touchRanges_frame cl cid rs
  exact ⟨ps, by rw [State.installed, h]; rfl⟩

/-- A NEW_BASE that passes its checks installs its base's extents and closes the staging version, with FLOOR at S (R167, R170). -/
theorem exec_tableSwitchNewBase_closes {s : State} {q seq : Nat} {c : Cmd} {t n : Table} (hstarts : s.starts q seq c) (hop : c.opcode = 0x1A)
    (hmode : c.tmode = 1) (hown : s.switchTable c = .ok t) (hnew : s.newBase (ckey q seq) c t (c.num 16 8) false = .ok n)
    (hfree : switchFree t = .ok ()) :
    exec (.tableSwitchNewBase q seq) s =
      .next ((s.installed (ckey q seq) (s.cidOf c) (c.num 8 2) n [(false, c.num 16 8, n.nshard * n.shardBytes)]).closeS (ckey q seq) (c.num 8 2)
        (some (c.num 16 8, n.s)) false) := by
  obtain ⟨hc, hmay⟩ := hstarts
  show Host.Outcome.next (s.start q seq (fun c => c.opcode == 0x1A && c.tmode == 1) State.doNewBase) = _
  rw [State.start_runs _ hc (.inl hmay) (by simp [hop, hmode]), State.doNewBase, Chk.ok_bind hown, Chk.ok_bind hnew, Chk.ok_bind hfree]
  rfl

/-! ### The switch point (R150, R168, R169) -/

/-- What holds back the switch point of switch `p`: a writer of its version that has not finished, or 8 other versions that stay live. -/
def Table.holdsBack (t : Table) (p : Pend) : Prop :=
  t.writers.any (fun w => w.post == p.ver && (w.client != p.client || !w.applied)) = true ∨ 8 < t.liveAfter

theorem State.switchPoint_held {s : State} {tid : Nat} {t : Table} {p : Pend} (ht : Tab.at? s.tables tid = some t) (hp : t.pend.head? = some p)
    (hheld : t.holdsBack p) : s.switchPoint tid = s := by
  simp only [State.switchPoint, ht, hp]
  rcases hheld with h | h <;> simp [h]

/-- The version becomes current, its command ends, and what waits on the table is tried again. -/
theorem State.switchPoint_switches {s : State} {tid : Nat} {t : Table} {p : Pend} (ht : Tab.at? s.tables tid = some t)
    (hp : t.pend.head? = some p) (hkept : p.discard = false) (hfree : ¬ t.holdsBack p) :
    ∃ st n x, s.switchPoint tid = ((s.updTable tid (fun _ => t.switchTo p)).finish p.client st n x).settleTable tid := by
  obtain ⟨hwriters, hlive⟩ := not_or.1 hfree
  simp only [State.switchPoint, ht, hp]
  rw [if_neg (by simp [hkept, hwriters, hlive])]
  exact ⟨_, _, _, rfl⟩

theorem Table.switchTo_live (t : Table) (p : Pend) : (t.switchTo p).vers.length = t.liveAfter := by
  simp [Table.switchTo, Table.liveAfter]

/-- The old current version retires when nothing pins it. -/
theorem Table.switchTo_retires {t : Table} {v : Ver} (p : Pend) (hv : v ∈ t.vers) (hcur : v.ver = t.cur) (hpins : v.pins = 0) :
    v.ver ∈ (t.switchTo p).retired :=
  List.mem_append_right _ (List.mem_map_of_mem (List.mem_filter.2 ⟨hv, by simp [hcur, hpins]⟩))

/-! ### Release (R157, R171) -/

/-- Releases are counted in stations alone. -/
theorem State.countRel_frame (s : State) (t : Table) (es : List DirEnt) : ∃ st, s.countRel t es = { s with stns := st } := by
  refine foldl_keeps (fun u => ∃ st, u = { s with stns := st }) _ _ ?_ s ⟨s.stns, rfl⟩
  rintro _ e - ⟨st, rfl⟩
  exact ⟨_, rfl⟩

/-- A release keeps the entries of the directory that satisfy `p`. -/
theorem State.releaseEntries_frame {s : State} {tid : Nat} {t : Table} (p : Table → DirEnt → Bool) (ht : Tab.at? s.tables tid = some t) :
    ∃ st, s.releaseEntries tid p = State.updTable { s with stns := st } tid (fun t => { t with dir := t.dir.filter (p t) }) := by
  obtain ⟨st, h⟩ := s.countRel_frame t (t.dir.filter (fun e => !p t e))
  exact ⟨st, by simp only [State.releaseEntries, ht, h]⟩

/-- An entry stays while its version is to come or a live version can select it. -/
def Table.stillUsed (t : Table) (e : DirEnt) : Bool := decide (t.cur < e.post) || t.vers.any (fun v => t.selects v e)

/-- A retired version is released. -/
theorem State.versionRetire_releases {s : State} {tid ver : Nat} {t : Table} (ht : Tab.at? s.tables tid = some t) (hver : t.retired.contains ver = true) :
    ∃ t', s.versionRetire tid ver = { s with tables := (s.versionRetire tid ver).tables, stns := (s.versionRetire tid ver).stns } ∧
      Tab.becomes s.tables (s.versionRetire tid ver).tables tid t' ∧ t'.retired = t.retired.filter (· != ver) ∧ t'.cur = t.cur ∧
      t'.dir = t.dir.filter t.stillUsed := by
  obtain ⟨st, hrel⟩ := State.releaseEntries_frame (fun t e => decide (t.cur < e.post) || t.vers.any (fun v => t.selects v e)) ht
  simp only [State.versionRetire, ht, if_pos hver, hrel]
  have hdir := Tab.becomes_upd (fun t : Table => { t with dir := t.dir.filter t.stillUsed }) ht
  exact ⟨_, rfl, Tab.becomes_trans hdir (Tab.becomes_upd _ hdir.1), rfl, rfl, rfl⟩

/-! ### The statement -/

/-- Settles O20: switches are accepted by `State.closeS_closes`, take their turn by `State.switchPoint_switches` and `State.switchPoint_held`,
and what has retired is released by `State.versionRetire_releases` (R150, R166 to R171, R300). -/
theorem switchesMakeVersionsCurrent : Obligations.SwitchesMakeVersionsCurrent := by
  unfold Obligations.SwitchesMakeVersionsCurrent
  refine ⟨⟨?closes, ?newBase⟩, ?switches, ?held, ?retires⟩
  case closes =>
    intro s q seq c t d hstarts hop hmode hown hfree ht
    exact ⟨_, exec_tableSwitch_closes hstarts hop hmode hown hfree, State.closeS_closes none d ht hstarts.1⟩
  case newBase =>
    intro s q seq c t n hstarts hop hmode hown hnew hfree ht
    have hn := State.newBase_extents _ _ _ _ _ _ n hnew
    obtain ⟨ps, hinstalled⟩ := s.installed_frame (ckey q seq) (s.cidOf c) (c.num 8 2) n [(false, c.num 16 8, n.nshard * n.shardBytes)]
    have hexec := exec_tableSwitchNewBase_closes hstarts hop hmode hown hnew hfree
    rw [hinstalled] at hexec
    have htable : Tab.becomes s.tables (Tab.upd s.tables (c.num 8 2) (fun _ => n)) (c.num 8 2) n := Tab.becomes_upd _ ht
    obtain ⟨hframe, htables, hcmds⟩ :=
      State.closeS_closes (s := { s with tables := Tab.upd s.tables (c.num 8 2) (fun _ => n), parts := ps }) (some (c.num 16 8, n.s)) false
        htable.1 hstarts.1
    have hs : n.s = t.s := by rw [hn]
    have hpend : n.pend = t.pend := by rw [hn]
    refine ⟨_, hexec, by rw [hframe], ?_, by rw [hn], by rw [hn], by rw [hn], ?_⟩
    · rw [← hpend, ← hs]
      exact Tab.becomes_trans htable htables
    · rwa [← hs]
  case switches =>
    intro s tid t p ht hp hkept hwriters hlive
    obtain ⟨st, n, x, hswitch⟩ := State.switchPoint_switches ht hp hkept (not_or.2 ⟨by simp [hwriters], Nat.not_lt.2 hlive⟩)
    refine ⟨s.updTable tid (fun _ => t.switchTo p), st, n, x, congrArg Host.Outcome.next hswitch, rfl, Tab.becomes_upd _ ht, rfl, ?_, rfl, rfl,
      fun v hv hcur hpins => t.switchTo_retires p hv hcur hpins⟩
    rwa [Table.switchTo_live]
  case held =>
    intro s tid t p ht hp hheld
    exact congrArg Host.Outcome.next (State.switchPoint_held ht hp hheld)
  case retires =>
    intro s tid ver t ht hver
    obtain ⟨t', hframe, htables, hretired, hcur, hdir⟩ := State.versionRetire_releases ht hver
    refine ⟨s.versionRetire tid ver, t', rfl, hframe, htables, by simp [hretired], hcur, fun e he => ?_⟩
    rw [hdir, List.mem_filter, and_iff_right he, Table.stillUsed, Bool.or_eq_true, decide_eq_true_eq]

end Sys2Proof.Machine
end

section
/-! The end of a REBASE (R158, R179): with it the lookups of the table that it held back are accepted. -/
namespace Sys2Proof.Machine

/-- A REBASE's row carries out its next step, and what it held back goes on. -/
theorem exec_tableCompactRebase_runs {s : State} {q seq : Nat} {c : Cmd} (hc : s.cmd (ckey q seq) = some c)
    (hruns : s.mayStart c = true ∨ c.again = true) (hop : c.opcode = 0x1C) (hmode : c.tmode = 1) :
    exec (.tableCompactRebase q seq) s = .next (State.doRebase (ckey q seq) c s).resumeHeld.settleStreams := by
  show Host.Outcome.next (s.start q seq (fun c => c.opcode == 0x1C && c.tmode == 1) State.doRebase).resumeHeld.settleStreams = _
  rw [State.start_runs _ hc hruns (by simp [hop, hmode])]

/-- Table 1, of 64 rows of 16 FP32 elements on station 0, while command 5 of queue 1 renumbers it. -/
def tableInRebase : Table :=
  { pid := 0, fmt := 1, width := 16, owner := 0, shared := false, rows := 64, stride := 64, block := true, shift := 4, nshard := 1, dmode := 0,
    shardBytes := 4096, daddr := 0, ovlBase := 0, ovlSlots := 0, stns := [0], raw := [], vers := [⟨1, 0x10000, 1, 0⟩], rebase := some (ckey 1 5) }

/-- The REBASE of table 1, whose stations have done their step. -/
def rebaseEnding : Cmd :=
  { q := 1, seq := 5, env := recBytes 64 [(0, 8, 0x1C), (64, 16, 1), (80, 2, 1)], ext := [], phase := .running, stage := 2, work := .table 1 1 }

/-- A LOOKUP_POOL of one empty pool of table 1, which came after it and waits for its pin. -/
def lookupHeld : Cmd :=
  { q := 1, seq := 6, env := recBytes 64 [(0, 8, 0x10), (64, 16, 1), (82, 1, 1), (88, 8, 1), (128, 21, 1), (384, 64, 0x2000)], ext := [],
    phase := .running, stage := 2, ranges := [[], [], [], [{ off := 0, len := 64, tgt := some ⟨true, 0, 0x2000⟩, ca := 0x2000 }], []] }

/-- A block with these two in flight. -/
def rebaseEndingState : State :=
  { State.reset with tables := [(1, tableInRebase)], cmds := [(ckey 1 5, rebaseEnding), (ckey 1 6, lookupHeld)] }

/-- As the REBASE ends the lookup takes its pin, on version 1 (R179 step 3). -/
theorem lookupHeld_pins_at_rebase_end :
    ((State.doRebase (ckey 1 5) rebaseEnding rebaseEndingState).resumeHeld.settleStreams.cmd (ckey 1 6)).map (·.pins) = some [(1, 1)] := by
  decide +kernel

/-- Refutes O21 by its clause of the end of a REBASE, in which no command but the REBASE changes: the lookups that wait for the REBASE take
their pins in that step (R158, R179 step 3). -/
theorem not_tablesAreRetiredAndCompacted : ¬ Obligations.TablesAreRetiredAndCompacted := by
  unfold Obligations.TablesAreRetiredAndCompacted
  rintro ⟨-, -, -, -, hend, -⟩
  obtain ⟨u, -, hexec, -, -, -, -, -, -, -, hcompletes⟩ := hend rebaseEndingState 1 5 rebaseEnding tableInRebase rfl (by decide) rfl
    (by decide +kernel) (by decide +kernel) (by decide +kernel)
  rw [exec_tableCompactRebase_runs rfl (.inr (by decide)) (by decide +kernel) (by decide +kernel)] at hexec
  have hpins := lookupHeld_pins_at_rebase_end
  rw [Host.Outcome.next.inj hexec, State.cmd, hcompletes.2 (ckey 1 6) (by decide)] at hpins
  exact absurd hpins (by decide)

end Sys2Proof.Machine
end

section
/-! What writing a row of an update can change beside its table and its command (R157, R161, R307 to R313). -/
namespace Sys2Proof.Machine

/-- From `s` to `t` nothing changed but what writes through the ports change, stations' summaries, and what a fault record marks: its
context, where the record is lost (R311). -/
def State.writesMoved (s t : State) : Prop :=
  t = { s with
    host := t.host, out := t.out, fresh := t.fresh, arb := t.arb, tags := t.tags, waiting := t.waiting, xlt := t.xlt
    postbags := t.postbags, evc := t.evc, want := t.want, rcv := t.rcv, incr := t.incr, stnMem := t.stnMem, stns := t.stns, ctxs := t.ctxs }

theorem State.writesMoved.refl (s : State) : s.writesMoved s := rfl

theorem State.writesMoved.trans {s t u : State} (h : s.writesMoved t) (k : t.writesMoved u) : s.writesMoved u := by
  unfold State.writesMoved at *
  rw [k, h]

theorem State.portsMoved.writesMoved {s t : State} (h : s.portsMoved t) : s.writesMoved t := by
  unfold State.portsMoved at h
  rw [h]
  rfl

theorem State.writesMoved_of_stnMem {s t : State} (h : ∃ m, State.portsMoved { s with stnMem := m } t) : s.writesMoved t := by
  obtain ⟨m, h⟩ := h
  have hmem : s.writesMoved { s with stnMem := m } := rfl
  exact hmem.trans h.writesMoved

theorem State.writesMoved.cmds {s t : State} (h : s.writesMoved t) : t.cmds = s.cmds := by unfold State.writesMoved at h; rw [h]
theorem State.writesMoved.queues {s t : State} (h : s.writesMoved t) : t.queues = s.queues := by unfold State.writesMoved at h; rw [h]
theorem State.writesMoved.tables {s t : State} (h : s.writesMoved t) : t.tables = s.tables := by unfold State.writesMoved at h; rw [h]
theorem State.writesMoved.streams {s t : State} (h : s.writesMoved t) : t.streams = s.streams := by unfold State.writesMoved at h; rw [h]
theorem State.writesMoved.fences {s t : State} (h : s.writesMoved t) : t.fences = s.fences := by unfold State.writesMoved at h; rw [h]

/-- Setting a row's summary bit changes its station (R157). -/
theorem State.setSum_writesMoved (s : State) (stn tid sh l : Nat) : s.writesMoved (s.setSum stn tid sh l) := rfl

theorem State.draw_writesMoved (s : State) : s.writesMoved s.draw := rfl

/-! ### Fault records (R307 to R311) -/

theorem State.setFaultLost_writesMoved (s : State) (cid : Nat) : s.writesMoved (s.setFaultLost cid) := by
  unfold State.setFaultLost
  split
  · split
    · exact .refl s
    · obtain ⟨e, h⟩ := State.notify_frame { s with ctxs := Tab.upd s.ctxs cid (fun c => { c with faultLost := true }) } _ 0
      rw [h]
      rfl
  · exact .refl s

theorem State.pbLose_writesMoved (s : State) (p : Nat) (r : FaultRec) : s.writesMoved (s.pbLose p r) := by
  simp only [State.pbLose]
  split
  · exact (State.updPb_portsMoved ..).writesMoved
  · exact (State.updPb_portsMoved ..).writesMoved.trans (State.setFaultLost_writesMoved ..)

theorem State.pbRecord_writesMoved (s : State) (p : Nat) (r : FaultRec) : s.writesMoved (s.pbRecord p r) := by
  simp only [State.pbRecord]
  split
  · exact (s.pbPut_portsMoved p r).writesMoved
  · exact s.pbLose_writesMoved p r

theorem State.pbBatch_writesMoved (s : State) (p : Nat) : s.writesMoved (s.pbBatch p) := by
  simp only [State.pbBatch]
  split
  · exact .refl s
  · have hrecords := foldl_keeps s.writesMoved (fun s r => s.pbRecord p r) (s.pb p).staged
      (fun t r _ ht => ht.trans (t.pbRecord_writesMoved p r)) s (.refl s)
    exact (hrecords.trans (State.updPb_portsMoved ..).writesMoved).trans (State.raise_portsMoved ..).writesMoved

theorem State.post_writesMoved (s : State) (p : Nat) (r : FaultRec) : s.writesMoved (s.post p r) := by
  simp only [State.post]
  split
  · split
    · refine State.writesMoved.trans ?_ (State.pbBatch_writesMoved ..)
      rfl
    · rfl
  · exact .refl s

theorem State.postFor_writesMoved (s : State) (pid : Nat) (r : FaultRec) : s.writesMoved (s.postFor pid r) := s.post_writesMoved ..

end Sys2Proof.Machine
end

section
/-! Updates of a table (R72, R83, R158 to R166, R173, R181): their acceptance, their reads, and the rows that they stage. -/
namespace Sys2Proof.Machine

/-- The rows of UPDATE_ROWS and UPDATE_ACCUM run one meaning. -/
theorem exec_update_runs {s : State} {q seq : Nat} {c : Cmd} {acc : Bool} (hc : s.cmd (ckey q seq) = some c)
    (hruns : s.mayStart c = true ∨ c.again = true) (hop : c.opcode = (if acc = true then 0x19 else 0x18)) :
    exec (if acc = true then .updateAccum q seq else .updateRows q seq) s = .next (State.doUpdate (ckey q seq) c s) := by
  cases acc with
  | true => exact congrArg Host.Outcome.next (State.start_runs _ hc hruns (by simp [hop]))
  | false => exact congrArg Host.Outcome.next (State.start_runs _ hc hruns (by simp [hop]))

/-! ### Acceptance (R158, R164, R166, R173) -/

/-- An update of command `cl` is accepted on the table, with the shards `shs` of its rows reserved; a publishing one closes S. -/
def Table.accepts (t : Table) (cl : Client) (shs : List Nat) (publish : Bool) : Table :=
  { t with
    writers := t.writers ++ [{ client := cl, post := t.s, resv := shs, ents := shs }]
    pend := if publish = true then t.pend ++ [⟨cl, false, t.s, none⟩] else t.pend
    s := if publish = true then t.s + 1 else t.s }

/-- Command `cl` has pinned table `tid` and is accepted as an update of rows `rows`. -/
def State.updAccepted (s : State) (cl : Client) (tid : Nat) (t : Table) (rows shs : List Nat) (publish : Bool) : State :=
  ((s.pinOne cl tid t).updTable tid (fun t => t.accepts cl shs publish)).updCmd cl (fun c => { c with work := .upd ⟨tid, t.s, t.cur, rows⟩ })

theorem State.updAccepted_tables (s : State) (cl : Client) (tid : Nat) (t : Table) (rows shs : List Nat) (publish : Bool) :
    Tab.becomes s.tables (s.updAccepted cl tid t rows shs publish).tables tid (t.pin.accepts cl shs publish) := by
  have hpinned : Tab.becomes s.tables (Tab.put s.tables tid t.pin) tid t.pin := Tab.becomes_put ..
  exact Tab.becomes_trans hpinned (Tab.becomes_upd _ hpinned.1)

theorem State.updAccepted_cmds {s : State} {cl : Client} {c : Cmd} (tid : Nat) (t : Table) (rows shs : List Nat) (publish : Bool)
    (hc : s.cmd cl = some c) :
    Tab.becomes s.cmds (s.updAccepted cl tid t rows shs publish).cmds cl
      { c with pins := c.pins ++ [(tid, t.cur)], work := .upd ⟨tid, t.s, t.cur, rows⟩ } := by
  have hpinned : Tab.becomes s.cmds (s.pinOne cl tid t).cmds cl { c with pins := c.pins ++ [(tid, t.cur)] } := Tab.becomes_upd _ hc
  exact Tab.becomes_trans hpinned (Tab.becomes_upd _ hpinned.1)

/-- The index list of an update, as its reads brought it. -/
def State.updRows (s : State) (c : Cmd) : List Nat := numsOf (2 ^ (c.uIw + 1)) (s.rangeBytes c 0 (c.uNr * 2 ^ (c.uIw + 1)))

/-- An update that passes steps 7 to 10 of R164 is accepted, and reads its source rows. -/
theorem State.updAccept_accepts {s : State} {c : Cmd} {t : Table} (cl : Client) (ht : Tab.at? s.tables (c.num 8 2) = some t)
    (hbehind : s.behind c = false)
    (hrows : (s.updRows c).all (fun r => decide (r < t.rows) && r != 2 ^ (8 * 2 ^ (c.uIw + 1)) - 1) = true) (hidle : t.rebase = none)
    (hs : t.s ≤ 0xFFFFFFF0) (hroom : t.roomFor ((s.updRows c).map (fun r => (t.locate r).1)) = true) :
    s.updAccept cl c =
      (s.updAccepted cl (c.num 8 2) t (s.updRows c) ((s.updRows c).map (fun r => (t.locate r).1)) c.publish).fetchThen cl (s.cidOf c) 3
        (itemsOf false ((c.ranges[1]?).getD [])) (fun _ _ s => s.applyUpdates (c.num 8 2) (t.writers.length + 1)) := by
  unfold State.updRows at *
  simp only [State.updAccept, ht]
  rw [if_neg (ne_true_of_eq_false hbehind), Chk.ok_bind (need_true _ hrows), Chk.ok_bind (need_true _ (Option.isNone_iff_eq_none.2 hidle)),
    Chk.ok_bind (need_true _ (decide_eq_true hs)), need_true _ hroom, State.checked_ok, State.pinAll_one cl ht]
  rfl

/-- An update whose index list has been read is checked further, and accepted (R164). -/
theorem State.doUpdate_listed {s : State} {cl : Client} {c : Cmd} (hagain : c.again = true) (hst : c.stage = 1) (hbad : c.operandBad = false) :
    State.doUpdate cl c s = s.updAccept cl c := by
  simp [State.doUpdate, hst, State.withOperands_good _ _ hagain hbad]

/-! ### An update's turn (R83, R163) -/

/-- An update that was accepted goes on when the turn of its table comes. -/
theorem State.doUpdate_accepted {s : State} {cl : Client} {c : Cmd} (hst : 3 ≤ c.stage) :
    State.doUpdate cl c s = s.applyUpdates (c.num 8 2) (s.cmds.length + 1) := by
  rw [State.doUpdate, if_neg (by omega), if_neg (by omega)]

/-- The first update of the table that has not written its rows is command `cl`. -/
def Table.nextIs (t : Table) (cl : Client) : Prop := (t.writers.find? (fun w => !w.applied)).map (·.client) = some cl

/-- Command `cl` goes on as `k` says once all of its reads are back. -/
def State.whenBack (s : State) (cl : Client) (k : Cmd → State → State) : State :=
  match s.cmd cl with
  | some c => if c.allBack then k c s else s
  | none => s

theorem State.whenBack_cmd {s : State} {cl : Client} {c : Cmd} (k : Cmd → State → State) (hc : s.cmd cl = some c) :
    s.whenBack cl k = if c.allBack = true then k c s else s := by
  simp only [State.whenBack, hc]

theorem State.whenBack_back {s : State} {cl : Client} {c : Cmd} (k : Cmd → State → State) (hc : s.cmd cl = some c) (hback : c.allBack = true) :
    s.whenBack cl k = k c s := by
  rw [State.whenBack_cmd k hc, if_pos hback]

theorem State.whenBack_waits {s : State} {cl : Client} {c : Cmd} (k : Cmd → State → State) (hc : s.cmd cl = some c) (hback : c.allBack = false) :
    s.whenBack cl k = s := by
  rw [State.whenBack_cmd k hc, if_neg (ne_true_of_eq_false hback)]

/-- An update in its turn makes its reads, one stage after another, and then writes its rows. -/
def State.readAndWrite (s : State) (cl : Client) (u : UpdW) : State :=
  ((s.whenBack cl (fun c s => s.updReads cl c u)).whenBack cl (fun c s => s.updReads cl c u)).whenBack cl (fun c s => s.writeRows cl c u)

/-- Command `cl`, which is `c`, carries out update `u`, and all of its reads are back. -/
structure State.Updating (s : State) (cl : Client) (c : Cmd) (u : UpdW) : Prop where
  cmd : s.cmd cl = some c
  work : c.work = .upd u
  running : c.phase = .running
  live : c.cancel = none
  back : c.allBack = true

theorem State.Updating.of_again {s : State} {cl : Client} {c : Cmd} {u : UpdW} {acc : Bool} (hc : s.cmd cl = some c) (hagain : c.again = true)
    (hop : c.opcode = (if acc = true then 0x19 else 0x18)) (hwork : c.work = .upd u) : s.Updating cl c u := by
  have hnot28 : (c.opcode == 0x28) = false := by cases acc <;> simp [hop]
  have h := hagain
  simp only [Cmd.again, hnot28, Bool.false_and, Bool.or_false, Bool.and_eq_true, beq_iff_eq] at h
  obtain ⟨⟨⟨⟨hrunning, -⟩, -⟩, -⟩, hback⟩ := h
  exact ⟨hc, hwork, hrunning, Cmd.cancel_of_again hagain, hback⟩

section
variable {s : State} {cl : Client} {c : Cmd} {u : UpdW} {t : Table}

theorem State.applyUpdate_inTurn (h : s.Updating cl c u) (ht : Tab.at? s.tables u.tid = some t) (hnext : t.nextIs cl) (hup : s.updUp u = true)
    (hturn : c.stage ≠ 3 ∨ s.updTurn cl c u = true) : s.applyUpdate cl = s.readAndWrite cl u := by
  have hfirst : ((Tab.at? s.tables u.tid).bind (fun t => t.writers.find? (fun w => !w.applied))).map (·.client) = some cl := by rw [ht]; exact hnext
  simp only [State.applyUpdate, h.cmd, h.work]
  refine (if_pos ?_).trans ?_
  · exact ⟨h.running, by rw [h.live]; rfl, h.back, hfirst, hup, hturn⟩
  · rw [State.readAndWrite, State.whenBack_cmd _ h.cmd]
    rfl

/-- An update waits while reads of it are out. -/
theorem State.applyUpdate_waits (hc : s.cmd cl = some c) (hback : c.allBack = false) : s.applyUpdate cl = s := by
  simp only [State.applyUpdate, hc]
  split
  · exact if_neg (by simp [hback])
  · rfl

/-- While the first update of a table waits for its reads, no update of the table goes on (R163). -/
theorem State.applyUpdates_waits (tid k : Nat) (ht : Tab.at? s.tables tid = some t) (hnext : t.nextIs cl) (hc : s.cmd cl = some c)
    (hback : c.allBack = false) : s.applyUpdates tid k = s := by
  obtain ⟨w, hw, rfl⟩ := Option.map_eq_some_iff.1 hnext
  induction k with
  | zero => rfl
  | succ k ih =>
    simp only [State.applyUpdates, ht, Option.bind_some, hw, State.applyUpdate_waits hc hback]
    split
    · exact ih
    · rfl

/-- The table's turn is that of its first update, and then, it may be, of others. -/
theorem State.applyUpdates_first {tid : Nat} (fuel : Nat) (ht : Tab.at? s.tables tid = some t) (hnext : t.nextIs cl) :
    s.applyUpdates tid (fuel + 1) = s.applyUpdate cl ∨ s.applyUpdates tid (fuel + 1) = (s.applyUpdate cl).applyUpdates tid fuel := by
  obtain ⟨w, hw, rfl⟩ := Option.map_eq_some_iff.1 hnext
  simp only [State.applyUpdates, ht, Option.bind_some, hw]
  split
  · exact .inr rfl
  · exact .inl rfl

/-! ### Its reads (R181) -/

/-- The reads of the directory buckets that an update probes. -/
def State.bucketReads (s : State) (u : UpdW) (t : Table) : List Item := u.rows.eraseDups.flatMap (s.probeItems u.tid t)

/-- Command `c` with further reads out. -/
def Cmd.readingMore (c : Cmd) (stage : Nat) (its : List Item) : Cmd := { c with phase := .running, stage := stage, items := c.items ++ its }

/-- Further reads go out through the ports. -/
theorem State.fetchMore_reads {cid : Nat} {its : List Item} (stage : Nat) (hfn : ∀ i ∈ its, i.tgt.host = true → s.fnOk (s.reqId cid).1 = true) :
    (s.updCmd cl (fun c => c.readingMore stage its)).portsMoved (s.fetchMore cl cid stage its) := by
  simp only [State.fetchMore, State.ready?_eq hfn]
  exact foldl_portsMoved (fun t x => t.issue_portsMoved _) _ (s.updCmd cl (fun c => c.readingMore stage its))

/-- The state after an update has sent the reads of its buckets. -/
def State.bucketsRead (s : State) (cl : Client) (c : Cmd) (u : UpdW) (t : Table) : State := s.draw.fetchMore cl (s.cidOf c) 4 (s.bucketReads u t)

theorem State.updReads_buckets (hst : c.stage = 3) (ht : Tab.at? s.tables u.tid = some t) : s.updReads cl c u = s.bucketsRead cl c u t := by
  simp only [State.updReads, hst, if_true, State.readBuckets, ht]
  rfl

/-- Past its bucket reads UPDATE_ROWS makes none, and past its row reads UPDATE_ACCUM makes none. -/
theorem State.updReads_done (hst : c.stage = if c.isAccum = true then 5 else 4) : s.updReads cl c u = s := by
  have hne : c.stage ≠ 3 := by rw [hst]; split <;> decide
  have hrows : ¬(c.isAccum = true ∧ c.stage = 4) := by
    rintro ⟨hacc, h4⟩
    rw [hst, if_pos hacc] at h4
    cases h4
  rw [State.updReads, if_neg hne, if_neg hrows]

theorem State.bucketsRead_moved (hc : s.cmd cl = some c) (hhub : ∀ i ∈ s.bucketReads u t, i.tgt.host = false) :
    (s.draw.updCmd cl (fun c => c.readingMore 4 (s.bucketReads u t))).portsMoved (s.bucketsRead cl c u t) ∧
      (s.bucketsRead cl c u t).cmd cl = some (c.readingMore 4 (s.bucketReads u t)) := by
  have hmoved : (s.draw.updCmd cl (fun c => c.readingMore 4 (s.bucketReads u t))).portsMoved (s.bucketsRead cl c u t) :=
    State.fetchMore_reads 4 (fun i hi hhost => by rw [hhub i hi] at hhost; cases hhost)
  refine ⟨hmoved, ?_⟩
  rw [State.cmd, hmoved.cmds]
  exact (Tab.becomes_upd (fun c : Cmd => c.readingMore 4 (s.bucketReads u t)) hc).1

theorem State.bucketReads_out {i : Item} (h : i ∈ s.bucketReads u t) : i.back = false := by
  obtain ⟨r, -, hr⟩ := List.mem_flatMap.1 h
  obtain ⟨k, -, hk⟩ := List.mem_filterMap.1 hr
  obtain ⟨g, -, rfl⟩ := Option.map_eq_some_iff.1 hk
  rfl

/-- An update with buckets to read sends those reads, and waits. -/
theorem State.readAndWrite_reads (h : s.Updating cl c u) (hst : c.stage = 3) (ht : Tab.at? s.tables u.tid = some t)
    (hne : s.bucketReads u t ≠ []) (hhub : ∀ i ∈ s.bucketReads u t, i.tgt.host = false) :
    s.readAndWrite cl u = s.bucketsRead cl c u t ∧ (c.readingMore 4 (s.bucketReads u t)).allBack = false := by
  obtain ⟨-, hcmd⟩ := State.bucketsRead_moved h.cmd hhub
  have hwaits : (c.readingMore 4 (s.bucketReads u t)).allBack = false := by
    obtain ⟨i, hi⟩ := List.exists_mem_of_ne_nil _ hne
    exact List.all_eq_false.2 ⟨i, List.mem_append_right _ hi, by simp [State.bucketReads_out hi]⟩
  refine ⟨?_, hwaits⟩
  rw [State.readAndWrite, State.whenBack_back _ h.cmd h.back, State.updReads_buckets hst ht, State.whenBack_waits _ hcmd hwaits,
    State.whenBack_waits _ hcmd hwaits]

end

/-! ### Staging a row (R152, R162) -/

/-- Entry `e` is that of row `l` of shard `sh` under postmark `post`. -/
def DirEnt.isOf (sh l post : Nat) (e : DirEnt) : Bool := e.shard == sh && e.row == l && e.post == post

/-- A directory once that row's entry names slot `k`. -/
def stageIn (dir : List DirEnt) (sh l post k : Nat) : List DirEnt :=
  if dir.any (DirEnt.isOf sh l post) then dir.map (fun e => if DirEnt.isOf sh l post e then { e with slot := k } else e) else dir ++ [⟨sh, l, post, k⟩]

section
variable {dir : List DirEnt} {e : DirEnt} (sh l post k : Nat)

/-- An entry stays, but that the row's own is repointed. -/
theorem mem_stageIn (he : e ∈ dir) : (if DirEnt.isOf sh l post e then { e with slot := k } else e) ∈ stageIn dir sh l post k := by
  unfold stageIn
  split
  · exact List.mem_map_of_mem he
  next hnew =>
    have hnot : ¬ DirEnt.isOf sh l post e = true := fun h => hnew (List.any_eq_true.2 ⟨e, he, h⟩)
    rw [if_neg hnot]
    exact List.mem_append_left _ he

theorem stageIn_same (he : e ∈ dir) : ∃ e' ∈ stageIn dir sh l post k, e'.shard = e.shard ∧ e'.row = e.row ∧ e'.post = e.post :=
  ⟨_, mem_stageIn sh l post k he, by split <;> simp⟩

theorem stageIn_others (he : e ∈ dir) (hne : e.post ≠ post) : e ∈ stageIn dir sh l post k := by
  have h := mem_stageIn sh l post k he
  rwa [if_neg (by simp [DirEnt.isOf, hne])] at h

theorem stageIn_has (dir : List DirEnt) : ∃ e ∈ stageIn dir sh l post k, e.shard = sh ∧ e.row = l ∧ e.post = post := by
  by_cases hmine : dir.any (DirEnt.isOf sh l post) = true
  · obtain ⟨e, he, hof⟩ := List.any_eq_true.1 hmine
    obtain ⟨e', he', hshard, hrow, hpost⟩ := stageIn_same sh l post k he
    simp only [DirEnt.isOf, Bool.and_eq_true, beq_iff_eq] at hof
    obtain ⟨⟨rfl, rfl⟩, rfl⟩ := hof
    exact ⟨e', he', hshard, hrow, hpost⟩
  · exact ⟨⟨sh, l, post, k⟩, by simp [stageIn, hmine], rfl, rfl, rfl⟩

end

/-- From `t` to `t'` rows `rows` of the table are staged under postmark `post`, and entries of other postmarks stay. -/
structure Table.Staged (t : Table) (post : Nat) (rows : List Nat) (t' : Table) : Prop where
  cur : t'.cur = t.cur
  vers : t'.vers = t.vers
  locate : t'.locate = t.locate
  has : ∀ r ∈ rows, ∃ e ∈ t'.dir, e.shard = (t.locate r).1 ∧ e.row = (t.locate r).2 ∧ e.post = post
  others : ∀ e ∈ t.dir, e.post ≠ post → e ∈ t'.dir

theorem Table.Staged.nil (t : Table) (post : Nat) : t.Staged post [] t := ⟨rfl, rfl, rfl, fun _ h => (nomatch h), fun _ h _ => h⟩

/-- Staging row `row` in slot `k` adds it to the rows staged. -/
theorem Table.Staged.cons {t t' x : Table} {post row k : Nat} {rows : List Nat} (h : t.Staged post rows t') (hcur : x.cur = t'.cur)
    (hvers : x.vers = t'.vers) (hlocate : x.locate = t'.locate)
    (hdir : x.dir = stageIn t'.dir (t'.locate row).1 (t'.locate row).2 post k) : t.Staged post (row :: rows) x where
  cur := hcur.trans h.cur
  vers := hvers.trans h.vers
  locate := hlocate.trans h.locate
  has := by
    rw [hdir, h.locate]
    intro r hr
    rcases List.mem_cons.1 hr with rfl | hr
    · exact stageIn_has ..
    · obtain ⟨e, he, hshard, hrow, hpost⟩ := h.has r hr
      obtain ⟨e', he', hshard', hrow', hpost'⟩ := stageIn_same (t.locate row).1 (t.locate row).2 post k he
      exact ⟨e', he', hshard'.trans hshard, hrow'.trans hrow, hpost'.trans hpost⟩
  others := by
    rw [hdir]
    exact fun e he hne => stageIn_others _ _ _ _ (h.others e he hne) hne

/-- Staging a row moves memories, changes its table as `f` does, and may set its command's POISON. -/
theorem State.stage_row {s : State} {tid row : Nat} {t : Table} (cl : Client) (cid post : Nat) (bs : List Byte) (poison : Bool)
    (ht : Tab.at? s.tables tid = some t) :
    ∃ w f, s.writesMoved w ∧
      s.stage cl cid tid post row bs poison =
        (if poison = true then (w.updTable tid f).updCmd cl (fun c => { c with poison := true }) else w.updTable tid f) ∧
      (f t).cur = t.cur ∧ (f t).vers = t.vers ∧ (f t).locate = t.locate ∧
      (f t).dir = stageIn t.dir (t.locate row).1 (t.locate row).2 post (t.freeSlot (t.locate row).1) := by
  rcases hlocate : t.locate row with ⟨sh, l⟩
  simp only [State.stage, ht, hlocate]
  refine ⟨_, _, ?_, rfl, rfl, rfl, rfl, rfl⟩
  have hslot : s.writesMoved ((s.pwrite cl cid (t.slot sh (t.freeSlot sh)) 0 (pad64 bs) poison).setSum (t.stnOf sh) tid sh l) :=
    .trans (State.writesMoved_of_stnMem (State.pwrite_portsMoved ..)) (State.setSum_writesMoved ..)
  split
  · exact .trans (hslot.trans (State.draw_writesMoved _)) (State.writesMoved_of_stnMem (State.twrite_portsMoved ..))
  · exact hslot

/-! ### Writing the rows of an update (R160 to R162, R165) -/

/-- From `s` to `v` command `cl`, an update that is `c` in `s`, has staged rows `rows` of its table, which is `t` in `s`. Only an
UPDATE_ACCUM changes its status with that, when a row it adds to does not translate. -/
structure State.Wrote (s : State) (cl : Client) (c : Cmd) (u : UpdW) (t : Table) (rows : List Nat) (v : State) : Prop where
  queues : v.queues = s.queues
  streams : v.streams = s.streams
  fences : v.fences = s.fences
  cmd : ∃ d, v.cmd cl = some d ∧ d.cancel = none ∧ (c.isAccum = false → d.status = c.status)
  table : ∃ t', Tab.at? v.tables u.tid = some t' ∧ t.Staged u.post rows t'

section
variable {s v : State} {cl : Client} {c : Cmd} {u : UpdW} {t : Table} {rows : List Nat}

theorem State.Wrote.nil (hc : s.cmd cl = some c) (hlive : c.cancel = none) (ht : Tab.at? s.tables u.tid = some t) : s.Wrote cl c u t [] s :=
  ⟨rfl, rfl, rfl, ⟨c, hc, hlive, fun _ => rfl⟩, ⟨t, ht, .nil t u.post⟩⟩

theorem State.Wrote.moved {w : State} (h : s.Wrote cl c u t rows v) (hw : v.writesMoved w) : s.Wrote cl c u t rows w where
  queues := hw.queues.trans h.queues
  streams := hw.streams.trans h.streams
  fences := hw.fences.trans h.fences
  cmd := by rw [State.cmd, hw.cmds]; exact h.cmd
  table := by rw [hw.tables]; exact h.table

theorem State.Wrote.updCmd {f : Cmd → Cmd} (h : s.Wrote cl c u t rows v) (hcancel : ∀ d, (f d).cancel = d.cancel)
    (hstatus : c.isAccum = false → ∀ d, (f d).status = d.status) : s.Wrote cl c u t rows (v.updCmd cl f) where
  queues := h.queues
  streams := h.streams
  fences := h.fences
  cmd := by
    obtain ⟨d, hd, hlive, hsame⟩ := h.cmd
    exact ⟨f d, (Tab.becomes_upd f hd).1, by rw [hcancel, hlive], fun hacc => by rw [hstatus hacc, hsame hacc]⟩
  table := h.table

theorem State.Wrote.stage (h : s.Wrote cl c u t rows v) (cid row : Nat) (bs : List Byte) (poison : Bool) :
    s.Wrote cl c u t (row :: rows) (v.stage cl cid u.tid u.post row bs poison) := by
  obtain ⟨t', ht', hstaged⟩ := h.table
  obtain ⟨w, f, hw, hstage, hcur, hvers, hlocate, hdir⟩ := State.stage_row (row := row) cl cid u.post bs poison ht'
  have hmoved := h.moved hw
  have hrow : s.Wrote cl c u t (row :: rows) (w.updTable u.tid f) :=
    { hmoved with
      table := ⟨f t', (Tab.becomes_upd f (by rw [hw.tables]; exact ht')).1, hstaged.cons hcur hvers hlocate hdir⟩ }
  rw [hstage]
  split
  · exact hrow.updCmd (fun _ => rfl) (fun _ _ => rfl)
  · exact hrow

/-- A row of UPDATE_ROWS is staged as it came; one of UPDATE_ACCUM after the row that it adds to, whose fault is recorded (R161). -/
theorem State.Wrote.writeRow (h : s.Wrote cl c u t rows v) (row : Nat) : s.Wrote cl c u t (row :: rows) (v.writeRow cl c u row) := by
  obtain ⟨t', ht', -⟩ := h.table
  simp only [State.writeRow, ht']
  split
  next hacc =>
    rcases v.staged t' u row with ⟨ps, addr, fault⟩
    cases fault with
    | none => exact h.stage ..
    | some f =>
      have hrecord := (h.moved (v.postFor_writesMoved (v.pidOf (v.cidOf c)) (v.rowRec c t'.owner (t'.rowStn (some row)) addr f))).updCmd
        (f := fun c => { c with status := stFault }) (fun _ => rfl) (fun hrows => absurd hacc (ne_true_of_eq_false hrows))
      exact hrecord.stage ..
  next => exact h.stage ..

theorem State.Wrote.writeEach (l : List Nat) (h : s.Wrote cl c u t rows v) :
    s.Wrote cl c u t (l.reverse ++ rows) (l.foldl (fun s r => s.writeRow cl c u r) v) := by
  induction l generalizing rows v with
  | nil => exact h
  | cons r l ih => simpa using ih (h.writeRow r)

/-- An update that does not publish completes with its rows staged (R165). -/
theorem State.writeRows_completes (hc : s.cmd cl = some c) (hlive : c.cancel = none) (hstatus : c.status ≠ stFault) (hkept : c.publish = false)
    (ht : Tab.at? s.tables u.tid = some t) :
    (∃ d, (s.writeRows cl c u).cmd cl = some d ∧ d.phase = .done ∧ (c.isAccum = false → d.status = stOk) ∧
      d.count = u.rows.eraseDups.length % 2 ^ 32 ∧ d.aux = min u.post (2 ^ 32 - 1)) ∧
    (∃ t', Tab.at? (s.writeRows cl c u).tables u.tid = some t' ∧ t.Staged u.post u.rows t') ∧
    (s.writeRows cl c u).queues = s.queues ∧ (s.writeRows cl c u).streams = s.streams ∧ (s.writeRows cl c u).fences = s.fences := by
  have hwrote := (State.Wrote.nil hc hlive ht).writeEach u.rows.eraseDups
  simp only [State.writeRows, hkept, Bool.false_eq_true, if_false]
  generalize u.rows.eraseDups.foldl (fun s r => s.writeRow cl c u r) s = v at hwrote
  obtain ⟨d, hd, hdlive, hdstatus⟩ := hwrote.cmd
  obtain ⟨t', ht', hstaged⟩ := hwrote.table
  refine ⟨⟨_, (State.finish_at _ cl d _ _ _ hd hdlive).1, rfl, fun hrows => ?_, rfl, rfl⟩,
    ⟨_, (Tab.becomes_upd _ ht').1, hstaged.cur, hstaged.vers, hstaged.locate, fun r hr => hstaged.has r ?_, hstaged.others⟩,
    hwrote.queues, hwrote.streams, hwrote.fences⟩
  · have hd' : Tab.at? v.cmds cl = some d := hd
    simp [State.cmd, hd', hdstatus hrows, hstatus]
  · simpa using hr

end

/-! ### Its turn, from its reads to its rows -/

/-- From `s` to `w` command `cl`, which is `c` in `s` and `d` in `w`, has come to the end of its reads, and no table, queue, stream or fence
has changed. -/
structure State.ReadUp (s : State) (cl : Client) (c : Cmd) (w : State) (d : Cmd) : Prop where
  cmd : w.cmd cl = some d
  same : d = { c with phase := d.phase, stage := d.stage, items := d.items }
  tables : w.tables = s.tables
  queues : w.queues = s.queues
  streams : w.streams = s.streams
  fences : w.fences = s.fences

section
variable {s : State} {cl : Client} {c : Cmd} {u : UpdW} {t : Table}

/-- An update past its reads, or UPDATE_ROWS with no bucket to read, writes its rows. -/
theorem State.readAndWrite_writes (h : s.Updating cl c u) (ht : Tab.at? s.tables u.tid = some t)
    (hst : c.stage = (if c.isAccum = true then 5 else 4) ∨ (c.stage = 3 ∧ c.isAccum = false ∧ s.bucketReads u t = [])) :
    ∃ w d, s.ReadUp cl c w d ∧ s.readAndWrite cl u = w.writeRows cl d u := by
  rcases hst with hpast | ⟨h3, hrows, hnone⟩
  · refine ⟨s, c, ⟨h.cmd, rfl, rfl, rfl, rfl, rfl⟩, ?_⟩
    have hdone : s.whenBack cl (fun c s => s.updReads cl c u) = s := by rw [State.whenBack_back _ h.cmd h.back, State.updReads_done hpast]
    rw [State.readAndWrite, hdone, hdone, State.whenBack_back _ h.cmd h.back]
  · obtain ⟨hmoved, hcmd⟩ := State.bucketsRead_moved (u := u) (t := t) h.cmd (by simp [hnone])
    have hback : (c.readingMore 4 (s.bucketReads u t)).allBack = true := by simpa [Cmd.readingMore, Cmd.allBack, hnone] using h.back
    have hpast : (c.readingMore 4 (s.bucketReads u t)).stage = if (c.readingMore 4 (s.bucketReads u t)).isAccum = true then 5 else 4 :=
      (if_neg (ne_true_of_eq_false hrows)).symm
    refine ⟨_, _, ⟨hcmd, rfl, hmoved.tables, hmoved.queues, hmoved.streams, hmoved.fences⟩, ?_⟩
    rw [State.readAndWrite, State.whenBack_back _ h.cmd h.back, State.updReads_buckets h3 ht, State.whenBack_back _ hcmd hback,
      State.updReads_done hpast, State.whenBack_back _ hcmd hback]

/-- In its turn such an update that does not publish stages its rows and completes. -/
theorem State.applyUpdate_completes (h : s.Updating cl c u) (ht : Tab.at? s.tables u.tid = some t) (hnext : t.nextIs cl) (hup : s.updUp u = true)
    (hstatus : c.status ≠ stFault) (hkept : c.publish = false)
    (hst : c.stage = (if c.isAccum = true then 5 else 4) ∨
      (c.stage = 3 ∧ c.isAccum = false ∧ s.updTurn cl c u = true ∧ s.bucketReads u t = [])) :
    (∃ d, (s.applyUpdate cl).cmd cl = some d ∧ d.phase = .done ∧ (c.isAccum = false → d.status = stOk) ∧
      d.count = u.rows.eraseDups.length % 2 ^ 32 ∧ d.aux = min u.post (2 ^ 32 - 1)) ∧
    (∃ t', Tab.at? (s.applyUpdate cl).tables u.tid = some t' ∧ t.Staged u.post u.rows t') ∧
    (s.applyUpdate cl).queues = s.queues ∧ (s.applyUpdate cl).streams = s.streams ∧ (s.applyUpdate cl).fences = s.fences := by
  have hturn : c.stage ≠ 3 ∨ s.updTurn cl c u = true := by
    rcases hst with hpast | ⟨-, -, hturn, -⟩
    · exact .inl (by rw [hpast]; split <;> decide)
    · exact .inr hturn
  obtain ⟨w, d, hread, hwrites⟩ := State.readAndWrite_writes h ht (hst.imp id fun ⟨h3, hrows, _, hnone⟩ => ⟨h3, hrows, hnone⟩)
  rw [State.applyUpdate_inTurn h ht hnext hup hturn, hwrites, ← hread.queues, ← hread.streams, ← hread.fences]
  have hsame : d.isAccum = c.isAccum := by rw [hread.same]; rfl
  rw [← hsame]
  exact State.writeRows_completes hread.cmd (by rw [hread.same]; exact h.live) (by rw [hread.same]; exact hstatus)
    (by rw [hread.same]; exact hkept) (by rw [hread.tables]; exact ht)

end

/-! ### The statement -/

/-- Settles O19: acceptance by `State.updAccept_accepts`, the reads of a turn by `State.readAndWrite_reads`, and its rows and its end by
`State.readAndWrite_writes` and `State.writeRows_completes` (R72, R83, R158, R160 to R166, R173, R181). -/
theorem updatesReserveAndStage : Obligations.UpdatesReserveAndStage := by
  unfold Obligations.UpdatesReserveAndStage
  refine ⟨?accepts, ?reads, ?writes⟩
  case accepts =>
    intro s q seq c acc t hc hagain hst hop hbad hbehind ht w rows shs hrows hidle hs hroom
    refine ⟨s.updAccepted (ckey q seq) (c.num 8 2) t rows shs c.publish, ?_, rfl, State.updAccepted_tables .., State.updAccepted_cmds _ _ _ _ _ hc⟩
    rw [exec_update_runs hc (.inr hagain) hop, State.doUpdate_listed hagain hst hbad,
      State.updAccept_accepts (ckey q seq) ht hbehind hrows hidle hs hroom]
    rfl
  case reads =>
    intro s q seq c u t hc hagain hst hop hwork htid ht hnext hup hturn its hne hhub
    have hupd := State.Updating.of_again (acc := false) hc hagain hop hwork
    obtain ⟨hreads, hwaits⟩ := State.readAndWrite_reads hupd hst ht hne hhub
    obtain ⟨hmoved, hcmd⟩ := State.bucketsRead_moved hc hhub
    have happly := State.applyUpdate_inTurn hupd ht hnext hup (.inr hturn)
    have ht' : Tab.at? (s.bucketsRead (ckey q seq) c u t).tables u.tid = some t := by rw [hmoved.tables]; exact ht
    have hexec : exec (.updateRows q seq) s = .next (s.bucketsRead (ckey q seq) c u t) := by
      refine (exec_update_runs (acc := false) hc (.inr hagain) hop).trans (congrArg Host.Outcome.next ?_)
      rw [State.doUpdate_accepted (Nat.le_of_eq hst.symm), htid]
      rcases State.applyUpdates_first s.cmds.length ht hnext with h | h
      · rw [h, happly, hreads]
      · rw [h, happly, hreads, State.applyUpdates_waits _ _ ht' hnext hcmd hwaits]
    refine ⟨_, hexec, ?_, hmoved.tables, hmoved.queues, hmoved.stnMem⟩
    have hreading : c.readingMore 4 its = { c with stage := 4, items := c.items ++ its } := by rw [Cmd.readingMore, hupd.running]
    rw [hmoved.cmds, ← hreading]
    exact Tab.becomes_upd (fun c : Cmd => c.readingMore 4 its) hc
  case writes =>
    intro s q seq c u t acc hc hagain hop hwork htid hstatus hkept ht hnext hup hst
    have hupd := State.Updating.of_again hc hagain hop hwork
    obtain rfl : c.isAccum = acc := by cases acc <;> simp [Cmd.isAccum, hop]
    have hstage : 3 ≤ c.stage := by
      rcases hst with h | ⟨h, -⟩
      · rw [h]; split <;> decide
      · exact Nat.le_of_eq h.symm
    obtain ⟨hend, ⟨t', ht', hstaged⟩, hobjects⟩ := State.applyUpdate_completes hupd ht hnext hup hstatus hkept hst
    refine ⟨s.applyUpdate (ckey q seq), s.cmds.length, ?_, hend, ⟨t', ht', hstaged.cur, hstaged.vers, hstaged.has, hstaged.others⟩, hobjects⟩
    rw [exec_update_runs hc (.inr hagain) hop, State.doUpdate_accepted hstage, htid]
    exact (State.applyUpdates_first s.cmds.length ht hnext).imp (congrArg _) (congrArg _)

end Sys2Proof.Machine
end

section
/-! Streams (R182 to R203): what opening one makes, how a command takes its place in the order on a stream, and what it leaves when its turn
has come. -/
namespace Sys2Proof.Machine

/-! ### Commands that go on -/

theorem Cmd.running_of_again {c : Cmd} (h : c.again = true) : c.phase = .running := by
  simp only [Cmd.again, Bool.and_eq_true, beq_iff_eq] at h
  obtain ⟨⟨⟨⟨hrunning, -⟩, -⟩, -⟩, -⟩ := h
  exact hrunning

/-! ### STREAM_OPEN (R182, R183, R185) -/

theorem exec_streamOpen_read {s : State} {q seq : Nat} {c : Cmd} (hc : s.cmd (ckey q seq) = some c) (hagain : c.again = true) (hst : c.stage = 1)
    (hop : c.opcode = 0x20) (hbad : c.operandBad = false) : exec (.streamOpen q seq) s = .next (s.openStream (ckey q seq) c) := by
  show Host.Outcome.next (s.start q seq (fun c => c.opcode == 0x20) State.doStreamOpen) = _
  rw [State.start_runs _ hc (.inr hagain) (by simp [hop]), State.doStreamOpen, if_neg (by simp [hst]), State.withOperands_good _ _ hagain hbad]

/-- The empty stream that a command of context `cid` opens with descriptor `d`, over the extents `ps`. -/
def State.emptyStream (s : State) (cid : Nat) (d : List Byte) (ps : List Piece) : Stream :=
  { pid := s.pidOf cid, row := sKindRow d, strict := lf d 2 1 1 1 == 1, shared := lf d 2 1 2 1 == 1, stn := lf d 3 1 0 6, tid := rd d 4 2,
    fmt := sFmt d, width := sWidth d, cap := sCap d, base := rd d 16 8, owner := cid, raw := d, ext := ps }

/-- Command `cl` of context `cid` has opened stream `sid`; the cache hits of the region are counted (R301, R323). -/
def State.withStream (s : State) (cl : Client) (cid sid : Nat) (d : List Byte) (ps : List Piece) : State :=
  { s.touchRanges cl cid [(true, rd d 16 8, sCap d * sEsize d)] with streams := Tab.put s.streams sid (s.emptyStream cid d ps) }

theorem State.withStream_frame (s : State) (cl : Client) (cid sid : Nat) (d : List Byte) (ps : List Piece) :
    ∃ parts, s.withStream cl cid sid d ps = { s with streams := Tab.put s.streams sid (s.emptyStream cid d ps), parts := parts } := by
  obtain ⟨parts, h⟩ := s.touchRanges_frame cl cid [(true, rd d 16 8, sCap d * sEsize d)]
  exact ⟨parts, by rw [State.withStream, h]⟩

theorem State.openStream_made {s : State} {cl : Client} {c : Cmd} {ps : List Piece} {sid : Nat}
    (hps : s.streamChecks cl c (s.rangeBytes c 0 64) = .ok ps) (hsid : Tab.freeFrom s.streams 0 16384 = some sid) :
    s.openStream cl c = (s.withStream cl (s.cidOf c) sid (s.rangeBytes c 0 64) ps).finish cl stOk sid 0 := by
  simp only [State.openStream, hps, State.checked_ok, hsid]
  rfl

/-! ### Places in the order (R200) -/

theorem State.updStream_becomes {s : State} {sid : Nat} {x : Stream} (f : Stream → Stream) (hx : Tab.at? s.streams sid = some x) :
    Tab.becomes s.streams (s.updStream sid f).streams sid (f x) :=
  Tab.becomes_upd f hx

/-- Stream `y` is `x` with command `cl` last in its order. -/
structure Stream.Joined (x : Stream) (cl : Client) (y : Stream) : Prop where
  order : y.order = x.order ++ [cl]
  total : y.total = x.total
  first : y.first = x.first

theorem State.joinOrder_joined {s : State} {sid : Nat} {x : Stream} (cl : Client) (hx : Tab.at? s.streams sid = some x) :
    ∃ y, Tab.becomes s.streams (s.joinOrder sid cl).streams sid y ∧ x.Joined cl y :=
  ⟨_, State.updStream_becomes _ hx, rfl, rfl, rfl⟩

/-- Command `cl` takes its place on each of a list of streams. -/
def State.joinEach (s : State) (cl : Client) (sids : List Nat) : State := sids.foldl (fun s i => s.joinOrder i cl) s

theorem State.joinEach_frame (s : State) (cl : Client) (sids : List Nat) :
    s.joinEach cl sids = { s with streams := (s.joinEach cl sids).streams } := by
  refine foldl_keeps (fun t => t = { s with streams := t.streams }) _ sids (fun t i _ ht => ?_) s rfl
  show t.joinOrder i cl = _
  rw [State.joinOrder, State.updStream, ht]

theorem State.joinEach_others {cl : Client} {sids : List Nat} {i : Nat} (s : State) (hi : i ∉ sids) :
    Tab.at? (s.joinEach cl sids).streams i = Tab.at? s.streams i := by
  refine foldl_keeps (fun t => Tab.at? t.streams i = Tab.at? s.streams i) _ sids (fun t j hj ht => ?_) s rfl
  have hne : i ≠ j := fun h => hi (h ▸ hj)
  exact (Tab.at?_upd_ne t.streams _ hne).trans ht

/-- A stream that the list names once has the command once in its order. -/
theorem State.joinEach_joined {s : State} {cl : Client} {sids : List Nat} {i : Nat} {x : Stream} (hnodup : sids.Nodup) (hi : i ∈ sids)
    (hx : Tab.at? s.streams i = some x) : ∃ y, Tab.at? (s.joinEach cl sids).streams i = some y ∧ x.Joined cl y := by
  induction sids generalizing s with
  | nil => cases hi
  | cons j sids ih =>
    obtain ⟨hnew, hnodup⟩ := List.nodup_cons.1 hnodup
    show ∃ y, Tab.at? ((s.joinOrder j cl).joinEach cl sids).streams i = some y ∧ _
    rcases List.mem_cons.1 hi with rfl | hi
    · obtain ⟨y, hy, hjoined⟩ := State.joinOrder_joined cl hx
      exact ⟨y, (State.joinEach_others _ hnew).trans hy.1, hjoined⟩
    · have hne : i ≠ j := fun h => hnew (h ▸ hi)
      exact ih hnodup hi ((Tab.at?_upd_ne s.streams _ hne).trans hx)

/-! ### STREAM_GATHER (R194, R197, R199) -/

theorem exec_streamGather_read {s : State} {q seq : Nat} {c : Cmd} (hc : s.cmd (ckey q seq) = some c) (hagain : c.again = true) (hst : c.stage = 1)
    (hop : c.opcode = 0x22) (hbad : c.operandBad = false) :
    exec (.streamGather q seq) s = .next (s.gatherAccept (ckey q seq) c).settleStreams.pumpAll := by
  show Host.Outcome.next (s.start q seq (fun c => c.opcode == 0x22) State.doGather).pumpAll = _
  rw [State.start_runs _ hc (.inr hagain) (by simp [hop]), State.doGather, if_neg (by simp [hst]), if_pos hst,
    State.withOperands_good _ _ hagain hbad]

/-- Pinning changes tables, and of its command the pins. -/
theorem State.pinAll_pins {s : State} {cl : Client} {c : Cmd} (tids : List Nat) (hc : s.cmd cl = some c) :
    s.pinAll cl tids = { s with tables := (s.pinAll cl tids).tables, cmds := (s.pinAll cl tids).cmds } ∧
      ∃ pins, (s.pinAll cl tids).cmd cl = some { c with pins := c.pins ++ pins } := by
  rw [State.pinAll_eq]
  refine foldl_keeps (fun t => t = { s with tables := t.tables, cmds := t.cmds } ∧ ∃ pins, t.cmd cl = some { c with pins := c.pins ++ pins }) _ _
    ?_ s ⟨rfl, [], by rw [List.append_nil]; exact hc⟩
  rintro t tid - ⟨hframe, pins, hpins⟩
  rw [State.pinTid]
  split
  · exact ⟨hframe, pins, hpins⟩
  next x hx =>
    refine ⟨?_, pins ++ [(tid, x.cur)], ?_⟩
    · rw [State.pinOne, hframe]
      rfl
    · have hone : (t.pinOne cl tid x).cmd cl = some _ := (Tab.becomes_upd _ hpins).1
      simpa using hone

/-- The gather is accepted: it waits for its turn on the streams `sids`, with its output ranges translated. -/
def Cmd.gathering (c : Cmd) (sids : List Nat) (ps : List (List Piece)) : Cmd :=
  { c with stage := 3, items := [], ranges := c.ranges.take 2 ++ ps, work := .gather sids false }

/-- Command `cl` has pinned the tables of its streams and is accepted; it has no place on them yet. -/
def State.gatherPinned (s : State) (cl : Client) (c : Cmd) (tids : List Nat) (rs : List (Bool × Nat × Nat)) (ps : List (List Piece)) : State :=
  ((s.touchRanges cl (s.cidOf c) rs).pinAll cl tids).updCmd cl (fun c' => c'.gathering (s.gSids c).eraseDups ps)

theorem State.gatherPinned_spec {s : State} {cl : Client} {c : Cmd} (tids : List Nat) (rs : List (Bool × Nat × Nat)) (ps : List (List Piece))
    (hc : s.cmd cl = some c) :
    (∃ ts cs parts, s.gatherPinned cl c tids rs ps = { s with tables := ts, cmds := cs, parts := parts }) ∧
      ∃ pins, (s.gatherPinned cl c tids rs ps).cmd cl = some (Cmd.gathering { c with pins := c.pins ++ pins } (s.gSids c).eraseDups ps) := by
  obtain ⟨parts, htouch⟩ := s.touchRanges_frame cl (s.cidOf c) rs
  have hc' : (s.touchRanges cl (s.cidOf c) rs).cmd cl = some c := by rw [htouch]; exact hc
  obtain ⟨hframe, pins, hpins⟩ := State.pinAll_pins tids hc'
  unfold State.gatherPinned
  refine ⟨?_, pins, (Tab.becomes_upd (fun c' : Cmd => c'.gathering (s.gSids c).eraseDups ps) hpins).1⟩
  rw [hframe, htouch]
  exact ⟨_, _, parts, rfl⟩

/-- A gather that passes its checks, and whose table no REBASE holds back, takes its pins and its places. -/
theorem State.gatherAccept_joins {s : State} {cl : Client} {c : Cmd} {xs : List Stream} {rs : List (Bool × Nat × Nat)} {ps : List (List Piece)}
    (hbehind : s.behind c = false) (hchecks : s.gatherChecks cl c = .ok (xs, rs)) (hps : s.mapRanges cl c (s.cidOf c) rs = .ok ps)
    (hidle : ((xs.filter (fun x => !x.row)).map (·.tid)).any (fun t => ((Tab.at? s.tables t).bind (·.rebase)).isSome) = false) :
    s.gatherAccept cl c =
      (s.gatherPinned cl c ((xs.filter (fun x => !x.row)).map (·.tid)) rs ps).joinEach cl (s.gSids c).eraseDups := by
  have hplan : (do let r ← s.gatherChecks cl c; let ps ← s.mapRanges cl c (s.cidOf c) r.2; pure (r, ps)) = Except.ok ((xs, rs), ps) := by
    rw [Chk.ok_bind hchecks, Chk.ok_bind hps]
    rfl
  simp only [State.gatherAccept, hbehind, Bool.false_eq_true, if_false, hplan, State.checked_ok, hidle]
  rfl

/-! ### STREAM_CLOSE and TRIM (R201) -/

/-- The command is accepted to trim stream `sid` to as many of its newest elements as it gives. -/
def Cmd.trimming (c : Cmd) (sid : Nat) : Cmd := { c with phase := .running, stage := 3, items := [], work := .trim sid (c.fld 12 4 0 25) }

/-- The command is accepted to close stream `sid`, after the commands `cls`. -/
def Cmd.closing (c : Cmd) (sid : Nat) (cls : List Client) : Cmd := { c with phase := .running, stage := 3, items := [], work := .close sid cls }

/-- Command `cl` takes its place on stream `sid` as a TRIM. -/
def State.trimJoined (s : State) (cl : Client) (sid : Nat) : State := (s.updCmd cl (·.trimming sid)).joinOrder sid cl

/-- Stream `sid`, which is `x`, is closing, and command `cl` waits for the commands that have used it. -/
def State.closeBegun (s : State) (cl : Client) (sid : Nat) (x : Stream) : State :=
  (s.updStream sid (fun x => { x with closing := true })).updCmd cl (·.closing sid (x.users.filter (· != cl)))

theorem State.doClose_owned {s : State} {cl : Client} {c : Cmd} {x : Stream} (hst : c.stage = 0) (hclean : c.clean = true) (hmode : c.tmode < 2)
    (hown : s.ownStream c = .ok x) :
    State.doClose cl c s =
      if c.tmode = 1 then (s.trimJoined cl (c.fld 8 2 0 14)).settleStreams else (s.closeBegun cl (c.fld 8 2 0 14) x).settleCloses := by
  rw [State.doClose, if_neg (not_not_intro hst), need_true _ (by simp [hclean, hmode]), hown]
  rfl

theorem exec_streamTrim_joins {s : State} {q seq : Nat} {c : Cmd} {x : Stream} (hstarts : s.starts q seq c) (hop : c.opcode = 0x23)
    (hclean : c.clean = true) (hown : s.ownStream c = .ok x) (hmode : c.tmode = 1) :
    exec (.streamTrim q seq) s = .next (s.trimJoined (ckey q seq) (c.fld 8 2 0 14)).settleStreams.pumpAll := by
  obtain ⟨hc, hmay⟩ := hstarts
  show Host.Outcome.next (s.start q seq (fun c => c.opcode == 0x23 && c.tmode == 1) State.doClose).pumpAll = _
  rw [State.start_runs _ hc (.inl hmay) (by simp [hop, hmode]), State.doClose_owned (State.mayStart_stage hmay) hclean (by omega) hown,
    if_pos hmode]

theorem exec_streamClose_closes {s : State} {q seq : Nat} {c : Cmd} {x : Stream} (hstarts : s.starts q seq c) (hop : c.opcode = 0x23)
    (hclean : c.clean = true) (hown : s.ownStream c = .ok x) (hmode : c.tmode = 0) :
    exec (.streamClose q seq) s = .next (s.closeBegun (ckey q seq) (c.fld 8 2 0 14) x).settleCloses.pumpAll := by
  obtain ⟨hc, hmay⟩ := hstarts
  show Host.Outcome.next (s.start q seq (fun c => c.opcode == 0x23 && c.tmode != 1) State.doClose).pumpAll = _
  rw [State.start_runs _ hc (.inl hmay) (by simp [hop, hmode]), State.doClose_owned (State.mayStart_stage hmay) hclean (by omega) hown,
    if_neg (by omega)]

/-! ### The head of the order (R83, R200) -/

/-- Command `cl`, which is `c`, is at the head of the order of stream `sid`, which is `x`, and may be applied. -/
structure State.AtHead (s : State) (sid : Nat) (x : Stream) (cl : Client) (c : Cmd) : Prop where
  stream : Tab.at? s.streams sid = some x
  head : x.order.head? = some cl
  cmd : s.cmd cl = some c
  live : c.cancel = none
  running : c.phase = .running
  turn : s.strTurn cl c x.stn = true

section
variable {s : State} {sid : Nat} {x : Stream} {cl : Client} {c : Cmd}

theorem State.AtHead.trims {i keep : Nat} (h : s.AtHead sid x cl c) (hwork : c.work = .trim i keep) :
    s.streamStep sid = some (s.applyTrim cl sid keep) := by
  simp [State.streamStep, h.stream, h.head, h.cmd, h.live, h.running, hwork, h.turn]

theorem State.AtHead.appends {i skip n : Nat} (h : s.AtHead sid x cl c) (hwork : c.work = .append i skip n) (hback : c.allBack = true) :
    s.streamStep sid = some (s.commitAppend cl c sid skip n) := by
  simp [State.streamStep, h.stream, h.head, h.cmd, h.live, h.running, hwork, hback, h.turn]

/-- Stream `x` trimmed to its newest `keep` elements by command `cl`, which leaves its order. -/
def Stream.trimmed (x : Stream) (cl : Client) (keep : Nat) : Stream :=
  { x with first := max x.first (x.total - keep), order := x.order.filter (· != cl) }

theorem State.applyTrim_trims {keep : Nat} (hx : Tab.at? s.streams sid = some x) :
    s.applyTrim cl sid keep = { s with streams := (s.applyTrim cl sid keep).streams, cmds := (s.applyTrim cl sid keep).cmds,
                                        xlt := (s.applyTrim cl sid keep).xlt } ∧
      Tab.becomes s.streams (s.applyTrim cl sid keep).streams sid (x.trimmed cl keep) := by
  have hfirst := State.updStream_becomes (fun _ => { x with first := max x.first (x.total - keep) }) hx
  simp only [State.applyTrim, hx]
  exact ⟨rfl, Tab.becomes_trans hfirst (State.updStream_becomes _ hfirst.1)⟩

end

/-! ### The statement -/

/-- Settles O22: an open by `State.openStream_made`, a gather by `State.gatherAccept_joins` and its places by `State.joinEach_joined`, TRIM and
CLOSE by what their rows change, and a TRIM's turn by `State.applyTrim_trims` (R182, R183, R185, R197, R200, R201). -/
theorem streamsOpenTrimAndClose : Obligations.StreamsOpenTrimAndClose := by
  unfold Obligations.StreamsOpenTrimAndClose
  refine ⟨?opens, ?gathers, ?trims, ?closes, ?trimmed⟩
  case opens =>
    intro s q seq c ps sid hc hagain hst hop hbad hps hsid
    obtain ⟨parts, hmade⟩ := s.withStream_frame (ckey q seq) (s.cidOf c) sid (s.rangeBytes c 0 64) ps
    have hexec := exec_streamOpen_read hc hagain hst hop hbad
    rw [State.openStream_made hps hsid, hmade] at hexec
    exact ⟨_, s.emptyStream (s.cidOf c) (s.rangeBytes c 0 64) ps, hexec, rfl, Tab.becomes_put .., rfl, rfl, rfl, rfl, rfl, rfl, rfl, rfl, rfl, rfl,
      rfl, rfl, rfl, State.finish_at _ _ c stOk sid 0 hc (Cmd.cancel_of_again hagain)⟩
  case gathers =>
    intro s q seq c xs rs ps hc hagain hst hop hbad hbehind hchecks hps hidle
    obtain ⟨⟨ts, cs, parts, hpinned⟩, pins, hcmd⟩ := State.gatherPinned_spec ((xs.filter (fun x => !x.row)).map (·.tid)) rs ps hc
    have hexec := exec_streamGather_read hc hagain hst hop hbad
    rw [State.gatherAccept_joins hbehind hchecks hps hidle] at hexec
    generalize s.gatherPinned (ckey q seq) c ((xs.filter (fun x => !x.row)).map (·.tid)) rs ps = p at hpinned hcmd hexec
    have hrun := Cmd.running_of_again hagain
    have hjoined := p.joinEach_frame (ckey q seq) (s.gSids c).eraseDups
    refine ⟨p.joinEach (ckey q seq) (s.gSids c).eraseDups, Cmd.gathering { c with pins := c.pins ++ pins } (s.gSids c).eraseDups ps, hexec,
      by rw [hjoined, hpinned], by rw [hjoined]; exact hcmd, hrun, rfl, rfl, rfl, rfl, fun i hi x hx => ?_⟩
    obtain ⟨y, hy, hxy⟩ := State.joinEach_joined (s := p) (cl := ckey q seq) (nodup_eraseDups (s.gSids c)) (List.mem_eraseDups.2 hi)
      (by rw [hpinned]; exact hx)
    exact ⟨y, hy, hxy.order, hxy.total, hxy.first⟩
  case trims =>
    intro s q seq c x hstarts hop hclean hown hx hmode
    obtain ⟨y, hy, hxy⟩ := State.joinOrder_joined (s := s.updCmd (ckey q seq) (·.trimming (c.fld 8 2 0 14))) (ckey q seq) hx
    exact ⟨_, y, exec_streamTrim_joins hstarts hop hclean hown hmode, rfl, Tab.becomes_upd _ hstarts.1, hy, hxy.order, hxy.total, hxy.first⟩
  case closes =>
    intro s q seq c x hstarts hop hclean hown hx hmode
    exact ⟨_, exec_streamClose_closes hstarts hop hclean hown hmode, rfl, State.updStream_becomes (fun x => { x with closing := true }) hx,
      Tab.becomes_upd _ hstarts.1⟩
  case trimmed =>
    intro s sid x cl c i keep hx hhead hc hlive hrun hwork hturn
    obtain ⟨hframe, hstream⟩ := State.applyTrim_trims (cl := cl) (keep := keep) hx
    exact ⟨_, State.AtHead.trims ⟨hx, hhead, hc, hlive, hrun, hturn⟩ hwork, hframe, hstream⟩

end Sys2Proof.Machine
end

section
/-! Appends to a stream and the positions that a gather takes from it (R187 to R195, R200). -/
namespace Sys2Proof.Machine

/-! ### STREAM_APPEND (R189, R190, R193) -/

/-- How many elements an append brings. -/
def Cmd.apCount (c : Cmd) : Nat := c.fld 12 4 0 25

/-- The stride of its source: the stream's own where it gives none. -/
def Cmd.apStride (c : Cmd) (x : Stream) : Nat := if c.num 16 4 = 0 then x.estride else c.num 16 4

/-- The source, as a range to translate. -/
def Cmd.apRanges (c : Cmd) (x : Stream) : List (Bool × Nat × Nat) :=
  [(false, c.num 24 8, if c.apCount = 0 then 0 else (c.apCount - 1) * c.apStride x + x.elemB)]

/-- Append `c` of command `cl` to stream `x` passes every check of R193 but the last, for room; its source is the range `ps`. -/
structure State.AppendInOrder (s : State) (cl : Client) (c : Cmd) (x : Stream) (ps : List (List Piece)) : Prop where
  stage : c.stage = 0
  clean : c.clean = true
  count : c.apCount ≤ 2 ^ 24
  aligned : c.num 16 4 % 64 = 0
  own : s.ownStream c = .ok x
  strided : if x.row = true then c.num 16 4 = 0 ∨ x.elemB ≤ c.num 16 4 else c.num 16 4 = 0
  mapped : s.mapRanges cl c (s.cidOf c) (c.apRanges x) = .ok ps

/-- What of the append is skipped, what is written, and whether it is cut, once the commands before it have been applied (R188). -/
def State.apPlan (s : State) (c : Cmd) (x : Stream) : Nat × Nat × Bool := (s.projected x).plan c.apCount

/-- A STRICT stream has room for all of it, or it may be cut (R188). -/
def State.apFits (s : State) (c : Cmd) (x : Stream) : Bool := !(x.strict && (s.apPlan c x).2.2 && !bit c.flags 1)

/-- Command `cl` is accepted as an append to stream `sid`, which is `x`, and takes its place; the cache hits of its source are counted. -/
def State.appendJoined (s : State) (cl : Client) (c : Cmd) (sid : Nat) (x : Stream) (ps : List (List Piece)) : State :=
  ((s.touchRanges cl (s.cidOf c) (c.apRanges x)).updCmd cl (fun c' =>
    { c' with ranges := ps, trunc := (s.apPlan c x).2.2, work := .append sid (s.apPlan c x).1 (s.apPlan c x).2.1 })).joinOrder sid cl

/-- The reads of the elements that an append writes. -/
def State.apReads (s : State) (c : Cmd) (x : Stream) (ps : List (List Piece)) : List Item :=
  itemsOf false (cutPieces ((ps[0]?).getD []) ((s.apPlan c x).1 * c.apStride x)
    (if (s.apPlan c x).2.1 = 0 then 0 else ((s.apPlan c x).2.1 - 1) * c.apStride x + x.elemB))

/-- A last check decides alone. -/
theorem State.checked_need_pure {α : Type} (s : State) (cl : Client) (b : Bool) (st : Nat) (a : α) (k : α → State) :
    s.checked cl (do need b st; pure a) k = s.checked cl (need b st) (fun _ => k a) := by
  cases b <;> rfl

section
variable {s : State} {cl : Client} {c : Cmd} {x : Stream} {ps : List (List Piece)}

/-- The fields of the envelope are in order. -/
theorem State.AppendInOrder.fields (h : s.AppendInOrder cl c x ps) :
    (c.clean && decide (c.fld 12 4 0 25 ≤ 2 ^ 24) && c.num 16 4 % 64 == 0) = true := by
  have hcount : c.fld 12 4 0 25 ≤ 2 ^ 24 := h.count
  simp only [h.clean, hcount, h.aligned, decide_true, Bool.true_and, beq_self_eq_true]

/-- The stride of the source fits the stream's elements. -/
theorem State.AppendInOrder.sourced (h : s.AppendInOrder cl c x ps) :
    (if x.row = true then c.num 16 4 == 0 || decide (x.elemB ≤ c.num 16 4) else c.num 16 4 == 0) = true := by
  have hstrided := h.strided
  split at hstrided <;> simp_all

/-- Such an append takes its place and reads its source if it fits. -/
theorem State.AppendInOrder.doAppend_eq (h : s.AppendInOrder cl c x ps) :
    State.doAppend cl c s = s.checked cl (need (s.apFits c x) stStreamFull) (fun _ =>
      ((s.appendJoined cl c (c.fld 8 2 0 14) x ps).fetchItems cl (s.cidOf c) 3 (s.apReads c x ps)).settleStreams) := by
  rw [State.doAppend, if_neg (not_not_intro h.stage)]
  dsimp only
  rw [Chk.ok_bind (need_true _ h.fields), Chk.ok_bind h.own, Chk.ok_bind (need_true _ h.sourced)]
  show s.checked cl (s.mapRanges cl c (s.cidOf c) (c.apRanges x) >>= _) _ = _
  rw [Chk.ok_bind h.mapped]
  exact State.checked_need_pure ..

/-- With room, or where it may be cut, it fits. -/
theorem State.AppendInOrder.joins (h : s.AppendInOrder cl c x ps)
    (hroom : x.strict = true → (s.apPlan c x).2.2 = true → bit c.flags 1 = true) :
    State.doAppend cl c s =
      ((s.appendJoined cl c (c.fld 8 2 0 14) x ps).fetchItems cl (s.cidOf c) 3 (s.apReads c x ps)).settleStreams := by
  have hfits : s.apFits c x = true := by
    rw [State.apFits, Bool.not_eq_true', ← Bool.not_eq_true]
    simpa using hroom
  rw [h.doAppend_eq, need_true _ hfits, State.checked_ok]

/-- A STRICT append that does not fit and may not be cut fails. -/
theorem State.AppendInOrder.full (h : s.AppendInOrder cl c x ps) (hstrict : x.strict = true) (hcut : (s.apPlan c x).2.2 = true)
    (hflag : bit c.flags 1 = false) : State.doAppend cl c s = s.finish cl stStreamFull 0 0 := by
  have hfits : s.apFits c x = false := by simp [State.apFits, hstrict, hcut, hflag]
  rw [h.doAppend_eq, need_false _ hfits, State.checked_error, State.stop_fail_none]

end

theorem exec_streamAppend_runs {s : State} {q seq : Nat} {c : Cmd} (hstarts : s.starts q seq c) (hop : c.opcode = 0x21) :
    exec (.streamAppend q seq) s = .next (State.doAppend (ckey q seq) c s).pumpAll :=
  congrArg (fun t : State => Host.Outcome.next t.pumpAll) (State.start_runs _ hstarts.1 (.inl hstarts.2) (by simp [hop]))

theorem State.appendJoined_spec {s : State} {cl : Client} {c : Cmd} {sid : Nat} {x : Stream} (ps : List (List Piece)) (hc : s.cmd cl = some c)
    (hx : Tab.at? s.streams sid = some x) :
    (∃ cs ss parts, s.appendJoined cl c sid x ps = { s with cmds := cs, streams := ss, parts := parts }) ∧
      Tab.becomes s.cmds (s.appendJoined cl c sid x ps).cmds cl
        { c with ranges := ps, trunc := (s.apPlan c x).2.2, work := .append sid (s.apPlan c x).1 (s.apPlan c x).2.1 } ∧
      ∃ y, Tab.becomes s.streams (s.appendJoined cl c sid x ps).streams sid y ∧ x.Joined cl y := by
  obtain ⟨parts, htouch⟩ := s.touchRanges_frame cl (s.cidOf c) (c.apRanges x)
  unfold State.appendJoined
  rw [htouch]
  exact ⟨⟨_, _, parts, rfl⟩, Tab.becomes_upd _ hc, State.joinOrder_joined cl hx⟩

/-! ### Its commit (R191, R192, R494) -/

/-- TOTAL of the stream after `n` more elements. -/
def Stream.totalAfter (x : Stream) (n : Nat) : Nat := min (x.total + n) (2 ^ 64 - 1)

/-- Stream `x` with TOTAL at `tot`, and without command `cl` in its order. -/
def Stream.grown (x : Stream) (cl : Client) (tot : Nat) : Stream := { x with total := tot, order := x.order.filter (· != cl) }

/-- Command `cl` has grown stream `sid` and left its order; what it wrote may be poisoned. -/
def State.withGrown (s : State) (cl : Client) (sid tot : Nat) (poison : Bool) : State :=
  ((s.updStream sid (fun x => { x with total := tot })).popOrder sid cl).updCmd cl (fun c => { c with poison := c.poison || poison })

theorem State.withGrown_streams {s : State} {sid : Nat} {x : Stream} (cl : Client) (tot : Nat) (poison : Bool) (hx : Tab.at? s.streams sid = some x) :
    Tab.becomes s.streams (s.withGrown cl sid tot poison).streams sid (x.grown cl tot) := by
  have htotal := State.updStream_becomes (fun x => { x with total := tot }) hx
  exact Tab.becomes_trans htotal (State.updStream_becomes (fun x => { x with order := x.order.filter (· != cl) }) htotal.1)

theorem State.withGrown_cmd {s : State} {cl : Client} {c : Cmd} (sid tot : Nat) (poison : Bool) (hc : s.cmd cl = some c) :
    (s.withGrown cl sid tot poison).cmd cl = some { c with poison := c.poison || poison } :=
  (Tab.becomes_upd (fun c : Cmd => { c with poison := c.poison || poison }) hc).1

/-- Writing the elements moves memories, and records the first sector that the station cannot reach. -/
theorem State.commitAppend_writes {s : State} {sid : Nat} {x : Stream} (cl : Client) (c : Cmd) (skip n : Nat)
    (hx : Tab.at? s.streams sid = some x) :
    ∃ w poison st, s.writesMoved w ∧
      s.commitAppend cl c sid skip n = (w.withGrown cl sid (x.totalAfter n) poison).finish cl st n (x.totalAfter n % 2 ^ 32) := by
  unfold State.commitAppend
  split
  case h_1 hnone => rw [hx] at hnone; cases hnone
  case h_2 y hy =>
    obtain rfl : x = y := Option.some.inj (hx.symm.trans hy)
    extract_lets cid src st els hole put good written recorded tot grown
    have hput : ∀ (l : List (Nat × List Byte × Bool)) (t : State), t.writesMoved (l.foldl put t) := fun l t =>
      State.writesMoved_of_stnMem (foldl_portsMoved_stnMem (fun _ _ => State.pwrite_portsMoved ..) l t)
    have hwritten : s.writesMoved written := (hput _ s).trans (hput _ good)
    refine ⟨recorded, els.any (fun e => e.2.2), _, ?_, rfl⟩
    show s.writesMoved (match hole with | some f => _ | none => written)
    clear_value hole
    cases hole with
    | some f => exact hwritten.trans (written.postFor_writesMoved _ _)
    | none => exact hwritten

theorem State.commitAppend_grows {s : State} {cl : Client} {c : Cmd} {sid : Nat} {x : Stream} (skip n : Nat) (hx : Tab.at? s.streams sid = some x)
    (hc : s.cmd cl = some c) (hlive : c.cancel = none) :
    Tab.becomes s.streams (s.commitAppend cl c sid skip n).streams sid (x.grown cl (x.totalAfter n)) ∧
      (∃ d, (s.commitAppend cl c sid skip n).cmd cl = some d ∧ d.phase = .done ∧ d.count = n % 2 ^ 32) ∧
      (s.commitAppend cl c sid skip n).tables = s.tables := by
  obtain ⟨w, poison, st, hw, hcommit⟩ := State.commitAppend_writes cl c skip n hx
  have hxw : Tab.at? w.streams sid = some x := by rw [hw.streams]; exact hx
  have hcw : w.cmd cl = some c := by rw [State.cmd, hw.cmds]; exact hc
  have hdone := State.finish_at _ cl _ st n (x.totalAfter n % 2 ^ 32) (State.withGrown_cmd sid (x.totalAfter n) poison hcw) hlive
  rw [hcommit, ← hw.streams, ← hw.tables]
  have hstreams := State.withGrown_streams cl (x.totalAfter n) poison hxw
  exact ⟨hstreams, ⟨_, hdone.1, rfl, rfl⟩, rfl⟩

/-! ### The positions of a sequence (R187, R195) -/

/-- How many elements a sequence takes. -/
def Stream.taken (x : Stream) (k off : Nat) : Nat := if x.total - off ≤ x.low then 0 else min k (x.total - off - x.low)

theorem Stream.fill_eq (x : Stream) (k off align : Nat) :
    x.fill k off align = (List.range (x.taken k off)).map (fun i =>
      (x.total - off - x.taken k off + i, if align = 0 then k - x.taken k off + i else x.taken k off - 1 - i)) := by
  have htaken : (if k = 0 ∨ x.total ≤ off ∨ x.total - off ≤ x.low then 0 else min k (x.total - off - x.low)) = x.taken k off := by
    unfold Stream.taken
    split <;> split <;> omega
  simp only [Stream.fill, htaken]

/-- At most K elements are taken, and no more than are visible before the offset. -/
theorem Stream.taken_le (x : Stream) (k off : Nat) : x.taken k off ≤ k ∧ x.taken k off ≤ x.total - off - x.low := by
  unfold Stream.taken
  split <;> omega

theorem Stream.fill_visible {x : Stream} {k off align : Nat} {e : Nat × Nat} (he : e ∈ x.fill k off align) :
    x.low ≤ e.1 ∧ e.1 < x.total - off ∧ e.2 < k := by
  rw [Stream.fill_eq] at he
  obtain ⟨i, hi, rfl⟩ := List.mem_map.1 he
  have hlt := List.mem_range.1 hi
  obtain ⟨hk, hvisible⟩ := x.taken_le k off
  dsimp only
  refine ⟨by omega, by omega, ?slot⟩
  split <;> omega

theorem Stream.fill_positions (x : Stream) (k off align : Nat) :
    (x.fill k off align).map (·.1) = (List.range (x.taken k off)).map (x.total - off - x.taken k off + ·) := by
  rw [Stream.fill_eq, List.map_map]
  rfl

theorem Stream.fill_rises (x : Stream) (k off align : Nat) : ((x.fill k off align).map (·.1)).Pairwise (· < ·) := by
  rw [Stream.fill_positions, List.pairwise_map]
  exact List.pairwise_lt_range.imp fun h => Nat.add_lt_add_left h _

/-- The newest visible element before the offset is taken. -/
theorem Stream.newest_mem_fill {x : Stream} {k off : Nat} (align : Nat) (hk : 0 < k) (hlow : x.low < x.total - off) :
    x.total - off - 1 ∈ (x.fill k off align).map (·.1) := by
  have htaken : x.taken k off = min k (x.total - off - x.low) := if_neg (Nat.not_le.2 hlow)
  rw [Stream.fill_positions]
  exact List.mem_map.2 ⟨x.taken k off - 1, List.mem_range.2 (by omega), by omega⟩

/-! ### The statement -/

/-- Settles O23: acceptance by `State.AppendInOrder.joins` and `State.AppendInOrder.full`, the commit by `State.commitAppend_grows`, and the
positions of a sequence by `Stream.fill_eq` (R187 to R193, R195, R200); that TRIMs accepted before count in the room is log entry 51. -/
theorem appendsAndGathersTakeTheirTurn : Obligations.AppendsAndGathersTakeTheirTurn := by
  unfold Obligations.AppendsAndGathersTakeTheirTurn
  refine ⟨⟨?joins, ?full, ?commits⟩, ?positions⟩
  case joins =>
    intro s q seq c x ps hstarts hop hclean n st sid es hn hst hown hx hstrided hps hroom pl
    have hok : s.AppendInOrder (ckey q seq) c x ps := ⟨State.mayStart_stage hstarts.2, hclean, hn, hst, hown, hstrided, hps⟩
    obtain ⟨⟨cs, ss, parts, hframe⟩, hcmds, y, hy, hxy⟩ := State.appendJoined_spec ps hstarts.1 hx
    exact ⟨s.appendJoined (ckey q seq) c sid x ps, by rw [exec_streamAppend_runs hstarts hop, hok.joins hroom]; rfl, by rw [hframe], hcmds, y, hy,
      hxy.order, hxy.total, hxy.first⟩
  case full =>
    intro s q seq c x ps hstarts hop hclean n st es hn hst hown hstrided hps hstrict hcut hflag
    have hok : s.AppendInOrder (ckey q seq) c x ps := ⟨State.mayStart_stage hstarts.2, hclean, hn, hst, hown, hstrided, hps⟩
    exact ⟨_, by rw [exec_streamAppend_runs hstarts hop, hok.full hstrict hcut hflag], rfl,
      State.finish_at _ _ c stStreamFull 0 0 hstarts.1 (State.mayStart_cancel hstarts.2)⟩
  case commits =>
    intro s sid x cl c i skip n hx hhead hc hlive hrun hwork hback hturn
    obtain ⟨hstream, hdone, htables⟩ := State.commitAppend_grows skip n hx hc hlive
    exact ⟨_, x.grown cl (x.totalAfter n), State.AtHead.appends ⟨hx, hhead, hc, hlive, hrun, hturn⟩ hwork hback, hstream, rfl, rfl, rfl, rfl,
      hdone, htables⟩
  case positions =>
    intro x k off align
    exact ⟨by rw [Stream.fill_eq, List.length_map, List.length_range]; rfl, fun e he => Stream.fill_visible he, x.fill_rises k off align,
      Stream.newest_mem_fill align⟩

end Sys2Proof.Machine
end

section
/-! The K smallest keys of a scan (R221, R222): what a merge keeps, how many, and how many pairs it counts as excluded. -/
namespace Sys2Proof.Machine

/-! ### Putting a candidate in its place -/

theorem candInsert_length (x : Cand) (l : List Cand) : (candInsert x l).length = l.length + 1 := by
  induction l with
  | nil => rfl
  | cons y ys ih =>
    unfold candInsert
    split
    · rfl
    · rw [List.length_cons, ih, List.length_cons]

theorem mem_candInsert {x y : Cand} {l : List Cand} (h : y ∈ candInsert x l) : y = x ∨ y ∈ l := by
  induction l with
  | nil => exact .inl (List.mem_singleton.1 h)
  | cons z zs ih =>
    unfold candInsert at h
    split at h
    · exact List.mem_cons.1 h
    · rcases List.mem_cons.1 h with rfl | h
      · exact .inr (by simp)
      · exact (ih h).imp_right (List.mem_cons_of_mem z)

/-! ### The K smallest -/

/-- A list of at most K stays one of at most K, and grows to K as candidates come. -/
theorem foldl_candInsert_length {k : Nat} (l r : List Cand) (hr : r.length ≤ k) :
    (l.foldl (fun r x => (candInsert x r).take k) r).length = min k (r.length + l.length) := by
  induction l generalizing r with
  | nil => exact (Nat.min_eq_right hr).symm
  | cons x l ih =>
    have hlen : ((candInsert x r).take k).length = min k (r.length + 1) := by rw [List.length_take, candInsert_length]
    rw [List.foldl_cons, ih _ (hlen ▸ Nat.min_le_left ..), hlen, List.length_cons]
    omega

theorem topK_length (k : Nat) (l : List Cand) : (topK k l).length = min k l.length :=
  (foldl_candInsert_length l [] (Nat.zero_le k)).trans (by rw [List.length_nil, Nat.zero_add])

/-- Nothing is kept but what was given. -/
theorem mem_of_mem_topK {k : Nat} {l : List Cand} {x : Cand} (h : x ∈ topK k l) : x ∈ l := by
  refine foldl_keeps (fun r => ∀ y ∈ r, y ∈ l) _ l ?_ [] (fun y hy => nomatch hy) x h
  intro r z hz hr y hy
  rcases mem_candInsert (List.mem_of_mem_take hy) with rfl | hy
  · exact hz
  · exact hr y hy

/-! ### Joining two parts -/

/-- Of lists one for each query, those of query `q` are its own. -/
theorem filter_flatMap_query {f : Nat → List Cand} (hf : ∀ q, ∀ x ∈ f q, x.q = q) {qs : List Nat} (hqs : qs.Nodup) {q : Nat} (hq : q ∈ qs) :
    (qs.flatMap f).filter (fun x => x.q == q) = f q := by
  have hown : (f q).filter (fun x => x.q == q) = f q := List.filter_eq_self.2 fun x hx => beq_iff_eq.2 (hf q x hx)
  have hothers : ∀ {l : List Nat}, q ∉ l → (l.flatMap f).filter (fun x => x.q == q) = [] := by
    intro l hl
    refine List.filter_eq_nil_iff.2 fun x hx hxq => ?_
    obtain ⟨j, hj, hxj⟩ := List.mem_flatMap.1 hx
    exact hl ((hf j x hxj).symm.trans (beq_iff_eq.1 hxq) ▸ hj)
  induction qs with
  | nil => nomatch hq
  | cons j qs ih =>
    obtain ⟨hj, hqs⟩ := List.nodup_cons.1 hqs
    rw [List.flatMap_cons, List.filter_append]
    rcases List.mem_cons.1 hq with rfl | hq
    · rw [hown, hothers hj, List.append_nil]
    · have hjq : q ≠ j := fun h => hj (h ▸ hq)
      have hnone : (f j).filter (fun x => x.q == q) = [] :=
        List.filter_eq_nil_iff.2 fun x hx hxq => hjq ((beq_iff_eq.1 hxq).symm.trans (hf j x hx))
      rw [hnone, ih hqs hq, List.nil_append]

/-- A join keeps, of each query, the K smallest keys of both parts. -/
theorem Tally.join_query (a b : Tally) (k : Nat) {n q : Nat} (hq : q < n) :
    (a.join k (List.range n) b).kept.filter (fun x => x.q == q) = topK k ((a.kept ++ b.kept).filter (fun x => x.q == q)) :=
  filter_flatMap_query (f := fun q => topK k ((a.kept ++ b.kept).filter (fun x => x.q == q)))
    (fun _ _ hx => beq_iff_eq.1 (List.mem_filter.1 (mem_of_mem_topK hx)).2) List.nodup_range (List.mem_range.2 hq)

@[simp] theorem Tally.join_excl (a b : Tally) (k : Nat) (qs : List Nat) : (a.join k qs b).excl = a.excl + b.excl := rfl

/-- Joined to a part that has kept nothing, a part gives as many of a query as it has, up to K. -/
theorem Tally.join_query_length {a : Tally} (b : Tally) (k : Nat) {n q : Nat} (ha : a.kept = []) (hq : q < n) :
    ((a.join k (List.range n) b).kept.filter (fun x => x.q == q)).length = min k (b.kept.filter (fun x => x.q == q)).length := by
  rw [Tally.join_query a b k hq, topK_length, ha, List.nil_append]

end Sys2Proof.Machine
end

section
/-! SCAN_LUT_BUILD (R209 to R212): the buffer that it writes, and the LUT bank that its end gives back. -/
namespace Sys2Proof

/-! ### Counting after a change of one entry -/

theorem Tab.cnt_cons {α : Type} (k : Nat) (v : α) (t : Tab α) (p : Nat → α → Bool) :
    Tab.cnt ((k, v) :: t) p = Tab.cnt t p + (p k v).toNat := by
  unfold Tab.cnt
  cases h : p k v <;> simp [h]

section
variable {α : Type} {k : Nat} {p : Nat → α → Bool} {f : α → α}

/-- What is not counted once it has changed adds nothing. -/
theorem Tab.cnt_upd_le (t : Tab α) (hf : ∀ a, p k (f a) = false) : Tab.cnt (Tab.upd t k f) p ≤ Tab.cnt t p := by
  induction t with
  | nil => exact Nat.le_refl _
  | cons e t ih =>
    obtain ⟨j, a⟩ := e
    by_cases hk : k = j
    · subst hk
      simp only [Tab.upd, if_true, Tab.cnt_cons, hf, Bool.toNat_false]
      omega
    · simp only [Tab.upd, hk, if_false, Tab.cnt_cons]
      omega

/-- Where it was counted before, the count falls. -/
theorem Tab.cnt_upd_lt {t : Tab α} {v : α} (hv : Tab.at? t k = some v) (hp : p k v = true) (hf : ∀ a, p k (f a) = false) :
    Tab.cnt (Tab.upd t k f) p < Tab.cnt t p := by
  induction t with
  | nil => nomatch hv
  | cons e t ih =>
    obtain ⟨j, a⟩ := e
    by_cases hk : k = j
    · subst hk
      obtain rfl : a = v := by simpa [Tab.at?] using hv
      have hle := Tab.cnt_upd_le t hf
      simp only [Tab.upd, if_true, Tab.cnt_cons, hf, hp, Bool.toNat_false, Bool.toNat_true]
      omega
    · have hlt := ih (by simpa [Tab.at?, hk] using hv)
      simp only [Tab.upd, hk, if_false, Tab.cnt_cons]
      omega

end

end Sys2Proof

namespace Sys2Proof.Machine

/-! ### Entries of a LUT buffer (R209, R211) -/

theorem encodeRow_f16_length (sat : Bool) (v : Word) : (encodeRow 0x03 sat [v]).length = 2 := by
  simp [encodeRow, fmtMx, fmtFp, fmtBits, packElems, ceilDiv]

/-- Of lists that all have `n` elements, joined, the length is a product. -/
theorem length_flatMap_const {α β : Type} {f : α → List β} {n : Nat} (l : List α) (hf : ∀ a ∈ l, (f a).length = n) :
    (l.flatMap f).length = l.length * n := by
  induction l with
  | nil => exact (Nat.zero_mul n).symm
  | cons a l ih =>
    rw [List.flatMap_cons, List.length_append, hf a List.mem_cons_self, ih fun b hb => hf b (List.mem_cons_of_mem a hb), List.length_cons,
      Nat.succ_mul, Nat.add_comm]

theorem State.lutAll_length (s : State) (c : Cmd) : (s.lutAll c).length = c.sQ * c.sM * c.sE := by
  unfold State.lutAll
  extract_lets d es qs ys
  rw [length_flatMap_const (n := c.sM * c.sE), List.length_range, Nat.mul_assoc]
  intro q _
  rw [length_flatMap_const (n := c.sE), List.length_range]
  intro m _
  rw [List.length_map, List.length_range]

theorem State.lutAll_entry_length {s : State} {c : Cmd} {e : List Byte × Bool} (he : e ∈ s.lutAll c) : e.1.length = 2 := by
  simp only [State.lutAll, List.mem_flatMap, List.mem_map] at he
  obtain ⟨q, -, m, -, k, -, rfl⟩ := he
  exact encodeRow_f16_length true _

/-- The entries fill the buffer. -/
theorem State.lutAll_bytes_length (s : State) (c : Cmd) : ((s.lutAll c).flatMap (·.1)).length = c.lutB := by
  rw [length_flatMap_const _ fun e he => State.lutAll_entry_length he, State.lutAll_length, Cmd.lutB, Nat.mul_comm]

/-! ### Host memory (R52, R348) -/

theorem Mem.write_nil (m : Mem) (a : Nat) (p : Bool) : m.write a [] p = m := rfl

/-- A write for a function that may issue requests is in host memory. -/
theorem State.hostWrite_host {s : State} {fn : Nat} (pasid : Option Nat) (a : Nat) (bs : List Byte) (p : Bool) (hfn : s.fnOk fn = true) :
    (s.hostWrite fn pasid a bs p).host = s.host.write a bs p := by
  unfold State.hostWrite
  split
  · rfl
  · next h =>
    have hbs : bs = [] := by simpa [hfn] using h
    rw [hbs, Mem.write_nil]

theorem State.hostWrite_frame (s : State) (fn : Nat) (pasid : Option Nat) (a : Nat) (bs : List Byte) (p : Bool) :
    s.hostWrite fn pasid a bs p = { s with host := (s.hostWrite fn pasid a bs p).host, out := (s.hostWrite fn pasid a bs p).out } := by
  rcases s.hostWrite_cases fn pasid a bs p with h | ⟨-, h⟩ <;> rw [h]

/-- A write that fills one stretch of host memory is one write for the context's function. -/
theorem State.pwrite_host (s : State) (cl : Client) (cid : Nat) {a ca : Nat} {wr perm : Bool} {bs : List Byte} {n : Nat} (p : Bool)
    (hn : bs.length = n) :
    s.pwrite cl cid [{ off := 0, len := n, tgt := some ⟨true, 0, a⟩, ca := ca, wr := wr, perm := perm }] 0 bs p =
      s.hostWrite (s.reqId cid).1 (s.reqId cid).2 a bs p := by
  subst hn
  rcases bs with _ | ⟨b, bs⟩
  · simp [State.pwrite, State.hostWrite]
  · simp [State.pwrite, State.twrite]

/-! ### LUT banks (R219) -/

/-- A command holds a LUT bank of station `n`. -/
def Cmd.holdsBank (c : Cmd) (n : Nat) : Bool :=
  match c.work with
  | .scan w => c.phase == .running && w.per.any (fun x => x.stn == n && x.bank)
  | _ => false

theorem State.banksHeld_eq (s : State) (n : Nat) : s.banksHeld n = Tab.cnt s.cmds (fun _ c => c.holdsBank n) := rfl

theorem Cmd.holdsBank_scan {c : Cmd} {w : ScanW} (n : Nat) (hw : c.work = .scan w) :
    c.holdsBank n = (c.phase == .running && w.per.any (fun x => x.stn == n && x.bank)) := by
  simp only [Cmd.holdsBank, hw]

/-- A command whose status is decided holds none. -/
theorem Cmd.holdsBank_done {c : Cmd} (n : Nat) (h : c.phase = .done) : c.holdsBank n = false := by
  unfold Cmd.holdsBank
  split
  · simp [h]
  · rfl

/-- A command that ends gives back the banks it held. -/
theorem State.banksHeld_lt {s t : State} {cl : Client} {c : Cmd} {f : Cmd → Cmd} {n : Nat} (hc : s.cmd cl = some c) (hheld : c.holdsBank n = true)
    (ht : t.cmds = Tab.upd s.cmds cl f) (hf : ∀ d, (f d).phase = .done) : t.banksHeld n < s.banksHeld n := by
  rw [State.banksHeld_eq, State.banksHeld_eq, ht]
  exact Tab.cnt_upd_lt hc hheld fun d => Cmd.holdsBank_done n (hf d)

/-! ### The end of a command -/

/-- What a decided status makes of a command: `State.finish`, as a change of the command. -/
def Cmd.finished (st count aux : Nat) (c : Cmd) : Cmd :=
  match c.cancel with
  | some k => { c with phase := .done, status := k, poison := c.poison || c.left }
  | none => { c with phase := .done, status := st, count := count % 2 ^ 32, aux := min aux (2 ^ 32 - 1) }

theorem State.finish_cmds (s : State) (cl : Client) (st count aux : Nat) :
    (s.finish cl st count aux).cmds = Tab.upd s.cmds cl (Cmd.finished st count aux) := rfl

@[simp] theorem Cmd.finished_phase (st count aux : Nat) (c : Cmd) : (c.finished st count aux).phase = .done := by
  unfold Cmd.finished
  split <;> rfl

/-! ### The build's rows -/

theorem exec_scanLutBuild_runs {s : State} {q seq : Nat} {c : Cmd} (hc : s.cmd (ckey q seq) = some c) (hruns : s.mayStart c = true ∨ c.again = true)
    (hop : c.opcode = 0x29) : exec (.scanLutBuild q seq) s = .next (State.doLutBuild (ckey q seq) c s) :=
  congrArg Host.Outcome.next (State.start_runs _ hc hruns (by simp [hop]))

theorem exec_scanPq_runs {s : State} {q seq : Nat} {c : Cmd} (hc : s.cmd (ckey q seq) = some c) (hruns : s.mayStart c = true ∨ c.again = true)
    (hop : c.opcode = 0x28) : exec (.scanPq q seq) s = .next (State.doScan (ckey q seq) c s) :=
  congrArg Host.Outcome.next (State.start_runs _ hc hruns (by simp [hop]))

/-- A build whose reads are back and good writes its whole buffer and ends. -/
theorem State.doLutBuild_read {s : State} {c : Cmd} (cl : Client) (hst : c.stage = 3) (hagain : c.again = true) (hbad : c.operandBad = false) :
    State.doLutBuild cl c s =
      (s.pwrite cl (s.cidOf c) ((c.ranges[2]?).getD []) 0 ((s.lutAll c).flatMap (·.1)) false).finish cl stOk (c.sQ * c.sM * c.sE)
        ((s.lutAll c).filter (·.2)).length := by
  simp [State.doLutBuild, State.lutWrite, hst, hbad, Cmd.cancel_of_again hagain]

/-- Without the scan unit a build fails its first check (R218). -/
theorem State.doLutBuild_absent {s : State} {c : Cmd} (cl : Client) (hst : c.stage = 0) (hscan : s.build.scan = false) :
    State.doLutBuild cl c s = s.finish cl stUnitAbsent 0 0 := by
  rw [State.doLutBuild, if_pos hst, need_false _ hscan]
  rfl

/-- Without the scan unit a scan fails its first check (R218). -/
theorem State.doScan_absent {s : State} {c : Cmd} (cl : Client) (hst : c.stage = 0) (hscan : s.build.scan = false) :
    State.doScan cl c s = s.finish cl stUnitAbsent 0 0 := by
  rw [State.doScan, hst, need_false _ hscan]
  rfl

end Sys2Proof.Machine
end

section
/-! Writes of a command's results (R312, R313, R364, R365): the credits of the fetch engine stay as they are (R81). -/
namespace Sys2Proof.Machine

@[simp] theorem State.hostWrite_arb (s : State) (fn : Nat) (pasid : Option Nat) (a : Nat) (bs : List Byte) (p : Bool) :
    (s.hostWrite fn pasid a bs p).arb = s.arb := by rw [State.hostWrite_frame]

@[simp] theorem State.pbRecord_system_arb (s : State) (r : FaultRec) : (s.pbRecord 48 r).arb = s.arb := by
  simp only [State.pbRecord]
  split
  · simp [State.pbPut]
  · simp [State.pbLose]

@[simp] theorem State.pbBatch_system_arb (s : State) : (s.pbBatch 48).arb = s.arb := by
  simp only [State.pbBatch]
  split
  · rfl
  · rw [State.raise_arb, State.updPb_arb]
    exact foldl_keeps (fun t => t.arb = s.arb) (fun s r => s.pbRecord 48 r) _ (fun t r _ ht => (t.pbRecord_system_arb r).trans ht) s rfl

@[simp] theorem State.post_system_arb (s : State) (r : FaultRec) : (s.post 48 r).arb = s.arb := by
  simp only [State.post]
  split
  · split
    · exact State.pbBatch_system_arb _
    · rfl
  · rfl

@[simp] theorem State.isoFail_arb (s : State) (r : Req) : (s.isoFail r).arb = s.arb := by
  simp only [State.isoFail]
  split <;> simp [State.elog]

/-- Only reads of operand lists are charged to a partition (R81). -/
theorem State.issue_arb (s : State) {r : Req} (hlist : r.list = false) : (s.issue r).arb = s.arb := by
  have hround : s.listRound r = s := by simp [State.listRound, hlist]
  unfold State.issue
  split
  · rfl
  split
  · exact s.isoFail_arb r
  split
  · rfl
  rw [hround]
  simp only [hlist, Bool.false_and, Bool.false_eq_true, if_false]
  split
  · rw [if_neg (by split <;> simp [hlist])]
  · rfl

theorem State.stnWrite_arb (s : State) (cl : Client) (n cid a : Nat) (bs : List Byte) (p : Bool) : (s.stnWrite cl n cid a bs p).arb = s.arb := by
  simp only [State.stnWrite]
  split
  · rfl
  refine foldl_keeps (fun t => t.arb = s.arb) _ _ (fun t x _ ht => Eq.trans (State.issue_arb t ?_) ht) _ ?_
  · rfl
  · split <;> rfl

@[simp] theorem State.pwrite_arb (s : State) (cl : Client) (cid : Nat) (ps : List Piece) (o : Nat) (bs : List Byte) (p : Bool) :
    (s.pwrite cl cid ps o bs p).arb = s.arb := by
  unfold State.pwrite
  refine foldl_keeps (fun t => t.arb = s.arb) _ ps (fun t x _ ht => Eq.trans ?_ ht) s rfl
  dsimp only
  split
  · split
    · unfold State.twrite
      split
      · exact State.hostWrite_arb ..
      · exact State.stnWrite_arb ..
    · rfl
  · rfl

/-- From `s` to `t` nothing changed but what a command's writes change: memory, what the ports carry, and what the check at a memory port
records (R307 to R313). -/
def State.resultsMoved (s t : State) : Prop :=
  t = { s with
    host := t.host, out := t.out, fresh := t.fresh, tags := t.tags, waiting := t.waiting, xlt := t.xlt, postbags := t.postbags
    evc := t.evc, want := t.want, rcv := t.rcv, incr := t.incr, stnMem := t.stnMem }

theorem State.resultsMoved.refl (s : State) : s.resultsMoved s := rfl

theorem State.resultsMoved.trans {s t u : State} (h : s.resultsMoved t) (k : t.resultsMoved u) : s.resultsMoved u := by
  unfold State.resultsMoved at *
  rw [k, h]

theorem State.resultsMoved.cmds {s t : State} (h : s.resultsMoved t) : t.cmds = s.cmds := by unfold State.resultsMoved at h; rw [h]

theorem State.pwrite_resultsMoved (s : State) (cl : Client) (cid : Nat) (ps : List Piece) (o : Nat) (bs : List Byte) (p : Bool) :
    s.resultsMoved (s.pwrite cl cid ps o bs p) := by
  have harb := s.pwrite_arb cl cid ps o bs p
  obtain ⟨m, h⟩ := s.pwrite_portsMoved cl cid ps o bs p
  generalize s.pwrite cl cid ps o bs p = t at harb h
  unfold State.portsMoved at h
  unfold State.resultsMoved
  rw [h, harb]

end Sys2Proof.Machine
end

section
/-! SCAN_PQ (R215 to R222, R226): the end of a scan, and the part of a lone station from its last segment to its final lists. -/
namespace Sys2Proof

/-! ### Changing one entry more than once -/

theorem Tab.upd_upd {α : Type} (t : Tab α) (k : Nat) (f g : α → α) : Tab.upd (Tab.upd t k f) k g = Tab.upd t k (fun a => g (f a)) := by
  induction t with
  | nil => rfl
  | cons e t ih =>
    by_cases hk : k = e.1
    · subst hk
      simp only [Tab.upd, if_true, ih]
    · simp only [Tab.upd, hk, if_false, ih]

theorem Tab.upd_id {α : Type} (t : Tab α) (k : Nat) : Tab.upd t k id = t := by
  induction t with
  | nil => rfl
  | cons e t ih => simp [Tab.upd, ih]

end Sys2Proof

namespace Sys2Proof.Machine

/-! ### The merge (R221, R222) -/

/-- The results of a scan are written: entries, counts and flags (R221, R222). -/
def State.scanWrites (s : State) (cl : Client) (c : Cmd) : State :=
  let top := (List.range c.sQ).map c.topOf
  let put := fun (s : State) (i o : Nat) (bs : List Byte) => s.pwrite cl (s.cidOf c) ((c.ranges[i]?).getD []) o bs false
  let entries := (top.zipIdx).foldl (fun s t => put s 3 (t.2 * c.sStride)
    (t.1.flatMap candBytes ++ (List.replicate (c.sK - t.1.length) padBytes).flatten)) s
  let counts := put entries 4 0 (top.flatMap (fun t => leBytes 4 t.length))
  put counts 5 0 ((top.zipIdx).map (fun t => BitVec.ofNat 8 (poolFlags (c.merged.bad.contains t.2) (t.1.length == 0) false)))

theorem State.scanWrites_resultsMoved (s : State) (cl : Client) (c : Cmd) : s.resultsMoved (s.scanWrites cl c) := by
  unfold State.scanWrites
  extract_lets top put entries counts
  have hput : ∀ (s : State) (i o : Nat) (bs : List Byte), s.resultsMoved (put s i o bs) := fun s i o bs => State.pwrite_resultsMoved ..
  have hentries : s.resultsMoved entries := foldl_keeps s.resultsMoved _ _ (fun t x _ ht => ht.trans (hput t ..)) s (.refl s)
  exact (hentries.trans (hput ..)).trans (hput ..)

/-- What the merge notes in the command: whether poison touched a query, and whether one has no result. -/
def Cmd.mergeNoted (m c : Cmd) : Cmd :=
  { c with
    poison := c.poison || (List.range c.sQ).any (fun q => m.merged.bad.contains q)
    empty := ((List.range m.sQ).map m.topOf).any (fun t => t.length == 0) }

/-- How many results a scan gives over all its queries (R222). -/
def Cmd.results (c : Cmd) : Nat := (((List.range c.sQ).map c.topOf).map List.length).foldl (· + ·) 0

theorem State.scanFinish_eq (s : State) (cl : Client) (c : Cmd) :
    s.scanFinish cl c =
      ((s.scanWrites cl c).updCmd cl c.mergeNoted).finish cl (if c.scanW.fault then stFault else stOk) c.results c.merged.excl := rfl

/-- A scan that ends changes its own command and what its writes change. -/
theorem State.scanFinish_frame (s : State) (cl : Client) (c : Cmd) :
    State.resultsMoved { s with cmds := (s.scanFinish cl c).cmds } (s.scanFinish cl c) := by
  have h := s.scanWrites_resultsMoved cl c
  rw [State.scanFinish_eq]
  generalize s.scanWrites cl c = t at h
  unfold State.resultsMoved at *
  rw [h]
  rfl

theorem State.scanFinish_cmds (s : State) (cl : Client) (c : Cmd) :
    (s.scanFinish cl c).cmds = Tab.upd (Tab.upd s.cmds cl c.mergeNoted) cl
      (Cmd.finished (if c.scanW.fault then stFault else stOk) c.results c.merged.excl) := by
  rw [State.scanFinish_eq, State.finish_cmds, State.updCmd_cmds, (s.scanWrites_resultsMoved cl c).cmds]

theorem State.scanFinish_becomes {s : State} {cl : Client} {c : Cmd} (hc : s.cmd cl = some c) (hcancel : c.cancel = none) :
    Tab.becomes s.cmds (s.scanFinish cl c).cmds cl { c.mergeNoted c with
      phase := .done, status := if c.scanW.fault then stFault else stOk, count := c.results % 2 ^ 32, aux := min c.merged.excl (2 ^ 32 - 1) } := by
  have hcmds := (s.scanWrites_resultsMoved cl c).cmds
  have hnoted : Tab.becomes s.cmds ((s.scanWrites cl c).updCmd cl c.mergeNoted).cmds cl (c.mergeNoted c) := by
    rw [State.updCmd_cmds, hcmds]
    exact Tab.becomes_upd _ hc
  rw [State.scanFinish_eq]
  exact Tab.becomes_trans hnoted (State.finish_at _ cl _ _ _ _ hnoted.1 hcancel)

/-! ### Every station has sent its lists (R219, R220) -/

theorem Cmd.scanW_eq {c : Cmd} {w : ScanW} (hw : c.work = .scan w) : c.scanW = w := by simp only [Cmd.scanW, hw]

theorem State.scanStep_sent (s : State) (cl : Client) (c : Cmd) {x : ScanS} (h : x.sent = true) : s.scanStep cl c x = none := by
  simp [State.scanStep, h]

/-- A station that has sent its lists does no more. -/
theorem State.scanStn_sent {s : State} {cl : Client} {c : Cmd} (n fuel : Nat) (hc : s.cmd cl = some c) (hsent : c.scanW.per.all (·.sent) = true) :
    State.scanStn cl n fuel s = s := by
  cases fuel with
  | zero => rfl
  | succ fuel =>
    simp only [State.scanStn, hc]
    cases hx : c.scanW.per.find? (fun x => x.stn == n) with
    | none => rfl
    | some x => simp only [State.scanStep_sent s cl c (List.all_eq_true.1 hsent x (List.mem_of_find?_eq_some hx))]

/-- A scan that has begun merges once its stations' parts leave every list sent. -/
theorem State.scanGo_merges {s : State} {cl : Client} {c d : Cmd}
    (hbegun : c.scanW.per.all (fun x => !x.bank && !x.sent) = true → c.scanW.per = [])
    (hd : (c.scanW.per.foldl (fun s x => State.scanStn cl x.stn (c.scanW.lists.length + 8) s) s).cmd cl = some d)
    (hrun : d.phase = .running) (hsent : d.scanW.per.all (·.sent) = true) :
    s.scanGo cl c = (c.scanW.per.foldl (fun s x => State.scanStn cl x.stn (c.scanW.lists.length + 8) s) s).scanFinish cl d := by
  have hgoes : ¬(c.scanW.per.all (fun x => !x.bank && !x.sent) && c.scanW.per.any (fun x => !s.stnUp x.stn)) = true := by
    intro h
    obtain ⟨hall, hany⟩ := Bool.and_eq_true_iff.1 h
    rw [hbegun hall] at hany
    nomatch hany
  simp only [State.scanGo, if_neg hgoes, hd, hrun, hsent, and_self, if_true]

theorem State.scanGo_sent {s : State} {cl : Client} {c : Cmd} (hc : s.cmd cl = some c) (hrun : c.phase = .running)
    (hsent : c.scanW.per.all (·.sent) = true) : s.scanGo cl c = s.scanFinish cl c := by
  have hstay : c.scanW.per.foldl (fun s x => State.scanStn cl x.stn (c.scanW.lists.length + 8) s) s = s :=
    foldl_keeps (fun t => t = s) _ _ (fun t x _ ht => by rw [ht]; exact State.scanStn_sent _ _ hc hsent) s rfl
  have hbegun : c.scanW.per.all (fun x => !x.bank && !x.sent) = true → c.scanW.per = [] := fun h =>
    List.eq_nil_iff_forall_not_mem.2 fun x hx => by
      have hx' := List.all_eq_true.1 h x hx
      simp [List.all_eq_true.1 hsent x hx] at hx'
  rw [State.scanGo_merges hbegun (by rw [hstay]; exact hc) hrun hsent, hstay]

/-! ### A change of one command -/

/-- From `s` to `t` command `cl` became `d`, and nothing else changed but the lifetime counters. -/
structure State.Turns (s t : State) (cl : Client) (d : Cmd) : Prop where
  cmd : t.cmd cl = some d
  frame : ∃ f k, t = { s with cmds := Tab.upd s.cmds cl f, incr := k }

theorem State.Turns.trans {s t u : State} {cl : Client} {d e : Cmd} (h : s.Turns t cl d) (k : t.Turns u cl e) : s.Turns u cl e := by
  obtain ⟨f, n, rfl⟩ := h.frame
  obtain ⟨g, m, rfl⟩ := k.frame
  exact ⟨k.cmd, _, m, by rw [Tab.upd_upd]⟩

theorem State.updCmd_turns {s : State} {cl : Client} {c : Cmd} (f : Cmd → Cmd) (hc : s.cmd cl = some c) : s.Turns (s.updCmd cl f) cl (f c) :=
  ⟨(Tab.becomes_upd f hc).1, f, s.incr, rfl⟩

theorem State.countBy_turns {s : State} {cl : Client} {c : Cmd} (x k n : Nat) (hc : s.cmd cl = some c) : s.Turns (s.countBy x k n) cl c := by
  obtain ⟨t, h⟩ := s.countBy_frame x k n
  rw [h]
  exact ⟨hc, id, t, by rw [Tab.upd_id]⟩

/-! ### The part of a lone station (R219, R220) -/

/-- Scan `c` whose only station's part is `y`, with reads `its`. -/
def Cmd.atPart (c : Cmd) (w : ScanW) (its : List Item) (y : ScanS) : Cmd := { c with items := its, work := .scan { w with per := [y] } }

theorem State.updPart_turns {s : State} {cl : Client} {c : Cmd} {w : ScanW} {x : ScanS} (f : ScanS → ScanS) (hc : s.cmd cl = some c)
    (hw : c.work = .scan w) (hper : w.per = [x]) : s.Turns (s.updPart cl x.stn f) cl (c.atPart w c.items (f x)) := by
  have h := State.updCmd_turns (fun c => match c.work with
    | .scan w => { c with work := .scan { w with per := w.per.map (fun y => if y.stn = x.stn then f y else y) } }
    | _ => c) hc
  simp only [hw, hper, List.map_cons, List.map_nil, if_true] at h
  exact h

/-- The part after its last segment gave `r`: the list it ran is joined to those before it. -/
def ScanS.scored (x : ScanS) (k : Nat) (qs : List Nat) (r : Tally) : ScanS :=
  { x with busy := none, seg := none, cur := {}, all := x.all.join k qs (x.cur.join k qs r) }

/-- The segment at vector `v` of list `i`, whose reads are `b`, is the last of lone station `x` of scan `c`, and is read. No list has an
array of identifiers. -/
structure State.LastSegment (s : State) (cl : Client) (c : Cmd) (w : ScanW) (x : ScanS) (b : Nat × Nat) (i v : Nat) : Prop where
  cmd : s.cmd cl = some c
  phase : c.phase = .running
  stage : c.stage = 5
  work : c.work = .scan w
  per : w.per = [x]
  bank : x.bank = true
  unsent : x.sent = false
  todo : x.todo = []
  seg : x.seg = some (i, v)
  busy : x.busy = some b
  read : c.waitsFor b = false
  mapped : (w.list i).skip = false
  last : lCount (w.list i).raw ≤ v + segN (w.list i) v
  noIds : w.lists.all (fun l => !lIdArr l.raw) = true

/-- The end of a list's scan is counted, and the list joins those before it. -/
theorem State.segDone_last {s : State} {cl : Client} {c : Cmd} {w : ScanW} {x : ScanS} {b : Nat × Nat} {i v : Nat}
    (h : s.LastSegment cl c w x b i v) :
    s.Turns (s.segDone cl c x b i v) cl
      (c.atPart w (c.spent b).items (x.scored c.sK (List.range c.sQ) (s.scoreSeg c (w.list i) v))) := by
  have hspent : s.Turns (s.updCmd cl (fun c => c.spent b)) cl (c.spent b) := State.updCmd_turns _ h.cmd
  have hcount := hspent.trans (State.countBy_turns 0x2105 3 (lCount (w.list i).raw) hspent.cmd)
  have hpart := hcount.trans (State.updPart_turns (fun y => { y with
    busy := none, seg := none, cur := {}
    all := y.all.join c.sK (List.range c.sQ) (x.cur.join c.sK (List.range c.sQ) (s.scoreSeg c (w.list i) v)) }) hcount.cmd h.work h.per)
  simp only [State.segDone, Cmd.scanW_eq h.work, h.mapped, Bool.false_eq_true, if_false, if_neg (Nat.not_lt.2 h.last)]
  exact hpart

theorem ScanW.list_noIds {w : ScanW} (h : w.lists.all (fun l => !lIdArr l.raw) = true) (i : Nat) : lIdArr (w.list i).raw = false := by
  unfold ScanW.list
  cases hl : w.lists[i]? with
  | none => simp [lIdArr, lf, rd, leNat, bits]
  | some l => simpa using List.all_eq_true.1 h l (List.mem_of_getElem? hl)

/-- The part while the identifiers of its survivors are read, of which there are none: its unit waits for no read, from read `n` on. -/
def ScanS.readingIds (y : ScanS) (n : Nat) : ScanS := { y with ids := true, busy := some (n, 0) }

/-- Without identifiers to read, a part that is over reads nothing more. -/
theorem State.scanRead_nothing {s : State} {cl : Client} {c : Cmd} {w : ScanW} {its : List Item} {y : ScanS}
    (hc : s.cmd cl = some (c.atPart w its y)) (hrun : c.phase = .running) (hst : c.stage = 5) :
    s.Turns (s.scanRead cl (c.atPart w its y) y.stn [] (fun x => { x with ids := true })) cl (c.atPart w its (y.readingIds its.length)) := by
  have hpart := State.updPart_turns (w := { w with per := [y] }) (fun x => x.readingIds its.length) hc rfl rfl
  have hmore := hpart.trans (State.updCmd_turns (fun c => { c with phase := .running, stage := 5, items := c.items ++ [] }) hpart.cmd)
  have hsame : c.atPart w its (y.readingIds its.length) =
      { c.atPart w (its ++ []) (y.readingIds its.length) with phase := .running, stage := 5 } := by
    rw [List.append_nil, ← hrun, ← hst]
    rfl
  rw [hsame]
  exact hmore

/-- Without identifiers to read, a station's final lists are what it kept. -/
theorem State.sendFinal_turns {s : State} {cl : Client} {c : Cmd} {w : ScanW} {its : List Item} {y : ScanS}
    (hc : s.cmd cl = some (c.atPart w its y)) (hno : w.lists.all (fun l => !lIdArr l.raw) = true) :
    ∃ z : ScanS, s.Turns (s.sendFinal cl (c.atPart w its y) y) cl (c.atPart w its z) ∧ z.sent = true ∧
      z.all.kept = y.all.kept ∧ z.all.excl = y.all.excl := by
  have hid : ∀ k, (s.candId (c.atPart w its y) k).1 = k := fun k => by
    have hk : lIdArr ((c.atPart w its y).scanW.list k.list).raw = false := ScanW.list_noIds hno k.list
    simp [State.candId, hk]
  refine ⟨_, State.updPart_turns (w := { w with per := [y] }) _ hc rfl rfl, rfl, ?_, rfl⟩
  exact (List.map_map ..).trans (List.map_id'' hid _)

/-! ### From its last segment to its final lists -/

theorem State.scanStep_scores {s : State} {cl : Client} {c : Cmd} {w : ScanW} {x : ScanS} {b : Nat × Nat} {i v : Nat}
    (h : s.LastSegment cl c w x b i v) : s.scanStep cl c x = some (s.segDone cl c x b i v) := by
  simp [State.scanStep, h.unsent, h.bank, h.busy, h.seg, h.read]

/-- Of a part that is over, the survivors' identifiers are read: none where no list has an array of them. -/
theorem State.scanStep_readsIds {s : State} {cl : Client} {c : Cmd} {y : ScanS} (hunsent : y.sent = false) (hbank : y.bank = true)
    (hbusy : y.busy = none) (hseg : y.seg = none) (htodo : y.todo = []) (hno : c.scanW.lists.all (fun l => !lIdArr l.raw) = true) :
    s.scanStep cl c y = some (s.scanRead cl c y.stn [] (fun x => { x with ids := true })) := by
  have hnone : y.all.kept.flatMap (fun k =>
      if lIdArr (c.scanW.list k.list).raw then itemsOf false (cutPieces (c.ids k.list) (8 * k.pos) 8) else []) = [] :=
    List.flatMap_eq_nil_iff.2 fun k _ => if_neg (by rw [ScanW.list_noIds hno]; exact Bool.false_ne_true)
  simp only [State.scanStep, hunsent, hbank, hbusy, hseg, htodo, hnone, Bool.false_eq_true, Bool.not_true, if_false]

/-- With no identifier to wait for, the final lists are sent. -/
theorem State.scanStep_sends {s : State} {cl : Client} {c : Cmd} {y : ScanS} {n : Nat} (hunsent : y.sent = false) (hbank : y.bank = true)
    (hbusy : y.busy = some (n, 0)) (hseg : y.seg = none) : s.scanStep cl c y = some (s.sendFinal cl c y) := by
  have hwaits : c.waitsFor (n, 0) = false := by simp [Cmd.waitsFor]
  simp only [State.scanStep, hunsent, hbank, hbusy, hseg, hwaits, Bool.false_eq_true, Bool.not_true, if_false]

/-- A step of a lone station's part that changes it leads to the next. -/
theorem State.scanStn_goes {s t : State} {cl : Client} {c d : Cmd} {w w' : ScanW} {x y : ScanS} {n : Nat} (fuel : Nat) (hc : s.cmd cl = some c)
    (hw : c.work = .scan w) (hper : w.per = [x]) (hn : x.stn = n) (hstep : s.scanStep cl c x = some t) (hd : t.cmd cl = some d)
    (hw' : d.work = .scan w') (hper' : w'.per = [y]) (hxy : y ≠ x) : State.scanStn cl n (fuel + 1) s = State.scanStn cl n fuel t := by
  subst hn
  have hmoves : ¬(t.cmd cl).map (·.work) = some c.work := by
    rw [hd, hw, Option.map_some, hw']
    intro h
    injection h with h
    injection h with h
    rw [h, hper] at hper'
    injection hper' with h
    exact hxy h.symm
  simp only [State.scanStn, hc, Cmd.scanW_eq hw, hper, List.find?_cons, beq_self_eq_true, hstep, if_neg hmoves]

/-- The station scores its last segment, has no identifiers to read, and sends its final lists. -/
theorem State.LastSegment.sends {s : State} {cl : Client} {c : Cmd} {w : ScanW} {x : ScanS} {b : Nat × Nat} {i v : Nat}
    (h : s.LastSegment cl c w x b i v) (fuel : Nat) :
    let y := x.scored c.sK (List.range c.sQ) (s.scoreSeg c (w.list i) v)
    ∃ its z, s.Turns (State.scanStn cl x.stn (fuel + 3) s) cl (c.atPart w its z) ∧ z.sent = true ∧ z.all.kept = y.all.kept ∧
      z.all.excl = y.all.excl := by
  intro y
  have hscored := State.segDone_last h
  have hscores := State.scanStep_scores h
  generalize (c.spent b).items = its at hscored
  generalize s.segDone cl c x b i v = s₁ at hscored hscores
  have hread := State.scanRead_nothing hscored.cmd h.phase h.stage
  have hreads : s₁.scanStep cl (c.atPart w its y) y = some _ := State.scanStep_readsIds h.unsent h.bank rfl rfl h.todo h.noIds
  generalize s₁.scanRead cl (c.atPart w its y) y.stn [] (fun x => { x with ids := true }) = s₂ at hread hreads
  have hsends : s₂.scanStep cl (c.atPart w its (y.readingIds its.length)) (y.readingIds its.length) = some _ :=
    State.scanStep_sends h.unsent h.bank rfl rfl
  obtain ⟨z, hfinal, hzsent, hzkept, hzexcl⟩ := State.sendFinal_turns hread.cmd h.noIds
  generalize s₂.sendFinal cl _ _ = s₃ at hfinal hsends
  have hscored_ne : y ≠ x := fun hyx => nomatch h.busy.symm.trans (congrArg ScanS.busy hyx).symm
  have hread_ne : y.readingIds its.length ≠ y := fun hyx => nomatch congrArg ScanS.busy hyx
  have hfinal_ne : z ≠ y.readingIds its.length := fun hzy =>
    Bool.noConfusion (hzsent.symm.trans ((congrArg ScanS.sent hzy).trans h.unsent))
  have hrun : State.scanStn cl x.stn (fuel + 3) s = s₃ :=
    calc State.scanStn cl x.stn (fuel + 3) s
      _ = State.scanStn cl x.stn (fuel + 2) s₁ := State.scanStn_goes _ h.cmd h.work h.per rfl hscores hscored.cmd rfl rfl hscored_ne
      _ = State.scanStn cl x.stn (fuel + 1) s₂ := State.scanStn_goes _ hscored.cmd rfl rfl rfl hreads hread.cmd rfl rfl hread_ne
      _ = State.scanStn cl x.stn fuel s₃ := State.scanStn_goes _ hread.cmd rfl rfl rfl hsends hfinal.cmd rfl rfl hfinal_ne
      _ = s₃ := State.scanStn_sent _ _ hfinal.cmd (by simp [Cmd.scanW, Cmd.atPart, hzsent])
  rw [hrun]
  exact ⟨its, z, (hscored.trans hread).trans hfinal, hzsent, hzkept, hzexcl⟩

/-! ### The end of a lone station's scan (R219 to R222) -/

/-- Scan `c`, whose lone station's final lists are `z`, gives of each query as many results as the last segment's tally has, up to K. -/
theorem Cmd.atPart_results {c : Cmd} {w : ScanW} {its : List Item} {x z : ScanS} {r : Tally} (hall : x.all.kept = []) (hcur : x.cur.kept = [])
    (hz : z.all.kept = (x.scored c.sK (List.range c.sQ) r).all.kept) :
    (c.atPart w its z).results = ((List.range c.sQ).map (fun q => min c.sK (r.kept.filter (fun y => y.q == q)).length)).foldl (· + ·) 0 := by
  have hcount : ∀ q, q < c.sQ → ((c.atPart w its z).topOf q).length = min c.sK (r.kept.filter (fun y => y.q == q)).length := by
    intro q hq
    calc ((c.atPart w its z).topOf q).length
      _ = min c.sK (z.all.kept.filter (fun y => y.q == q)).length := Tally.join_query_length z.all c.sK rfl hq
      _ = min c.sK (min c.sK (min c.sK (r.kept.filter (fun y => y.q == q)).length)) := by
        rw [hz, ScanS.scored, Tally.join_query_length _ c.sK hall hq, Tally.join_query_length _ c.sK hcur hq]
      _ = min c.sK (r.kept.filter (fun y => y.q == q)).length := by omega
  show (((List.range c.sQ).map (c.atPart w its z).topOf).map List.length).foldl (· + ·) 0 = _
  rw [List.map_map]
  exact congrArg (List.foldl (· + ·) 0) (List.map_congr_left fun q hq => hcount q (List.mem_range.1 hq))

theorem Cmd.atPart_merged_excl (c : Cmd) (w : ScanW) (its : List Item) (z : ScanS) : (c.atPart w its z).merged.excl = z.all.excl :=
  Nat.zero_add _

/-- With its last segment read, the scan of a lone station ends. -/
theorem State.LastSegment.merges {s : State} {cl : Client} {c : Cmd} {w : ScanW} {x : ScanS} {b : Nat × Nat} {i v : Nat}
    (h : s.LastSegment cl c w x b i v) :
    let y := x.scored c.sK (List.range c.sQ) (s.scoreSeg c (w.list i) v)
    ∃ u its z, s.scanGo cl c = u.scanFinish cl (c.atPart w its z) ∧ s.Turns u cl (c.atPart w its z) ∧ z.all.kept = y.all.kept ∧
      z.all.excl = y.all.excl := by
  obtain ⟨its, z, hturns, hsent, hkept, hexcl⟩ := h.sends (w.lists.length + 5)
  have hscanW := Cmd.scanW_eq h.work
  have hstn : c.scanW.per.foldl (fun s x => State.scanStn cl x.stn (c.scanW.lists.length + 8) s) s =
      State.scanStn cl x.stn (w.lists.length + 5 + 3) s := by rw [hscanW, h.per]; rfl
  refine ⟨_, its, z, ?_, hturns, hkept, hexcl⟩
  rw [← hstn]
  refine State.scanGo_merges (fun hall => ?_) (hstn ▸ hturns.cmd) h.phase (by simp [Cmd.scanW, Cmd.atPart, hsent])
  rw [hscanW, h.per] at hall
  simp [h.bank] at hall

/-- The bank of a command that turns into one that ends is given back. -/
theorem State.Turns.scanFinish_banksHeld {s u : State} {cl : Client} {c d e : Cmd} {n : Nat} (h : s.Turns u cl d) (hc : s.cmd cl = some c)
    (hheld : c.holdsBank n = true) : (u.scanFinish cl e).banksHeld n < s.banksHeld n := by
  obtain ⟨f, k, rfl⟩ := h.frame
  have hcmds := State.scanFinish_cmds { s with cmds := Tab.upd s.cmds cl f, incr := k } cl e
  rw [Tab.upd_upd, Tab.upd_upd] at hcmds
  exact State.banksHeld_lt hc hheld hcmds fun a => Cmd.finished_phase ..

theorem State.doScan_going {s : State} {c : Cmd} (cl : Client) (hst : c.stage = 5) (hcancel : c.cancel = none) :
    State.doScan cl c s = s.scanGo cl c := by
  simp only [State.doScan, hst, hcancel, Option.isSome_none, Bool.false_eq_true, if_false]

/-! ### The statement -/

/-- Settles O24: the build by `State.doLutBuild_read`, the merge by `State.scanGo_sent` and `State.scanFinish_becomes`, the last segment by
`State.LastSegment.merges`, and what is kept by `Tally.join_query` and `topK_length` (R209 to R212, R215 to R217, R219 to R222, R226). -/
theorem scansKeepTheSmallestKeys : Obligations.ScansKeepTheSmallestKeys := by
  unfold Obligations.ScansKeepTheSmallestKeys
  refine ⟨⟨?build, ?absent⟩, ?merge, ?segment, ?join, ?top, ?lists⟩
  case build =>
    intro s q seq c w a ca perm hc hagain hst hop hwork hbad hrange hfn
    have hcancel := Cmd.cancel_of_again hagain
    have hexec := exec_scanLutBuild_runs hc (.inr hagain) hop
    rw [State.doLutBuild_read _ hst hagain hbad, hrange, Option.getD_some, State.pwrite_host _ _ _ _ (s.lutAll_bytes_length c)] at hexec
    refine ⟨_, hexec, ?_, State.hostWrite_host _ _ _ _ hfn, s.lutAll_length c, ?_, fun n hn => ?_⟩
    · rw [State.hostWrite_frame]
      rfl
    · rw [State.hostWrite_frame]
      exact State.finish_at _ _ c _ _ _ hc hcancel
    · rw [State.hostWrite_frame]
      exact State.banksHeld_lt hc (by rw [Cmd.holdsBank_scan n hwork, Cmd.running_of_again hagain, hn]; rfl) (State.finish_cmds ..)
        fun d => Cmd.finished_phase ..
  case absent =>
    intro s q seq c hstarts hscan hop
    obtain ⟨hc, hmay⟩ := hstarts
    have hexec : exec (if c.opcode = 0x29 then .scanLutBuild q seq else .scanPq q seq) s = .next (s.finish (ckey q seq) stUnitAbsent 0 0) := by
      rcases hop with hop | hop
      · rw [if_pos hop, exec_scanLutBuild_runs hc (.inl hmay) hop, State.doLutBuild_absent _ (State.mayStart_stage hmay) hscan]
      · rw [if_neg (by omega), exec_scanPq_runs hc (.inl hmay) hop, State.doScan_absent _ (State.mayStart_stage hmay) hscan]
    exact ⟨_, hexec, rfl, State.finish_at _ _ c _ _ _ hc (State.mayStart_cancel hmay)⟩
  case merge =>
    intro s q seq c w hc hagain hst hop hwork hsent top
    have hcancel := Cmd.cancel_of_again hagain
    have hscanW := Cmd.scanW_eq hwork
    have hexec := exec_scanPq_runs hc (.inr hagain) hop
    rw [State.doScan_going _ hst hcancel, State.scanGo_sent hc (Cmd.running_of_again hagain) (by rw [hscanW]; exact hsent)] at hexec
    refine ⟨_, _, hexec, ?_, State.scanFinish_becomes hc hcancel, rfl, by rw [hscanW], rfl, rfl, rfl⟩
    have hframe := s.scanFinish_frame (ckey q seq) c
    generalize s.scanFinish (ckey q seq) c = t at hframe
    unfold State.resultsMoved at hframe
    rw [hframe]
  case segment =>
    intro s q seq c w x b i v hc hagain hst hop hwork hper hbank hunsent htodo hseg hbusy hread hmapped hlast hno _ hall hcur r
    have hcancel := Cmd.cancel_of_again hagain
    have hrun := Cmd.running_of_again hagain
    have hexec := exec_scanPq_runs hc (.inr hagain) hop
    obtain ⟨u, its, z, hgo, hturns, hkept, hexcl⟩ := State.LastSegment.merges
      ⟨hc, hrun, hst, hwork, hper, hbank, hunsent, htodo, hseg, hbusy, hread, hmapped, hlast, hno⟩
    rw [State.doScan_going _ hst hcancel, hgo] at hexec
    have hheld : c.holdsBank x.stn = true := by simp [Cmd.holdsBank_scan x.stn hwork, hrun, hper, hbank]
    have hframe := u.scanFinish_frame (ckey q seq) (c.atPart w its z)
    have hcmd := (State.scanFinish_becomes hturns.cmd hcancel).1
    refine ⟨_, _, hexec, hcmd, rfl, rfl, hturns.scanFinish_banksHeld hc hheld, ?_, ?_, ?_⟩
    · rw [Cmd.atPart_merged_excl, hexcl]
      rfl
    · rw [Cmd.atPart_results hall hcur hkept]
    · obtain ⟨f, k, rfl⟩ := hturns.frame
      unfold State.resultsMoved at hframe
      rw [hframe]
      exact ⟨rfl, rfl, rfl, rfl⟩
  case join => exact fun a b k n q hq => ⟨Tally.join_query a b k hq, rfl⟩
  case top => exact fun k l => ⟨topK_length k l, fun x hx => mem_of_mem_topK hx⟩
  case lists =>
    intro q e hok
    simp only [listOk, Bool.and_eq_true, beq_iff_eq, decide_eq_true_eq] at hok
    obtain ⟨⟨⟨-, haligned⟩, -⟩, hmask⟩ := hok
    exact ⟨haligned, hmask⟩

end Sys2Proof.Machine
end

section
/-! Fences and the dependency graph (R230, R231, R233, R240, R241, R243): what naming a fence gives, what a signal does to it, the checks of
GRAPH_EDGE one after the other, and what comes of an edge that passes them. -/
namespace Sys2Proof.Machine

/-! ### Naming a fence (R230) -/

theorem State.at?_of_nameFence {s : State} {q cid fid : Nat} {f : Fence} (h : s.nameFence q cid fid = .ok f) : Tab.at? s.fences fid = some f := by
  unfold State.nameFence at h
  split at h
  case h_1 => cases h
  case h_2 g hg =>
    split at h
    · cases h
    · split at h
      · cases h
        exact hg
      · cases h

theorem State.nameFence_error {s : State} {q cid fid : Nat} {e : Stop} (h : s.nameFence q cid fid = .error e) :
    e = .fail stBadFence none ∨ e = .fail stNotPermitted none := by
  unfold State.nameFence at h
  split at h
  case h_1 =>
    cases h
    exact .inl rfl
  case h_2 =>
    split at h
    · cases h
      exact .inl rfl
    · split at h
      · cases h
      · cases h
        exact .inr rfl

/-! ### Signals (R231) -/

/-- An error signal marks its fence from the least error value on. -/
theorem Fence.signal_eq (f : Fence) (v : Nat) (err : Bool) :
    f.signal v err = { f with
      value := max f.value v, err := err || f.err
      errVal := if err then (if f.err then min f.errVal v else v) else f.errVal } := by
  cases err <;> rfl

/-- A signal changes its fence, and counts where its value is below the fence's. -/
theorem State.signalOne_spec {s : State} {fid : Nat} {f : Fence} (v : Nat) (err : Bool) (hf : Tab.at? s.fences fid = some f) :
    ∃ parts grf, s.signalOne fid v err = { s with fences := Tab.put s.fences fid (f.signal v err), parts := parts, grf := grf } := by
  simp only [State.signalOne, hf]
  split
  · split
    · exact ⟨_, s.grf, rfl⟩
    · exact ⟨s.parts, _, rfl⟩
  · exact ⟨s.parts, s.grf, rfl⟩

/-! ### FENCE_SIGNAL (R233) -/

/-- Command `cl` completes with the value and the error of fence `fid`. -/
def State.reportFence (s : State) (cl : Client) (fid : Nat) : State :=
  (s.finish cl stOk (((Tab.at? s.fences fid).map (·.value)).getD 0) (b2n (((Tab.at? s.fences fid).map (·.err)).getD false))).examine

/-- Fence `fid` being destroyed: it is dead, and no edge leads to it (R233, R240). -/
def State.fenceDying (s : State) (fid : Nat) : State :=
  { s with edges := Tab.keep s.edges (fun _ e => e.dst != fid), fences := Tab.upd s.fences fid (fun f => { f with dead := true }) }

/-- Command `cl` runs on the fence it names. -/
def State.onFence (s : State) (cl : Client) : State := s.updCmd cl (fun c => { c with phase := .running, stage := 8, work := .fence c.fid })

section
variable {s : State} {q seq : Nat} {c : Cmd} {f : Fence}

theorem State.fenceOwner_ok (hok : c.fsigOk = true) (hf : s.nameFence c.q (s.cidOf c) c.fid = .ok f) (howner : c.q = 0 ∨ f.owner = s.cidOf c) :
    s.fenceOwner c = .ok f := by
  rw [State.fenceOwner, Chk.ok_bind (need_true _ hok), Chk.ok_bind hf, need_true _ (by simpa using howner)]
  rfl

theorem exec_fenceSignal_named (hstarts : s.starts q seq c) (hop : c.opcode = 0x01) (hmode : c.fmode = 0) (hok : c.fsigOk = true)
    (hf : s.nameFence c.q (s.cidOf c) c.fid = .ok f) :
    exec (.fenceSignal q seq) s = .next ((s.signal c.fid c.fval (c.fld 8 1 3 1 == 1)).reportFence (ckey q seq) c.fid) := by
  obtain ⟨hc, hmay⟩ := hstarts
  show Host.Outcome.next (s.start q seq (fun c => c.opcode == 0x01 && (c.fmode == 0 || 4 ≤ c.fmode)) State.doFenceSignal) = _
  rw [State.start_runs _ hc (.inl hmay) (by simp [hop, hmode]), State.doFenceSignal, Chk.ok_bind (need_true _ hok), hf, State.checked_ok]
  rfl

theorem exec_fenceClearError_named (hstarts : s.starts q seq c) (hop : c.opcode = 0x01) (hmode : c.fmode = 3) (hok : c.fsigOk = true)
    (hf : s.nameFence c.q (s.cidOf c) c.fid = .ok f) (howner : c.q = 0 ∨ f.owner = s.cidOf c) :
    exec (.fenceClearError q seq) s =
      .next (({ s with fences := Tab.upd s.fences c.fid (fun f => { f with err := false, errVal := 0 }) } : State).finish (ckey q seq) stOk f.value 0) := by
  obtain ⟨hc, hmay⟩ := hstarts
  show Host.Outcome.next (s.start q seq (fun c => c.opcode == 0x01 && c.fmode == 3) State.doFenceClear) = _
  rw [State.start_runs _ hc (.inl hmay) (by simp [hop, hmode]), State.doFenceClear, State.fenceOwner_ok hok hf howner, State.checked_ok]

theorem exec_fenceDestroy_named (hstarts : s.starts q seq c) (hop : c.opcode = 0x01) (hmode : c.fmode = 2) (hok : c.fsigOk = true)
    (hf : s.nameFence c.q (s.cidOf c) c.fid = .ok f) (howner : c.q = 0 ∨ f.owner = s.cidOf c) :
    exec (.fenceDestroy q seq) s =
      .next ((((s.onFence (ckey q seq)).fenceDying c.fid).signal c.fid (2 ^ 64 - 1) true).examine.freeFences) := by
  obtain ⟨hc, hmay⟩ := hstarts
  show Host.Outcome.next (s.start q seq (fun c => c.opcode == 0x01 && c.fmode == 2) State.doFenceDestroy) = _
  rw [State.start_runs _ hc (.inl hmay) (by simp [hop, hmode]), State.doFenceDestroy, State.fenceOwner_ok hok hf howner, State.checked_ok]
  rfl

end

/-- Settles O11: a signal by `State.signalOne_spec`, the end of an error and of a fence by what their rows do where the fence may be named
(R231, R233, R240). -/
theorem fencesAreSignalledAndCleared : Obligations.FencesAreSignalledAndCleared := by
  unfold Obligations.FencesAreSignalledAndCleared
  refine ⟨?signal, ?clear, ?destroy⟩
  case signal =>
    intro s q seq c f hstarts hop hmode hok hf err
    obtain ⟨parts, grf, hsignal⟩ := State.signalOne_spec c.fval err (State.at?_of_nameFence hf)
    refine ⟨s.signalOne c.fid c.fval err, s.signal c.fid c.fval err, by rw [hsignal], ?_, rfl, exec_fenceSignal_named hstarts hop hmode hok hf⟩
    rw [hsignal, Fence.signal_eq]
    exact Tab.becomes_put ..
  case clear =>
    intro s q seq c f hstarts hop hmode hok hf howner
    exact ⟨_, exec_fenceClearError_named hstarts hop hmode hok hf howner, rfl, Tab.becomes_upd _ (State.at?_of_nameFence hf),
      State.finish_at _ _ c stOk f.value 0 hstarts.1 (State.mayStart_cancel hstarts.2)⟩
  case destroy =>
    intro s q seq c f hstarts hop hmode hok hf howner
    refine ⟨(s.onFence (ckey q seq)).fenceDying c.fid, rfl, Tab.becomes_upd _ hstarts.1, Tab.becomes_upd _ (State.at?_of_nameFence hf),
      fun k e => ?_, exec_fenceDestroy_named hstarts hop hmode hok hf howner⟩
    show (k, e) ∈ Tab.keep s.edges (fun _ e => e.dst != c.fid) ↔ _
    simp [Tab.keep]

/-! ### The checks of GRAPH_EDGE (R241) -/

/-- The edge that a GRAPH_EDGE asks for. -/
def Cmd.edge (c : Cmd) : Edge := ⟨c.fid, c.num 16 8, c.fld 24 4 0 18, c.num 32 8⟩

/-- The checks of GRAPH_EDGE up to that for a free edge. -/
def State.edgeChecks (s : State) (c : Cmd) : Chk Unit := do
  need c.clean stBadOperand
  let _ ← s.nameFence c.q (s.cidOf c) c.fid
  let _ ← s.nameFence c.q (s.cidOf c) c.edge.dst
  need (c.fid != c.edge.dst) stDependencyCycle
  need ((Tab.freeFrom s.edges 0 65536).isSome) stNoEdge

/-- Edge `e` is pending under number `k`. -/
def State.withEdge (s : State) (k : Nat) (e : Edge) : State := { s with edges := Tab.put s.edges k e }

/-- What a GRAPH_EDGE does that passes those checks: it signals at once, or installs its edge unless that closes a cycle. -/
def State.placeEdge (s : State) (cl : Client) (c : Cmd) : State :=
  if s.waitSt c.edge.src c.edge.sv ≠ .unmet then
    ((s.signal c.edge.dst c.edge.dv (decide (s.waitSt c.edge.src c.edge.sv = .failed))).finish cl stOk 0 1).examine
  else
    let r := (s.withEdge ((Tab.freeFrom s.edges 0 65536).getD 0) c.edge).search (2 * c.edge.dst)
    if r.2 then ({ s with grf := r.1.grf } : State).finish cl stDependencyCycle 0 0 else r.1.finish cl stOk 0 0

theorem exec_graphEdge_runs {s : State} {q seq : Nat} {c : Cmd} (hstarts : s.starts q seq c) (hop : c.opcode = 0x03) :
    exec (.graphEdge q seq) s = .next (s.checked (ckey q seq) (s.edgeChecks c) fun _ => s.placeEdge (ckey q seq) c) :=
  congrArg Host.Outcome.next (State.start_runs _ hstarts.1 (.inl hstarts.2) (by simp [hop]))

theorem Chk.error_bind {α β : Type} {x : Chk α} {e : Stop} {k : α → Chk β} (h : x = .error e) : (x >>= k) = .error e := by
  rw [h]
  rfl

section
variable {s : State} {c : Cmd} {f g : Fence} {e : Stop} (hclean : c.clean = true) (hsrc : s.nameFence c.q (s.cidOf c) c.fid = .ok f)
  (hdst : s.nameFence c.q (s.cidOf c) c.edge.dst = .ok g)

theorem State.edgeChecks_unclean (s : State) (h : c.clean = false) : s.edgeChecks c = .error (.fail stBadOperand none) :=
  Chk.error_bind (need_false _ h)

include hclean

theorem State.edgeChecks_src (h : s.nameFence c.q (s.cidOf c) c.fid = .error e) : s.edgeChecks c = .error e := by
  rw [State.edgeChecks, Chk.ok_bind (need_true _ hclean), Chk.error_bind h]

include hsrc

theorem State.edgeChecks_dst (h : s.nameFence c.q (s.cidOf c) c.edge.dst = .error e) : s.edgeChecks c = .error e := by
  rw [State.edgeChecks, Chk.ok_bind (need_true _ hclean), Chk.ok_bind hsrc, Chk.error_bind h]

include hdst

/-- With both fences named, what is left to check. -/
theorem State.edgeChecks_named : s.edgeChecks c =
    (do need (c.fid != c.edge.dst) stDependencyCycle; need ((Tab.freeFrom s.edges 0 65536).isSome) stNoEdge) := by
  rw [State.edgeChecks, Chk.ok_bind (need_true _ hclean), Chk.ok_bind hsrc, Chk.ok_bind hdst]

theorem State.edgeChecks_full (hne : c.fid ≠ c.edge.dst) (hfull : Tab.freeFrom s.edges 0 65536 = none) :
    s.edgeChecks c = .error (.fail stNoEdge none) := by
  rw [State.edgeChecks_named hclean hsrc hdst, Chk.ok_bind (need_true _ (by simpa using hne)), need_false _ (by simp [hfull])]

theorem State.edgeChecks_ok {k : Nat} (hne : c.fid ≠ c.edge.dst) (hk : Tab.freeFrom s.edges 0 65536 = some k) : s.edgeChecks c = .ok () := by
  rw [State.edgeChecks_named hclean hsrc hdst, Chk.ok_bind (need_true _ (by simpa using hne)), need_true _ (by simp [hk])]

end

theorem State.edgeChecks_self {s : State} {c : Cmd} {f : Fence} (hclean : c.clean = true) (hsrc : s.nameFence c.q (s.cidOf c) c.fid = .ok f)
    (hself : c.fid = c.edge.dst) : s.edgeChecks c = .error (.fail stDependencyCycle none) := by
  rw [State.edgeChecks_named hclean hsrc (hself ▸ hsrc), Chk.error_bind (need_false _ (by simp [hself]))]

/-- A GRAPH_EDGE that fails a check ends with its status, and neither an edge nor a signal comes of it. -/
theorem exec_graphEdge_fails {s : State} {q seq st : Nat} {c : Cmd} (hstarts : s.starts q seq c) (hop : c.opcode = 0x03)
    (hcheck : s.edgeChecks c = .error (.fail st none)) :
    ∃ t : State, exec (.graphEdge q seq) s = .next t ∧ t = { s with cmds := t.cmds, xlt := t.xlt } ∧ s.completes t (ckey q seq) c st 0 0 := by
  have hexec := exec_graphEdge_runs hstarts hop
  rw [hcheck, State.checked_error, State.stop_fail_none] at hexec
  exact ⟨_, hexec, rfl, State.finish_at _ _ c st 0 0 hstarts.1 (State.mayStart_cancel hstarts.2)⟩

/-! ### What comes of an edge (R240, R243) -/

/-- A search changes its counts alone (R256). -/
theorem State.search_frame (s : State) (x : Nat) : ∃ g, (s.search x).1 = { s with grf := g } := by
  unfold State.search
  split
  · exact ⟨_, rfl⟩
  · exact ⟨_, rfl⟩
  · exact ⟨s.grf, rfl⟩

section
variable {s : State} {c : Cmd} (cl : Client)

theorem State.placeEdge_fires (hwait : s.waitSt c.edge.src c.edge.sv ≠ .unmet) : s.placeEdge cl c =
    ((s.signal c.edge.dst c.edge.dv (decide (s.waitSt c.edge.src c.edge.sv = .failed))).finish cl stOk 0 1).examine := if_pos hwait

variable {k : Nat} (hwait : s.waitSt c.edge.src c.edge.sv = .unmet) (hk : Tab.freeFrom s.edges 0 65536 = some k)
include hwait hk

theorem State.placeEdge_installs (hfree : ((s.withEdge k c.edge).search (2 * c.edge.dst)).2 = false) :
    s.placeEdge cl c = (((s.withEdge k c.edge).search (2 * c.edge.dst)).1).finish cl stOk 0 0 := by
  rw [State.placeEdge, if_neg (not_not_intro hwait), hk, Option.getD_some]
  simp only [hfree, Bool.false_eq_true, if_false]

theorem State.placeEdge_cycle (hcycle : ((s.withEdge k c.edge).search (2 * c.edge.dst)).2 = true) :
    s.placeEdge cl c = ({ s with grf := ((s.withEdge k c.edge).search (2 * c.edge.dst)).1.grf } : State).finish cl stDependencyCycle 0 0 := by
  rw [State.placeEdge, if_neg (not_not_intro hwait), hk, Option.getD_some]
  simp only [hcycle, if_true]

end

/-- A GRAPH_EDGE that would close a cycle ends with ST_DEPENDENCY_CYCLE, and the search has been counted. -/
theorem exec_graphEdge_cycle {s : State} {q seq k : Nat} {c : Cmd} (hstarts : s.starts q seq c) (hop : c.opcode = 0x03)
    (hcheck : s.edgeChecks c = .ok ()) (hwait : s.waitSt c.edge.src c.edge.sv = .unmet) (hk : Tab.freeFrom s.edges 0 65536 = some k)
    (hcycle : ((s.withEdge k c.edge).search (2 * c.edge.dst)).2 = true) :
    ∃ t : State, exec (.graphEdge q seq) s = .next t ∧ t = { s with grf := t.grf, cmds := t.cmds, xlt := t.xlt } ∧
      s.completes t (ckey q seq) c stDependencyCycle 0 0 := by
  have hexec := exec_graphEdge_runs hstarts hop
  rw [hcheck, State.checked_ok, State.placeEdge_cycle _ hwait hk hcycle] at hexec
  exact ⟨_, hexec, rfl, State.finish_at _ _ c _ 0 0 hstarts.1 (State.mayStart_cancel hstarts.2)⟩

/-- One that closes no cycle installs its edge. -/
theorem exec_graphEdge_installs {s : State} {q seq k : Nat} {c : Cmd} (hstarts : s.starts q seq c) (hop : c.opcode = 0x03)
    (hcheck : s.edgeChecks c = .ok ()) (hwait : s.waitSt c.edge.src c.edge.sv = .unmet) (hk : Tab.freeFrom s.edges 0 65536 = some k)
    (hfree : ((s.withEdge k c.edge).search (2 * c.edge.dst)).2 = false) :
    ∃ t : State, exec (.graphEdge q seq) s = .next t ∧ t = { s with edges := t.edges, grf := t.grf, cmds := t.cmds, xlt := t.xlt } ∧
      Tab.becomes s.edges t.edges k c.edge ∧ s.completes t (ckey q seq) c stOk 0 0 := by
  have hexec := exec_graphEdge_runs hstarts hop
  obtain ⟨g, hsearch⟩ := (s.withEdge k c.edge).search_frame (2 * c.edge.dst)
  rw [hcheck, State.checked_ok, State.placeEdge_installs _ hwait hk hfree, hsearch] at hexec
  exact ⟨_, hexec, rfl, Tab.becomes_put .., State.finish_at _ _ c _ 0 0 hstarts.1 (State.mayStart_cancel hstarts.2)⟩

/-- Settles O12: an edge is installed by `exec_graphEdge_installs`, refused by `exec_graphEdge_cycle`, and fires by
`State.placeEdge_fires` (R240, R241, R243). -/
theorem graphEdgeInstallsOrFires : Obligations.GraphEdgeInstallsOrFires := by
  unfold Obligations.GraphEdgeInstallsOrFires
  refine ⟨?unmet, ?fires⟩
  case unmet =>
    intro s q seq c f g k hstarts hop hclean hsrc hdst hne hk hwait e t'
    have hcheck : s.edgeChecks c = .ok () := State.edgeChecks_ok hclean hsrc hdst hne hk
    cases hcycle : (t'.search (2 * c.fld 24 4 0 18)).2 with
    | false =>
      obtain ⟨t, hexec, hframe, hedge, hends⟩ := exec_graphEdge_installs hstarts hop hcheck hwait hk hcycle
      exact ⟨t, hexec, fun _ => ⟨hframe, hedge, hends⟩, nofun⟩
    | true =>
      obtain ⟨t, hexec, hframe, hends⟩ := exec_graphEdge_cycle hstarts hop hcheck hwait hk hcycle
      exact ⟨t, hexec, nofun, fun _ => ⟨hframe, hends⟩⟩
  case fires =>
    intro s q seq c f g k hstarts hop hclean hsrc hdst hne hk hwait
    have hcheck : s.edgeChecks c = .ok () := State.edgeChecks_ok hclean hsrc hdst hne hk
    have hexec := exec_graphEdge_runs hstarts hop
    rwa [hcheck, State.checked_ok, State.placeEdge_fires _ hwait] at hexec

/-- Settles O13: each check by its lemma `State.edgeChecks_…`, and what a failed one does by `exec_graphEdge_fails`; the search by
`exec_graphEdge_cycle` (R238, R241, R243). -/
theorem graphEdgeIsCheckedInOrder : Obligations.GraphEdgeIsCheckedInOrder := by
  unfold Obligations.GraphEdgeIsCheckedInOrder
  intro s q seq c hstarts hop dst named fails
  have hfails : ∀ st, s.edgeChecks c = .error (.fail st none) → fails st := fun st => exec_graphEdge_fails hstarts hop
  have hunnamed : ∀ fid st r, named fid = .error (.fail st r) → s.edgeChecks c = .error (.fail st r) →
      fails st ∧ (st = stBadFence ∨ st = stNotPermitted) := by
    intro fid st r hnamed hcheck
    rcases State.nameFence_error hnamed with h | h <;> cases h
    · exact ⟨hfails _ hcheck, .inl rfl⟩
    · exact ⟨hfails _ hcheck, .inr rfl⟩
  refine ⟨?reserved, ?src, ?dst, ?self, ?full, ?cycle⟩
  case reserved => exact fun hclean => hfails _ (s.edgeChecks_unclean hclean)
  case src => exact fun hclean st r hsrc => hunnamed _ st r hsrc (State.edgeChecks_src hclean hsrc)
  case dst => exact fun f hclean hsrc st r hdst => hunnamed _ st r hdst (State.edgeChecks_dst hclean hsrc hdst)
  case self => exact fun f hclean hsrc hself => hfails _ (State.edgeChecks_self hclean hsrc hself)
  case full => exact fun f g hclean hsrc hdst hne hfull => hfails _ (State.edgeChecks_full hclean hsrc hdst hne hfull)
  case cycle =>
    exact fun f g k hclean hsrc hdst hne hk hwait hcycle =>
      exec_graphEdge_cycle hstarts hop (State.edgeChecks_ok hclean hsrc hdst hne hk) hwait hk hcycle

end Sys2Proof.Machine
end

section
/-! DISPATCH (R248 to R251, R254, R360, R363): its work once its chain is mapped, its acceptance, and what a done response makes of it. -/
namespace Sys2Proof.Machine

/-! ### Acceptance (R249, R250) -/

theorem exec_dispatch_runs {s : State} {q seq : Nat} {c : Cmd} (hc : s.cmd (ckey q seq) = some c) (hruns : s.mayStart c = true ∨ c.again = true)
    (hop : c.opcode = 0x30) : exec (.dispatch q seq) s = .next (State.doDispatch (ckey q seq) c s) :=
  congrArg Host.Outcome.next (State.start_runs _ hc hruns (by simp [hop]))

/-- With its chain read, a DISPATCH goes on to steps 4 and 5 of R250. -/
theorem State.doDispatch_read {s : State} {c : Cmd} (cl : Client) (hagain : c.again = true) (hst : c.stage ≠ 0) (hbad : c.operandBad = false) :
    State.doDispatch cl c s = s.dispPlan cl c := by
  rw [State.doDispatch, if_pos hst]
  exact State.withOperands_good _ _ hagain hbad

/-- One whose chain was read and translated ahead is accepted as it starts. -/
theorem State.doDispatch_ahead {s : State} {c : Cmd} {w : DispW} (cl : Client) (hst : c.stage = 0) (hfields : s.dispFields c = .ok ())
    (hwork : c.work = .disp w) : State.doDispatch cl c s = s.dispAccept cl w := by
  rw [State.doDispatch, if_neg (not_not_intro hst), hfields, State.checked_ok, hwork]

/-- What DISPATCH `c` does with its descriptors `ms`, which are all mapped. -/
def Cmd.mappedWork (c : Cmd) (ms : List (Desc × Option FaultRec)) : DispW :=
  { ep := c.fld 8 2 0 10, engOp := c.num 24 8, descs := ms.map (·.1), unmapped := false }

/-- A chain in order, mapped and not of too many extents passes steps 4 and 5 of R250. -/
theorem State.dispWork_mapped {s : State} {cl : Client} {c : Cmd} {ms : List (Desc × Option FaultRec)} (hdescs : (s.chain c).all descOk = true)
    (hms : ((s.chain c).zipIdx).mapM (fun x => s.mapDesc cl c x.2 x.1) = .ok ms) (hmapped : ∀ m ∈ ms, m.2 = none)
    (hfits : (ms.map (fun m => extents m.1.pieces)).foldl (· + ·) 0 ≤ 16384) : s.dispWork cl c = .ok (c.mappedWork ms) := by
  have hunmapped : ms.any (fun m => m.2.isSome) = false := by simpa [List.any_eq_false] using hmapped
  have hfaults : ms.filterMap (·.2) = [] := List.filterMap_eq_nil_iff.2 hmapped
  rw [State.dispWork, Chk.ok_bind (need_true _ hdescs), Chk.ok_bind hms, Chk.ok_bind (need_true _ (decide_eq_true hfits)), hunmapped, hfaults]
  rfl

/-- DISPATCH `cl` has been accepted with work `w`, and counts as that; its port is still to be served. -/
def State.dispWaits (s : State) (cl : Client) (w : DispW) : State :=
  (s.count 0x2105 4).updCmd cl (fun c => { c with phase := .running, stage := 8, work := .disp w })

theorem State.dispAccept_eq (s : State) (cl : Client) (w : DispW) : s.dispAccept cl w = (s.dispWaits cl w).pump w.ep 8192 := rfl

theorem State.dispWaits_frame (s : State) (cl : Client) (w : DispW) :
    ∃ k, s.dispWaits cl w = { s with
      cmds := Tab.upd s.cmds cl (fun c => { c with phase := .running, stage := 8, work := .disp w }), incr := k } := by
  obtain ⟨k, hcount⟩ := s.count_frame 0x2105 4
  exact ⟨k, by rw [State.dispWaits, hcount]; rfl⟩

/-! ### The work of a dispatch -/

/-- The status of a dispatch whose engine answered `st` (R254). -/
def DispW.status (w : DispW) (st : Nat) : Nat := if st ≠ 0 then stEngineError else if w.unmapped then stFault else stOk

section
variable {s : State} {cl : Client} {c : Cmd} {w : DispW} (hc : s.cmd cl = some c) (hwork : c.work = .disp w)
include hc hwork

theorem State.disp_eq : s.disp cl = some (c, w) := by
  simp only [State.disp, hc, hwork]

theorem State.updDisp_becomes (f : DispW → DispW) : Tab.becomes s.cmds (s.updDisp cl f).cmds cl { c with work := .disp (f w) } := by
  refine ⟨?_, fun j hj => Tab.at?_upd_ne s.cmds _ hj⟩
  show Tab.at? (Tab.upd s.cmds cl _) cl = _
  have hat : Tab.at? s.cmds cl = some c := hc
  simp [hat, hwork]

/-- The END of a dispatch under way has been sent where its work says so. -/
theorem State.ended_eq (e : Ep) (did : Nat) : s.ended e did cl = w.endSent := by
  simp only [State.ended, State.disp_eq hc hwork]

/-- A dispatch that has its response, its END sent and no transfer left completes. -/
theorem State.dispEnd_ends {st res : Nat} (hdone : w.doneStat = some (st, res)) (hend : w.endSent = true) (hrun : c.phase = .running)
    (hleft : Tab.ex s.eps (fun _ e => Tab.ex e.xids (fun _ x => x.client == cl)) = false) :
    s.dispEnd cl = (s.updCmd cl (fun c => { c with poison := c.poison || w.poisonSent })).finish cl (w.status st)
      (w.made % 2 ^ 24 + st % 256 * 2 ^ 24) res := by
  have hready : (w.endSent && c.phase == .running && !Tab.ex s.eps (fun _ e => Tab.ex e.xids (fun _ x => x.client == cl))) = true := by
    simp [hend, hrun, hleft]
  simp only [State.dispEnd, State.disp_eq hc hwork, hdone, hready, if_true]
  rfl

end

/-! ### Done responses (R254, R360, R363) -/

/-- The done response of dispatch `did`, which is DISPATCH `cl`, has freed the identifier and is kept. -/
def State.doneKept (s : State) (ep did stat res : Nat) (cl : Client) : State :=
  (s.updEp ep (fun e => { e with dids := Tab.del e.dids did })).updDisp cl (fun w => { w with doneStat := some (stat % 256, res) })

section
variable {s : State} {ep did : Nat} {e : Ep} (stat : Nat) (res : BitVec 32) (he : Tab.at? s.eps ep = some e) (hin : s.epIn ep e = true)
include he hin

theorem exec_doneResponse_taken {cl : Client} (hdid : Tab.at? e.dids did = some cl) (hended : s.ended e did cl = true) :
    exec (.doneResponse ep did stat res) s = .next (((s.doneKept ep did stat res.toNat cl).dispEnd cl).pump ep 8192) := by
  simp only [exec, execDoneResponse, State.doneResp, he, hin, hdid, hended, Bool.not_true, Bool.false_eq_true, if_false, if_true]
  rfl

theorem exec_doneResponse_unknown (hdid : Tab.at? e.dids did = none) : exec (.doneResponse ep did stat res) s = .next (s.protErr ep) := by
  simp only [exec, execDoneResponse, State.doneResp, he, hin, hdid, Bool.not_true, Bool.false_eq_true, if_false]

theorem exec_doneResponse_early {cl : Client} (hdid : Tab.at? e.dids did = some cl) (hended : s.ended e did cl = false) :
    exec (.doneResponse ep did stat res) s = .next (s.protErr ep) := by
  simp only [exec, execDoneResponse, State.doneResp, he, hin, hdid, hended, Bool.not_true, Bool.false_eq_true, if_false]

end

/-- The error record of an engine protocol error of port `ep` (R363, R414). -/
def State.protRec (s : State) (ep : Nat) : ERec :=
  { kind := 7, pid := (s.ownerOf (s.build.epStn ep)).getD 0x3F, stn := s.build.epStn ep, ep := ep - s.build.epFirst (s.build.epStn ep) }

theorem State.rsWrite_elogCnt (s : State) (a : Nat) (bs : List Byte) : (s.rsWrite a bs).rcv.elogCnt = s.rcv.elogCnt := rfl

/-- A record written counts (R413). The write is left folded: compared with its bytes unfolded, the two counts are too deep for the kernel. -/
theorem State.elog_elogCnt (s : State) (r : ERec) : (s.elog r).rcv.elogCnt = (s.rcv.elogCnt + 1) % 2 ^ 32 :=
  congrArg (fun n => (n + 1) % 2 ^ 32) (s.draw.rsWrite_elogCnt _ _)

theorem State.protErr_eq (s : State) (ep : Nat) : s.protErr ep = (s.elog (s.protRec ep)).ask 2 ep := rfl

/-! ### The statement -/

/-- Settles O25: acceptance by `State.dispWork_mapped` and `State.doDispatch_ahead`, a response by `exec_doneResponse_taken`, the end by
`State.dispEnd_ends`, and a response out of place by `State.protErr_eq` (R248 to R251, R254, R360, R363; log entries 101 and 102). -/
theorem dispatchesStartAndEnd : Obligations.DispatchesStartAndEnd := by
  unfold Obligations.DispatchesStartAndEnd
  refine ⟨⟨?read, ?ahead⟩, ?response, ?ends, ?astray⟩
  case read =>
    intro s q seq c ms hc hagain hst hop hbad hdescs hms hmapped hfits
    obtain ⟨parts, htouch⟩ := s.touchRanges_frame (ckey q seq) (s.cidOf c) ((s.chain c).map (fun d => (lf d 0 1 0 4 == 1, rd d 8 8, rd d 4 4)))
    obtain ⟨k, hwaits⟩ := State.dispWaits_frame { s with parts := parts } (ckey q seq) (c.mappedWork ms)
    have hexec := exec_dispatch_runs hc (.inr hagain) hop
    rw [State.doDispatch_read _ hagain (by omega) hbad, State.dispPlan, State.dispWork_mapped hdescs hms hmapped hfits, State.checked_ok,
      State.touchChain, htouch, State.dispAccept_eq, hwaits] at hexec
    refine ⟨_, hexec, rfl, ?_⟩
    rw [← Cmd.running_of_again hagain]
    exact Tab.becomes_upd _ hc
  case ahead =>
    intro s q seq c w hstarts hop hfields hwork
    obtain ⟨hc, hmay⟩ := hstarts
    obtain ⟨k, hwaits⟩ := s.dispWaits_frame (ckey q seq) w
    have hexec := exec_dispatch_runs hc (.inl hmay) hop
    rw [State.doDispatch_ahead _ (State.mayStart_stage hmay) hfields hwork, State.dispAccept_eq, hwaits] at hexec
    refine ⟨_, hexec, rfl, ?_⟩
    rw [← hwork]
    exact Tab.becomes_upd _ hc
  case response =>
    intro s ep did stat res e c cl w he hin hdid hc hwork hend
    exact ⟨s.doneKept ep did stat res.toNat cl, Tab.del e.dids did,
      exec_doneResponse_taken stat res he hin hdid (by rw [State.ended_eq hc hwork, hend]), rfl, Tab.becomes_upd _ he, Tab.loses_del e.dids did,
      State.updDisp_becomes (s := s.updEp ep _) hc hwork _⟩
  case ends =>
    intro s cl c w st res hc hwork hdone hend hrun hlive hleft
    rw [State.dispEnd_ends hc hwork hdone hend hrun hleft]
    have hpoison := Tab.becomes_upd (fun c : Cmd => { c with poison := c.poison || w.poisonSent }) hc
    exact ⟨rfl, Tab.becomes_trans hpoison (State.finish_at _ cl _ (w.status st) _ res hpoison.1 hlive)⟩
  case astray =>
    intro s ep did stat res e he hin hastray
    have hexec : exec (.doneResponse ep did stat res) s = .next (s.protErr ep) := by
      rcases hastray with hdid | ⟨cl, c, w, hdid, hc, hwork, hend⟩
      · exact exec_doneResponse_unknown stat res he hin hdid
      · exact exec_doneResponse_early stat res he hin hdid (by rw [State.ended_eq hc hwork, hend])
    rw [State.protErr_eq] at hexec
    exact ⟨_, hexec, rfl, s.elog_elogCnt _⟩

end Sys2Proof.Machine
end

section
/-! NOP, FENCE_CREATE and FENCE_WAIT (R229, R232 to R234, R261, R264): what a new fence is, and how a wait that is over ends. -/
namespace Sys2Proof.Machine

/-! ### NOP (R261, R264) -/

theorem State.doNop_eq (s : State) (cl : Client) (c : Cmd) :
    State.doNop cl c s = s.finish cl (if c.clean = true then stOk else stBadOperand) 0 0 := by
  cases hclean : c.clean with
  | true => rw [State.doNop, need_true _ hclean, State.checked_ok, if_pos rfl]
  | false => rw [State.doNop, need_false _ hclean, State.checked_error, State.stop_fail_none, if_neg Bool.false_ne_true]

theorem exec_nop_runs {s : State} {q seq : Nat} {c : Cmd} (hstarts : s.starts q seq c) (hop : c.opcode = 0x00) :
    exec (.nop q seq) s = .next (State.doNop (ckey q seq) c s) :=
  congrArg Host.Outcome.next (State.start_runs _ hstarts.1 (.inl hstarts.2) (by simp [hop]))

/-! ### FENCE_CREATE (R229, R233) -/

/-- The partition whose quota a fence of command `c` counts against; QID 0's fences belong to none (R229). -/
def State.fencePid (s : State) (c : Cmd) : Option Nat := if c.q = 0 then none else some (s.pidOf (s.cidOf c))

/-- The fence that command `c` creates. -/
def State.newFence (s : State) (c : Cmd) : Fence :=
  { owner := s.cidOf c, pid := s.fencePid c, shared := c.q != 0 && c.fld 8 1 4 1 == 1, value := c.fval }

theorem exec_fenceCreate_runs {s : State} {q seq : Nat} {c : Cmd} (hstarts : s.starts q seq c) (hop : c.opcode = 0x01) (hmode : c.fmode = 1) :
    exec (.fenceCreate q seq) s = .next (State.doFenceCreate (ckey q seq) c s) :=
  congrArg Host.Outcome.next (State.start_runs _ hstarts.1 (.inl hstarts.2) (by simp [hop, hmode]))

theorem State.doFenceCreate_takes {s : State} {c : Cmd} {fid : Nat} (cl : Client) (hok : c.fsigOk = true)
    (hfid : Tab.freeFrom s.fences 0 262144 = some fid) (hroom : s.fencesOf (s.fencePid c) < s.quotaOf (s.fencePid c)) :
    State.doFenceCreate cl c s = ({ s with fences := Tab.put s.fences fid (s.newFence c) } : State).finish cl stOk fid 0 := by
  rw [State.doFenceCreate, need_true _ hok, State.checked_ok, hfid]
  exact if_pos hroom

/-- A partition at its quota gets no fence, whether or not a FID is free. -/
theorem State.doFenceCreate_atQuota {s : State} {c : Cmd} (cl : Client) (hok : c.fsigOk = true)
    (hfull : s.quotaOf (s.fencePid c) ≤ s.fencesOf (s.fencePid c)) : State.doFenceCreate cl c s = s.finish cl stNoFence 0 0 := by
  rw [State.doFenceCreate, need_true _ hok, State.checked_ok]
  cases Tab.freeFrom s.fences 0 262144 with
  | some fid => exact if_neg (Nat.not_lt.2 hfull)
  | none => rfl

/-! ### FENCE_WAIT (R232, R234) -/

section
variable {f : Fence} {w : Nat}

theorem Fence.wait_failed (herr : f.err = true) (hval : f.errVal ≤ w) : f.wait w = .failed := if_pos ⟨herr, hval⟩

theorem Fence.wait_met (hval : w ≤ f.value) (hgood : ¬(f.err = true ∧ f.errVal ≤ w)) : f.wait w = .met := by
  rw [Fence.wait, if_neg hgood, if_pos hval]

theorem Fence.wait_unmet (hval : f.value < w) (hgood : ¬(f.err = true ∧ f.errVal ≤ w)) : f.wait w = .unmet := by
  rw [Fence.wait, if_neg hgood, if_neg (Nat.not_le.2 hval)]

end

theorem State.waitSt_of_at? {s : State} {fid : Nat} {f : Fence} (w : Nat) (hf : Tab.at? s.fences fid = some f) : s.waitSt fid w = f.wait w := by
  simp only [State.waitSt, hf]

theorem exec_fenceWait_runs {s : State} {q seq : Nat} {c : Cmd} (hstarts : s.starts q seq c) (hop : c.opcode = 0x02) :
    exec (.fenceWait q seq) s = .next (State.doFenceWait (ckey q seq) c s) :=
  congrArg Host.Outcome.next (State.start_runs _ hstarts.1 (.inl hstarts.2) (by simp [hop]))

/-- A command that runs on its fence ends with the status and fields given. -/
theorem State.onFence_finish {s : State} {cl : Client} {c : Cmd} (st n x : Nat) (hc : s.cmd cl = some c) (hcancel : c.cancel = none) :
    Tab.becomes s.cmds ((s.onFence cl).finish cl st n x).cmds cl
      { c with phase := .done, stage := 8, work := .fence c.fid, status := st, count := n % 2 ^ 32, aux := min x (2 ^ 32 - 1) } := by
  have hruns : Tab.becomes s.cmds (s.onFence cl).cmds cl _ := Tab.becomes_upd _ hc
  exact Tab.becomes_trans hruns ((s.onFence cl).finish_at cl _ st n x hruns.1 hcancel)

section
variable {s : State} {c : Cmd} {f : Fence} (cl : Client) (hclean : c.clean = true) (hf : s.nameFence c.q (s.cidOf c) c.fid = .ok f)
include hclean hf

/-- A wait that is not over runs on; one without signals needs no search (R243). -/
theorem State.doFenceWait_unmet (hwait : f.wait c.fval = .unmet) (hnsig : c.nsig = 0) : State.doFenceWait cl c s = s.onFence cl := by
  rw [State.doFenceWait, Chk.ok_bind (need_true _ hclean), hf, State.checked_ok, if_pos hwait, if_pos hnsig]
  rfl

/-- A wait that is over ends as it stands. -/
theorem State.doFenceWait_over (hwait : f.wait c.fval ≠ .unmet) : State.doFenceWait cl c s = (s.onFence cl).fenceWaitDone cl c := by
  rw [State.doFenceWait, Chk.ok_bind (need_true _ hclean), hf, State.checked_ok, if_neg hwait]
  rfl

theorem State.doFenceWait_met (hwait : f.wait c.fval = .met) : State.doFenceWait cl c s = (s.onFence cl).finish cl stOk 0 0 := by
  have hst : (s.onFence cl).waitSt (c.fld 12 4 0 18) (c.num 16 8) = .met := (State.waitSt_of_at? _ (State.at?_of_nameFence hf)).trans hwait
  rw [State.doFenceWait_over cl hclean hf (by simp [hwait]), State.fenceWaitDone, hst]

/-- TOLERATE takes a failed wait as one that is over, and reports it (R234). -/
theorem State.doFenceWait_failed (hwait : f.wait c.fval = .failed) :
    State.doFenceWait cl c s = (s.onFence cl).finish cl (if c.fld 8 1 0 1 = 1 then stOk else stDependencyFailed) 0 (if c.fld 8 1 0 1 = 1 then 1 else 0) := by
  have hst : (s.onFence cl).waitSt (c.fld 12 4 0 18) (c.num 16 8) = .failed := (State.waitSt_of_at? _ (State.at?_of_nameFence hf)).trans hwait
  rw [State.doFenceWait_over cl hclean hf (by simp [hwait]), State.fenceWaitDone, hst]
  by_cases htolerate : c.fld 8 1 0 1 = 1
  · simp only [if_pos htolerate]
  · simp only [if_neg htolerate]

end

/-! ### The statement -/

/-- Settles O10: NOP by `State.doNop_eq`, FENCE_CREATE by whether the quota has room (`State.doFenceCreate_takes`,
`State.doFenceCreate_atQuota`), FENCE_WAIT by the state of its wait (`State.doFenceWait_met`, `State.doFenceWait_failed`,
`State.doFenceWait_unmet`) (R229, R232 to R234, R261, R264). -/
theorem nopAndFenceCommands : Obligations.NopAndFenceCommands := by
  unfold Obligations.NopAndFenceCommands
  refine ⟨?nop, ⟨?takes, ?atQuota⟩, ?wait⟩
  case nop =>
    intro s q seq c hstarts hop
    have hexec := exec_nop_runs hstarts hop
    rw [State.doNop_eq] at hexec
    exact ⟨_, hexec, rfl, s.finish_at _ c _ 0 0 hstarts.1 (State.mayStart_cancel hstarts.2)⟩
  case takes =>
    intro s q seq c fid hstarts hop hmode hok hfid pid hroom
    have hexec := exec_fenceCreate_runs hstarts hop hmode
    rw [State.doFenceCreate_takes _ hok hfid hroom] at hexec
    exact ⟨_, hexec, rfl, Tab.becomes_put .., State.finish_at _ _ c stOk fid 0 hstarts.1 (State.mayStart_cancel hstarts.2)⟩
  case atQuota =>
    intro s q seq c hstarts hop hmode hok pid hfull
    have hexec := exec_fenceCreate_runs hstarts hop hmode
    rw [State.doFenceCreate_atQuota _ hok hfull] at hexec
    exact ⟨_, hexec, rfl, s.finish_at _ c stNoFence 0 0 hstarts.1 (State.mayStart_cancel hstarts.2)⟩
  case wait =>
    intro s q seq c f hstarts hop hclean hf
    obtain ⟨hc, hmay⟩ := hstarts
    have hcancel := State.mayStart_cancel hmay
    have hexec := exec_fenceWait_runs ⟨hc, hmay⟩ hop
    refine ⟨fun hval hgood => ?met, fun herr hval => ?failed, fun hval hgood hnsig => ?unmet⟩
    case met =>
      rw [State.doFenceWait_met _ hclean hf (Fence.wait_met hval hgood)] at hexec
      exact ⟨_, hexec, rfl, State.onFence_finish stOk 0 0 hc hcancel⟩
    case failed =>
      rw [State.doFenceWait_failed _ hclean hf (Fence.wait_failed herr hval)] at hexec
      have haux : min (if c.fld 8 1 0 1 = 1 then 1 else 0) (2 ^ 32 - 1) = if c.fld 8 1 0 1 = 1 then 1 else 0 := by split <;> rfl
      have hends := State.onFence_finish (if c.fld 8 1 0 1 = 1 then stOk else stDependencyFailed) 0 (if c.fld 8 1 0 1 = 1 then 1 else 0) hc hcancel
      rw [haux] at hends
      exact ⟨_, hexec, rfl, hends⟩
    case unmet =>
      rw [State.doFenceWait_unmet _ hclean hf (Fence.wait_unmet hval hgood) hnsig] at hexec
      exact ⟨_, hexec, rfl, Tab.becomes_upd _ hc⟩

end Sys2Proof.Machine
end

section
/-! Sectors of a translated range (R300, R348, R365): the bytes that reads brought of one, and a write of one in host memory. -/
namespace Sys2Proof.Machine

/-! ### Lengths -/

@[simp] theorem runFrom_length (a n : Nat) : (runFrom a n).length = n := by
  induction n generalizing a with
  | zero => rfl
  | succ n ih => rw [runFrom, List.length_cons, ih]

@[simp] theorem Mem.read_length (m : Mem) (a n : Nat) : (m.read a n).length = n := by
  rw [Mem.read, List.length_map, runFrom_length]

@[simp] theorem State.tread_length (s : State) (t : Tgt) (n : Nat) : (s.tread t n).length = n := by
  unfold State.tread
  split
  · exact Mem.read_length ..
  · exact Mem.read_length ..

/-- What is laid over bytes replaces some of them, and adds none. -/
@[simp] theorem overlay_length (bs : List Byte) (a : Nat) (data : List Byte) (b : Nat) : (overlay bs a data b).length = bs.length := by
  simp only [overlay]
  split
  · simp only [List.length_append, List.length_take, List.length_drop]
    omega
  · rfl

@[simp] theorem State.titems_length (s : State) (its : List Item) (t : Tgt) (n : Nat) : (s.titems its t n).length = n :=
  foldl_keeps (fun bs => bs.length = n) _ _ (fun bs _ _ hbs => (overlay_length bs ..).trans hbs) _ (s.tread_length t n)

/-! ### A range of one piece -/

section
variable {n o k : Nat} {t : Tgt} {ca : Nat} {wr perm : Bool}

theorem partsOf_within (hk : 0 < k) (hfit : o + k ≤ n) :
    partsOf [{ off := 0, len := n, tgt := some t, ca := ca, wr := wr, perm := perm }] o k = [(some { t with addr := t.addr + o }, k)] := by
  have hmeets : max o 0 < min (o + k) (0 + n) := by omega
  have hfrom : max o 0 - 0 = o := by omega
  have hlen : min (o + k) (0 + n) - max o 0 = k := by omega
  simp only [partsOf, List.filterMap_cons, List.filterMap_nil, if_pos hmeets, hfrom, hlen, Option.map_some]

theorem State.brought_within (s : State) (its : List Item) (hk : 0 < k) (hfit : o + k ≤ n) :
    s.brought its [{ off := 0, len := n, tgt := some t, ca := ca, wr := wr, perm := perm }] o k = s.titems its { t with addr := t.addr + o } k := by
  rw [State.brought, partsOf_within hk hfit, List.flatMap_singleton]

theorem State.arrivedBad_within (s : State) (its : List Item) (hk : 0 < k) (hfit : o + k ≤ n) :
    s.arrivedBad its [{ off := 0, len := n, tgt := some t, ca := ca, wr := wr, perm := perm }] o k = s.tbad its { t with addr := t.addr + o } k := by
  rw [State.arrivedBad, partsOf_within hk hfit, List.any_cons, List.any_nil, Bool.or_false]

end

theorem State.hostWrite_nil (s : State) (fn : Nat) (pasid : Option Nat) (a : Nat) (p : Bool) : s.hostWrite fn pasid a [] p = s :=
  if_neg fun h => h.2 rfl

/-- A write within one stretch of host memory is one write for the context's function. -/
theorem State.pwrite_host_within (s : State) (cl : Client) (cid : Nat) {a o n ca : Nat} {wr perm : Bool} {bs : List Byte} (p : Bool)
    (hfit : o + bs.length ≤ n) :
    s.pwrite cl cid [{ off := 0, len := n, tgt := some ⟨true, 0, a⟩, ca := ca, wr := wr, perm := perm }] o bs p =
      s.hostWrite (s.reqId cid).1 (s.reqId cid).2 (a + o) bs p := by
  simp only [State.pwrite, List.foldl_cons, List.foldl_nil]
  by_cases hbs : bs = []
  · have hnone : ¬max o 0 < min (o + bs.length) (0 + n) := by rw [hbs, List.length_nil]; omega
    rw [if_neg hnone, hbs, State.hostWrite_nil]
  · have hpos : 0 < bs.length := List.length_pos_iff.2 hbs
    have hmeets : max o 0 < min (o + bs.length) (0 + n) := by omega
    have hfrom : max o 0 - 0 = o := by omega
    have hskip : max o 0 - o = 0 := by omega
    have hlen : min (o + bs.length) (0 + n) - max o 0 = bs.length := by omega
    rw [if_pos hmeets, hfrom, hskip, hlen, List.drop_zero, List.take_length]
    rfl

end Sys2Proof.Machine
end

section
/-! COPY (R276): what moving its sectors can change, and where each is written. -/
namespace Sys2Proof.Machine

/-- From `s` to `u` sectors of COPY `cl`, which is `c` in `s`, were moved: queues and tables are as they were, and of the commands it alone
may have changed, to one that is poisoned. -/
def State.copied (s u : State) (cl : Client) (c : Cmd) : Prop :=
  u.queues = s.queues ∧ u.tables = s.tables ∧ ∃ p, (c.poison = true → p = true) ∧ Tab.becomes s.cmds u.cmds cl { c with poison := p }

theorem State.copied.refl {s : State} {cl : Client} {c : Cmd} (hc : s.cmd cl = some c) : s.copied s cl c :=
  ⟨rfl, rfl, c.poison, id, hc, fun _ _ => rfl⟩

theorem State.copied.sector {s u : State} {cl : Client} {c : Cmd} (h : s.copied u cl c) (d : Cmd) (k : Nat) : s.copied (u.copySector cl d k) cl c := by
  obtain ⟨hqueues, htables, p, hkeeps, hcmds⟩ := h
  simp only [State.copySector]
  generalize u.arrivedBad d.items _ _ _ = bad
  have hmoved := State.writesMoved_of_stnMem
    (u.pwrite_portsMoved cl (u.cidOf d) ((d.ranges[1]?).getD []) (64 * k) (u.brought d.items ((d.ranges[0]?).getD []) (64 * k) 64) bad)
  generalize u.pwrite cl _ _ _ _ bad = v at hmoved
  rw [← hmoved.queues] at hqueues
  rw [← hmoved.tables] at htables
  rw [← hmoved.cmds] at hcmds
  cases bad with
  | false => exact ⟨hqueues, htables, p, hkeeps, hcmds⟩
  | true =>
    have hpoison := Tab.becomes_upd (fun d : Cmd => { d with poison := true }) hcmds.1
    exact ⟨hqueues, htables, true, fun _ => rfl, Tab.becomes_trans hcmds hpoison⟩

/-- The first `n` sectors of COPY `c`, written in rising order (log entry 14). -/
def State.copySectors (s : State) (cl : Client) (c : Cmd) (n : Nat) : State := (List.range n).foldl (fun s k => s.copySector cl c k) s

theorem State.copySectors_copied {s : State} {cl : Client} {c : Cmd} (n : Nat) (hc : s.cmd cl = some c) : s.copied (s.copySectors cl c n) cl c :=
  foldl_keeps (fun u => s.copied u cl c) _ _ (fun _ k _ hu => hu.sector c k) s (.refl hc)

/-- A COPY whose source is read writes its sectors and ends with their number. -/
theorem exec_copy_read {s : State} {q seq : Nat} {c : Cmd} (hc : s.cmd (ckey q seq) = some c) (hagain : c.again = true) (hst : c.stage = 1)
    (hop : c.opcode = 0x31) :
    exec (.copy q seq) s = .next ((s.copySectors (ckey q seq) c (c.num 8 8 / 64)).finish (ckey q seq) stOk (c.num 8 8 / 64) 0) := by
  have hmove : State.doCopy (ckey q seq) c s = _ :=
    calc State.doCopy (ckey q seq) c s
      _ = s.copyMove (ckey q seq) c := if_neg (by omega)
      _ = (s.copySectors (ckey q seq) c (c.num 8 8 / 64)).finish (ckey q seq) stOk (c.num 8 8 / 64) 0 := by
        rw [State.copyMove, Cmd.cancel_of_again hagain]
        rfl
  rw [← hmove]
  exact congrArg Host.Outcome.next (State.start_runs _ hc (.inr hagain) (by simp [hop]))

/-- A sector moved between stretches of host memory is one write: the bytes that arrived, poisoned where they arrived so. -/
theorem State.copySector_host {s : State} {c : Cmd} {k a b m n ca cb : Nat} {w p r : Bool} (cl : Client)
    (hranges : c.ranges = [[⟨0, m, some ⟨true, 0, a⟩, ca, w, p⟩], [⟨0, n, some ⟨true, 0, b⟩, cb, true, r⟩]]) (hsrc : 64 * (k + 1) ≤ m)
    (hdst : 64 * (k + 1) ≤ n) (hfn : s.fnOk (s.reqId (s.cidOf c)).1 = true) :
    (s.copySector cl c k).host =
      s.host.write (b + 64 * k) (s.titems c.items ⟨true, 0, a + 64 * k⟩ 64) (s.tbad c.items ⟨true, 0, a + 64 * k⟩ 64) := by
  have hwrite := s.pwrite_host_within cl (s.cidOf c) (a := b) (o := 64 * k) (n := n) (ca := cb) (wr := true) (perm := r)
    (bs := s.titems c.items ⟨true, 0, a + 64 * k⟩ 64) (s.tbad c.items ⟨true, 0, a + 64 * k⟩ 64) (by rw [State.titems_length]; omega)
  have hhost := State.hostWrite_host (s.reqId (s.cidOf c)).2 (b + 64 * k) (s.titems c.items ⟨true, 0, a + 64 * k⟩ 64)
    (s.tbad c.items ⟨true, 0, a + 64 * k⟩ 64) hfn
  simp only [State.copySector, hranges, List.getElem?_cons_zero, List.getElem?_cons_succ, Option.getD_some,
    s.arrivedBad_within c.items (by decide : 0 < 64) (show 64 * k + 64 ≤ m by omega),
    s.brought_within c.items (by decide : 0 < 64) (show 64 * k + 64 ≤ m by omega), hwrite]
  split
  · exact hhost
  · exact hhost

end Sys2Proof.Machine
end

section
/-! CENSUS (R283 to R286): its checks on QID 0, what it counts and lists, and where it writes it. -/
namespace Sys2Proof.Machine

/-! ### Its buffer (R260) -/

/-- The pieces of a range of bus addresses, as context 0 uses them. -/
def busPieces (write : Bool) (a len : Nat) : List Piece :=
  if len = 0 then [] else [{ off := 0, len := len, tgt := some ⟨true, 0, a⟩, ca := a, wr := write, perm := true }]

theorem State.mapAll_bus (s : State) (cl : Client) (c : Cmd) (write : Bool) (a len : Nat) :
    s.mapAll cl c 0 write a len = .ok (busPieces write a len) := by
  by_cases hlen : len = 0
  · simp [State.mapAll, State.spans, State.xlat, busPieces, piecesOf, hlen]
  · simp [State.mapAll, State.spans, State.xlat_busSpan _ _ _ _ hlen, busPieces, piecesOf, busSpan, hlen]

/-- A write that such a range holds is one write of host memory, by context 0's function. -/
theorem State.pwrite_busPieces (s : State) (cl : Client) (write : Bool) (a : Nat) {bs : List Byte} {len : Nat} (p : Bool) (hfit : bs.length ≤ len) :
    s.pwrite cl 0 (busPieces write a len) 0 bs p = s.hostWrite (s.reqId 0).1 (s.reqId 0).2 a bs p := by
  by_cases hlen : len = 0
  · obtain rfl : bs = [] := List.eq_nil_of_length_eq_zero (by omega)
    rw [busPieces, if_pos hlen, State.hostWrite_nil]
    rfl
  · rw [busPieces, if_neg hlen, State.pwrite_host_within _ _ _ _ (by omega)]
    rfl

theorem State.mapRanges_bus (s : State) (cl : Client) (c : Cmd) (write : Bool) (a len : Nat) :
    s.mapRanges cl c 0 [(write, a, len)] = .ok [busPieces write a len] := by
  rw [State.mapRanges, List.mapM_cons, List.mapM_nil, Chk.ok_bind (s.mapAll_bus cl c write a len)]
  rfl

/-- A command that notes whether its output was cut short ends with that, and with the status and fields given. -/
theorem State.finish_trunc {s : State} {cl : Client} {c : Cmd} (b : Bool) (st n x : Nat) (hc : s.cmd cl = some c) (hcancel : c.cancel = none) :
    Tab.becomes s.cmds ((s.updCmd cl (fun d => { d with trunc := b })).finish cl st n x).cmds cl
      { c with phase := .done, status := st, trunc := b, count := n % 2 ^ 32, aux := min x (2 ^ 32 - 1) } := by
  have htrunc := Tab.becomes_upd (fun d : Cmd => { d with trunc := b }) hc
  exact Tab.becomes_trans htrunc (State.finish_at _ cl { c with trunc := b } st n x htrunc.1 hcancel)

/-! ### What it writes (R284 to R286) -/

/-- The types of record that CENSUS `c` asks for: all of them where MASK names none but type 0. -/
def Cmd.censusMask (c : Cmd) : Nat := if c.fld 12 4 1 11 = 0 then 0xFFF else c.fld 12 4 0 12

/-- The records that CENSUS `c` asks for. -/
def State.censusRecs (s : State) (c : Cmd) : List CRec :=
  (s.cRecs (s.cScope c).1 (s.cScope c).2.1 (s.cScope c).2.2).filter (fun r => bit c.censusMask r.type)

/-- The bytes that its HEADER and all its records take. -/
def State.censusTotal (s : State) (c : Cmd) : Nat := 64 + ((s.censusRecs c).map (fun r => r.bytes.length)).foldl (· + ·) 0

/-- The records that fit its buffer after the HEADER. -/
def State.censusFit (s : State) (c : Cmd) : List CRec := fitRecs (c.num 32 8 - 64) (s.censusRecs c)

/-- The records it writes, with the HEADER: none into a buffer of length 0. -/
def State.censusCount (s : State) (c : Cmd) : Nat := if c.num 32 8 = 0 then 0 else (s.censusFit c).length + 1

/-- What it writes: the HEADER and the records that fit, and nothing into a buffer of length 0. -/
def State.censusBytes (s : State) (c : Cmd) : List Byte :=
  if c.num 32 8 = 0 then []
  else cHeader ((s.censusFit c).length + 1) (c.fld 8 1 0 2) (c.censusMask ||| 1) (Config.stamp s.fresh).toNat (Config.stamp (s.fresh + 1)).toNat
    (s.censusTotal c) ++ (s.censusFit c).flatMap (·.bytes)

theorem State.censusCount_eq (s : State) (c : Cmd) :
    s.censusCount c = if c.num 32 8 = 0 then 0 else (if c.num 32 8 = 0 then [] else s.censusFit c).length + 1 := by
  unfold State.censusCount
  split
  · rfl
  · rfl

/-- As its meaning puts it together: a HEADER or none, then records or none. -/
theorem State.censusBytes_eq (s : State) (c : Cmd) :
    s.censusBytes c = (if c.num 32 8 = 0 then [] else cHeader (s.censusCount c) (c.fld 8 1 0 2) (c.censusMask ||| 1) (Config.stamp s.fresh).toNat
      (Config.stamp (s.fresh + 1)).toNat (s.censusTotal c)) ++ (if c.num 32 8 = 0 then [] else s.censusFit c).flatMap (·.bytes) := by
  by_cases hlen : c.num 32 8 = 0
  · simp [State.censusBytes, hlen]
  · simp [State.censusBytes, State.censusCount, hlen]

theorem cHeader_length (n scope mask first last need : Nat) : (cHeader n scope mask first last need).length = 64 := leBytes_length 64 _

theorem fitRecs_length_le (n : Nat) (rs : List CRec) : ((fitRecs n rs).flatMap (·.bytes)).length ≤ n := by
  induction rs generalizing n with
  | nil => exact Nat.zero_le n
  | cons r rs ih =>
    unfold fitRecs
    split
    · have hrest := ih (n - r.bytes.length)
      rw [List.flatMap_cons, List.length_append]
      omega
    · exact Nat.zero_le n

/-- It fits a buffer of whole sectors. -/
theorem State.censusBytes_length_le (s : State) {c : Cmd} (hsectors : c.num 32 8 % 64 = 0) : (s.censusBytes c).length ≤ c.num 32 8 := by
  unfold State.censusBytes
  split
  · exact Nat.zero_le _
  · have hfit : ((s.censusFit c).flatMap (·.bytes)).length ≤ c.num 32 8 - 64 := fitRecs_length_le ..
    rw [List.length_append, cHeader_length]
    omega

/-! ### Its meaning on QID 0 -/

/-- CENSUS `c` on QID 0 names what its checks accept (R283). -/
structure State.CensusAsked (s : State) (c : Cmd) : Prop where
  admin : c.q = 0
  ctx : s.cidOf c = 0
  clean : c.clean = true
  scope : c.fld 8 1 0 2 < 3
  aligned : c.num 24 8 % 64 = 0
  sectors : c.num 32 8 % 64 = 0
  room : c.num 24 8 + c.num 32 8 ≤ 2 ^ 64
  ctxs : c.fld 8 1 0 2 = 0 → Tab.has s.ctxs (c.fld 10 2 0 12) = true
  parts : c.fld 8 1 0 2 = 1 → Tab.has s.parts (c.fld 10 2 0 12) = true

/-- The field check of a CENSUS. -/
def State.censusFields (s : State) (c : Cmd) : Bool :=
  c.clean && decide (c.fld 8 1 0 2 < 3) && c.num 24 8 % 64 == 0 && c.num 32 8 % 64 == 0 &&
    (if c.q = 0 then
      decide (c.num 24 8 + c.num 32 8 ≤ 2 ^ 64) && (c.fld 8 1 0 2 != 0 || Tab.has s.ctxs (c.fld 10 2 0 12)) &&
        (c.fld 8 1 0 2 != 1 || Tab.has s.parts (c.fld 10 2 0 12))
     else c.fld 10 2 0 12 == 0)

/-- The checks of a CENSUS, and the translation of its buffer. -/
def State.censusChecks (s : State) (cl : Client) (c : Cmd) : Chk (List (List Piece)) := do
  need (s.censusFields c) stBadOperand
  need (c.q == 0 || c.fld 8 1 0 2 == 0) stNotPermitted
  s.mapRanges cl c (s.cidOf c) [(true, c.num 24 8, c.num 32 8)]

section
variable {s : State} {c : Cmd}

theorem State.CensusAsked.fields (h : s.CensusAsked c) : s.censusFields c = true := by
  have hctxs : (c.fld 8 1 0 2 != 0 || Tab.has s.ctxs (c.fld 10 2 0 12)) = true := by
    by_cases h0 : c.fld 8 1 0 2 = 0
    · simp [h.ctxs h0]
    · simp [h0]
  have hparts : (c.fld 8 1 0 2 != 1 || Tab.has s.parts (c.fld 10 2 0 12)) = true := by
    by_cases h1 : c.fld 8 1 0 2 = 1
    · simp [h.parts h1]
    · simp [h1]
  rw [State.censusFields, if_pos h.admin, hctxs, hparts, h.clean, decide_eq_true h.scope, decide_eq_true h.room, h.aligned, h.sectors]
  rfl

theorem State.CensusAsked.checks (cl : Client) (h : s.CensusAsked c) :
    s.censusChecks cl c = .ok [busPieces true (c.num 24 8) (c.num 32 8)] := by
  rw [State.censusChecks, Chk.ok_bind (need_true _ h.fields), Chk.ok_bind (need_true _ (by simp [h.admin])), h.ctx, State.mapRanges_bus]

end

/-- CENSUS `c` on QID 0 has counted the hits of its buffer, which leaves partitions `ps`, drawn its two stamps and written its records. -/
def State.censusWritten (s : State) (c : Cmd) (ps : Tab Part) : State :=
  State.hostWrite { s with parts := ps, fresh := s.fresh + 2 } (s.reqId 0).1 (s.reqId 0).2 (c.num 24 8) (s.censusBytes c) false

/-- It then ends with the number of its records and the size of the whole. -/
def State.censusEnd (s : State) (cl : Client) (c : Cmd) (ps : Tab Part) : State :=
  ((s.censusWritten c ps).updCmd cl (fun d => { d with trunc := decide (c.num 32 8 < s.censusTotal c) })).finish cl stOk (s.censusCount c)
    (s.censusTotal c / 64)

theorem exec_census_runs {s : State} {q seq : Nat} {c : Cmd} (hstarts : s.starts q seq c) (hop : c.opcode = 0x38) :
    exec (.census q seq) s = .next (State.doCensus (ckey q seq) c s) :=
  congrArg Host.Outcome.next (State.start_runs _ hstarts.1 (.inl hstarts.2) (by simp [hop]))

theorem State.CensusAsked.ends {s : State} {c : Cmd} (cl : Client) (h : s.CensusAsked c) :
    ∃ ps, State.doCensus cl c s = s.censusEnd cl c ps := by
  obtain ⟨ps, htouch⟩ := s.touchRanges_frame cl 0 [(true, c.num 24 8, c.num 32 8)]
  have hwrite : State.pwrite { s with parts := ps, fresh := s.fresh + 2 } cl 0 (busPieces true (c.num 24 8) (c.num 32 8)) 0 (s.censusBytes c) false =
      s.censusWritten c ps :=
    State.pwrite_busPieces _ cl true (c.num 24 8) false (s.censusBytes_length_le h.sectors)
  refine ⟨ps, ?_⟩
  show s.checked cl (s.censusChecks cl c) _ = _
  rw [h.checks, State.checked_ok, h.ctx, htouch, State.censusEnd, ← hwrite, State.censusBytes_eq, State.censusCount_eq]
  rfl

section
variable (s : State) (cl : Client) (c : Cmd) (ps : Tab Part)

theorem State.censusWritten_frame : s.censusWritten c ps =
    { s with parts := ps, fresh := s.fresh + 2, host := (s.censusWritten c ps).host, out := (s.censusWritten c ps).out } :=
  State.hostWrite_frame ..

theorem State.censusEnd_frame : s.censusEnd cl c ps =
    { s with
      cmds := (s.censusEnd cl c ps).cmds, xlt := (s.censusEnd cl c ps).xlt, host := (s.censusEnd cl c ps).host, out := (s.censusEnd cl c ps).out
      parts := (s.censusEnd cl c ps).parts, fresh := s.fresh + 2 } := by
  rw [State.censusEnd, State.censusWritten_frame]
  rfl

variable {s cl c}

theorem State.censusEnd_becomes (hc : s.cmd cl = some c) (hcancel : c.cancel = none) :
    Tab.becomes s.cmds (s.censusEnd cl c ps).cmds cl
      { c with
        phase := .done, status := stOk, trunc := decide (c.num 32 8 < s.censusTotal c), count := s.censusCount c % 2 ^ 32
        aux := min (s.censusTotal c / 64) (2 ^ 32 - 1) } := by
  have hwritten : (s.censusWritten c ps).cmds = s.cmds := by rw [State.censusWritten_frame]
  rw [← hwritten]
  exact State.finish_trunc _ stOk _ _ ((congrArg (Tab.at? · cl) hwritten).trans hc) hcancel

/-- Into a buffer of length 0 nothing is written. -/
theorem State.censusEnd_host_empty (hlen : c.num 32 8 = 0) : (s.censusEnd cl c ps).host = s.host := by
  show (s.censusWritten c ps).host = s.host
  rw [State.censusWritten, State.censusBytes, if_pos hlen, State.hostWrite_nil]

theorem State.censusEnd_host (hfn : s.fnOk (s.reqId 0).1 = true) :
    (s.censusEnd cl c ps).host = s.host.write (c.num 24 8) (s.censusBytes c) false :=
  State.hostWrite_host (s := { s with parts := ps, fresh := s.fresh + 2 }) (s.reqId 0).2 (c.num 24 8) (s.censusBytes c) false hfn

end

/-! ### The statement -/

/-- Settles O27: a COPY by `exec_copy_read` and `State.copySectors_copied`, its sectors by `State.copySector_host`, a CENSUS by
`State.CensusAsked.ends` and what its end changes (R276, R283 to R286; log entry 14). -/
theorem copiesAndCensus : Obligations.CopiesAndCensus := by
  unfold Obligations.CopiesAndCensus
  refine ⟨⟨?copy, ?sector⟩, ?census⟩
  case copy =>
    intro s q seq c hc hagain hst hop
    obtain ⟨hqueues, htables, p, hkeeps, hcmds⟩ := State.copySectors_copied (c.num 8 8 / 64) hc
    exact ⟨_, _, rfl, exec_copy_read hc hagain hst hop, rfl, hqueues, htables, _,
      Tab.becomes_trans hcmds (State.finish_at _ _ _ stOk _ 0 hcmds.1 (Cmd.cancel_of_again hagain)), rfl, rfl, rfl, rfl, hkeeps⟩
  case sector => exact fun s cl c k a b m n ca cb w p r hranges hsrc hdst hfn => State.copySector_host cl hranges hsrc hdst hfn
  case census =>
    intro s q seq c hstarts hop hadmin hctx hclean hscope haligned hsectors hroom hctxs hparts mask rs total fit
    have hmask : mask = c.censusMask := rfl
    have htotal : total = s.censusTotal c := rfl
    have hfit : fit = s.censusFit c := rfl
    clear_value fit total rs mask
    subst hmask htotal hfit
    obtain ⟨ps, hmeaning⟩ := State.CensusAsked.ends (ckey q seq) ⟨hadmin, hctx, hclean, hscope, haligned, hsectors, hroom, hctxs, hparts⟩
    have hexec := exec_census_runs hstarts hop
    rw [hmeaning] at hexec
    -- TRUNC's `decide` is compared as it stands, by `dsimp only`: unfolded by `rfl`, the lengths of all the records are too deep.
    refine ⟨_, _, hexec, State.censusEnd_frame .., State.censusEnd_becomes ps hstarts.1 (State.mayStart_cancel hstarts.2), rfl, rfl, by dsimp only, rfl, rfl,
      State.censusEnd_host_empty ps, fun hlen hfn => ?_⟩
    rw [State.censusEnd_host ps hfn, State.censusBytes, if_neg hlen]

end Sys2Proof.Machine
end

section
/-! Postbags (R307 to R311, R323): a batch of one record, and the registers of the selected postbag. -/
namespace Sys2Proof.Machine

theorem State.pb_of_at? {s : State} {p : Nat} {b : Postbag} (hb : Tab.at? s.postbags p = some b) : s.pb p = b := by
  simp [State.pb, Tab.atD, hb]

/-- A ring position and the next one lie one slot apart (R65). -/
theorem posSub_posAdd_one {n : Nat} (a : Nat) (hn : 0 < n) : posSub n (posAdd n a 1) a = 1 := by
  have hlt : a % (2 * n) < 2 * n := Nat.mod_lt _ (by omega)
  have hstep : (a + 1) % (2 * n) + 2 * n - a % (2 * n) = 1 ∨ (a + 1) % (2 * n) + 2 * n - a % (2 * n) = 1 + 2 * n := by
    rw [Nat.add_mod, Nat.mod_eq_of_lt (by omega : 1 < 2 * n)]
    by_cases hlast : a % (2 * n) + 1 = 2 * n
    · rw [hlast, Nat.mod_self]
      omega
    · rw [Nat.mod_eq_of_lt (by omega : a % (2 * n) + 1 < 2 * n)]
      omega
  simp only [posSub, posAdd, if_neg (Nat.ne_of_gt hn)]
  rcases hstep with h | h <;> rw [h]
  · exact Nat.mod_eq_of_lt (by omega)
  · rw [Nat.add_mod_right, Nat.mod_eq_of_lt (by omega)]

theorem Postbag.n_pos (b : Postbag) : 0 < b.n := Nat.two_pow_pos _

/-- What a write of XLT_PB_CFG makes of the selected postbag (R323). -/
def Postbag.configured (v : Nat) (b : Postbag) : Postbag :=
  if b.en then { b with en := bit v 0 }
  else if bit v 0 then
    if 6 ≤ bits v 1 5 ∧ bits v 1 5 ≤ 16 then { b with en := true, log2 := bits v 1 5, cfgErr := false, head := 0, tail := 0 }
    else { b with log2 := bits v 1 5, cfgErr := true }
  else { b with log2 := bits v 1 5 }

@[simp] theorem Postbag.configured_ovf (v : Nat) (b : Postbag) : (b.configured v).ovf = b.ovf := by
  unfold Postbag.configured
  repeat' split
  all_goals rfl

/-- EN starts an empty ring of the size given, or sets CFG_ERR where that is out of range (R311, R323). -/
theorem Postbag.configured_starts {v : Nat} {b : Postbag} (hen : b.en = false) (hv : bit v 0 = true) :
    b.configured v = if 6 ≤ bits v 1 5 ∧ bits v 1 5 ≤ 16 then
      { b with en := true, log2 := bits v 1 5, cfgErr := false, head := 0, tail := 0 } else { b with log2 := bits v 1 5, cfgErr := true } := by
  simp [Postbag.configured, hen, hv]

section
variable {s : State} {p : Nat} {b : Postbag} (hb : Tab.at? s.postbags p = some b)
include hb

/-! ### Records -/

/-- A record put at the tail goes into host memory there, if the PF may write (R307, R353). -/
theorem State.pbPut_writes (r : FaultRec) (hfn : s.fnOk 0 = true) :
    s.pbPut p r = { s with host := (s.pbPut p r).host, out := (s.pbPut p r).out, postbags := (s.pbPut p r).postbags, incr := (s.pbPut p r).incr } ∧
      (s.pbPut p r).host = s.host.write (b.base + 64 * (b.tail % b.n)) (r.bytes (phaseOf b.n b.tail)) false ∧
      Tab.becomes s.postbags (s.pbPut p r).postbags p { b with tail := posAdd b.n b.tail 1 } := by
  obtain ⟨i, hcount⟩ := s.count_frame 0x2105 5
  rw [State.pbPut, State.pb_of_at? hb, hcount, State.hostWrite_frame]
  exact ⟨rfl, State.hostWrite_host (s := { s with incr := i }) none _ _ false hfn, Tab.becomes_upd _ hb⟩

/-- A batch of one record into a ring with room is that record, written, and one happening of the source (R309). -/
theorem State.pbBatch_one {r : FaultRec} (hstaged : b.staged = [r]) (hen : b.en = true) (hfull : b.full = false) (hovf : b.ovf = none)
    (hfn : s.fnOk 0 = true) : s.pbBatch p = ((s.pbPut p r).updPb p (fun b => { b with staged := [] })).raise p 1 := by
  obtain ⟨-, -, hput⟩ := State.pbPut_writes hb r hfn
  have hsent : Tab.at? ((s.pbPut p r).updPb p (fun b => { b with staged := [] })).postbags p =
      some { b with tail := posAdd b.n b.tail 1, staged := [] } := (Tab.becomes_upd _ hput.1).1
  have hrecord : s.pbRecord p r = s.pbPut p r := by simp [State.pbRecord, State.pb_of_at? hb, hen, hfull, hovf]
  simp only [State.pbBatch, State.pb_of_at? hb, hstaged, List.foldl, hrecord, State.pb_of_at? hsent, posSub_posAdd_one b.tail b.n_pos]
  rfl

/-! ### Registers -/

/-- Where no OVERFLOW record is pending, a change of the postbag is all that happens (R311). -/
theorem State.pbOvf_updPb {f : Postbag → Postbag} (hovf : (f b).ovf = none) : (s.updPb p f).pbOvf p = s.updPb p f := by
  have hf : Tab.at? (s.updPb p f).postbags p = some (f b) := (Tab.becomes_upd f hb).1
  simp [State.pbOvf, State.pb_of_at? hf, hovf]

/-- Where no OVERFLOW record is pending, a write of XLT_PB_CFG changes the postbag alone (R311, R323). -/
theorem State.pbCfg_configures {v : Nat} (hsel : s.pbSel = some p) (hovf : b.ovf = none) :
    s.pbCfg v = s.updPb p (Postbag.configured v) := by
  simp only [State.pbCfg, hsel]
  exact State.pbOvf_updPb hb ((Postbag.configured_ovf v b).trans hovf)

/-- A head that frees slots is taken as it is (R311). -/
theorem State.pbHead_frees {v h : Nat} (hsel : s.pbSel = some p) (hpos : posDec b.n v = some h)
    (hle : posSub b.n h b.head ≤ posSub b.n b.tail b.head) (hovf : b.ovf = none) : s.pbHead v = s.updPb p (fun b => { b with head := h }) := by
  simp only [State.pbHead, hsel, State.pb_of_at? hb, hpos, if_pos hle]
  exact State.pbOvf_updPb hb hovf

end

/-! ### The statement -/

/-- Settles O36: a batch by `State.pbBatch_one` and `State.pbPut_writes`, the registers by `State.pbCfg_configures` and `State.pbHead_frees`. -/
theorem postbagsTakeFaultRecords : Obligations.PostbagsTakeFaultRecords := by
  unfold Obligations.PostbagsTakeFaultRecords
  refine ⟨?batch, ?enable, ?head, ?lost⟩
  case batch =>
    intro s p b r hb hstaged hen hfull hovf hfn
    obtain ⟨hframe, hhost, hput⟩ := State.pbPut_writes hb r hfn
    refine ⟨(s.pbPut p r).updPb p (fun b => { b with staged := [] }),
      congrArg Host.Outcome.next (State.pbBatch_one hb hstaged hen hfull hovf hfn), ?_, hhost, Tab.becomes_trans hput (Tab.becomes_upd _ hput.1)⟩
    rw [hframe]
    rfl
  case enable =>
    intro s v p b hreach hsel hb hen hv hovf
    refine ⟨_, congrArg Host.Outcome.next ((State.mmio_reaches _ hreach).trans (State.pbCfg_configures hb hsel hovf)), rfl, ?_⟩
    rw [← Postbag.configured_starts hen hv]
    exact Tab.becomes_upd _ hb
  case head =>
    intro s v p h b hreach hsel hb hpos hle hovf
    exact ⟨_, congrArg Host.Outcome.next ((State.mmio_reaches _ hreach).trans (State.pbHead_frees hb hsel hpos hle hovf)), rfl,
      Tab.becomes_upd _ hb⟩
  case lost =>
    intro s v x hreach hx
    exact ⟨_, congrArg Host.Outcome.next (State.mmio_reaches _ hreach), rfl, Tab.becomes_upd _ hx⟩

end Sys2Proof.Machine
end

section
/-! Answers of the ports (R314, R315, R346, R351, R364, R365, R401): what a part of an answer marks, how a memory port takes a response, and what
comes through LTP-H. -/
namespace Sys2Proof.Machine

/-! ### Parts of answers -/

@[simp] theorem Mem.show_nil (m : Mem) (a : Nat) : m.show a [] = m := rfl

@[simp] theorem State.updMemOf_tags (s : State) (stn : Option Nat) (f : Mem → Mem) : (s.updMemOf stn f).tags = s.tags := by
  cases stn <;> rfl

section
variable {s : State} {id : Nat} {r : Req} (h : Tab.at? s.tags id = some r)
include h

/-- A part of an answer shows its bytes in the memory that the request goes to, and marks the request (log entry 91). -/
theorem State.part_marks (o n : Nat) (data : List Byte) (bad : List (Nat × Nat)) :
    s.part id o n data bad =
        { s.updMemOf r.stn (fun m => m.show (r.addr + o) (data.take (min n (r.len - o)))) with tags := (s.part id o n data bad).tags } ∧
      Tab.becomes s.tags (s.part id o n data bad).tags id { r with got := max r.got (o + n), bad := r.bad ++ bad } := by
  unfold State.part
  rw [h]
  exact ⟨rfl, Tab.becomes_upd (fun r => { r with got := max r.got (o + n), bad := r.bad ++ bad }) h⟩

theorem State.mpBeat_marks (type : Nat) (data : List Byte) (poison : Nat) :
    s.mpBeat id r type data poison =
        { s.updMemOf r.stn (fun m => m.show (r.addr + r.got) ((if type = 0 then data else []).take (min 128 (r.len - r.got)))) with
          tags := (s.mpBeat id r type data poison).tags } ∧
      Tab.becomes s.tags (s.mpBeat id r type data poison).tags id { r with got := r.got + 128, bad := r.bad ++ r.beatBad type poison } := by
  have hmarks := State.part_marks h r.got 128 (if type = 0 then data else []) (r.beatBad type poison)
  rw [Nat.max_eq_right (Nat.le_add_right r.got 128)] at hmarks
  exact hmarks

/-- A beat without data shows nothing. -/
theorem State.mpBeat_ack {type : Nat} (htype : type ≠ 0) (data : List Byte) (poison : Nat) :
    s.mpBeat id r type data poison = { s.updMemOf r.stn (fun m => m) with tags := (s.mpBeat id r type data poison).tags } := by
  simpa [htype] using (State.mpBeat_marks h type data poison).1

/-! ### The end of a request -/

theorem State.answer_consumes (bad : Bool) :
    s.answer id bad = ((s.retire id).consume r (if bad then r.whole else r.bad)).settleIso.settleReads := by
  simp only [State.answer, h]

theorem State.answer_item {i : Nat} (hpur : r.pur = .item i) :
    s.answer id false = ((((s.retire id).itemBack r.client i r.iso r.bad).advance r.client).settleIso).settleReads := by
  simp [State.answer_consumes h, State.consume, hpur]

theorem State.answer_write {p : List (List Byte × Bool)} (hpur : r.pur = .write p) :
    s.answer id false = ((((s.retire id).writeBad r r.bad).advance r.client).settleIso).settleReads := by
  simp [State.answer_consumes h, State.consume, hpur]

end

/-- A write with a bad acknowledgement spoils its sectors and sets its command's POISON (R365; log entry 90). -/
theorem State.writeBad_spoils (s : State) (r : Req) {bad : List (Nat × Nat)} (hbad : bad ≠ []) :
    s.writeBad r bad = (s.updMemOf r.stn (fun m => m.spoil r.addr r.len)).updCmd r.client (fun c => { c with poison := true }) :=
  if_neg hbad

@[simp] theorem State.writeBad_good (s : State) (r : Req) : s.writeBad r [] = s := rfl

theorem Req.whole_ne_nil (r : Req) : r.whole ≠ [] := List.cons_ne_nil _ _

/-- The trouble of a memory port is counted and logged, and no tag changes (R401, R414). -/
@[simp] theorem State.mpBad_tags (s : State) (stn : Nat) (r : Req) : (s.mpBad stn r).tags = s.tags := by
  simp only [State.mpBad, State.raise_tags, State.count_tags]
  rfl

/-! ### Memory ports -/

/-- A response whose parity is good is taken as it comes (R391). -/
theorem exec_memoryResponse_good (s : State) (stn lane tag cid key type : Nat) (data : List Byte) (poison : Nat) (last : Bool) :
    exec (.memoryResponse stn lane tag cid key type ⟨data, poison⟩ last .good) s =
      .next (s.memResponse stn lane tag cid key type data poison last) := by
  show Host.Outcome.next (s.response stn lane tag cid key type data poison last .good) = _
  refine congrArg Host.Outcome.next ?_
  simp only [State.response]
  split
  · next hheld => rw [State.memResponse, if_pos hheld]
  · split
    · simp
    · rfl

theorem State.deadLetter_frame (s : State) :
    s.deadLetter = { s with xlt := { s.xlt with dead := satAdd 32 s.xlt.dead 1 }, incr := s.deadLetter.incr } := by
  obtain ⟨i, hcount⟩ := s.deadLtp.count_frame 0x2106 3
  rw [State.deadLetter, hcount]
  rfl

section
variable {s : State} {stn lane tag cid key type : Nat} (data : List Byte) (poison : Nat)

theorem State.memResponse_held (last : Bool) (hheld : s.portHeld stn = true) : s.memResponse stn lane tag cid key type data poison last = s :=
  if_pos hheld

/-- A response that no live request expects is a dead letter (R314). -/
theorem State.memResponse_dead (last : Bool) (hheld : s.portHeld stn = false)
    (hno : ∀ r ∈ Tab.at? s.tags (stnTag stn tag), r.answeredBy lane cid key type = false) :
    s.memResponse stn lane tag cid key type data poison last = s.deadLetter := by
  simp only [State.memResponse, hheld, Bool.false_eq_true, if_false]
  cases hr : Tab.at? s.tags (stnTag stn tag) with
  | none => rfl
  | some r => simp [hno r hr]

/-- One that a live request expects marks it; with its last beat the request is over. -/
theorem State.memResponse_answers {r : Req} (last : Bool) (hheld : s.portHeld stn = false) (hr : Tab.at? s.tags (stnTag stn tag) = some r)
    (hans : r.answeredBy lane cid key type = true) :
    s.memResponse stn lane tag cid key type data poison last =
      if last then
        (if r.bad ++ r.beatBad type poison ≠ [] then (s.mpBeat (stnTag stn tag) r type data poison).mpBad stn r
          else s.mpBeat (stnTag stn tag) r type data poison).answer (stnTag stn tag) false
      else s.mpBeat (stnTag stn tag) r type data poison := by
  simp only [State.memResponse, hheld, hr, hans, Bool.false_eq_true, if_false, if_true]

end

/-- A response that echoes another CID or key slot answers nothing (R314). -/
theorem Req.answeredBy_mismatch {r : Req} {lane cid key type : Nat} (h : r.cid ≠ cid ∨ r.key ≠ key) :
    r.answeredBy lane cid key type = false := by
  rcases h with h | h <;> simp [Req.answeredBy, h]

/-- READ data that echoes the CID and key slot of a command's read answers it (R314, R364). -/
theorem Req.answeredBy_item {r : Req} {i : Nat} (hpur : r.pur = .item i) (lane : Nat) : r.answeredBy lane r.cid r.key 0 = true := by
  simp [Req.answeredBy, hpur]

theorem exec_memoryResponse_held {s : State} {stn : Nat} (lane tag cid key type : Nat) (data : List Byte) (poison : Nat) (last : Bool)
    (hheld : s.portHeld stn = true) : exec (.memoryResponse stn lane tag cid key type ⟨data, poison⟩ last .good) s = .next s := by
  rw [exec_memoryResponse_good, State.memResponse_held data poison last hheld]

theorem exec_memoryResponse_dead {s : State} {stn lane tag cid key type : Nat} (data : List Byte) (poison : Nat) (last : Bool)
    (hheld : s.portHeld stn = false) (hno : ∀ r ∈ Tab.at? s.tags (stnTag stn tag), r.answeredBy lane cid key type = false) :
    exec (.memoryResponse stn lane tag cid key type ⟨data, poison⟩ last .good) s =
      .next { s with xlt := { s.xlt with dead := satAdd 32 s.xlt.dead 1 }, incr := s.deadLetter.incr } := by
  rw [exec_memoryResponse_good, State.memResponse_dead data poison last hheld hno, ← State.deadLetter_frame]

/-! ### The statement of dead letters -/

/-- Settles O37: dead letters by `exec_memoryResponse_dead`, an answer by `State.memResponse_answers` (log entry 91), a held port by
`exec_memoryResponse_held`. -/
theorem lateResponsesAreDeadLetters : Obligations.LateResponsesAreDeadLetters := by
  unfold Obligations.LateResponsesAreDeadLetters
  refine ⟨?dead, ?answered, fun s stn lane tag cid key type poison data last => exec_memoryResponse_held lane tag cid key type data poison last⟩
  case dead =>
    intro s stn lane tag cid key type poison data last hheld hno
    exact ⟨_, exec_memoryResponse_dead data poison last hheld (fun r hr => Req.answeredBy_mismatch (hno r hr)), rfl⟩
  case answered =>
    intro s stn lane tag poison data last r i hheld hr hstn hpur
    obtain ⟨hframe, hbecomes⟩ := State.mpBeat_marks hr 0 data poison
    rw [hstn] at hframe
    exact ⟨_, hframe, hbecomes, by
      rw [exec_memoryResponse_good, State.memResponse_answers data poison last hheld hr (Req.answeredBy_item hpur lane)]⟩

end Sys2Proof.Machine
end

section
/-! LTP-H, T_mem and MP_MEM_RDY (R315, R346, R351, R365, R369, R401, R412). -/
namespace Sys2Proof.Machine

/-! ### The last beat of a write -/

section
variable {s : State} {stn lane tag cid key : Nat} {r : Req} {p : List (List Byte × Bool)} (data : List Byte) (poison : Nat)

/-- A good acknowledgement of a good write ends it (R364). -/
theorem State.memResponse_written (hheld : s.portHeld stn = false) (hr : Tab.at? s.tags (stnTag stn tag) = some r)
    (hans : r.answeredBy lane cid key 1 = true) (hpur : r.pur = .write p) (hgood : r.bad = []) :
    Tab.becomes s.tags (s.mpBeat (stnTag stn tag) r 1 data poison).tags (stnTag stn tag) { r with got := r.got + 128 } ∧
      s.memResponse stn lane tag cid key 1 data poison true =
        (((((s.mpBeat (stnTag stn tag) r 1 data poison).retire (stnTag stn tag)).advance r.client).settleIso).settleReads) := by
  obtain ⟨-, hmarks⟩ := State.mpBeat_marks hr 1 data poison
  have hnone : r.bad ++ r.beatBad 1 poison = [] := by simp [hgood, Req.beatBad]
  have hkeeps : ({ r with got := r.got + 128, bad := r.bad ++ r.beatBad 1 poison } : Req) = { r with got := r.got + 128 } := by
    rw [hnone, ← hgood]
  rw [hkeeps] at hmarks
  refine ⟨hmarks, ?_⟩
  rw [State.memResponse_answers data poison true hheld hr hans, if_pos rfl, if_neg (not_not_intro hnone), State.answer_write hmarks.1 hpur]
  simp only [hgood, State.writeBad_good]

/-- A bad one ends it too, spoils what was written and poisons its command (R365; log entry 90). -/
theorem State.memResponse_spoils (hheld : s.portHeld stn = false) (hr : Tab.at? s.tags (stnTag stn tag) = some r)
    (hans : r.answeredBy lane cid key 3 = true) (hpur : r.pur = .write p) :
    s.memResponse stn lane tag cid key 3 data poison true =
      (((((((s.mpBeat (stnTag stn tag) r 3 data poison).mpBad stn r).retire (stnTag stn tag)).updMemOf r.stn (fun m => m.spoil r.addr r.len)).updCmd
        r.client (fun c => { c with poison := true })).advance r.client).settleIso).settleReads := by
  obtain ⟨-, hmarks⟩ := State.mpBeat_marks hr 3 data poison
  have hsome : r.bad ++ r.beatBad 3 poison ≠ [] := List.append_ne_nil_of_right_ne_nil _ r.whole_ne_nil
  have hreq := (congrArg (Tab.at? · (stnTag stn tag)) (State.mpBad_tags _ stn r)).trans hmarks.1
  rw [State.memResponse_answers data poison true hheld hr hans, if_pos rfl, if_pos hsome, State.answer_write hreq hpur,
    State.writeBad_spoils _ _ hsome]

end

/-! ### LTP-H -/

theorem State.ltpCompletion_held {s : State} (tag coff len status : Nat) (data : List Byte) (poison last : Bool) (hheld : s.ltpHeld = true) :
    s.ltpCompletion tag coff len status data poison last = s :=
  if_pos hheld

/-- A completion that answers no read through LTP-H is a dead letter (R351). -/
theorem State.ltpCompletion_dead {s : State} {tag : Nat} (coff len status : Nat) (data : List Byte) (poison last : Bool)
    (htag : s.ltpTag tag = false) (hheld : s.ltpHeld = false) : s.ltpCompletion tag coff len status data poison last = s.deadLtp := by
  simp only [State.ltpCompletion, hheld, Bool.false_eq_true, if_false]
  cases hr : Tab.at? s.tags tag with
  | none => rfl
  | some r =>
    have hstn : r.stn.isSome = true := by simpa [State.ltpTag, hr] using htag
    simp [hstn]

section
variable {s : State} {tag i : Nat} {r : Req} (hr : Tab.at? s.tags tag = some r)
include hr

/-- What of a read has not come fails, and the read goes to its command (R351). -/
theorem State.failRest_ends {bad : List (Nat × Nat)} (hpur : r.pur = .item i)
    (hbad : (if r.got < r.len then [(r.addr + r.got, r.len - r.got)] else []) = bad) :
    s.failRest tag = (((((s.part tag r.got (r.len - r.got) [] bad).retire tag).itemBack r.client i r.iso (r.bad ++ bad)).advance
      r.client).settleIso).settleReads := by
  obtain ⟨-, hmarks⟩ := State.part_marks hr r.got (r.len - r.got) [] bad
  simp only [State.failRest, hr, hbad]
  exact State.answer_item hmarks.1 hpur

variable (hhost : r.stn = none)
include hhost

/-- A part of a read through LTP-H shows its bytes in host memory. -/
theorem State.part_host (o n : Nat) (data : List Byte) (bad : List (Nat × Nat)) :
    s.part tag o n data bad =
      { s with tags := (s.part tag o n data bad).tags, host := s.host.show (r.addr + o) (data.take (min n (r.len - o))) } := by
  have hpart := (State.part_marks hr o n data bad).1
  rw [hhost] at hpart
  exact hpart

/-- A read that T_ltp ends before all of it has come (R351). -/
theorem State.failRest_short (hpur : r.pur = .item i) (hgot : r.got < r.len) :
    ∃ t : State, t = { s with tags := t.tags } ∧
      Tab.becomes s.tags t.tags tag { r with got := r.len, bad := r.bad ++ [(r.addr + r.got, r.len - r.got)] } ∧
      s.failRest tag =
        ((((t.retire tag).itemBack r.client i r.iso (r.bad ++ [(r.addr + r.got, r.len - r.got)])).advance r.client).settleIso).settleReads := by
  obtain ⟨-, hmarks⟩ := State.part_marks hr r.got (r.len - r.got) [] [(r.addr + r.got, r.len - r.got)]
  rw [Nat.add_sub_cancel' (Nat.le_of_lt hgot), Nat.max_eq_right (Nat.le_of_lt hgot)] at hmarks
  exact ⟨_, by simpa using State.part_host hr hhost r.got (r.len - r.got) [] [(r.addr + r.got, r.len - r.got)], hmarks,
    State.failRest_ends hr hpur (if_pos hgot)⟩

/-- A read all of which has come ends with what its completions marked. -/
theorem State.failRest_whole (hpur : r.pur = .item i) (hgot : r.len ≤ r.got) :
    ∃ t : State, t = { s with tags := t.tags } ∧ Tab.becomes s.tags t.tags tag r ∧
      s.failRest tag = ((((t.retire tag).itemBack r.client i r.iso r.bad).advance r.client).settleIso).settleReads := by
  obtain ⟨-, hmarks⟩ := State.part_marks hr r.got (r.len - r.got) [] []
  have hends := State.failRest_ends hr hpur (if_neg (Nat.not_lt.2 hgot))
  have hsame : max r.got (r.got + (r.len - r.got)) = r.got := by omega
  rw [hsame, List.append_nil] at hmarks
  rw [List.append_nil] at hends
  exact ⟨_, by simpa using State.part_host hr hhost r.got (r.len - r.got) [] [], hmarks, hends⟩

/-- The last completion of a read (R347, R351). -/
theorem State.ltpCompletion_last (coff len status : Nat) (data : List Byte) (poison : Bool) (hheld : s.ltpHeld = false) :
    s.ltpCompletion tag coff len status data poison true =
      if status = 0 then (s.part tag coff len data (if poison then [(r.addr + coff, len)] else [])).failRest tag
      else (s.part tag coff (r.len - coff) [] [(r.addr + coff, r.len - coff)]).answer tag false := by
  by_cases hok : status = 0 <;> simp [State.ltpCompletion, hheld, hr, hhost, hok]

/-- Its bytes are shown, what it brings bad is marked, and the read goes to its command. -/
theorem State.ltpCompletion_ends {coff len status : Nat} (data : List Byte) (poison : Bool) (hheld : s.ltpHeld = false) (hpur : r.pur = .item i)
    (hlen : status = 0 → r.len ≤ coff + len) {bad : List (Nat × Nat)}
    (hbad : bad = if status = 0 then (if poison = true then [(r.addr + coff, len)] else []) else [(r.addr + coff, r.len - coff)]) :
    ∃ (u : State) (g : Nat),
      u = { s with tags := u.tags, host := s.host.show (r.addr + coff) (if status = 0 then data.take (min len (r.len - coff)) else []) } ∧
      Tab.becomes s.tags u.tags tag { r with got := g, bad := r.bad ++ bad } ∧
      s.ltpCompletion tag coff len status data poison true =
        ((((u.retire tag).itemBack r.client i r.iso (r.bad ++ bad)).advance r.client).settleIso).settleReads := by
  subst hbad
  rw [State.ltpCompletion_last hr hhost _ _ _ _ _ hheld]
  by_cases hok : status = 0
  · obtain ⟨-, hmarks⟩ := State.part_marks hr coff len data (if poison = true then [(r.addr + coff, len)] else [])
    obtain ⟨u, hframe, hlast, hends⟩ := State.failRest_whole hmarks.1 hhost hpur (Nat.le_trans (hlen hok) (Nat.le_max_right ..))
    rw [State.part_host hr hhost] at hframe
    simp only [if_pos hok]
    exact ⟨u, _, hframe, Tab.becomes_trans hmarks hlast, hends⟩
  · obtain ⟨-, hmarks⟩ := State.part_marks hr coff (r.len - coff) [] [(r.addr + coff, r.len - coff)]
    simp only [if_neg hok]
    exact ⟨_, _, by simpa using State.part_host hr hhost coff (r.len - coff) [] [(r.addr + coff, r.len - coff)], hmarks,
      State.answer_item hmarks.1 hpur⟩

end

theorem exec_ltpReadTimeout_read {s : State} {tag : Nat} {r : Req} (hr : Tab.at? s.tags tag = some r) (hhost : r.stn = none) :
    exec (.ltpReadTimeout tag) s = .next (s.failRest tag) := by
  have htag : s.ltpTag tag = true := by simp [State.ltpTag, hr, hhost]
  exact congrArg Host.Outcome.next (if_pos htag)

theorem exec_ltpReadTimeout_noTag {s : State} {tag : Nat} (htag : s.ltpTag tag = false) : exec (.ltpReadTimeout tag) s = .next s :=
  congrArg Host.Outcome.next (if_neg (by simp [htag]))

/-! ### T_mem -/

theorem State.updStn_becomes (s : State) (n : Nat) (f : Stn → Stn) : Tab.becomes s.stns (s.updStn n f).stns n (f (s.stnAt n)) :=
  Tab.becomes_put ..

/-- A station one of whose requests reached T_mem, at second `now` (R401). -/
def Stn.timedOut (now : Nat) (x : Stn) : Stn := { x with mpTmo := satAdd 16 x.mpTmo 1, tmoAt := x.tmoAt.filter (· == now) ++ [now] }

/-- The block with the timeout of tag `tag` of station `n` counted, logged and told, and the request still to be answered (R315, R401, R414). -/
def State.timedOut (s : State) (n tag : Nat) : State :=
  let r := (Tab.at? s.tags (stnTag n tag)).map (fun r => (r.cid, r.addr))
  ((((s.updStn n (Stn.timedOut s.mgt.uptime)).mpRecord n { kind := 8, cid := (r.map (·.1)).getD 0, addr := (r.map (·.2)).getD 0 }).count
    0x2106 1).raise (160 + n) 1)

theorem State.timedOut_frame (s : State) (n tag : Nat) :
    s.timedOut n tag = { s with
        stns := (s.timedOut n tag).stns, incr := (s.timedOut n tag).incr, evc := (s.timedOut n tag).evc, rcv := (s.timedOut n tag).rcv
        fresh := (s.timedOut n tag).fresh } ∧
      Tab.becomes s.stns (s.timedOut n tag).stns n ((s.stnAt n).timedOut s.mgt.uptime) := by
  unfold State.timedOut
  extract_lets r
  generalize hw : (s.updStn n (Stn.timedOut s.mgt.uptime)).mpRecord n _ = w
  obtain ⟨i, hcount⟩ := w.count_frame 0x2106 1
  obtain ⟨e, hraise⟩ := State.raise_frame { w with incr := i } (160 + n) 1
  rw [hcount, hraise, ← hw]
  exact ⟨rfl, s.updStn_becomes n (Stn.timedOut s.mgt.uptime)⟩

/-- The request is then answered with an error, and the station fenced at its 256th timeout of the second (R401; log entry 37). -/
theorem State.memTimeout_answers {s : State} {n tag : Nat} (hhas : Tab.has s.tags (stnTag n tag) = true) :
    s.memTimeout n tag =
      if 256 ≤ (((s.timedOut n tag).answer (stnTag n tag) true).stnAt n).tmoAt.length then
        ((s.timedOut n tag).answer (stnTag n tag) true).fenceStn n 4 false []
      else (s.timedOut n tag).answer (stnTag n tag) true := by
  simp only [State.memTimeout, hhas, Bool.not_true, Bool.false_eq_true, if_false]
  rfl

/-! ### MP_MEM_RDY -/

theorem exec_memRdyFall_built {s : State} {n : Nat} (hbuilt : s.built n = true) : exec (.memRdyFall n) s = .next (s.memFall n) :=
  congrArg Host.Outcome.next (if_pos hbuilt)

/-- A station whose MP_MEM_RDY falls; one out of service remembers the fall (R412). -/
def Stn.rdyFalls (x : Stn) : Stn := { x with memRdy := false, memFell := x.memFell || x.state == 1 || x.state == 3 }

theorem Stn.rdyFalls_inService {x : Stn} (hst : x.state = 0) : x.rdyFalls = { x with memRdy := false } := by
  simp [Stn.rdyFalls, hst]

theorem Stn.rdyFalls_fenced {x : Stn} (hst : x.state = 1) : x.rdyFalls = { x with memRdy := false, memFell := true } := by
  simp [Stn.rdyFalls, hst]

/-- In service a fall is a failure of the port: it is logged and fences the station (R369, R412). -/
theorem State.memFall_fences {s : State} {n : Nat} (hst : (s.stnAt n).state = 0) (hpwr : (s.stnAt n).pwr ≤ 1) (hup : s.up = true) :
    s.memFall n = ((s.updStn n Stn.rdyFalls).mpRecord n { kind := 8 }).fenceStn n 4 false [] := by
  have hserves : ((s.stnAt n).state == 0 && decide ((s.stnAt n).pwr ≤ 1) && (s.updStn n Stn.rdyFalls).up) = true := by
    simp only [hst, hpwr, decide_true, beq_self_eq_true, Bool.true_and]
    exact hup
  exact if_pos hserves

theorem State.memFall_fenced {s : State} {n : Nat} (hst : (s.stnAt n).state = 1) : s.memFall n = s.updStn n Stn.rdyFalls :=
  if_neg (by simp [hst])

/-! ### The statement -/

/-- Settles O38: a memory port's answers by the cases of `State.memResponse`, LTP-H's by `State.ltpCompletion_ends` and `State.failRest_short`,
T_mem by `State.memTimeout_answers`, MP_MEM_RDY by `State.memFall_fences` (log entries 37, 90, 91 and 101). -/
theorem answersReachTheirRequests : Obligations.AnswersReachTheirRequests := by
  unfold Obligations.AnswersReachTheirRequests
  refine ⟨⟨?dead, ?beat, ?written, ?spoils, ?timeout, ?ltpDead, ?ltpEnds, ?ltpTimeout,
    fun s stn lane tag cid key type poison data last => exec_memoryResponse_held lane tag cid key type data poison last, ?ltpHeld⟩,
    ?fences, ?fenced, ?rises⟩
  case dead =>
    intro s stn lane tag cid key type poison data last hheld hno
    exact ⟨_, exec_memoryResponse_dead data poison last hheld hno, rfl, rfl⟩
  case beat =>
    intro s stn lane tag cid key type poison data r hheld hr hans
    exact ⟨_, by rw [exec_memoryResponse_good, State.memResponse_answers data poison false hheld hr hans]; rfl,
      State.mpBeat_marks hr type data poison⟩
  case written =>
    intro s stn lane tag cid key poison data r p hheld hr hans hpur hgood
    obtain ⟨hmarks, hends⟩ := State.memResponse_written data poison hheld hr hans hpur hgood
    exact ⟨_, State.mpBeat_ack hr Nat.one_ne_zero data poison, hmarks, by rw [exec_memoryResponse_good, hends]⟩
  case spoils =>
    intro s stn lane tag cid key poison data r p hheld hr hans hpur
    exact ⟨_, State.mpBeat_ack hr (by decide) data poison, (State.mpBeat_marks hr 3 data poison).2, by
      rw [exec_memoryResponse_good, State.memResponse_spoils data poison hheld hr hans hpur]⟩
  case timeout =>
    intro s stn tag hhas
    obtain ⟨hframe, hstns⟩ := s.timedOut_frame stn tag
    exact ⟨_, _, hframe, rfl, hstns, congrArg Host.Outcome.next (State.memTimeout_answers hhas)⟩
  case ltpDead =>
    intro s tag coff len status data poison last htag hheld
    exact ⟨congrArg Host.Outcome.next (State.ltpCompletion_dead coff len status data poison last htag hheld), exec_ltpReadTimeout_noTag htag⟩
  case ltpEnds =>
    intro s tag coff len status i data poison r hheld hr hhost hpur hlen bad
    obtain ⟨u, g, hframe, hmarks, hends⟩ := State.ltpCompletion_ends hr hhost data poison hheld hpur hlen (bad := bad) rfl
    exact ⟨u, g, hframe, hmarks, congrArg Host.Outcome.next hends⟩
  case ltpTimeout =>
    intro s tag i r hr hhost hpur hgot
    obtain ⟨u, hframe, hmarks, hends⟩ := State.failRest_short hr hhost hpur hgot
    exact ⟨u, hframe, hmarks, by rw [exec_ltpReadTimeout_read hr hhost, hends]⟩
  case ltpHeld =>
    intro s tag coff len status data poison last hheld
    exact congrArg Host.Outcome.next (State.ltpCompletion_held tag coff len status data poison last hheld)
  case fences =>
    intro s n hbuilt hst hpwr hup
    exact ⟨(s.updStn n Stn.rdyFalls).mpRecord n { kind := 8 }, by rw [exec_memRdyFall_built hbuilt, State.memFall_fences hst hpwr hup], rfl,
      Stn.rdyFalls_inService hst ▸ s.updStn_becomes n Stn.rdyFalls⟩
  case fenced =>
    intro s n hbuilt hst
    exact ⟨_, by rw [exec_memRdyFall_built hbuilt, State.memFall_fenced hst], rfl, Stn.rdyFalls_fenced hst ▸ s.updStn_becomes n Stn.rdyFalls⟩
  case rises =>
    intro s n hbuilt
    exact ⟨_, congrArg Host.Outcome.next (if_pos hbuilt), rfl, s.updStn_becomes n (fun x => { x with memRdy := true })⟩

end Sys2Proof.Machine
end

section
/-! Key slots and sweeps (R280, R316 to R319, R367, R368). -/
namespace Sys2Proof.Machine

theorem State.updKey_becomes (s : State) (k : Nat) (f : KeySlot → KeySlot) : Tab.becomes s.keys (s.updKey k f).keys k (f (s.keySlot k)) :=
  Tab.becomes_put ..

@[simp] theorem State.keySlot_updKey_self (s : State) (k : Nat) (f : KeySlot → KeySlot) : (s.updKey k f).keySlot k = f (s.keySlot k) := by
  simp [State.keySlot]

/-! ### The commands -/

theorem exec_keyslotLoad_read {s : State} {q seq : Nat} {c : Cmd} (hc : s.cmd (ckey q seq) = some c) (hagain : c.again = true) (hst : c.stage = 1)
    (hop : c.opcode = 0x49) (hbad : c.operandBad = false) : exec (.keyslotLoad q seq) s = .next (State.keyLoad (ckey q seq) c s) := by
  show Host.Outcome.next (s.start q seq (fun c => c.opcode == 0x49) State.doKeyLoad) = _
  rw [State.start_runs _ hc (.inr hagain) (by simp [hop]), State.doKeyLoad, State.admBlock_read _ _ _ _ _ hagain hst hbad]

/-- A key slot bound to a partition, whose stations are to acknowledge the key (R317). -/
def KeySlot.loaded (pid : Nat) (ns : List Nat) (x : KeySlot) : KeySlot :=
  { x with st := .loaded, pid := some pid, await := ns, holders := [], erasing := false }

/-- The lowest free slot is bound, and every station of the partition is sent the key (R280, R317; log entry 7). -/
theorem State.keyLoad_binds {s : State} (cl : Client) {c : Cmd} {k : Nat} (hpart : s.partOk (c.fld 8 1 0 6) = true)
    (hfree : (runFrom 1 63).find? (fun k => (s.keySlot k).st == .free) = some k) :
    State.keyLoad cl c s =
      ((s.updKey k (KeySlot.loaded (c.fld 8 1 0 6) (s.stnsOf (c.fld 8 1 0 6)))).emits ((s.stnsOf (c.fld 8 1 0 6)).map (fun n =>
        .keyOp n 0 k (some (s.rangeBytes c 0 (c.fld 12 4 0 7)).length) (keyBeats (s.rangeBytes c 0 (c.fld 12 4 0 7)))))).waitFor cl (.obj k) := by
  have hany : (runFrom 1 63).any (fun k => (s.keySlot k).st == .free) = true := by
    rw [← List.isSome_find?, hfree]
    rfl
  simp only [State.keyLoad, need_true _ hpart, need_true _ hany, hfree]
  rfl

theorem exec_keyslotScrub_runs {s : State} {q seq : Nat} {c : Cmd} (hstarts : s.starts q seq c) (hop : c.opcode = 0x4A) :
    exec (.keyslotScrub q seq) s = .next (State.doKeyScrub (ckey q seq) c s) :=
  congrArg Host.Outcome.next (State.start_runs _ hstarts.1 (.inl hstarts.2) (by simp [hop]))

/-- A slot that no context uses begins its scrub (R318 step 1). -/
theorem State.doKeyScrub_begins {s : State} (cl : Client) {c : Cmd} (hkeys : s.build.keys = true) (hclean : c.clean = true)
    (hslot : c.fld 8 1 0 6 ≠ 0) (hunused : Tab.ex s.ctxs (fun _ x => x.key == c.fld 8 1 0 6 && !x.detached) = false) :
    State.doKeyScrub cl c s = (s.scrubBegin (c.fld 8 1 0 6)).waitFor cl (.obj (c.fld 8 1 0 6)) := by
  have hnamed : (c.clean && c.fld 8 1 0 6 != 0) = true := by simp [hclean, hslot]
  have hfree : (!Tab.ex s.ctxs (fun _ x => x.key == c.fld 8 1 0 6 && !x.detached)) = true := by rw [hunused, Bool.not_false]
  simp only [State.doKeyScrub, need_true _ hkeys, need_true _ hnamed, need_true _ hfree]
  rfl

/-! ### Scrubs -/

/-- With the slot's tags gone, each holder is told to erase the key (R318 step 3). -/
theorem State.scrubDrained_erases {s : State} {k : Nat} (hwaits : (s.keySlot k).waits = true) (htags : s.keyTags k = 0)
    (hholders : (s.keySlot k).holders ≠ []) :
    s.scrubDrained k false =
      ((s.updKey k (fun x => { x with erasing := true, await := (s.keySlot k).holders })).emits
        ((s.keySlot k).holders.map (fun n => .keyOp n 1 k none (zeros 32)))).settleRemovals := by
  simp only [State.scrubDrained, hwaits, if_true, Bool.false_eq_true, if_false, htags, State.scrubErase, if_neg hholders]

/-- Command `cl` of `t`, which was not cancelled, has completed well with a count. -/
def State.endedWith (t : State) (cl : Client) (count : Nat) : Prop :=
  ∃ d, Tab.at? t.cmds cl = some d ∧ d.cancel = none ∧ d.phase = .done ∧ d.status = stOk ∧ d.count = count % 2 ^ 32

theorem State.finish_ends {s : State} {cl : Client} {c : Cmd} (n x : Nat) (hc : Tab.at? s.cmds cl = some c) (hcancel : c.cancel = none) :
    (s.finish cl stOk n x).endedWith cl n :=
  ⟨_, (s.finish_at cl c stOk n x hc hcancel).1, hcancel, rfl, rfl, rfl⟩

theorem State.finish_keeps_ended {s : State} {cl : Client} {n : Nat} (e : Client) (x : Nat) (h : s.endedWith cl n) :
    (s.finish e stOk n x).endedWith cl n := by
  obtain ⟨d, hd, hcancel, hends⟩ := h
  by_cases he : cl = e
  · exact he ▸ State.finish_ends n x (he ▸ hd) hcancel
  · exact ⟨d, (Tab.at?_upd_ne _ _ he).trans hd, hcancel, hends⟩

/-- Commands that complete with a slot's number and epoch (R318 step 4). -/
def State.finishKey (s : State) (k : Nat) (es : List (Nat × Cmd)) : State :=
  es.foldl (fun s e => s.finish e.1 stOk k (s.keySlot k).epoch) s

theorem State.finishKey_frame (s : State) (k : Nat) (es : List (Nat × Cmd)) :
    s.finishKey k es = { s with cmds := (s.finishKey k es).cmds, xlt := (s.finishKey k es).xlt } :=
  foldl_keeps (fun t : State => t = { s with cmds := t.cmds, xlt := t.xlt }) _ _ (fun t e _ ht => by
    obtain ⟨cs, y, hfinish⟩ := t.finish_frame e.1 stOk k (t.keySlot k).epoch
    rw [hfinish, ht]) s rfl

/-- Each of them has completed. -/
theorem State.finishKey_ends {k : Nat} {cl : Client} {c : Cmd} {es : List (Nat × Cmd)} (hmem : (cl, c) ∈ es) {s : State}
    (hc : Tab.at? s.cmds cl = some c) (hcancel : c.cancel = none) : (s.finishKey k es).endedWith cl k := by
  have hrest : ∀ (l : List (Nat × Cmd)) (t : State), t.endedWith cl k → (t.finishKey k l).endedWith cl k := fun l t ht =>
    foldl_keeps (fun t : State => t.endedWith cl k) _ l (fun t e _ h => State.finish_keeps_ended e.1 _ h) t ht
  induction es generalizing s with
  | nil => cases hmem
  | cons e es ih =>
    by_cases he : cl = e.1
    · subst he
      exact hrest es _ (State.finish_ends k _ hc hcancel)
    · have htail : (cl, c) ∈ es := (List.mem_cons.1 hmem).resolve_left fun h => he (congrArg Prod.fst h)
      exact ih htail ((Tab.at?_upd_ne _ _ he).trans hc)

/-- A key slot whose scrub is over (R318 step 4). -/
def KeySlot.scrubbed (x : KeySlot) : KeySlot :=
  { x with st := .scrubbed, pid := none, epoch := (x.epoch + 1) % 2 ^ 32, sweeps := 0, erasing := false, holders := [] }

theorem State.scrubEnd_finishes (s : State) (k : Nat) :
    s.scrubEnd k = (s.updKey k KeySlot.scrubbed).finishKey k
      (s.cmds.filter (fun e => e.2.phase == .running && e.2.opcode == 0x4A && e.2.work == .obj k)) := rfl

section
variable {s : State} {stn k : Nat} (hawait : (s.keySlot k).await = [stn]) (herasing : (s.keySlot k).erasing = true)
include hawait herasing

/-- The last erasure acknowledged ends the scrub. -/
theorem State.keyAck_erased : s.keyAck stn k 1 = (s.updKey k (fun x => { x with await := x.await.erase stn })).scrubEnd k := by
  simp [State.keyAck, hawait, herasing]

theorem State.keyAck_erased_frame :
    s.keyAck stn k 1 = { s with keys := (s.keyAck stn k 1).keys, cmds := (s.keyAck stn k 1).cmds, xlt := (s.keyAck stn k 1).xlt } := by
  rw [State.keyAck_erased hawait herasing, State.scrubEnd_finishes, State.finishKey_frame]
  rfl

theorem State.keyAck_erased_becomes :
    Tab.becomes s.keys (s.keyAck stn k 1).keys k { s.keySlot k with
      st := .scrubbed, pid := none, epoch := ((s.keySlot k).epoch + 1) % 2 ^ 32, sweeps := 0, erasing := false, holders := [], await := [] } := by
  have hslot : ((s.updKey k (fun x => { x with await := x.await.erase stn })).keySlot k).scrubbed = { s.keySlot k with
      st := .scrubbed, pid := none, epoch := ((s.keySlot k).epoch + 1) % 2 ^ 32, sweeps := 0, erasing := false, holders := [], await := [] } := by
    simp [KeySlot.scrubbed, hawait]
  rw [State.keyAck_erased hawait herasing, State.scrubEnd_finishes, State.finishKey_frame, ← hslot]
  exact Tab.becomes_trans (s.updKey_becomes k _) (State.updKey_becomes ..)

/-- Every KEYSLOT_SCRUB that waits for the slot completes. -/
theorem State.keyAck_erased_ends {cl : Client} {c : Cmd} (hmem : (cl, c) ∈ s.cmds) (hc : Tab.at? s.cmds cl = some c) (hrun : c.phase = .running)
    (hop : c.opcode = 0x4A) (hwork : c.work = .obj k) (hcancel : c.cancel = none) : (s.keyAck stn k 1).endedWith cl k := by
  rw [State.keyAck_erased hawait herasing, State.scrubEnd_finishes]
  exact State.finishKey_ends (List.mem_filter.2 ⟨hmem, by simp [hrun, hop, hwork]⟩) hc hcancel

end

/-! ### Sweeps -/

/-- A sweep that begins marks what is outstanding at the memory ports, and the markers of an older one are given up (R319, R367; log entry 54). -/
def State.sweepMarked (s : State) (ls : List (Nat × Nat)) : State :=
  { s with
    waiting := s.waiting.filter (fun r => r.pur != .marker)
    tags := Tab.mapV s.tags (fun _ r => if r.stn.isSome then { r with swept := true } else r)
    xlt := { s.xlt with sweep := some ls } }

theorem State.sweepMarked_tags (s : State) (ls : List (Nat × Nat)) {i : Nat} {r : Req} (hr : Tab.at? s.tags i = some r) :
    Tab.at? (s.sweepMarked ls).tags i = some (if r.stn.isSome = true then { r with swept := true } else r) := by
  simp [State.sweepMarked, hr]

/-- A sweep does not begin while one runs. -/
theorem State.sweepStart_running {s : State} (hsweep : s.xlt.sweep.isSome = true) : s.sweepStart = s := by
  simp [State.sweepStart, hsweep]

/-- The slots that were scrubbed go on toward FREE, and the others stay (R319). -/
theorem State.sweepEnd_keys (s : State) {k : Nat} {x : KeySlot} (hx : Tab.at? s.keys k = some x) :
    Tab.at? s.sweepEnd.keys k = some (if x.st = .scrubbed then
      { x with epoch := (x.epoch + 1) % 2 ^ 32, sweeps := x.sweeps + 1, st := if 2 ≤ x.sweeps + 1 then .free else .scrubbed } else x) := by
  simp [State.sweepEnd, hx]

/-! ### The statement -/

/-- Settles O32: a load by `State.keyLoad_binds` (log entry 7), a scrub by `State.doKeyScrub_begins`, `State.scrubDrained_erases` and what
`State.keyAck` does with the last erasure, sweeps by what they mark and what their end makes of the slots (log entries 54 and 59). -/
theorem keysAndSweeps : Obligations.KeysAndSweeps := by
  unfold Obligations.KeysAndSweeps
  refine ⟨⟨?load, ?scrub, ?erase, ?acked, ?late⟩, ?sweep, ?sweepEnd, ?running⟩
  case load =>
    intro s q seq c k hc hagain hst hop hbad hpart hfree m
    exact ⟨_, (exec_keyslotLoad_read hc hagain hst hop hbad).trans (congrArg Host.Outcome.next (State.keyLoad_binds _ hpart hfree)), rfl, rfl,
      s.updKey_becomes k _, Tab.becomes_upd _ hc⟩
  case scrub =>
    intro s q seq c hstarts hop hkeys hclean hslot hunused
    exact ⟨_, (exec_keyslotScrub_runs hstarts hop).trans (congrArg Host.Outcome.next (State.doKeyScrub_begins _ hkeys hclean hslot hunused)), rfl,
      s.updKey_becomes _ (fun x => { x with st := .scrubbing, erasing := false }), Tab.becomes_upd _ hstarts.1⟩
  case erase =>
    intro s k hwaits htags hholders
    exact ⟨_, congrArg Host.Outcome.next (State.scrubDrained_erases hwaits htags hholders), rfl, rfl,
      s.updKey_becomes k (fun x => { x with erasing := true, await := (s.keySlot k).holders })⟩
  case acked =>
    intro s stn k hawait herasing
    refine ⟨s.keyAck stn k 1, rfl, State.keyAck_erased_frame hawait herasing, State.keyAck_erased_becomes hawait herasing, ?_⟩
    intro cl c hmem hc hrun hop hwork hcancel
    obtain ⟨d, hd, -, hends⟩ := State.keyAck_erased_ends hawait herasing hmem hc hrun hop hwork hcancel
    exact ⟨d, hd, hends⟩
  case late => exact fun s stn k hawaits => congrArg Host.Outcome.next (if_pos hawaits)
  case sweep =>
    intro s hup hsweep ls
    refine ⟨s.sweepMarked ls, rfl, fun i r hr => s.sweepMarked_tags ls hr, congrArg Host.Outcome.next ?_⟩
    rw [State.sweepStart, if_neg (by simp [hup, hsweep])]
    rfl
  case sweepEnd => exact fun s => ⟨rfl, rfl, fun k x hx => s.sweepEnd_keys hx⟩
  case running => exact fun s hsweep => congrArg Host.Outcome.next (State.sweepStart_running hsweep)

end Sys2Proof.Machine
end

section

/-! What every command keeps: the memories' form, the programmed fuses and TRAY_PCR (R365, R384, R386). -/

namespace Sys2Proof.Machine

theorem Mem.show_wf {m : Mem} (a : Nat) (bs : List Byte) (h : m.wf = true) : (m.show a bs).wf = true := by
  rw [Mem.wf_iff] at h ⊢
  exact ⟨cellsWrite_wf a bs h.1, h.2⟩

theorem Mem.spoil_wf {m : Mem} (a n : Nat) (h : m.wf = true) : (m.spoil a n).wf = true := by
  rw [Mem.wf_iff] at h ⊢
  exact ⟨h.1, foldl_keeps (fun t => Tab.sorted t = true) _ _ (fun t k _ ht => Tab.sorted_put k () ht) _ h.2⟩

end Sys2Proof.Machine

namespace Sys2Proof.Machine.State

/-- What every command keeps from `s₀` to `s`: the memories behind the ports stay canonical, no programmed fuse bit is lost, and
TRAY_PCR stays as it is (R365, R384, R386). -/
structure Keeps (s₀ s : State) : Prop where
  mem : s₀.memWf = true → s.memWf = true
  fuses : s₀.fusesKept s
  tray : s.tray = s₀.tray

variable {s₀ s : State}

theorem Keeps.refl (s : State) : s.Keeps s := ⟨id, fun _ _ => id, rfl⟩

/-- Everything but the memories behind the ports, the fuses and TRAY_PCR may change. -/
theorem Keeps.frame {pending build out fresh mqi fns queues cmds admitted arb ctxs parts fences edges grf tags waiting xlt postbags
    keys tables streams evc eps stns want rst rcv cores links cxSel pwr opts shadow nvm spi logAt logSeq fw rails age life incr mgt ltpTakes}
    (h : s₀.Keeps s) : s₀.Keeps { s with
      pending := pending, build := build, out := out, fresh := fresh, mqi := mqi, fns := fns, queues := queues, cmds := cmds,
      admitted := admitted, arb := arb, ctxs := ctxs, parts := parts, fences := fences, edges := edges, grf := grf, tags := tags,
      waiting := waiting, xlt := xlt, postbags := postbags, keys := keys, tables := tables, streams := streams, evc := evc, eps := eps,
      stns := stns, want := want, rst := rst, rcv := rcv, cores := cores, links := links, cxSel := cxSel, pwr := pwr, opts := opts,
      shadow := shadow, nvm := nvm, spi := spi, logAt := logAt, logSeq := logSeq, fw := fw, rails := rails, age := age, life := life,
      incr := incr, mgt := mgt, ltpTakes := ltpTakes } := ⟨h.mem, h.fuses, h.tray⟩

theorem Keeps.ite {p : Prop} [Decidable p] {t : State} (h : s₀.Keeps s) (k : s₀.Keeps t) : s₀.Keeps (if p then s else t) := by
  split
  · exact h
  · exact k

theorem Keeps.foldl {α : Type} {f : State → α → State} {l : List α} (hf : ∀ t x, s₀.Keeps t → s₀.Keeps (f t x)) (h : s₀.Keeps s) :
    s₀.Keeps (l.foldl f s) :=
  foldl_keeps (fun t => s₀.Keeps t) f l (fun t x _ ht => hf t x ht) s h

theorem Keeps.of_fst {α : Type} {p : State × α} {t : State} {y : α} (hp : p = (t, y)) (h : s₀.Keeps p.1) : s₀.Keeps t := by
  simpa [hp] using h

/-- A change of the memories that keeps their form. -/
theorem Keeps.of_mem {t : State} (hs : s₀.Keeps s) (hm : s.memWf = true → t.memWf = true) (hf : t.fuses = s.fuses) (ht : t.tray = s.tray) :
    s₀.Keeps t :=
  ⟨fun h => hm (hs.mem h), fun w b hb => by rw [State.fuse, hf]; exact hs.fuses w b hb, ht.trans hs.tray⟩

/-- Every state that an optional step may go on to is kept in the same way. -/
def KeepsAll (s₀ : State) (o : Option State) : Prop := ∀ t, o = some t → s₀.Keeps t

theorem KeepsAll.none (s₀ : State) : s₀.KeepsAll none := fun _ h => nomatch h

theorem KeepsAll.some (h : s₀.Keeps s) : s₀.KeepsAll (some s) := fun _ ht => Option.some.inj ht ▸ h

theorem KeepsAll.ite {p : Prop} [Decidable p] {o r : Option State} (h : s₀.KeepsAll o) (k : s₀.KeepsAll r) :
    s₀.KeepsAll (if p then o else r) := by
  split
  · exact h
  · exact k

/-- The state of a result with an answer beside it is kept. -/
def KeepsFst {α : Type} (s₀ : State) (r : State × α) : Prop := s₀.Keeps r.1

theorem KeepsFst.mk {α : Type} {y : α} (h : s₀.Keeps s) : s₀.KeepsFst (s, y) := h

theorem KeepsFst.ite {α : Type} {p : Prop} [Decidable p] {x y : State × α} (h : s₀.KeepsFst x) (k : s₀.KeepsFst y) :
    s₀.KeepsFst (if p then x else y) := by
  split
  · exact h
  · exact k

theorem Keeps.foldr {α : Type} {f : α → State → State} {l : List α} (hf : ∀ t x, s₀.Keeps t → s₀.Keeps (f x t)) (h : s₀.Keeps s) :
    s₀.Keeps (l.foldr f s) := by
  induction l with
  | nil => exact h
  | cons x l ih => exact hf _ x ih

/-! ### Ports, counters and requests -/

theorem Keeps.emit {o : Output} (hs : s₀.Keeps s) : s₀.Keeps (s.emit o) := hs.frame
theorem Keeps.emits {os : List Output} (hs : s₀.Keeps s) : s₀.Keeps (s.emits os) := hs.frame
theorem Keeps.draw (hs : s₀.Keeps s) : s₀.Keeps s.draw := hs.frame

theorem Keeps.updMemOf {stn : Option Nat} {f : Mem → Mem} (hs : s₀.Keeps s) (hf : ∀ m, m.wf = true → (f m).wf = true) :
    s₀.Keeps (s.updMemOf stn f) := by
  cases stn with
  | none =>
    refine hs.of_mem (fun h => ?_) rfl rfl
    rw [memWf_iff] at h ⊢
    exact ⟨hf _ h.1, h.2⟩
  | some n =>
    refine hs.of_mem (fun h => ?_) rfl rfl
    have hm := (memWf_iff s).1 h
    rw [memWf_iff]
    exact ⟨hm.1, memPut_wf n (hf _ (memOf_wf h n)) hm.2.1 hm.2.2⟩

theorem Keeps.countBy {index sub n : Nat} (hs : s₀.Keeps s) : s₀.Keeps (s.countBy index sub n) := Keeps.ite hs hs.frame
theorem Keeps.count {index sub : Nat} (hs : s₀.Keeps s) : s₀.Keeps (s.count index sub) := hs.countBy
theorem Keeps.mmioOf {fn : Nat} {f : State → State} (hs : s₀.Keeps s) (hf : ∀ {t}, s₀.Keeps t → s₀.Keeps (f t)) : s₀.Keeps (s.mmioOf fn f) :=
  Keeps.ite (hf hs) hs
theorem Keeps.mmio {f : State → State} (hs : s₀.Keeps s) (hf : ∀ {t}, s₀.Keeps t → s₀.Keeps (f t)) : s₀.Keeps (s.mmio f) :=
  hs.mmioOf (fun ht => (hf ht))

theorem Keeps.hostWrite {fn : Nat} {pasid : Option Nat} {a : Nat} {bs : List Byte} {poison : Bool} (hs : s₀.Keeps s) :
    s₀.Keeps (s.hostWrite fn pasid a bs poison) := by
  rcases s.hostWrite_cases fn pasid a bs poison with h | ⟨-, h⟩
  · rwa [h]
  · exact hs.of_mem (hostWrite_memWf fn pasid a bs poison) (by rw [h]) (by rw [h])

theorem Keeps.irq {fn vec : Nat} (hs : s₀.Keeps s) : s₀.Keeps (s.irq fn vec) := Keeps.ite hs (Keeps.ite hs.emit hs.frame)
theorem Keeps.ask {step id : Nat} (hs : s₀.Keeps s) : s₀.Keeps (s.ask step id) := Keeps.ite hs hs.frame
theorem Keeps.updCmd {c : Client} {f : Cmd → Cmd} (hs : s₀.Keeps s) : s₀.Keeps (s.updCmd c f) := hs.frame

/-! ### Events (11) -/

theorem Keeps.setSrc {n : Nat} {x : Src} (hs : s₀.Keeps s) : s₀.Keeps (s.setSrc n x) := hs.frame
theorem Keeps.setInput {n : Nat} {level : Bool} {info : Nat} (hs : s₀.Keeps s) : s₀.Keeps (s.setInput n level info) := Keeps.ite hs.setSrc hs
theorem Keeps.raise {n info : Nat} (hs : s₀.Keeps s) : s₀.Keeps (s.raise n info) := hs.setInput.setInput
theorem Keeps.notify {fn cause : Nat} (hs : s₀.Keeps s) : s₀.Keeps (s.notify fn cause) := hs.raise
theorem Keeps.notifyPart {pid cause : Nat} (hs : s₀.Keeps s) : s₀.Keeps (s.notifyPart pid cause) := Keeps.foldl (fun _ _ ht => ht.notify) hs

theorem Keeps.fnRingPut {fn src prio : Nat} {ovf level : Bool} {info coalesced : Nat} (hs : s₀.Keeps s) :
    s₀.Keeps (s.fnRingPut fn src prio ovf level info coalesced) :=
  Keeps.ite hs.draw.hostWrite.frame.irq hs.draw.hostWrite.frame

theorem Keeps.fnRingOvf {fn : Nat} (hs : s₀.Keeps s) : s₀.Keeps (s.fnRingOvf fn) := Keeps.ite hs.fnRingPut.frame hs
theorem Keeps.fnRingLose {fn : Nat} (hs : s₀.Keeps s) : s₀.Keeps (s.fnRingLose fn) := hs.frame

theorem Keeps.fnRingRecord {fn src prio : Nat} {level : Bool} {info coalesced : Nat} (hs : s₀.Keeps s) :
    s₀.Keeps (s.fnRingRecord fn src prio level info coalesced) :=
  Keeps.ite hs.fnRingPut hs.fnRingLose

theorem Keeps.setHring {r : Nat} {h : HubRing} (hs : s₀.Keeps s) : s₀.Keeps (s.setHring r h) := hs.frame
theorem Keeps.hubRingPut {r : Nat} {rec : HrRec} (hs : s₀.Keeps s) : s₀.Keeps (s.hubRingPut r rec) := hs.setHring.draw.frame
theorem Keeps.hubRingOvf {r : Nat} (hs : s₀.Keeps s) : s₀.Keeps (s.hubRingOvf r) := Keeps.ite hs.setHring.hubRingPut hs
theorem Keeps.hubRingLose {r : Nat} (hs : s₀.Keeps s) : s₀.Keeps (s.hubRingLose r) := hs.setHring
theorem Keeps.hubRingRecord {r : Nat} {rec : HrRec} (hs : s₀.Keeps s) : s₀.Keeps (s.hubRingRecord r rec) := Keeps.ite hs.hubRingLose hs.hubRingPut
theorem Keeps.freeSlot {r slot : Nat} (hs : s₀.Keeps s) : s₀.Keeps (s.freeSlot r slot) := hs.setHring.hubRingOvf
theorem Keeps.dropClaims {core : Nat} (hs : s₀.Keeps s) : s₀.Keeps (s.dropClaims core) := hs.frame
theorem Keeps.eventFrame {r n : Nat} {x : Src} {level : Bool} {co : Nat} (hs : s₀.Keeps s) : s₀.Keeps (s.eventFrame r n x level co) :=
  Keeps.ite hs.emit hs

theorem Keeps.deliver {ltp : Bool} (hs : s₀.Keeps s) : s₀.Keeps (s.deliver ltp) := by
  unfold State.deliver
  split
  · exact hs
  · exact Keeps.ite hs.setSrc.eventFrame.hubRingRecord hs.setSrc.fnRingRecord

theorem Keeps.clearActive {n : Nat} (hs : s₀.Keeps s) : s₀.Keeps (s.clearActive n) := Keeps.ite hs.setSrc hs
theorem Keeps.srcCfg {fw : Bool} {n v : Nat} (hs : s₀.Keeps s) : s₀.Keeps (s.srcCfg fw n v) := Keeps.ite hs.setSrc hs
theorem Keeps.srcRoute {fw : Bool} {n v : Nat} (hs : s₀.Keeps s) : s₀.Keeps (s.srcRoute fw n v) :=
  Keeps.ite (Keeps.ite hs.setSrc (Keeps.ite hs.setSrc hs)) hs
theorem Keeps.maskWord {fw set : Bool} {i v : Nat} (hs : s₀.Keeps s) : s₀.Keeps (s.maskWord fw set i v) :=
  Keeps.foldl (fun _ _ ht => (Keeps.ite ht.setSrc ht)) hs
theorem Keeps.evFnCfg {fn v : Nat} (hs : s₀.Keeps s) : s₀.Keeps (s.evFnCfg fn v) := hs.frame.fnRingOvf

theorem Keeps.evFnHead {fn v : Nat} (hs : s₀.Keeps s) : s₀.Keeps (s.evFnHead fn v) := by
  unfold State.evFnHead
  split
  · exact hs
  · split
    · exact hs
    · exact Keeps.ite (Keeps.fnRingOvf (Keeps.ite hs.frame.irq hs.frame)) hs

theorem Keeps.evFlr {fn : Nat} (hs : s₀.Keeps s) : s₀.Keeps (s.evFlr fn) := hs.frame.setSrc

theorem Keeps.claimRead {core : Nat} (hs : s₀.Keeps s) : s₀.Keeps (s.claimRead core).2 := by
  unfold State.claimRead
  split
  · exact hs
  · exact hs.setHring

theorem Keeps.claim {core : Nat} (hs : s₀.Keeps s) : s₀.Keeps (s.claim core) := Keeps.ite hs hs.claimRead.emit

theorem Keeps.doneClaim {core v : Nat} (hs : s₀.Keeps s) : s₀.Keeps (s.doneClaim core v) := by
  unfold State.doneClaim
  refine Keeps.ite hs (Keeps.ite hs.frame ?_)
  split
  · exact Keeps.ite (Keeps.ite hs.freeSlot.clearActive hs.freeSlot) hs.frame
  · exact hs.frame

theorem Keeps.hostOr {fw : Bool} {f : State → State} (hs : s₀.Keeps s) (hf : ∀ {t}, s₀.Keeps t → s₀.Keeps (f t)) : s₀.Keeps (s.hostOr fw f) :=
  Keeps.ite (hf hs) (hs.mmio (fun ht => (hf ht)))

/-! ### Fault records, postbags and requests through the ports (10) -/

theorem Keeps.rsWrite {a : Nat} {bs : List Byte} (hs : s₀.Keeps s) : s₀.Keeps (s.rsWrite a bs) := hs.frame
theorem Keeps.elog {r : ERec} (hs : s₀.Keeps s) : s₀.Keeps (s.elog r) := hs.draw.rsWrite.frame
theorem Keeps.updPb {p : Nat} {f : Postbag → Postbag} (hs : s₀.Keeps s) : s₀.Keeps (s.updPb p f) := hs.frame
theorem Keeps.pbPut {p : Nat} {r : FaultRec} (hs : s₀.Keeps s) : s₀.Keeps (s.pbPut p r) := hs.count.hostWrite.updPb

theorem Keeps.pbOvf {p : Nat} (hs : s₀.Keeps s) : s₀.Keeps (s.pbOvf p) := by
  unfold State.pbOvf
  dsimp only
  split
  · exact Keeps.ite hs.pbPut.updPb hs
  · exact hs

theorem Keeps.setFaultLost {cid : Nat} (hs : s₀.Keeps s) : s₀.Keeps (s.setFaultLost cid) := by
  unfold State.setFaultLost
  split
  · exact Keeps.ite hs hs.frame.notify
  · exact hs

theorem Keeps.pbLose {p : Nat} {r : FaultRec} (hs : s₀.Keeps s) : s₀.Keeps (s.pbLose p r) := Keeps.ite hs.updPb hs.updPb.setFaultLost
theorem Keeps.pbRecord {p : Nat} {r : FaultRec} (hs : s₀.Keeps s) : s₀.Keeps (s.pbRecord p r) := Keeps.ite hs.pbPut hs.pbLose
theorem Keeps.pbBatch {p : Nat} (hs : s₀.Keeps s) : s₀.Keeps (s.pbBatch p) :=
  Keeps.ite hs (Keeps.raise (Keeps.updPb (Keeps.foldl (fun _ _ ht => ht.pbRecord) hs)))
theorem Keeps.post {p : Nat} {r : FaultRec} (hs : s₀.Keeps s) : s₀.Keeps (s.post p r) := Keeps.ite (Keeps.ite hs.draw.frame.pbBatch hs.draw.frame) hs

theorem Keeps.pbCfg {v : Nat} (hs : s₀.Keeps s) : s₀.Keeps (s.pbCfg v) := by
  unfold State.pbCfg
  split
  · exact hs
  · exact hs.updPb.pbOvf

theorem Keeps.pbHead {v : Nat} (hs : s₀.Keeps s) : s₀.Keeps (s.pbHead v) := by
  unfold State.pbHead
  split
  · exact hs
  · dsimp only
    split
    · exact hs
    · exact Keeps.ite hs.updPb.pbOvf hs

theorem Keeps.pushIso (hs : s₀.Keeps s) : s₀.Keeps s.pushIso := Keeps.foldl (fun _ _ ht => (Keeps.ite ht ht.frame)) hs
theorem Keeps.isoFail {r : Req} (hs : s₀.Keeps s) : s₀.Keeps (s.isoFail r) := Keeps.ite hs.frame.post.elog hs.frame.post.elog.ask
theorem Keeps.newRound {ws : List Nat} (hs : s₀.Keeps s) : s₀.Keeps (s.newRound ws) := hs.frame

theorem Keeps.rounds {ws ps : List Nat} {k : Nat} (hs : s₀.Keeps s) : s₀.Keeps (s.rounds ws ps k) := by
  induction k generalizing s with
  | zero => exact hs
  | succ k ih => exact Keeps.ite hs (ih hs.newRound)

theorem Keeps.charge {pid n : Nat} (hs : s₀.Keeps s) : s₀.Keeps (s.charge pid n) := Keeps.ite hs hs.frame
theorem Keeps.listRound {r : Req} (hs : s₀.Keeps s) : s₀.Keeps (s.listRound r) := Keeps.ite hs.frame hs

theorem Keeps.issue {r : Req} (hs : s₀.Keeps s) : s₀.Keeps (s.issue r) := by
  unfold State.issue
  refine Keeps.ite hs.frame (Keeps.ite hs.isoFail (Keeps.ite hs.frame (Keeps.ite hs.listRound.frame ?_)))
  split
  · exact Keeps.frame (Keeps.ite hs.listRound.charge hs.listRound)
  · exact hs.listRound.frame

theorem Keeps.refill {stn : Option Nat} (hs : s₀.Keeps s) : s₀.Keeps (s.refill stn) := Keeps.foldl (fun _ _ ht => ht.issue) hs.frame
theorem Keeps.refillLists (hs : s₀.Keeps s) : s₀.Keeps s.refillLists := Keeps.foldl (fun _ _ ht => ht.issue) hs.frame

theorem Keeps.retire {id : Nat} (hs : s₀.Keeps s) : s₀.Keeps (s.retire id) := by
  unfold State.retire
  split
  · exact hs
  · exact Keeps.ite hs.frame.refill.refillLists hs.frame.refill

theorem Keeps.dropReqs {p : Req → Bool} (hs : s₀.Keeps s) : s₀.Keeps (s.dropReqs p) := Keeps.foldl (fun _ _ ht => ht.refill) hs.frame

theorem Keeps.stnWrite {cl : Client} {stn cid a : Nat} {bs : List Byte} {poison : Bool} (hs : s₀.Keeps s) :
    s₀.Keeps (s.stnWrite cl stn cid a bs poison) := by
  have hw : s₀.Keeps (s.updMemOf (some stn) (fun m => m.write a bs poison)) := hs.updMemOf (fun m => Mem.write_wf a bs poison)
  exact Keeps.ite hs (Keeps.foldl (fun _ _ ht => ht.issue) (Keeps.ite hw hs))

theorem Keeps.twrite {cl : Client} {cid : Nat} {t : Tgt} {bs : List Byte} {poison : Bool}
    (hs : s₀.Keeps s) : s₀.Keeps (s.twrite cl cid t bs poison) :=
  Keeps.ite hs.hostWrite hs.stnWrite

theorem Keeps.pwrite {cl : Client} {cid : Nat} {ps : List Piece} {o : Nat} {bs : List Byte} {poison : Bool} (hs : s₀.Keeps s) :
    s₀.Keeps (s.pwrite cl cid ps o bs poison) := by
  unfold State.pwrite
  refine Keeps.foldl (fun _ _ ht => ?_) hs
  dsimp only
  split
  · exact Keeps.ite ht.twrite ht
  · exact ht

theorem Keeps.settleSteps (hs : s₀.Keeps s) : s₀.Keeps s.settleSteps := Keeps.ite hs (Keeps.foldl (fun _ _ ht => (Keeps.ite ht.notify ht)) hs.frame)

/-! ### Translation (10) -/

theorem Keeps.touch {cid : Nat} {sps : List Span} (hs : s₀.Keeps s) : s₀.Keeps (s.touch cid sps) := by
  unfold State.touch
  split
  · exact hs
  · exact hs.frame

theorem Keeps.walkNote {x : XFault} (hs : s₀.Keeps s) : s₀.Keeps (s.walkNote x) := hs.frame
theorem Keeps.walkFail {k : Nat} {w : Walker} {type entry : Nat} (hs : s₀.Keeps s) : s₀.Keeps (s.walkFail k w type entry) :=
  Keeps.ite hs.frame hs.frame.walkNote
theorem Keeps.walkRead {k : Nat} {w : Walker} (hs : s₀.Keeps s) : s₀.Keeps (s.walkRead k w) :=
  Keeps.ite hs.walkFail (Keeps.ite hs.walkFail hs.frame.issue)

theorem Keeps.assignWalkers {k : Nat} (hs : s₀.Keeps s) : s₀.Keeps (s.assignWalkers k) := by
  induction k generalizing s with
  | zero => exact hs
  | succ k ih =>
    unfold State.assignWalkers
    split
    · split
      · exact ih hs.frame.walkRead
      · exact ih hs.frame
    · exact hs

theorem Keeps.miss {cl : Client} {cid a : Nat} (hs : s₀.Keeps s) : s₀.Keeps (s.miss cl cid a) := Keeps.ite hs hs.frame.assignWalkers
theorem Keeps.dropNotes {cl : Client} (hs : s₀.Keeps s) : s₀.Keeps (s.dropNotes cl) := hs.frame

theorem Keeps.walkEntry {k : Nat} {w : Walker} {e : Nat} (hs : s₀.Keeps s) : s₀.Keeps (s.walkEntry k w e) := by
  unfold State.walkEntry
  split
  · exact hs.frame
  · exact Keeps.ite hs.walkFail (Keeps.ite (Keeps.ite hs.walkFail (Keeps.ite hs.frame hs.frame.frame.walkNote)) (Keeps.ite hs.walkFail hs.walkRead))

theorem Keeps.deadLtp (hs : s₀.Keeps s) : s₀.Keeps s.deadLtp := hs.frame
theorem Keeps.deadLetter (hs : s₀.Keeps s) : s₀.Keeps s.deadLetter := hs.deadLtp.count

theorem Keeps.walkDone {r : Req} {k : Nat} {bad : List (Nat × Nat)} (hs : s₀.Keeps s) : s₀.Keeps (s.walkDone r k bad) := by
  unfold State.walkDone
  split
  · exact Keeps.assignWalkers (Keeps.ite hs.walkFail hs.walkEntry)
  · exact hs

theorem Keeps.invalCache {cid lo len : Nat} (hs : s₀.Keeps s) : s₀.Keeps (s.invalCache cid lo len) := hs.frame
theorem Keeps.flushCache {pid : Nat} (hs : s₀.Keeps s) : s₀.Keeps (s.flushCache pid) := hs.frame
theorem Keeps.wmapWrite {v : Nat} (hs : s₀.Keeps s) : s₀.Keeps (s.wmapWrite v) :=
  Keeps.ite hs (Keeps.ite (Keeps.frame (Keeps.ite hs.frame hs)) (Keeps.frame (Keeps.flushCache (Keeps.ite hs.frame hs))))

/-! ### Commands and their operands -/

theorem Keeps.start {q seq : Nat} {mine : Cmd → Bool} {f : Client → Cmd → State → State}
    (hs : s₀.Keeps s) (hf : ∀ {y0 y1 t}, s₀.Keeps t → s₀.Keeps (f y0 y1 t)) : s₀.Keeps (s.start q seq mine f) := by
  unfold State.start
  split
  · exact Keeps.ite (hf hs) hs
  · exact hs

theorem Keeps.finish {cl : Client} {st count aux : Nat} (hs : s₀.Keeps s) : s₀.Keeps (s.finish cl st count aux) := hs.updCmd.dropNotes
theorem Keeps.postFor {pid : Nat} {r : FaultRec} (hs : s₀.Keeps s) : s₀.Keeps (s.postFor pid r) := hs.post

theorem Keeps.stop {cl : Client} {a : Stop} (hs : s₀.Keeps s) : s₀.Keeps (s.stop cl a) := by
  unfold State.stop
  split
  · exact hs.miss
  · refine Keeps.finish ?_
    split
    · exact hs.postFor
    · exact hs

theorem Keeps.checked {α : Type} {cl : Client} {r : Chk α} {k : α → State} (hs : s₀.Keeps s) (hf : ∀ y0, s₀.Keeps (k y0)) :
    s₀.Keeps (s.checked cl r k) := by
  unfold State.checked
  split
  · exact hf _
  · exact hs.stop

theorem Keeps.fetchItems {cl : Client} {cid stage : Nat} {its : List Item} (hs : s₀.Keeps s) : s₀.Keeps (s.fetchItems cl cid stage its) :=
  Keeps.foldl (fun _ _ ht => ht.issue) hs.updCmd
theorem Keeps.fetchMore {cl : Client} {cid stage : Nat} {its : List Item} (hs : s₀.Keeps s) : s₀.Keeps (s.fetchMore cl cid stage its) :=
  Keeps.foldl (fun _ _ ht => ht.issue) hs.updCmd
theorem Keeps.itemBack {cl : Client} {i : Nat} {iso : Bool} {bad : List (Nat × Nat)} (hs : s₀.Keeps s) : s₀.Keeps (s.itemBack cl i iso bad) :=
  hs.updCmd

theorem Keeps.withOperands {cl : Client} {c : Cmd} {k : Cmd → State → State} (hs : s₀.Keeps s) (hf : ∀ {y0 t}, s₀.Keeps t → s₀.Keeps (k y0 t)) :
    s₀.Keeps (s.withOperands cl c k) :=
  Keeps.ite (Keeps.ite hs hs.finish) (Keeps.ite hs.updCmd.finish (hf hs))

theorem Keeps.fetchThen {cl : Client} {cid stage : Nat} {its : List Item} {k : Client → Cmd → State → State}
    (hs : s₀.Keeps s) (hf : ∀ {y0 y1 t}, s₀.Keeps t → s₀.Keeps (k y0 y1 t)) : s₀.Keeps (s.fetchThen cl cid stage its k) := by
  unfold State.fetchThen
  dsimp only
  split
  · exact Keeps.ite (hf hs.fetchItems) hs.fetchItems
  · exact hs.fetchItems

/-! ### Fences and the graph (08) -/

theorem Keeps.signalOne {fid v : Nat} {err : Bool} (hs : s₀.Keeps s) : s₀.Keeps (s.signalOne fid v err) := by
  unfold State.signalOne
  split
  · exact hs
  · refine Keeps.ite ?_ hs.frame
    split
    · exact hs.frame.frame
    · exact hs.frame.frame

theorem Keeps.fireEdges {k : Nat} (hs : s₀.Keeps s) : s₀.Keeps (s.fireEdges k) := by
  induction k generalizing s with
  | zero => exact hs
  | succ k ih =>
    unfold State.fireEdges
    split
    · exact hs
    · exact ih hs.frame.signalOne

theorem Keeps.signal {fid v : Nat} {err : Bool} (hs : s₀.Keeps s) : s₀.Keeps (s.signal fid v err) := hs.signalOne.fireEdges

theorem Keeps.search {x : Nat} (hs : s₀.Keeps s) : s₀.Keeps (s.search x).1 := by
  unfold State.search
  split
  · exact hs.frame
  · exact hs.frame
  · exact hs

theorem Keeps.admitHead {cl : Client} {c : Cmd} (hs : s₀.Keeps s) : s₀.Keeps (s.admitHead cl c) :=
  Keeps.ite hs.frame.updCmd.finish (Keeps.ite hs.frame.updCmd.finish hs.frame.updCmd)

theorem Keeps.admitLoop {q k : Nat} (hs : s₀.Keeps s) : s₀.Keeps (s.admitLoop q k) := by
  induction k generalizing s with
  | zero => exact hs
  | succ k ih =>
    unfold State.admitLoop
    split
    · exact hs
    · dsimp only
      split
      · exact ih hs.finish
      · exact hs
      · split
        · exact ih hs.finish
        · exact ih hs.admitHead
        · refine Keeps.ite hs ?_
          exact Keeps.ite (ih hs.updCmd.search.finish) hs.updCmd.search

theorem Keeps.admitQueue {q : Nat} (hs : s₀.Keeps s) : s₀.Keeps (s.admitQueue q) := hs.admitLoop

theorem Keeps.searchBehind {q : Nat} {c : Cmd} (hs : s₀.Keeps s) : s₀.Keeps (s.searchBehind q c) := by
  unfold State.searchBehind
  split
  · refine Keeps.ite ?_ hs
    split
    · rename_i x0 x1 heq
      have ht0 := Keeps.of_fst heq hs.search
      exact Keeps.ite ht0.finish.admitQueue ht0
  · exact hs

theorem Keeps.fenceWaitDone {cl : Client} {c : Cmd} (hs : s₀.Keeps s) : s₀.Keeps (s.fenceWaitDone cl c) := by
  unfold State.fenceWaitDone
  split
  · exact hs
  · exact hs.finish
  · exact Keeps.ite hs.finish hs.finish

theorem Keeps.examine (hs : s₀.Keeps s) : s₀.Keeps s.examine :=
  Keeps.foldl (fun _ _ ht1 => ht1.admitQueue) (Keeps.foldl (fun _ _ ht => ht.fenceWaitDone) hs)
theorem Keeps.freeFences (hs : s₀.Keeps s) : s₀.Keeps s.freeFences :=
  Keeps.foldl (fun _ _ ht => (Keeps.foldl (fun _ _ ht1 => ht1.finish) ht.frame)) hs
theorem Keeps.destroyFence {fid : Nat} (hs : s₀.Keeps s) : s₀.Keeps (s.destroyFence fid) := hs.frame.signal.examine
theorem Keeps.signalAll {c : Cmd} (hs : s₀.Keeps s) : s₀.Keeps (s.signalAll c) := Keeps.examine (Keeps.foldl (fun _ _ ht => ht.signal) hs)
theorem Keeps.doFenceSignal {cl : Client} {c : Cmd} (hs : s₀.Keeps s) : s₀.Keeps (s.doFenceSignal cl c) :=
  hs.checked (fun _ => hs.signal.finish.examine)

theorem Keeps.doFenceCreate {cl : Client} {c : Cmd} (hs : s₀.Keeps s) : s₀.Keeps (s.doFenceCreate cl c) := by
  unfold State.doFenceCreate
  refine hs.checked (fun _ => ?_)
  split
  · exact Keeps.ite hs.frame.finish hs.finish
  · exact hs.finish

theorem Keeps.doFenceDestroy {cl : Client} {c : Cmd} (hs : s₀.Keeps s) : s₀.Keeps (s.doFenceDestroy cl c) :=
  hs.checked (fun _ => hs.updCmd.destroyFence.freeFences)
theorem Keeps.doFenceClear {cl : Client} {c : Cmd} (hs : s₀.Keeps s) : s₀.Keeps (s.doFenceClear cl c) := hs.checked (fun _ => hs.frame.finish)

theorem Keeps.doFenceWait {cl : Client} {c : Cmd} (hs : s₀.Keeps s) : s₀.Keeps (s.doFenceWait cl c) := by
  unfold State.doFenceWait
  refine hs.checked (fun _ => (Keeps.ite (Keeps.ite hs.updCmd ?_) hs.updCmd.fenceWaitDone))
  split
  · rename_i x0 x1 heq
    have ht1 := Keeps.of_fst heq hs.updCmd.search
    exact Keeps.ite ht1.finish ht1

theorem Keeps.doGraphEdge {cl : Client} {c : Cmd} (hs : s₀.Keeps s) : s₀.Keeps (s.doGraphEdge cl c) := by
  unfold State.doGraphEdge
  refine hs.checked (fun _ => Keeps.ite hs.signal.finish.examine ?_)
  exact Keeps.ite (Keeps.finish hs.frame) (Keeps.finish (Keeps.search hs.frame))

theorem Keeps.doNop {cl : Client} {c : Cmd} (hs : s₀.Keeps s) : s₀.Keeps (s.doNop cl c) := hs.checked (fun _ => hs.finish)

/-! ### Queues (02) -/

theorem Keeps.updQ {q : Nat} {f : Queue → Queue} (hs : s₀.Keeps s) : s₀.Keeps (s.updQ q f) := hs.frame
theorem Keeps.dropFetches {q : Nat} (hs : s₀.Keeps s) : s₀.Keeps (s.dropFetches q) := hs.frame
theorem Keeps.endFetch {q : Nat} (hs : s₀.Keeps s) : s₀.Keeps (s.endFetch q) := hs.dropFetches.updQ
theorem Keeps.afterRecord {qid : Nat} {q : Queue} {marker : Bool} (hs : s₀.Keeps s) : s₀.Keeps (s.afterRecord qid q marker) :=
  Keeps.ite hs (Keeps.ite hs.updQ.irq hs.updQ)

theorem Keeps.stopQueue {qid cause : Nat} (hs : s₀.Keeps s) : s₀.Keeps (s.stopQueue qid cause) := by
  unfold State.stopQueue
  split
  · exact Keeps.ite hs.updQ.endFetch hs
  · exact hs

theorem Keeps.ringFault {qid : Nat} {q : Queue} {agent : Nat} {sp : Span} (hs : s₀.Keeps s) : s₀.Keeps (s.ringFault qid q agent sp) := hs.postFor

theorem Keeps.writeRecord {qid : Nat} {q : Queue} {bs : List Byte} {marker : Bool} {t : State} (hs : s₀.Keeps s)
    (ht : s.writeRecord qid q bs marker = .ok t ∨ s.writeRecord qid q bs marker = .error t) : s₀.Keeps t := by
  unfold State.writeRecord at ht
  dsimp only at ht
  split at ht
  · obtain ht | ht := ht <;> cases ht
    exact hs.miss
  · split at ht
    · obtain ht | ht := ht <;> cases ht
      exact hs.draw.dropNotes.touch.pwrite.updQ.afterRecord
    · obtain ht | ht := ht <;> cases ht
      exact hs.draw.dropNotes.updQ.ringFault.stopQueue.afterRecord

theorem Keeps.marker {qid : Nat} {q : Queue} {status : Nat} (hs : s₀.Keeps s) : s₀.Keeps (s.marker qid q status) := by
  refine Keeps.ite ?_ hs
  dsimp only
  split
  · rename_i ht
    exact hs.writeRecord (.inr ht)
  · rename_i ht
    exact (hs.writeRecord (.inl ht)).updQ

theorem Keeps.settleQueue {qid : Nat} (hs : s₀.Keeps s) : s₀.Keeps (s.settleQueue qid) := by
  unfold State.settleQueue
  split
  · exact Keeps.ite hs.marker hs
  · exact hs

theorem Keeps.releasePins {c : Cmd} (hs : s₀.Keeps s) : s₀.Keeps (s.releasePins c) := Keeps.foldl (fun _ _ ht => ht.frame) hs
theorem Keeps.endWriter {cl : Client} {c : Cmd} (hs : s₀.Keeps s) : s₀.Keeps (s.endWriter cl c) := hs.frame

theorem Keeps.complete {cl : Client} {c : Cmd} (hs : s₀.Keeps s) : s₀.Keeps (s.complete cl c) := by
  unfold State.complete
  split
  · exact hs
  · refine Keeps.ite ?_ hs
    split
    · rename_i ht
      exact hs.writeRecord (.inr ht)
    · rename_i ht
      exact (Keeps.count (hs.writeRecord (.inl ht)).frame).signalAll.releasePins.endWriter.freeFences.settleQueue

theorem Keeps.badDb {fn : Nat} (hs : s₀.Keeps s) : s₀.Keeps (s.badDb fn) := hs.frame

theorem Keeps.sqDoorbell {qid : Nat} {q : Queue} {v : Nat} (hs : s₀.Keeps s) : s₀.Keeps (s.sqDoorbell qid q v) := by
  unfold State.sqDoorbell
  refine Keeps.ite hs.updQ ?_
  split
  · exact hs.stopQueue.settleQueue
  · exact Keeps.ite hs.updQ hs.updQ

theorem Keeps.cqDoorbell {qid : Nat} {q : Queue} {v : Nat} (hs : s₀.Keeps s) : s₀.Keeps (s.cqDoorbell qid q v) := by
  unfold State.cqDoorbell
  split
  · exact hs.stopQueue.settleQueue
  · exact Keeps.ite (Keeps.ite hs.updQ hs.stopQueue.settleQueue) hs.updQ.settleQueue

theorem Keeps.doorbell {fn off width v : Nat} (hs : s₀.Keeps s) : s₀.Keeps (s.doorbell fn off width v) := by
  unfold State.doorbell
  refine Keeps.ite hs ?_
  dsimp only
  split
  · refine Keeps.ite hs.badDb (Keeps.ite ?_ (Keeps.ite hs.sqDoorbell hs.cqDoorbell))
    split
    · exact hs.sqDoorbell.cqDoorbell
    · exact hs.sqDoorbell
  · exact hs.badDb

theorem Keeps.fetchFor {qid n : Nat} {charge : State → Nat → State} (hs : s₀.Keeps s)
    (hf : ∀ {t k}, s₀.Keeps t → s₀.Keeps (charge t k)) : s₀.Keeps (s.fetchFor qid n charge) := by
  unfold State.fetchFor
  split
  · exact hs
  · dsimp only
    split
    · exact hs.miss
    · split
      · exact hs.dropNotes
      · split
        · exact hs.dropNotes.ringFault.stopQueue.settleQueue
        · exact Keeps.ite hs.dropNotes.stopQueue.settleQueue (hf hs.dropNotes).touch.issue.updQ

theorem Keeps.selectAndFetch (hs : s₀.Keeps s) : s₀.Keeps s.selectAndFetch := by
  unfold State.selectAndFetch
  refine Keeps.ite hs ?_
  split
  · exact hs.fetchFor (fun ht => ht)
  · dsimp only
    split
    · exact hs.frame.rounds
    · split
      · exact hs.frame.rounds
      · exact hs.frame.rounds.fetchFor (fun ht1 => ht1.charge.frame)

theorem Keeps.receive {qid : Nat} {q : Queue} {env ext : List Byte} {slots : Nat} (hs : s₀.Keeps s) : s₀.Keeps (s.receive qid q env ext slots) :=
  hs.frame.updQ.searchBehind.admitQueue

theorem Keeps.receiveLoop {qid k : Nat} (hs : s₀.Keeps s) : s₀.Keeps (s.receiveLoop qid k) := by
  induction k generalizing s with
  | zero => exact hs
  | succ k ih =>
    unfold State.receiveLoop
    split
    · exact hs
    · split
      · exact hs
      · refine Keeps.ite (ih hs.receive) (Keeps.ite hs.stopQueue.settleQueue ?_)
        split
        · exact ih hs.receive
        · exact hs

theorem Keeps.fetchDone {r : Req} {qid pos n : Nat} {drop : Bool} {bad : List (Nat × Nat)} (hs : s₀.Keeps s) :
    s₀.Keeps (s.fetchDone r qid pos n drop bad) :=
  Keeps.ite hs (Keeps.ite hs.updQ.receiveLoop.stopQueue.settleQueue hs.updQ.receiveLoop)

theorem Keeps.mqiEnable (hs : s₀.Keeps s) : s₀.Keeps s.mqiEnable := Keeps.ite hs (Keeps.ite hs.frame hs.frame)
theorem Keeps.badQctl {fn : Nat} (hs : s₀.Keeps s) : s₀.Keeps (s.badQctl fn) := hs.frame

theorem Keeps.resume {fn qid : Nat} (hs : s₀.Keeps s) : s₀.Keeps (s.resume fn qid) := by
  unfold State.resume
  split
  · exact hs.badQctl
  · exact Keeps.ite hs.updQ hs

/-! ### Lookups (03) -/

theorem Keeps.touchRanges {cl : Client} {cid : Nat} {rs : List (Bool × Nat × Nat)} (hs : s₀.Keeps s) : s₀.Keeps (s.touchRanges cl cid rs) := by
  unfold State.touchRanges
  refine Keeps.foldl (fun _ _ ht => ?_) hs
  split
  · exact ht.touch
  · exact ht

theorem Keeps.setSum {stn tid shard l : Nat} (hs : s₀.Keeps s) : s₀.Keeps (s.setSum stn tid shard l) := hs.frame

theorem Keeps.pinAll {cl : Client} {tids : List Nat} (hs : s₀.Keeps s) : s₀.Keeps (s.pinAll cl tids) := by
  unfold State.pinAll
  refine Keeps.foldl (fun _ _ ht => ?_) hs
  split
  · exact ht
  · exact ht.frame.updCmd

theorem Keeps.updLook {cl : Client} {f : LookW → LookW} (hs : s₀.Keeps s) : s₀.Keeps (s.updLook cl f) := hs.updCmd

theorem Keeps.rowReads {cl : Client} {c : Cmd} {sub stn r tid : Nat} {t : Table} {f : RowF} (hs : s₀.Keeps s) :
    s₀.Keeps (s.rowReads cl c sub stn r tid t f) := by
  unfold State.rowReads
  dsimp only
  split
  · split
    · exact hs.updLook.issue
    · exact Keeps.foldl (fun _ _ ht => ht.issue) hs.updLook
  · exact Keeps.foldl (fun _ _ ht1 => ht1.issue) hs.updLook

theorem Keeps.fetchRow {cl : Client} {c : Cmd} {sub stn r : Nat} {e : WEnt} (hs : s₀.Keeps s) : s₀.Keeps (s.fetchRow cl c sub stn r e) := by
  unfold State.fetchRow
  split
  · exact hs
  · split
    · exact hs
    · split
      · exact hs
      · split
        · split
          · exact hs.postFor.updLook
          · exact Keeps.rowReads (Keeps.count (Keeps.ite hs.draw hs))

theorem Keeps.drain {cl : Client} {c : Cmd} {sub stn : Nat} {es : List WEnt} (hs : s₀.Keeps s) : s₀.Keeps (s.drain cl c sub stn es) :=
  Keeps.foldl (fun _ _ ht => ht.fetchRow) hs

theorem Keeps.closeWin {cl : Client} {c : Cmd} {sub stn : Nat} (hs : s₀.Keeps s) : s₀.Keeps (s.closeWin cl c sub stn) := by
  unfold State.closeWin
  split
  · exact hs
  · exact Keeps.ite hs.updLook.drain (Keeps.foldl (fun _ _ ht => ht.issue) hs.updLook)

theorem Keeps.spillBack {cl : Client} {sub stn : Nat} {bad : List (Nat × Nat)} (hs : s₀.Keeps s) : s₀.Keeps (s.spillBack cl sub stn bad) := by
  unfold State.spillBack
  split
  · exact hs
  · exact Keeps.ite hs.updLook.drain hs.updLook

theorem Keeps.dirBack {cl : Client} {sub stn r : Nat} {bad : List (Nat × Nat)} (hs : s₀.Keeps s) : s₀.Keeps (s.dirBack cl sub stn r bad) := by
  unfold State.dirBack
  split
  · exact hs
  · split
    · split
      · exact hs.rowReads
      · exact hs
    · exact hs

theorem Keeps.closeEnded {stn : Nat} (hs : s₀.Keeps s) : s₀.Keeps (s.closeEnded stn) := by
  unfold State.closeEnded
  refine Keeps.foldl (fun _ _ ht => ?_) hs
  split
  · exact Keeps.foldl (fun _ _ ht1 => (Keeps.ite ht1.closeWin ht1)) ht
  · exact ht

theorem Keeps.rowBack {cl : Client} {sub stn r : Nat} {bad : List (Nat × Nat)} (hs : s₀.Keeps s) : s₀.Keeps (s.rowBack cl sub stn r bad) := by
  unfold State.rowBack
  split
  · exact hs
  · split
    · refine Keeps.ite hs.updLook ?_
      split
      · exact hs
      · exact hs.updLook.closeEnded
    · exact hs

theorem Keeps.sortOcc {cl : Client} {c : Cmd} {sub stn op : Nat} {o : Occ} {sh : Share} (hs : s₀.Keeps s) :
    s₀.Keeps (s.sortOcc cl c sub stn op o sh) :=
  Keeps.updLook (Keeps.ite (Keeps.ite hs.frame hs) (Keeps.stnWrite (Keeps.ite hs.frame hs)))

theorem Keeps.occurrence {cl : Client} {sub stn : Nat} (hs : s₀.Keeps s) : s₀.Keeps (s.occurrence cl sub stn) := by
  unfold State.occurrence
  split
  · exact hs
  · split
    · exact Keeps.ite hs (Keeps.ite (Keeps.ite hs hs.sortOcc.closeEnded) (Keeps.ite (Keeps.ite hs
        (Keeps.ite hs.closeWin hs.closeWin.sortOcc.closeEnded)) hs.sortOcc.closeEnded))
    · exact hs

theorem Keeps.partialArrival {cl : Client} {sub stn pool : Nat} (hs : s₀.Keeps s) : s₀.Keeps (s.partialArrival cl sub stn pool) := by
  unfold State.partialArrival
  split
  · exact hs
  · split
    · exact Keeps.ite hs.updLook hs
    · exact hs

theorem Keeps.putRow {cl : Client} {cid : Nat} {w : LookW} {d : Dest} {pool : Nat} (hs : s₀.Keeps s) : s₀.Keeps (s.putRow cl cid w d pool) := by
  unfold State.putRow
  split
  · refine Keeps.updLook (Keeps.updCmd ?_)
    split
    · exact hs
    · exact hs.pwrite

theorem Keeps.putFlags {cl : Client} {cid : Nat} {w : LookW} (hs : s₀.Keeps s) : s₀.Keeps (s.putFlags cl cid w) :=
  Keeps.foldl (fun _ _ ht => (Keeps.ite ht ht.pwrite)) hs

theorem Keeps.lookEnd {cl : Client} (hs : s₀.Keeps s) : s₀.Keeps (s.lookEnd cl) := by
  unfold State.lookEnd
  split
  · exact Keeps.ite hs.updCmd.finish hs
  · exact hs

theorem Keeps.nextBlock {cl : Client} {cid k : Nat} (hs : s₀.Keeps s) : s₀.Keeps (s.nextBlock cl cid k) := by
  induction k generalizing s with
  | zero => exact hs
  | succ k ih =>
    unfold State.nextBlock
    split
    · exact hs
    · split
      · exact hs.putFlags.lookEnd
      · exact Keeps.ite hs (ih hs.updLook)

theorem Keeps.finishBlock {cl : Client} (hs : s₀.Keeps s) : s₀.Keeps (s.finishBlock cl) := by
  unfold State.finishBlock
  split
  · exact hs
  · split
    · exact hs
    · exact Keeps.nextBlock (Keeps.updLook (Keeps.foldl (fun _ _ ht => ht.putRow) hs))

theorem Keeps.finalReport {cl : Client} {stn : Nat} (hs : s₀.Keeps s) : s₀.Keeps (s.finalReport cl stn) := by
  unfold State.finalReport
  split
  · exact hs
  · exact Keeps.ite (Keeps.ite hs.updLook.finishBlock hs.updLook) hs

theorem Keeps.lookSplit {cl : Client} {c : Cmd} {gather : Bool} {es : List (List Byte)} {d : Option DestOp} (hs : s₀.Keeps s) :
    s₀.Keeps (s.lookSplit cl c gather es d) := by
  unfold State.lookSplit
  split
  · exact hs.finish
  · exact Keeps.ite hs (Keeps.ite hs.finish hs.pinAll.updCmd.nextBlock)

theorem Keeps.lookPlan {cl : Client} {c : Cmd} {gather : Bool} {es : List (List Byte)} {d : Option DestOp} (hs : s₀.Keeps s) :
    s₀.Keeps (s.lookPlan cl c gather es d) :=
  hs.checked (fun _ => (hs.touchRanges.updCmd.fetchThen (fun ht1 => (ht1.withOperands (fun ht2 => ht2.lookSplit)))))

theorem Keeps.doLookup {gather : Bool} {cl : Client} {c : Cmd} (hs : s₀.Keeps s) : s₀.Keeps (s.doLookup gather cl c) :=
  Keeps.ite (Keeps.ite hs.finish (hs.checked (fun _ => hs.lookPlan))) (hs.withOperands (fun ht1 => ht1.lookSplit))

theorem Keeps.planOf {cl : Client} {c : Cmd} (hs : s₀.Keeps s) : s₀.Keeps (State.doMulti.planOf cl c s) := by
  unfold State.doMulti.planOf
  exact hs.checked (fun _ => hs.touchRanges.updCmd.fetchThen (fun ht => ht.withOperands (fun hu => hu.lookSplit)))

theorem Keeps.doMulti {cl : Client} {c : Cmd} (hs : s₀.Keeps s) : s₀.Keeps (s.doMulti cl c) :=
  Keeps.ite (hs.checked (fun _ => hs.touchRanges.updCmd.fetchThen (fun ht => ht.withOperands (fun hu => hu.planOf))))
    (Keeps.ite (hs.withOperands (fun ht => ht.planOf)) (hs.withOperands (fun ht => ht.lookSplit)))

/-! ### Updates and versions (05) -/

theorem Keeps.updTable {tid : Nat} {f : Table → Table} (hs : s₀.Keeps s) : s₀.Keeps (s.updTable tid f) := hs.frame
theorem Keeps.countRel {t : Table} {es : List DirEnt} (hs : s₀.Keeps s) : s₀.Keeps (s.countRel t es) := Keeps.foldl (fun _ _ ht => ht.frame) hs

theorem Keeps.releaseEntries {tid : Nat} {p : Table → DirEnt → Bool} (hs : s₀.Keeps s) : s₀.Keeps (s.releaseEntries tid p) := by
  unfold State.releaseEntries
  split
  · exact hs
  · exact hs.countRel.updTable

theorem Keeps.versionRetire {tid ver : Nat} (hs : s₀.Keeps s) : s₀.Keeps (s.versionRetire tid ver) := by
  unfold State.versionRetire
  split
  · exact hs
  · exact Keeps.ite hs.releaseEntries.updTable hs

theorem Keeps.settleDiscards {tid : Nat} (hs : s₀.Keeps s) : s₀.Keeps (s.settleDiscards tid) := by
  unfold State.settleDiscards
  split
  · exact hs
  · exact Keeps.foldl (fun _ _ ht => ht.releaseEntries.updTable.finish) hs

theorem Keeps.endWaits {tid : Nat} {t : Table} {all : Bool} (hs : s₀.Keeps s) : s₀.Keeps (s.endWaits tid t all) :=
  Keeps.foldl (fun _ _ ht => (Keeps.ite ht.finish ht)) hs

theorem Keeps.settleRetires {tid : Nat} (hs : s₀.Keeps s) : s₀.Keeps (s.settleRetires tid) := by
  unfold State.settleRetires
  split
  · exact hs
  · exact Keeps.ite (Keeps.foldl (fun _ _ ht => ht.finish) hs.endWaits.frame) hs.endWaits

theorem Keeps.settleTable {tid : Nat} (hs : s₀.Keeps s) : s₀.Keeps (s.settleTable tid) := hs.settleDiscards.settleRetires
theorem Keeps.settleTables (hs : s₀.Keeps s) : s₀.Keeps s.settleTables := Keeps.foldl (fun _ _ ht => ht.settleTable) hs

theorem Keeps.switchPoint {tid : Nat} (hs : s₀.Keeps s) : s₀.Keeps (s.switchPoint tid) := by
  unfold State.switchPoint
  split
  · exact hs
  · split
    · exact hs
    · exact Keeps.ite hs hs.updTable.finish.settleTable

theorem Keeps.stage {cl : Client} {cid tid post row : Nat} {bs : List Byte} {poison : Bool} (hs : s₀.Keeps s) :
    s₀.Keeps (s.stage cl cid tid post row bs poison) := by
  unfold State.stage
  split
  · exact hs
  · split
    · refine Keeps.ite (Keeps.updCmd (Keeps.updTable ?_)) (Keeps.updTable ?_)
      · split
        · exact hs.pwrite.setSum.draw.twrite
        · exact hs.pwrite.setSum
      · split
        · exact hs.pwrite.setSum.draw.twrite
        · exact hs.pwrite.setSum

theorem Keeps.readRows {cl : Client} {c : Cmd} {u : UpdW} (hs : s₀.Keeps s) : s₀.Keeps (s.readRows cl c u) := by
  unfold State.readRows
  split
  · exact hs
  · exact hs.fetchMore

theorem Keeps.readBuckets {cl : Client} {c : Cmd} {u : UpdW} (hs : s₀.Keeps s) : s₀.Keeps (s.readBuckets cl c u) := by
  unfold State.readBuckets
  split
  · exact hs
  · exact hs.draw.fetchMore

theorem Keeps.writeRow {cl : Client} {c : Cmd} {u : UpdW} {row : Nat} (hs : s₀.Keeps s) : s₀.Keeps (s.writeRow cl c u row) := by
  unfold State.writeRow
  split
  · exact hs
  · refine Keeps.ite ?_ hs.stage
    split
    · refine Keeps.stage ?_
      split
      · exact hs.postFor.updCmd
      · exact hs

theorem Keeps.writeRows {cl : Client} {c : Cmd} {u : UpdW} (hs : s₀.Keeps s) : s₀.Keeps (s.writeRows cl c u) :=
  Keeps.ite (Keeps.updTable (Keeps.foldl (fun _ _ ht => ht.writeRow) hs)) (Keeps.finish (Keeps.updTable
      (Keeps.foldl (fun _ _ ht1 => ht1.writeRow) hs)))

theorem Keeps.updReads {cl : Client} {c : Cmd} {u : UpdW} (hs : s₀.Keeps s) : s₀.Keeps (s.updReads cl c u) :=
  Keeps.ite hs.readBuckets (Keeps.ite hs.readRows hs)

theorem Keeps.applyUpdate {cl : Client} (hs : s₀.Keeps s) : s₀.Keeps (s.applyUpdate cl) := by
  have hgo : ∀ (u : UpdW) {t : State}, s₀.Keeps t → s₀.Keeps (match t.cmd cl with
      | some c => if c.allBack then t.updReads cl c u else t
      | none => t) := fun u t ht => by
    split
    · exact Keeps.ite ht.updReads ht
    · exact ht
  unfold State.applyUpdate
  split
  · exact hs
  · split
    · refine Keeps.ite ?_ hs
      dsimp only
      split
      · exact Keeps.ite (hgo _ (hgo _ hs)).writeRows (hgo _ (hgo _ hs))
      · exact hgo _ (hgo _ hs)
    · exact hs

theorem Keeps.applyUpdates {tid k : Nat} (hs : s₀.Keeps s) : s₀.Keeps (s.applyUpdates tid k) := by
  induction k generalizing s with
  | zero => exact hs
  | succ k ih =>
    unfold State.applyUpdates
    split
    · exact hs
    · exact Keeps.ite (ih hs.applyUpdate) hs.applyUpdate

theorem Keeps.updAccept {cl : Client} {c : Cmd} (hs : s₀.Keeps s) : s₀.Keeps (s.updAccept cl c) := by
  unfold State.updAccept
  split
  · exact hs.finish
  · exact Keeps.ite hs (hs.checked (fun _ => (hs.pinAll.updTable.updCmd.fetchThen (fun ht1 => ht1.applyUpdates))))

theorem Keeps.doUpdate {cl : Client} {c : Cmd} (hs : s₀.Keeps s) : s₀.Keeps (s.doUpdate cl c) :=
  Keeps.ite (hs.checked (fun _ => (hs.touchRanges.updCmd.fetchThen (fun ht1 => (ht1.withOperands (fun ht2 => ht2.updAccept)))))) (Keeps.ite
      (hs.withOperands (fun ht3 => ht3.updAccept)) hs.applyUpdates)

theorem Keeps.closeS {cl : Client} {tid : Nat} {nb : Option (Nat × Nat)} {discard : Bool}
    (hs : s₀.Keeps s) : s₀.Keeps (s.closeS cl tid nb discard) := by
  unfold State.closeS
  split
  · exact hs
  · exact hs.updTable.updCmd

theorem Keeps.doSwitch {cl : Client} {c : Cmd} (hs : s₀.Keeps s) : s₀.Keeps (s.doSwitch cl c) := hs.checked (fun _ => hs.closeS.settleTable)
theorem Keeps.doNewBase {cl : Client} {c : Cmd} (hs : s₀.Keeps s) : s₀.Keeps (s.doNewBase cl c) :=
  hs.checked (fun _ => hs.touchRanges.updTable.closeS)
theorem Keeps.doRetire {cl : Client} {c : Cmd} (hs : s₀.Keeps s) : s₀.Keeps (s.doRetire cl c) :=
  hs.checked (fun _ => (Keeps.settleTable (Keeps.ite hs.updCmd.updTable.frame hs.updCmd)))
theorem Keeps.doCompact {cl : Client} {c : Cmd} (hs : s₀.Keeps s) : s₀.Keeps (s.doCompact cl c) :=
  Keeps.ite hs (hs.checked (fun _ => hs.touchRanges.updTable.pinAll.updCmd.draw.fetchItems))

theorem Keeps.copyRow {cl : Client} {c : Cmd} {tid vc nb row : Nat} (hs : s₀.Keeps s) : s₀.Keeps (s.copyRow cl c tid vc nb row) := by
  unfold State.copyRow
  split
  · exact hs
  · exact Keeps.ite hs.pwrite.updCmd hs.pwrite

theorem Keeps.copyInstall {cl : Client} (hs : s₀.Keeps s) : s₀.Keeps (s.copyInstall cl) := by
  unfold State.copyInstall
  split
  · exact hs
  · split
    · split
      · exact hs
      · exact Keeps.ite (Keeps.ite (Keeps.finish (Keeps.updTable (Keeps.foldl (fun _ _ ht => ht.copyRow) hs))) (Keeps.updCmd (Keeps.closeS
          (Keeps.foldl (fun _ _ ht1 => ht1.copyRow) hs)))) hs
    · exact hs

theorem Keeps.rebaseNow {tid : Nat} (hs : s₀.Keeps s) : s₀.Keeps (s.rebaseNow tid) := hs.releaseEntries.updTable
theorem Keeps.rebaseEnd {tid : Nat} (hs : s₀.Keeps s) : s₀.Keeps (s.rebaseEnd tid) := hs.updTable
theorem Keeps.doRebase {cl : Client} {c : Cmd} (hs : s₀.Keeps s) : s₀.Keeps (s.doRebase cl c) :=
  Keeps.ite (hs.checked (fun _ => hs.updTable.updCmd)) (Keeps.ite hs.rebaseNow.updCmd hs.rebaseEnd.finish)
theorem Keeps.summaryRebuild {stn : Nat} (hs : s₀.Keeps s) : s₀.Keeps (s.summaryRebuild stn) := Keeps.ite hs.frame hs

/-! ### Streams (06) -/

theorem Keeps.updStream {sid : Nat} {f : Stream → Stream} (hs : s₀.Keeps s) : s₀.Keeps (s.updStream sid f) := hs.frame

theorem Keeps.openStream {cl : Client} {c : Cmd} (hs : s₀.Keeps s) : s₀.Keeps (s.openStream cl c) := by
  unfold State.openStream
  refine hs.checked (fun _ => ?_)
  split
  · exact hs
  · exact hs.touchRanges.frame.finish

theorem Keeps.doStreamOpen {cl : Client} {c : Cmd} (hs : s₀.Keeps s) : s₀.Keeps (s.doStreamOpen cl c) :=
  Keeps.ite (hs.checked (fun _ => (hs.touchRanges.updCmd.fetchThen (fun ht1 => (ht1.withOperands (fun ht2 => ht2.openStream))))))
      (hs.withOperands (fun ht3 => ht3.openStream))

theorem Keeps.popOrder {sid : Nat} {cl : Client} (hs : s₀.Keeps s) : s₀.Keeps (s.popOrder sid cl) := hs.updStream
theorem Keeps.joinOrder {sid : Nat} {cl : Client} (hs : s₀.Keeps s) : s₀.Keeps (s.joinOrder sid cl) := hs.updStream

theorem Keeps.commitAppend {cl : Client} {c : Cmd} {sid skip n : Nat} (hs : s₀.Keeps s) : s₀.Keeps (s.commitAppend cl c sid skip n) := by
  unfold State.commitAppend
  split
  · exact hs.finish
  · refine Keeps.finish (Keeps.updCmd (Keeps.popOrder (Keeps.updStream ?_)))
    split
    · exact Keeps.postFor (Keeps.foldl (fun _ _ ht1 => ht1.pwrite) (Keeps.foldl (fun _ _ ht => ht.pwrite) hs))
    · exact Keeps.foldl (fun _ _ ht3 => ht3.pwrite) (Keeps.foldl (fun _ _ ht2 => ht2.pwrite) hs)

theorem Keeps.applyTrim {cl : Client} {sid keep : Nat} (hs : s₀.Keeps s) : s₀.Keeps (s.applyTrim cl sid keep) := by
  unfold State.applyTrim
  split
  · exact hs.finish
  · exact hs.updStream.popOrder.finish

theorem Keeps.gatherAccept {cl : Client} {c : Cmd} (hs : s₀.Keeps s) : s₀.Keeps (s.gatherAccept cl c) :=
  Keeps.ite hs (hs.checked (fun _ => (Keeps.foldl (fun _ _ ht1 => ht1.joinOrder) (Keeps.updCmd (Keeps.ite hs.touchRanges hs.touchRanges.pinAll)))))

theorem Keeps.gatherMeta {cl : Client} {cid : Nat} {c : Cmd} {seqs : List Seq} {elem : Stream → Nat → List Byte} (hs : s₀.Keeps s) :
    s₀.Keeps (s.gatherMeta cl cid c seqs elem) :=
  Keeps.ite (Keeps.ite (Keeps.ite hs hs.pwrite) (Keeps.pwrite (Keeps.ite hs hs.pwrite))) (Keeps.pwrite (Keeps.ite (Keeps.ite hs hs.pwrite)
      (Keeps.pwrite (Keeps.ite hs hs.pwrite))))

theorem Keeps.gatherServe {cl : Client} {c : Cmd} {sids : List Nat} (hs : s₀.Keeps s) : s₀.Keeps (s.gatherServe cl c sids) := by
  unfold State.gatherServe
  extract_lets _ _ _ _ _ _ _ _ _ s₁ _ s₃ _ run
  have h₁ : s₀.Keeps s₁ := by
    simp only [s₁]
    split
    · exact hs.postFor
    · exact hs
  have h₃ : s₀.Keeps s₃ := Keeps.foldl (fun _ _ ht => ht.popOrder) h₁.gatherMeta
  have hrun : ∀ {t w}, s₀.Keeps t → s₀.Keeps (run t w) := fun ht => ht.updCmd.nextBlock
  split
  · exact hs
  · extract_lets _ _ _ _ s₄
    split
    · have h₄ : s₀.Keeps s₄ := by
        simp only [s₄]
        split
        · exact Keeps.foldl (fun _ _ ht => ht.pwrite) h₃
        · exact h₃
      exact hrun (Keeps.updCmd (Keeps.putFlags h₄))
    · split
      · exact hrun h₃
      · exact h₃.finish

theorem Keeps.pinLate (hs : s₀.Keeps s) : s₀.Keeps s.pinLate := by
  unfold State.pinLate
  refine Keeps.foldl (fun _ _ ht => ?_) hs
  split
  · split
    · exact Keeps.ite ht.pinAll ht
    · exact ht
  · exact ht

theorem Keeps.streamStep {sid : Nat} (hs : s₀.Keeps s) : s₀.KeepsAll (s.streamStep sid) := by
  unfold State.streamStep
  split
  · exact .none _
  · split
    · exact .none _
    · split
      · exact .some hs.popOrder
      · refine .ite (.none _) ?_
        split
        · exact .ite (.some hs.commitAppend) (.none _)
        · exact .ite (.some hs.applyTrim) (.none _)
        · exact .ite (.ite (.some hs.gatherServe) (.none _)) (.ite (.some hs.updCmd.fetchItems) (.none _))
        · exact .none _

theorem Keeps.runStreams {k : Nat} (hs : s₀.Keeps s) : s₀.Keeps (s.runStreams k) := by
  induction k generalizing s with
  | zero => exact hs
  | succ k ih =>
    unfold State.runStreams
    split
    · rename_i t ht
      obtain ⟨e, -, he⟩ := List.exists_of_findSome?_eq_some ht
      exact ih (hs.streamStep t he)
    · exact hs

theorem Keeps.settleStreams (hs : s₀.Keeps s) : s₀.Keeps s.settleStreams := hs.runStreams

theorem Keeps.doGather {cl : Client} {c : Cmd} (hs : s₀.Keeps s) : s₀.Keeps (s.doGather cl c) :=
  Keeps.ite (hs.checked (fun _ => (hs.touchRanges.updCmd.fetchThen (fun ht1 => (ht1.withOperands (fun ht2 => ht2.gatherAccept.settleStreams))))))
      (Keeps.ite (hs.withOperands (fun ht3 => ht3.gatherAccept.settleStreams)) hs.settleStreams)

theorem Keeps.doAppend {cl : Client} {c : Cmd} (hs : s₀.Keeps s) : s₀.Keeps (s.doAppend cl c) := by
  unfold State.doAppend
  refine Keeps.ite hs.settleStreams (hs.checked (fun _ => ?_))
  split
  · exact hs.touchRanges.updCmd.joinOrder.fetchItems.settleStreams

theorem Keeps.settleCloses (hs : s₀.Keeps s) : s₀.Keeps s.settleCloses := by
  unfold State.settleCloses
  refine Keeps.foldl (fun _ _ ht => ?_) hs
  split
  · exact Keeps.ite ht ht.frame.finish
  · exact ht

theorem Keeps.doClose {cl : Client} {c : Cmd} (hs : s₀.Keeps s) : s₀.Keeps (s.doClose cl c) :=
  Keeps.ite hs.settleStreams.settleCloses (hs.checked (fun _ => (Keeps.ite hs.updCmd.joinOrder.settleStreams hs.updStream.updCmd.settleCloses)))

/-! ### Scans (07) -/

theorem Keeps.updScan {cl : Client} {f : ScanW → ScanW} (hs : s₀.Keeps s) : s₀.Keeps (s.updScan cl f) := hs.updCmd
theorem Keeps.updPart {cl : Client} {stn : Nat} {f : ScanS → ScanS} (hs : s₀.Keeps s) : s₀.Keeps (s.updPart cl stn f) := hs.updScan

theorem Keeps.lutWrite {cl : Client} {c : Cmd} (hs : s₀.Keeps s) : s₀.Keeps (s.lutWrite cl c) :=
  Keeps.ite (Keeps.ite (Keeps.updCmd (Keeps.foldl (fun _ _ ht => ht.pwrite) hs.draw)) (Keeps.finish (Keeps.updCmd
      (Keeps.foldl (fun _ _ ht1 => ht1.pwrite) hs.draw)))) (Keeps.ite (Keeps.finish (Keeps.updCmd
      (Keeps.foldl (fun _ _ ht2 => ht2.pwrite) hs.draw))) hs.pwrite.finish)

theorem Keeps.lutStart {cl : Client} {c : Cmd} (hs : s₀.Keeps s) : s₀.Keeps (s.lutStart cl c) :=
  Keeps.ite (hs.updPart.fetchThen (fun ht => ht.lutWrite)) hs
theorem Keeps.doLutBuild {cl : Client} {c : Cmd} (hs : s₀.Keeps s) : s₀.Keeps (s.doLutBuild cl c) :=
  Keeps.ite (hs.checked (fun _ => hs.touchRanges.updCmd.lutStart)) (Keeps.ite hs.lutStart hs.lutWrite)
theorem Keeps.skipList {cl : Client} {i : Nat} {r : FaultRec} (hs : s₀.Keeps s) : s₀.Keeps (s.skipList cl i r) := hs.postFor.updScan

theorem Keeps.scanRead {cl : Client} {c : Cmd} {stn : Nat} {its : List Item} {f : ScanS → ScanS} (hs : s₀.Keeps s) :
    s₀.Keeps (s.scanRead cl c stn its f) :=
  hs.updPart.fetchMore

theorem Keeps.sendList {cl : Client} {c : Cmd} {x : ScanS} {i : Nat} (hs : s₀.Keeps s) : s₀.Keeps (s.sendList cl c x i) := by
  unfold State.sendList
  dsimp only
  split
  · exact hs.stop
  · exact hs.updPart.skipList
  · exact hs.touchRanges.updPart.updCmd

theorem Keeps.segDone {cl : Client} {c : Cmd} {x : ScanS} {b : Nat × Nat} {i v : Nat} (hs : s₀.Keeps s) : s₀.Keeps (s.segDone cl c x b i v) :=
  Keeps.ite hs.updCmd.updPart (Keeps.ite hs.updCmd.updPart hs.updCmd.countBy.updPart)
theorem Keeps.sendFinal {cl : Client} {c : Cmd} {x : ScanS} (hs : s₀.Keeps s) : s₀.Keeps (s.sendFinal cl c x) := hs.updPart

theorem Keeps.scanStep {cl : Client} {c : Cmd} {x : ScanS} (hs : s₀.Keeps s) : s₀.KeepsAll (s.scanStep cl c x) := by
  unfold State.scanStep
  refine .ite (.none _) (.ite (.ite (.some hs.updPart) (.none _)) ?_)
  split
  · exact .ite (.none _) (.some hs.segDone)
  · exact .ite (.none _) (.some hs.sendFinal)
  · exact .ite (.some hs.updPart) (.ite (.some hs.scanRead) (.none _))
  · exact .some hs.sendList
  · exact .some hs.scanRead

theorem Keeps.scanStn {cl : Client} {stn k : Nat} (hs : s₀.Keeps s) : s₀.Keeps (s.scanStn cl stn k) := by
  induction k generalizing s with
  | zero => exact hs
  | succ k ih =>
    unfold State.scanStn
    split
    · exact hs
    · split
      · exact hs
      · split
        · exact hs
        · rename_i t ht
          exact Keeps.ite (hs.scanStep t ht) (ih (hs.scanStep t ht))

theorem Keeps.scanFinish {cl : Client} {c : Cmd} (hs : s₀.Keeps s) : s₀.Keeps (s.scanFinish cl c) :=
  Keeps.finish (Keeps.updCmd (Keeps.pwrite (Keeps.pwrite (Keeps.foldl (fun _ _ ht => ht.pwrite) hs))))

theorem Keeps.scanGo {cl : Client} {c : Cmd} (hs : s₀.Keeps s) : s₀.Keeps (s.scanGo cl c) := by
  unfold State.scanGo
  refine Keeps.ite hs ?_
  dsimp only
  split
  · exact Keeps.ite (Keeps.scanFinish (Keeps.foldl (fun _ _ ht => ht.scanStn) hs)) (Keeps.foldl (fun _ _ ht1 => ht1.scanStn) hs)
  · exact Keeps.foldl (fun _ _ ht2 => ht2.scanStn) hs

theorem Keeps.scanSend {cl : Client} {c : Cmd} (hs : s₀.Keeps s) : s₀.Keeps (s.scanSend cl c) := hs.updCmd.scanGo
theorem Keeps.scanPlan {cl : Client} {c : Cmd} (hs : s₀.Keeps s) : s₀.Keeps (s.scanPlan cl c) :=
  hs.checked (fun _ => (hs.updCmd.fetchThen (fun ht1 => (ht1.withOperands (fun ht2 => ht2.scanSend)))))

theorem Keeps.doScan {cl : Client} {c : Cmd} (hs : s₀.Keeps s) : s₀.Keeps (s.doScan cl c) := by
  unfold State.doScan
  dsimp only
  split
  · exact hs.checked (fun _ => (hs.touchRanges.updCmd.fetchThen (fun ht1 => (ht1.withOperands (fun ht2 => ht2.scanPlan)))))
  · exact hs.withOperands (fun ht3 => ht3.scanPlan)
  · exact hs.withOperands (fun ht4 => ht4.scanSend)
  · exact Keeps.ite (Keeps.ite hs hs.finish) hs.scanGo
  · exact hs

theorem Keeps.settleScans (hs : s₀.Keeps s) : s₀.Keeps s.settleScans := by
  unfold State.settleScans
  refine Keeps.foldl (fun _ _ ht => ?_) hs
  split
  · exact Keeps.ite ht (Keeps.ite ht.scanGo (Keeps.ite ht.lutStart ht))
  · exact ht

/-! ### Engine ports and dispatches (08, 12) -/

theorem Keeps.updEp {ep : Nat} {f : Ep → Ep} (hs : s₀.Keeps s) : s₀.Keeps (s.updEp ep f) := hs.frame
theorem Keeps.beat {ep type xid : Nat} {data : List Byte} {poison last : Bool} (hs : s₀.Keeps s) : s₀.Keeps (s.beat ep type xid data poison last) :=
  hs.updEp.emit
theorem Keeps.updDisp {cl : Client} {f : DispW → DispW} (hs : s₀.Keeps s) : s₀.Keeps (s.updDisp cl f) := hs.updCmd
theorem Keeps.protErr {ep : Nat} (hs : s₀.Keeps s) : s₀.Keeps (s.protErr ep) := hs.elog.ask

theorem Keeps.dispEnd {cl : Client} (hs : s₀.Keeps s) : s₀.Keeps (s.dispEnd cl) := by
  unfold State.dispEnd
  split
  · split
    · exact Keeps.ite hs.updCmd.finish hs
    · exact hs
  · exact hs

theorem Keeps.readAhead {ep xid : Nat} (hs : s₀.Keeps s) : s₀.Keeps (s.readAhead ep xid) := by
  unfold State.readAhead
  split
  · exact hs
  · split
    · exact hs
    · refine Keeps.ite hs ?_
      split
      · exact hs
      · exact Keeps.foldl (fun _ _ ht => ht.issue) hs.updEp

theorem Keeps.inputBack {ep xid off : Nat} {r : Req} {bad : List (Nat × Nat)} (hs : s₀.Keeps s) : s₀.Keeps (s.inputBack ep xid off r bad) := hs.updEp

theorem Keeps.grantUp {ep : Nat} (hs : s₀.Keeps s) : s₀.Keeps (s.grantUp ep) := by
  unfold State.grantUp
  split
  · exact hs
  · exact Keeps.foldl (fun _ _ ht => (Keeps.ite ht ht.updEp.emit)) hs

theorem Keeps.startResult {ep : Nat} {cl : Client} {c : Cmd} {w : LookW} (hs : s₀.Keeps s) : s₀.Keeps (s.startResult ep cl c w) := by
  unfold State.startResult
  split
  · exact hs
  · exact hs.beat.updLook.updEp

theorem Keeps.startDisp {ep : Nat} {cl : Client} {c : Cmd} {w : DispW} (hs : s₀.Keeps s) : s₀.Keeps (s.startDisp ep cl c w) := by
  unfold State.startDisp
  split
  · exact hs
  · exact Keeps.updCmd (Keeps.updDisp (Keeps.foldl (fun _ _ ht => ht.postFor) hs.beat.updEp))

theorem Keeps.contDisp {ep : Nat} {cl : Client} {c : Cmd} {w : DispW} (hs : s₀.Keeps s) : s₀.KeepsAll (s.contDisp ep cl c w) := by
  unfold State.contDisp
  dsimp only
  split
  · exact .some hs.beat.updEp.updDisp.dispEnd
  · split
    · exact .none _
    · exact .some (Keeps.ite hs.beat.updDisp.updEp.grantUp hs.beat.updDisp.updEp.readAhead)

theorem Keeps.nextBeat {ep : Nat} {e : Ep} (hs : s₀.Keeps s) : s₀.KeepsAll (s.nextBeat ep e) := by
  unfold State.nextBeat
  split
  · split
    · exact .ite (.some hs.beat.updEp.lookEnd) (.some hs.beat.updEp)
    · exact .some hs.updEp.lookEnd
  · split
    · dsimp only
      split
      · exact .none _
      · split
        · exact .none _
        · exact .some (Keeps.updEp (Keeps.ite hs.readAhead.beat.updDisp hs.readAhead.beat))
    · exact .none _

theorem Keeps.choose {ep : Nat} {e : Ep} (hs : s₀.Keeps s) : s₀.KeepsAll (s.choose ep e) := by
  unfold State.choose
  dsimp only
  split
  · exact .none _
  · split
    · exact .some hs.startResult
    · refine .ite ?_ (.some hs.startDisp)
      split
      · rename_i t ht
        exact .some (hs.contDisp t ht)
      · split
        · split
          · exact .some hs.startResult
          · exact .none _
        · exact .none _
    · exact .none _

theorem Keeps.freeOuts {ep : Nat} (hs : s₀.Keeps s) : s₀.Keeps (s.freeOuts ep) := by
  unfold State.freeOuts
  split
  · exact hs
  · exact Keeps.ite hs (Keeps.foldl (fun _ _ ht => ht.dispEnd) hs.updEp)

theorem Keeps.pump {ep k : Nat} (hs : s₀.Keeps s) : s₀.Keeps (s.pump ep k) := by
  induction k generalizing s with
  | zero => exact hs
  | succ k ih =>
    unfold State.pump
    split
    · exact hs
    · rename_i e he
      refine Keeps.ite hs ?_
      have hnext : s₀.KeepsAll (if e.sending then s.nextBeat ep e else match e.ends with
          | b :: bs => some ((s.beat ep 3 0 b false false).updEp ep (fun e => { e with ends := bs }))
          | [] => s.choose ep e) := by
        refine .ite hs.nextBeat ?_
        split
        · exact .some hs.beat.updEp
        · exact hs.choose
      split
      · rename_i t ht
        exact ih (hnext t ht)
      · exact hs

theorem Keeps.pumpAll (hs : s₀.Keeps s) : s₀.Keeps s.pumpAll := Keeps.foldl (fun _ _ ht => ht.freeOuts.pump) hs
theorem Keeps.epReturn {ep : Nat} (hs : s₀.Keeps s) : s₀.Keeps (s.epReturn ep) := hs.updEp

theorem Keeps.franking {ep n : Nat} (hs : s₀.Keeps s) : s₀.Keeps (s.franking ep n) := by
  unfold State.franking
  split
  · exact hs
  · exact Keeps.ite hs (Keeps.ite hs.protErr hs.updEp.epReturn.pump)

theorem Keeps.upBeat {ep xid : Nat} {data : List Byte} {poison : Bool} (hs : s₀.Keeps s) : s₀.Keeps (s.upBeat ep xid data poison) := by
  unfold State.upBeat
  split
  · exact hs
  · refine Keeps.ite hs ?_
    split
    · refine Keeps.ite hs.protErr ?_
      split
      · exact hs
      · exact Keeps.pump (Keeps.grantUp (Keeps.freeOuts (Keeps.updEp (Keeps.ite hs.pwrite.updCmd hs.pwrite))))
    · exact Keeps.ite hs hs.protErr

theorem Keeps.doneResp {ep did stat res : Nat} (hs : s₀.Keeps s) : s₀.Keeps (s.doneResp ep did stat res) := by
  unfold State.doneResp
  split
  · exact hs
  · refine Keeps.ite hs ?_
    split
    · exact hs.protErr
    · exact Keeps.ite hs.updEp.updDisp.dispEnd.pump hs.protErr

theorem Keeps.engRdy {ep : Nat} {up : Bool} (hs : s₀.Keeps s) : s₀.Keeps (s.engRdy ep up) := by
  unfold State.engRdy
  split
  · exact hs
  · exact Keeps.ite hs.updEp.epReturn.pump (Keeps.ite hs.updEp.ask hs.updEp)

theorem Keeps.dropInputs {ep : Nat} (hs : s₀.Keeps s) : s₀.Keeps (s.dropInputs ep) := hs.dropReqs

theorem Keeps.engineStepAt {ep : Nat} (hs : s₀.Keeps s) : s₀.Keeps (s.engineStepAt ep) := by
  unfold State.engineStepAt
  split
  · exact hs
  · refine Keeps.foldl (fun _ _ ht => ?_) hs.dropInputs.updEp.emits
    split
    · exact Keeps.ite ht ht.updCmd.finish
    · exact ht

theorem Keeps.qack {ep : Nat} (hs : s₀.Keeps s) : s₀.Keeps (s.qack ep) := by
  unfold State.qack
  dsimp only
  split
  · exact Keeps.ite hs (Keeps.ite hs.updEp.frame.emits hs.updEp.emits)
  · exact hs

theorem Keeps.touchChain {cl : Client} {c : Cmd} (hs : s₀.Keeps s) : s₀.Keeps (s.touchChain cl c) := hs.touchRanges
theorem Keeps.dispAccept {cl : Client} {w : DispW} (hs : s₀.Keeps s) : s₀.Keeps (s.dispAccept cl w) := hs.count.updCmd.pump
theorem Keeps.dispPlan {cl : Client} {c : Cmd} (hs : s₀.Keeps s) : s₀.Keeps (s.dispPlan cl c) := hs.checked (fun _ => hs.touchChain.dispAccept)

theorem Keeps.doDispatch {cl : Client} {c : Cmd} (hs : s₀.Keeps s) : s₀.Keeps (s.doDispatch cl c) := by
  unfold State.doDispatch
  refine Keeps.ite (hs.withOperands (fun ht => ht.dispPlan)) (hs.checked (fun _ => ?_))
  split
  · exact hs.dispAccept
  · exact Keeps.ite (Keeps.ite (hs.updCmd.withOperands (fun ht2 => ht2.dispPlan)) hs.updCmd) (hs.checked (fun _ =>
      (hs.touchRanges.updCmd.fetchThen (fun ht4 => (ht4.withOperands (fun ht5 => ht5.dispPlan))))))

theorem Keeps.preRead {cl : Client} {c : Cmd} (hs : s₀.Keeps s) : s₀.Keeps (s.preRead cl c) := by
  unfold State.preRead
  dsimp only
  split
  · exact Keeps.foldl (fun _ _ ht => ht.issue) hs.touchRanges.updCmd
  · exact hs.miss
  · exact hs.updCmd

theorem Keeps.preMap {cl : Client} {c : Cmd} (hs : s₀.Keeps s) : s₀.Keeps (s.preMap cl c) := by
  unfold State.preMap
  refine Keeps.ite hs.updCmd ?_
  split
  · exact hs.touchChain.updCmd.dropNotes
  · exact hs.miss
  · exact hs.updCmd

theorem Keeps.settleChains (hs : s₀.Keeps s) : s₀.Keeps s.settleChains := by
  have hgo : ∀ (read : Bool) (t : State) (cl : Client), s₀.Keeps t → s₀.Keeps (match t.cmd cl with
      | some c => if read ∧ c.ranges = [] then t.preRead cl c else if !read && c.ranges != [] && c.allBack then t.preMap cl c else t
      | none => t) := fun read t cl ht => by
    split
    · exact Keeps.ite ht.preRead (Keeps.ite ht.preMap ht)
    · exact ht
  exact Keeps.foldl (hgo false) (Keeps.foldl (hgo true) hs)

/-! ### Copies (09) -/

theorem Keeps.copySector {cl : Client} {c : Cmd} {k : Nat} (hs : s₀.Keeps s) : s₀.Keeps (s.copySector cl c k) := Keeps.ite hs.pwrite.updCmd hs.pwrite

theorem Keeps.copyMove {cl : Client} {c : Cmd} (hs : s₀.Keeps s) : s₀.Keeps (s.copyMove cl c) := by
  unfold State.copyMove
  dsimp only
  split
  · exact Keeps.finish (Keeps.foldl (fun _ _ ht => ht.copySector) hs)
  · exact Keeps.finish (Keeps.updCmd (Keeps.foldl (fun _ _ ht1 => ht1.copySector) hs.draw))

theorem Keeps.doCopy {cl : Client} {c : Cmd} (hs : s₀.Keeps s) : s₀.Keeps (s.doCopy cl c) :=
  Keeps.ite (hs.checked (fun _ => (hs.touchRanges.updCmd.fetchThen (fun ht1 => ht1.copyMove)))) hs.copyMove

/-! ### Census (09) -/

theorem Keeps.doCensus {cl : Client} {c : Cmd} (hs : s₀.Keeps s) : s₀.Keeps (s.doCensus cl c) := by
  unfold State.doCensus
  refine hs.checked (fun _ => ?_)
  split
  · exact hs.touchRanges.draw.draw.pwrite.updCmd.finish

/-! ### Programs (04) -/

theorem Keeps.freeProgs (hs : s₀.Keeps s) : s₀.Keeps s.freeProgs := hs.frame

theorem Keeps.progLoad {cl : Client} {c : Cmd} (hs : s₀.Keeps s) : s₀.Keeps (s.progLoad cl c) := by
  unfold State.progLoad
  refine Keeps.ite hs.finish ?_
  split
  · exact hs.finish
  · dsimp only
    split
    · exact Keeps.ite hs.frame.finish hs.finish
    · exact hs.finish

theorem Keeps.doProgLoad {cl : Client} {c : Cmd} (hs : s₀.Keeps s) : s₀.Keeps (s.doProgLoad cl c) :=
  Keeps.ite (hs.checked (fun _ => (hs.touchRanges.updCmd.fetchThen (fun ht1 => (ht1.withOperands (fun ht2 => ht2.progLoad))))))
      (hs.withOperands (fun ht3 => ht3.progLoad))

theorem Keeps.doProgUnload {cl : Client} {c : Cmd} (hs : s₀.Keeps s) : s₀.Keeps (s.doProgUnload cl c) :=
  hs.checked (fun _ => hs.frame.freeProgs.finish)

/-! ### Administrative commands (09) -/

theorem Keeps.admBlock {cl : Client} {c : Cmd} {pre : Chk Unit} {a n : Nat} {k : Client → Cmd → State → State}
    (hs : s₀.Keeps s) (hf : ∀ {y0 y1 t}, s₀.Keeps t → s₀.Keeps (k y0 y1 t)) : s₀.Keeps (s.admBlock cl c pre a n k) :=
  Keeps.ite (hs.checked (fun _ => (hs.updCmd.fetchThen (fun ht1 => (ht1.withOperands (fun ht2 => (hf ht2)))))))
      (hs.withOperands (fun ht3 => (hf ht3)))

theorem Keeps.waitFor {cl : Client} {w : Work} (hs : s₀.Keeps s) : s₀.Keeps (s.waitFor cl w) := hs.updCmd

theorem Keeps.doCtxCreate {cl : Client} {c : Cmd} (hs : s₀.Keeps s) : s₀.Keeps (s.doCtxCreate cl c) := by
  unfold State.doCtxCreate
  refine hs.checked (fun _ => ?_)
  split
  · exact hs.frame.pushIso.finish
  · exact hs.finish

theorem Keeps.doQueueCreate {cl : Client} {c : Cmd} (hs : s₀.Keeps s) : s₀.Keeps (s.doQueueCreate cl c) := by
  unfold State.doQueueCreate
  refine hs.checked (fun _ => ?_)
  dsimp only
  split
  · exact hs.touchRanges.frame.finish
  · exact hs.touchRanges.finish

theorem Keeps.drainQueue {qid : Nat} (hs : s₀.Keeps s) : s₀.Keeps (s.drainQueue qid) := hs.updQ.endFetch
theorem Keeps.doQueueDestroy {cl : Client} {c : Cmd} (hs : s₀.Keeps s) : s₀.Keeps (s.doQueueDestroy cl c) :=
  hs.checked (fun _ => hs.drainQueue.waitFor)

theorem Keeps.relist {cl : Client} {w : InvW} {t : State} (hs : s₀.Keeps s) (ht : s.relist cl w = .ok t) : s₀.Keeps t := by
  unfold State.relist at ht
  simp only [bind, Except.bind, pure, Except.pure] at ht
  split at ht
  · cases ht
  · split at ht
    · cases ht
    · split at ht
      · cases ht
      · cases ht
        exact Keeps.foldl (fun _ _ ht => ht.postFor) hs.frame

theorem Keeps.invBegin {cl : Client} {cid lo len : Nat} (hs : s₀.Keeps s) : s₀.Keeps (s.invBegin cl cid lo len) := hs.invalCache.updCmd

theorem Keeps.settleInv (hs : s₀.Keeps s) : s₀.Keeps s.settleInv := by
  unfold State.settleInv
  refine Keeps.foldl (fun _ _ ht => ?_) hs
  split
  · exact Keeps.ite (Keeps.ite ht.finish (Keeps.ite ht.finish ht.frame.pushIso.finish)) ht
  · exact ht

theorem Keeps.invGo {cl : Client} {c : Cmd} (hs : s₀.Keeps s) : s₀.Keeps (s.invGo cl c) := by
  unfold State.invGo
  split
  · dsimp only
    unfold State.checked
    split
    · rename_i t ht
      exact (hs.relist ht).updCmd.settleInv
    · exact hs.stop
  · exact hs

theorem Keeps.invalidate {cl : Client} {cid lo len : Nat} (hs : s₀.Keeps s) : s₀.Keeps (s.invalidate cl cid lo len) := by
  unfold State.invalidate
  refine Keeps.ite hs.finish ?_
  dsimp only
  split
  · exact hs.invBegin.invGo
  · exact hs.invBegin

theorem Keeps.segStore {cl : Client} {c : Cmd} (hs : s₀.Keeps s) : s₀.Keeps (s.segStore cl c) := hs.checked (fun _ => hs.frame.invalidate)
theorem Keeps.doSegmentSet {cl : Client} {c : Cmd} (hs : s₀.Keeps s) : s₀.Keeps (s.doSegmentSet cl c) :=
  Keeps.ite (hs.admBlock (fun ht => ht.segStore)) hs.invGo
theorem Keeps.doInvalidate {cl : Client} {c : Cmd} (hs : s₀.Keeps s) : s₀.Keeps (s.doInvalidate cl c) :=
  Keeps.ite (hs.checked (fun _ => hs.invalidate)) hs.invGo

theorem Keeps.extentAck {cl : Client} {isPort : Bool} {id : Nat} (hs : s₀.Keeps s) : s₀.Keeps (s.extentAck cl isPort id) := by
  unfold State.extentAck
  split
  · exact hs
  · exact Keeps.ite (Keeps.ite hs.updCmd.settleInv hs) (Keeps.ite hs.updCmd.settleInv hs)

theorem Keeps.invDropPort {ep : Nat} (hs : s₀.Keeps s) : s₀.Keeps (s.invDropPort ep) := hs.frame.settleInv

theorem Keeps.invTimeout {cl : Client} {ep : Nat} (hs : s₀.Keeps s) : s₀.Keeps (s.invTimeout cl ep) := by
  unfold State.invTimeout
  split
  · exact Keeps.ite hs.ask hs
  · exact hs

theorem Keeps.settleFreed (hs : s₀.Keeps s) : s₀.Keeps s.settleFreed := hs.frame
theorem Keeps.retireTable {tid : Nat} (hs : s₀.Keeps s) : s₀.Keeps (s.retireTable tid) := hs.updTable.frame

theorem Keeps.settleCtxs (hs : s₀.Keeps s) : s₀.Keeps s.settleCtxs := by
  unfold State.settleCtxs
  refine Keeps.foldl (fun _ _ ht => ?_) hs
  split
  · exact Keeps.ite ht.frame.invalidate ht
  · exact ht

theorem Keeps.settleAdmin (hs : s₀.Keeps s) : s₀.Keeps s.settleAdmin := hs.settleFreed.settleCtxs.settleInv

theorem Keeps.endContext {cid : Nat} (hs : s₀.Keeps s) : s₀.Keeps (s.endContext cid) :=
  Keeps.foldl (fun _ _ ht2 => ht2.retireTable) (Keeps.freeFences (Keeps.foldl (fun _ _ ht1 => ht1.destroyFence) (Keeps.frame
      (Keeps.foldl (fun _ _ ht => ht.drainQueue) hs))))

theorem Keeps.doCtxDestroy {cl : Client} {c : Cmd} (hs : s₀.Keeps s) : s₀.Keeps (s.doCtxDestroy cl c) :=
  hs.checked (fun _ => hs.endContext.waitFor.settleAdmin)

theorem Keeps.queueDrained {qid : Nat} (hs : s₀.Keeps s) : s₀.Keeps (s.queueDrained qid) := by
  unfold State.queueDrained
  split
  · exact hs
  · exact Keeps.ite (Keeps.settleSteps (Keeps.settleAdmin (Keeps.foldl (fun _ _ ht => ht.finish) hs.frame.dropNotes))) hs

theorem Keeps.tableStore {cl : Client} {c : Cmd} (hs : s₀.Keeps s) : s₀.Keeps (s.tableStore cl c) := by
  unfold State.tableStore
  refine hs.checked (fun _ => ?_)
  split
  · exact hs.finish
  · exact Keeps.finish (Keeps.foldl (fun _ _ ht1 => ht1.pwrite) hs.frame)

theorem Keeps.doTableCreate {cl : Client} {c : Cmd} (hs : s₀.Keeps s) : s₀.Keeps (s.doTableCreate cl c) := hs.admBlock (fun ht => ht.tableStore)
theorem Keeps.partStore {cl : Client} {c : Cmd} (hs : s₀.Keeps s) : s₀.Keeps (s.partStore cl c) := hs.checked (fun _ => hs.frame.pushIso.finish)
theorem Keeps.doPartCreate {cl : Client} {c : Cmd} (hs : s₀.Keeps s) : s₀.Keeps (s.doPartCreate cl c) := hs.admBlock (fun ht => ht.partStore)

/-! ### Key slots (10) -/

theorem Keeps.updKey {k : Nat} {f : KeySlot → KeySlot} (hs : s₀.Keeps s) : s₀.Keeps (s.updKey k f) := hs.frame

theorem Keeps.keyLoad {cl : Client} {c : Cmd} (hs : s₀.Keeps s) : s₀.Keeps (s.keyLoad cl c) := by
  unfold State.keyLoad
  refine hs.checked (fun _ => ?_)
  split
  · exact hs.finish
  · exact hs.updKey.emits.waitFor

theorem Keeps.doKeyLoad {cl : Client} {c : Cmd} (hs : s₀.Keeps s) : s₀.Keeps (s.doKeyLoad cl c) := hs.admBlock (fun ht => ht.keyLoad)
theorem Keeps.scrubEnd {k : Nat} (hs : s₀.Keeps s) : s₀.Keeps (s.scrubEnd k) := Keeps.foldl (fun _ _ ht => ht.finish) hs.updKey
theorem Keeps.scrubErase {k : Nat} (hs : s₀.Keeps s) : s₀.Keeps (s.scrubErase k) := Keeps.ite hs.updKey.emits.scrubEnd hs.updKey.emits
theorem Keeps.scrubBegin {k : Nat} (hs : s₀.Keeps s) : s₀.Keeps (s.scrubBegin k) := hs.updKey
theorem Keeps.doKeyScrub {cl : Client} {c : Cmd} (hs : s₀.Keeps s) : s₀.Keeps (s.doKeyScrub cl c) := hs.checked (fun _ => hs.scrubBegin.waitFor)
theorem Keeps.keyAck {stn k op : Nat} (hs : s₀.Keeps s) : s₀.Keeps (s.keyAck stn k op) :=
  Keeps.ite hs (Keeps.ite hs.updKey (Keeps.ite hs.updKey.scrubEnd (Keeps.foldl (fun _ _ ht => ht.finish) hs.updKey)))
theorem Keeps.sweepEnd (hs : s₀.Keeps s) : s₀.Keeps s.sweepEnd := hs.frame

theorem Keeps.settleSweep (hs : s₀.Keeps s) : s₀.Keeps s.settleSweep := by
  unfold State.settleSweep
  split
  · exact hs
  · exact Keeps.ite hs.frame.sweepEnd hs.frame

theorem Keeps.markerBack {r : Req} (hs : s₀.Keeps s) : s₀.Keeps (s.markerBack r) := Keeps.ite hs hs.frame.settleSweep
theorem Keeps.sweepStart (hs : s₀.Keeps s) : s₀.Keeps s.sweepStart := Keeps.ite hs (Keeps.settleSweep (Keeps.foldl (fun _ _ ht => ht.issue) hs.frame))

/-! ### NVM, fuses and records (15) -/

theorem Keeps.spiWrite {cmd : List Byte} (hs : s₀.Keeps s) : s₀.Keeps (s.spiWrite cmd) := hs.emits
theorem Keeps.nvmProgram {a : Nat} {bs : List Byte} (hs : s₀.Keeps s) : s₀.Keeps (s.nvmProgram a bs) :=
  Keeps.ite (Keeps.frame (Keeps.foldl (fun _ _ ht => ht.spiWrite) hs)) hs.count
theorem Keeps.nvmErase {a : Nat} (hs : s₀.Keeps s) : s₀.Keeps (s.nvmErase a) := Keeps.ite hs.spiWrite.frame.count hs.count
theorem Keeps.spiQuad {a : Nat} (hs : s₀.Keeps s) : s₀.Keeps (s.spiQuad a) := hs.emit
theorem Keeps.nvmEraseRange {a n : Nat} (hs : s₀.Keeps s) : s₀.Keeps (s.nvmEraseRange a n) := Keeps.foldl (fun _ _ ht => ht.nvmErase) hs

theorem Keeps.fuseSet {w v : Nat} {ok : Bool} (hs : s₀.Keeps s) : s₀.Keeps (s.fuseSet w v ok).1 := by
  unfold State.fuseSet
  split
  · refine ⟨hs.mem, fun i b hb => ?_, hs.tray⟩
    have hi := hs.fuses i b hb
    by_cases h : i = w
    · subst h
      simp only [State.fuse, Tab.atD_put_self, Nat.testBit_lor] at hi ⊢
      simp [hi]
    · simpa [State.fuse, Tab.atD_put_ne _ _ _ h] using hi
  · exact hs

theorem Keeps.slotPut {x : Nat} {r : SlotRec} (hs : s₀.Keeps s) : s₀.Keeps (s.slotPut x r) := by
  unfold State.slotPut
  dsimp only
  split
  · exact hs.nvmProgram
  · split
    · exact hs.nvmErase.nvmProgram.nvmProgram
    · exact hs.nvmErase.nvmProgram

theorem Keeps.logPut {type : Nat} {body : List Byte} (hs : s₀.Keeps s) : s₀.Keeps (s.logPut type body) := hs.nvmProgram.frame
theorem Keeps.foldCounters (hs : s₀.Keeps s) : s₀.Keeps s.foldCounters := Keeps.ite hs.frame hs

theorem Keeps.logRoom {n : Nat} (hs : s₀.Keeps s) : s₀.Keeps (s.logRoom n) :=
  Keeps.ite (Keeps.ite hs hs.frame) (Keeps.ite (Keeps.foldCounters (Keeps.logPut (Keeps.nvmErase (Keeps.ite hs hs.frame)))) (Keeps.nvmErase
      (Keeps.ite hs hs.frame)))

theorem Keeps.logAppend {type : Nat} {body : List Byte} (hs : s₀.Keeps s) : s₀.Keeps (s.logAppend type body) := hs.logRoom.logPut
theorem Keeps.commitCounters (hs : s₀.Keeps s) : s₀.Keeps s.commitCounters := hs.logRoom.logPut.foldCounters.frame
theorem Keeps.logFree {type : Nat} (hs : s₀.Keeps s) : s₀.Keeps (s.logFree type) := hs.draw.logAppend
theorem Keeps.marginSave (hs : s₀.Keeps s) : s₀.Keeps s.marginSave := hs.nvmErase.nvmProgram
theorem Keeps.marginLoad (hs : s₀.Keeps s) : s₀.Keeps s.marginLoad := hs.frame
theorem Keeps.optLoad (hs : s₀.Keeps s) : s₀.Keeps s.optLoad := hs.emits.frame.marginLoad

/-! ### Firmware (15) -/

theorem Keeps.slotWrite {x : Nat} {m : List Byte} (hs : s₀.Keeps s) : s₀.Keeps (s.slotWrite x m).1 := hs.slotPut.nvmEraseRange.nvmProgram

theorem Keeps.stageImage {cl : Client} {c : Cmd} (hs : s₀.Keeps s) : s₀.Keeps (s.stageImage cl c) := by
  unfold State.stageImage
  refine hs.checked (fun _ => ?_)
  split
  · rename_i x0 x1 heq
    have ht1 := Keeps.of_fst heq hs.slotWrite
    exact Keeps.ite ht1.slotPut.raise.finish ht1.raise.finish

theorem Keeps.doFwStage {cl : Client} {c : Cmd} (hs : s₀.Keeps s) : s₀.Keeps (s.doFwStage cl c) := hs.admBlock (fun ht => ht.stageImage)
theorem Keeps.raiseThermo {w n v : Nat} (hs : s₀.Keeps s) : s₀.Keeps (s.raiseThermo w n v) :=
  Keeps.ite hs (Keeps.ite hs.draw.raise (Keeps.foldl (fun _ _ ht => ht.fuseSet) hs.draw))

theorem Keeps.confirm (hs : s₀.Keeps s) : s₀.Keeps s.confirm := by
  unfold State.confirm
  split
  · exact Keeps.ite hs (Keeps.raise (Keeps.frame (Keeps.logFree (Keeps.raiseThermo (Keeps.ite hs.slotPut.raiseThermo hs.slotPut)))))
  · exact hs

theorem Keeps.lifeCommit (hs : s₀.Keeps s) : s₀.Keeps s.lifeCommit := hs.commitCounters.raise
theorem Keeps.activated {v : Nat} (hs : s₀.Keeps s) : s₀.Keeps (s.activated v) := hs.count.lifeCommit.raise
theorem Keeps.doFwActivate {cl : Client} {c : Cmd} (hs : s₀.Keeps s) : s₀.Keeps (s.doFwActivate cl c) :=
  hs.checked (fun _ => (Keeps.finish (Keeps.activated (Keeps.ite hs.confirm (Keeps.ite hs hs.slotPut)))))
theorem Keeps.running {x : Nat} {live : Bool} (hs : s₀.Keeps s) : s₀.Keeps (s.running x live) := hs.spiQuad.frame
theorem Keeps.askCores {ks : List Nat} (hs : s₀.Keeps s) : s₀.Keeps (s.askCores ks) := hs.emits.frame
theorem Keeps.doLive {cl : Client} {c : Cmd} (hs : s₀.Keeps s) : s₀.Keeps (s.doLive cl c) :=
  hs.checked (fun _ => hs.askCores.frame.slotPut.running.frame.count.activated.raise.finish)

theorem Keeps.revertLive (hs : s₀.Keeps s) : s₀.Keeps s.revertLive := by
  unfold State.revertLive
  split
  · exact hs
  · exact hs.askCores.slotPut.running.frame.frame.count.updCmd.raise

theorem Keeps.trialTimer (hs : s₀.Keeps s) : s₀.Keeps s.trialTimer := Keeps.ite hs.confirm hs

theorem Keeps.rejectTrials (hs : s₀.Keeps s) : s₀.Keeps s.rejectTrials := by
  unfold State.rejectTrials
  refine Keeps.foldl (fun _ _ ht => ?_) hs
  split
  · exact Keeps.ite ht.slotPut.count.frame ht
  · exact ht

theorem Keeps.boot (hs : s₀.Keeps s) : s₀.Keeps s.boot.1 := by
  unfold State.boot
  dsimp only
  split
  · exact hs.rejectTrials
  · split
    · exact hs.rejectTrials.slotPut.running
    · split
      · exact hs.rejectTrials.running
      · split
        · exact hs.rejectTrials.running
        · exact hs.rejectTrials

/-! ### The end of requests -/

theorem Keeps.goOn {cl : Client} {c : Cmd} (hs : s₀.Keeps s) : s₀.Keeps (s.goOn cl c) := by
  unfold State.goOn
  split
  · exact hs.doLookup
  · exact hs.doLookup
  · exact hs.doMulti
  · exact hs.doUpdate
  · exact hs.doUpdate
  · exact hs.doStreamOpen
  · exact hs.doAppend
  · exact hs.doGather
  · exact hs.doScan
  · exact hs.doLutBuild
  · exact hs.doDispatch
  · exact hs.doCopy
  · exact hs.doProgLoad
  · exact hs.doTableCreate
  · exact hs.doPartCreate
  · exact hs.doSegmentSet
  · exact hs.doKeyLoad
  · exact hs.doFwStage
  · exact hs

theorem Keeps.cancelled {cl : Client} {c : Cmd} (hs : s₀.Keeps s) : s₀.Keeps (s.cancelled cl c) :=
  Keeps.ite hs (Keeps.ite hs.copyMove (Keeps.ite hs.lutWrite (Keeps.ite hs.settleTables hs.finish)))

theorem Keeps.advance {cl : Client} (hs : s₀.Keeps s) : s₀.Keeps (s.advance cl) := by
  unfold State.advance
  split
  · exact Keeps.ite hs (Keeps.ite hs.cancelled (Keeps.ite hs.goOn hs))
  · exact hs

theorem Keeps.writeBad {r : Req} {bad : List (Nat × Nat)} (hs : s₀.Keeps s) : s₀.Keeps (s.writeBad r bad) :=
  Keeps.ite hs (hs.updMemOf (fun _ => Mem.spoil_wf r.addr r.len)).updCmd

theorem Keeps.consume {r : Req} {bad : List (Nat × Nat)} (hs : s₀.Keeps s) : s₀.Keeps (s.consume r bad) := by
  unfold State.consume
  split
  · exact hs.fetchDone
  · exact hs.itemBack.advance
  · exact hs.rowBack.advance
  · exact hs.dirBack.advance
  · exact hs.spillBack.advance
  · exact Keeps.foldl (fun _ _ ht => ht.settleQueue) hs.walkDone
  · exact hs.inputBack
  · exact hs.markerBack
  · exact hs.writeBad.advance

theorem Keeps.resumeHeld (hs : s₀.Keeps s) : s₀.Keeps s.resumeHeld := by
  unfold State.resumeHeld
  refine Keeps.foldl (fun _ _ ht => ?_) hs.pinLate
  split
  · exact Keeps.ite ht.goOn ht
  · exact ht

theorem Keeps.settleReads (hs : s₀.Keeps s) : s₀.Keeps s.settleReads :=
  Keeps.pumpAll (Keeps.settleSteps (Keeps.settleSweep (Keeps.settleAdmin (Keeps.settleChains (Keeps.settleScans (Keeps.settleStreams
      (Keeps.foldl (fun _ _ ht => ht.applyUpdates) hs.resumeHeld)))))))

theorem Keeps.settleIso (hs : s₀.Keeps s) : s₀.Keeps s.settleIso := Keeps.foldl (fun _ _ ht => ht.consume) hs.frame

theorem Keeps.answer {id : Nat} {bad : Bool} (hs : s₀.Keeps s) : s₀.Keeps (s.answer id bad) := by
  unfold State.answer
  split
  · exact hs.retire.consume.settleIso.settleReads
  · exact hs

theorem Keeps.endReqsBut {p k : Req → Bool} (hs : s₀.Keeps s) : s₀.Keeps (s.endReqsBut p k) :=
  Keeps.settleReads (Keeps.foldl (fun _ _ ht1 => ht1.consume) (Keeps.frame (Keeps.foldl (fun _ _ ht => ht.answer) hs)))
theorem Keeps.endReqs {p : Req → Bool} (hs : s₀.Keeps s) : s₀.Keeps (s.endReqs p) := hs.endReqsBut

theorem Keeps.part {id o n : Nat} {data : List Byte} {bad : List (Nat × Nat)} (hs : s₀.Keeps s) : s₀.Keeps (s.part id o n data bad) := by
  unfold State.part
  split
  · exact Keeps.frame (hs.updMemOf (fun _ => Mem.show_wf _ _))
  · exact hs

theorem Keeps.updStn {n : Nat} {f : Stn → Stn} (hs : s₀.Keeps s) : s₀.Keeps (s.updStn n f) := hs.frame
theorem Keeps.mpRecord {stn : Nat} {r : ERec} (hs : s₀.Keeps s) : s₀.Keeps (s.mpRecord stn r) := hs.elog
theorem Keeps.mpBad {stn : Nat} {r : Req} (hs : s₀.Keeps s) : s₀.Keeps (s.mpBad stn r) := hs.mpRecord.updStn.count.raise

theorem Keeps.mpBeat {id : Nat} {r : Req} {type : Nat} {data : List Byte} {poison : Nat} (hs : s₀.Keeps s) :
    s₀.Keeps (s.mpBeat id r type data poison) :=
  hs.part

theorem Keeps.memResponse {stn lane tag cid key type : Nat} {data : List Byte} {poison : Nat} {last : Bool} (hs : s₀.Keeps s) :
    s₀.Keeps (s.memResponse stn lane tag cid key type data poison last) := by
  unfold State.memResponse
  refine Keeps.ite hs ?_
  split
  · exact Keeps.ite (Keeps.ite (Keeps.answer (Keeps.ite hs.mpBeat.mpBad hs.mpBeat)) hs.mpBeat) hs.deadLetter
  · exact hs.deadLetter

theorem Keeps.failRest {id : Nat} (hs : s₀.Keeps s) : s₀.Keeps (s.failRest id) := by
  unfold State.failRest
  split
  · exact hs.part.answer
  · exact hs

theorem Keeps.ltpCompletion {tag coff len status : Nat} {data : List Byte} {poison last : Bool} (hs : s₀.Keeps s) :
    s₀.Keeps (s.ltpCompletion tag coff len status data poison last) := by
  unfold State.ltpCompletion
  refine Keeps.ite hs ?_
  split
  · exact Keeps.ite hs.deadLtp (Keeps.ite (Keeps.ite hs.part.answer hs.part) (Keeps.ite hs.part.failRest hs.part))
  · exact hs.deadLtp

/-! ### Completion -/

theorem Keeps.settleAfter (hs : s₀.Keeps s) : s₀.Keeps s.settleAfter :=
  hs.resumeHeld.settleTables.settleCloses.settleStreams.settleScans.settleChains.freeProgs.settleAdmin.settleSteps.pumpAll

theorem Keeps.completeCmd {cl : Client} (hs : s₀.Keeps s) : s₀.Keeps (s.completeCmd cl) := by
  unfold State.completeCmd
  split
  · exact hs.complete.settleAfter
  · exact hs

/-! ### Cancellation, timeouts and FLRs (02, 10) -/

theorem Keeps.pendDiscard {cl : Client} (hs : s₀.Keeps s) : s₀.Keeps (s.pendDiscard cl) := hs.frame
theorem Keeps.cancelUpdate {cl : Client} {c : Cmd} {u : UpdW} (hs : s₀.Keeps s) : s₀.Keeps (s.cancelUpdate cl c u) :=
  Keeps.ite hs.updCmd (Keeps.updCmd (Keeps.foldl (fun _ _ ht => ht.writeRow) hs.draw))
theorem Keeps.cancelRebase {cl : Client} {c : Cmd} {tid : Nat} (hs : s₀.Keeps s) : s₀.Keeps (s.cancelRebase cl c tid) :=
  Keeps.ite hs.rebaseEnd.updCmd hs

theorem Keeps.cancelCompact {cl : Client} {c : Cmd} {tid vc : Nat} (hs : s₀.Keeps s) : s₀.Keeps (s.cancelCompact cl c tid vc) := by
  unfold State.cancelCompact
  split
  · exact Keeps.ite (Keeps.foldl (fun _ _ ht => ht.copyRow) hs.draw) hs
  · exact hs

theorem Keeps.cancelAppend {cl : Client} {c : Cmd} {sid skip n : Nat} (hs : s₀.Keeps s) : s₀.Keeps (s.cancelAppend cl c sid skip n) := by
  unfold State.cancelAppend
  split
  · exact hs
  · exact Keeps.popOrder (Keeps.ite (Keeps.ite (Keeps.foldl (fun _ _ ht => ht.pwrite) hs.draw) (Keeps.updStream
      (Keeps.foldl (fun _ _ ht1 => ht1.pwrite) hs.draw))) hs)

theorem Keeps.endDisp {cl : Client} {w : DispW} (hs : s₀.Keeps s) : s₀.Keeps (s.endDisp cl w) := by
  unfold State.endDisp
  split
  · exact hs
  · exact hs.frame.updEp

theorem Keeps.endWork {cl : Client} {c : Cmd} {part : Bool} (hs : s₀.Keeps s) : s₀.Keeps (s.endWork cl c part) := by
  unfold State.endWork
  refine Keeps.foldl (fun _ _ ht => ht.closeEnded) (Keeps.pendDiscard ?_)
  split
  · exact hs.frame.updCmd
  · exact hs.frame.endDisp.updCmd
  · exact Keeps.ite hs.frame.cancelUpdate hs.frame.updCmd
  · exact Keeps.ite hs.frame.cancelAppend hs.frame.popOrder
  · exact Keeps.foldl (fun _ _ ht1 => ht1.popOrder) hs.frame
  · exact hs.frame.popOrder
  · exact Keeps.cancelRebase (Keeps.ite hs.frame.cancelCompact hs.frame)
  · exact hs.frame

theorem Keeps.dropWaiting {cl : Client} (hs : s₀.Keeps s) : s₀.Keeps (s.dropWaiting cl) := hs.frame

theorem Keeps.cancelBy {cl : Client} {st : Nat} {part : Bool} (hs : s₀.Keeps s) : s₀.Keeps (s.cancelBy cl st part) := by
  unfold State.cancelBy
  split
  · exact hs
  · exact Keeps.ite hs (Keeps.ite hs.finish (Keeps.ite (Keeps.ite hs hs.updCmd) hs.dropWaiting.updCmd.endWork.advance))

theorem Keeps.cancelCmd {cl : Client} {st : Nat} (hs : s₀.Keeps s) : s₀.Keeps (s.cancelCmd cl st) := hs.cancelBy

theorem Keeps.resetQueue {qid cause : Nat} (hs : s₀.Keeps s) : s₀.Keeps (s.resetQueue qid cause) := by
  unfold State.resetQueue
  split
  · exact Keeps.ite (Keeps.settleAfter (Keeps.foldl (fun _ _ ht => ht.cancelCmd) hs.updQ.endFetch)) hs
  · exact hs

theorem Keeps.qctlReset {fn qid : Nat} (hs : s₀.Keeps s) : s₀.Keeps (s.qctlReset fn qid) := by
  unfold State.qctlReset
  split
  · exact hs.badQctl
  · exact hs.resetQueue

theorem Keeps.tmoRecord {c : Cmd} (hs : s₀.Keeps s) : s₀.Keeps (s.tmoRecord c) := hs.elog
theorem Keeps.guilty {cl : Client} {c : Cmd} (hs : s₀.Keeps s) : s₀.Keeps (s.guilty cl c) := hs.cancelCmd.resetQueue
theorem Keeps.expireIdle {cl : Client} {c : Cmd} (hs : s₀.Keeps s) : s₀.Keeps (s.expireIdle cl c) := Keeps.ite hs.cancelCmd hs.guilty
theorem Keeps.expireDone {cl : Client} {c : Cmd} (hs : s₀.Keeps s) : s₀.Keeps (s.expireDone cl c) := hs.updCmd.resetQueue

theorem Keeps.expire {cl : Client} {c : Cmd} (hs : s₀.Keeps s) : s₀.Keeps (s.expire cl c) := by
  unfold State.expire
  refine Keeps.settleAfter ?_
  split
  · exact hs.tmoRecord.expireDone
  · exact hs.tmoRecord
  · exact hs.tmoRecord.guilty
  · exact hs.tmoRecord.expireIdle
  · refine Keeps.ite hs.tmoRecord.finish (Keeps.ite hs.tmoRecord.cancelCmd (Keeps.ite hs.tmoRecord.cancelBy ?_))
    split
    · exact Keeps.ite hs.tmoRecord.cancelCmd (Keeps.ite hs.tmoRecord.guilty (Keeps.ite hs.tmoRecord.cancelCmd hs.tmoRecord.updCmd.ask))
    · exact hs.tmoRecord.guilty

theorem Keeps.cmdTimeout {cl : Client} (hs : s₀.Keeps s) : s₀.Keeps (s.cmdTimeout cl) := by
  unfold State.cmdTimeout
  split
  · exact Keeps.ite hs.expire hs
  · exact hs

theorem Keeps.headTimeout {qid : Nat} (hs : s₀.Keeps s) : s₀.Keeps (s.headTimeout qid) := by
  unfold State.headTimeout
  split
  · exact Keeps.ite hs.expire hs
  · exact hs

theorem Keeps.queueFreed {qid : Nat} (hs : s₀.Keeps s) : s₀.Keeps (s.queueFreed qid) :=
  Keeps.foldl (fun _ _ ht => ht.finish) hs.endFetch.frame.dropNotes

theorem Keeps.discardCmd {cl : Client} (hs : s₀.Keeps s) : s₀.Keeps (s.discardCmd cl) := by
  unfold State.discardCmd
  split
  · exact hs
  · exact Keeps.freeFences (Keeps.endWriter (Keeps.releasePins (Keeps.signalAll (Keeps.dropNotes (Keeps.frame (Keeps.ite hs.endWork hs))))))

theorem Keeps.discardQueue {qid : Nat} (hs : s₀.Keeps s) : s₀.Keeps (s.discardQueue qid) :=
  Keeps.queueFreed (Keeps.foldl (fun _ _ ht => ht.discardCmd) hs)
theorem Keeps.flrOf {fn : Nat} (hs : s₀.Keeps s) : s₀.Keeps (s.flrOf fn) :=
  Keeps.settleAfter (Keeps.evFlr (Keeps.frame (Keeps.foldl (fun _ _ ht => ht.discardQueue) hs)))

theorem Keeps.flrDone {fn : Nat} (hs : s₀.Keeps s) : s₀.Keeps (s.flrDone fn) := by
  unfold State.flrDone
  split
  · exact Keeps.ite hs.frame.emit hs
  · exact hs

theorem Keeps.flrIsolate {fn : Nat} (hs : s₀.Keeps s) : s₀.Keeps (s.flrIsolate fn) := Keeps.ite hs.endReqs hs
theorem Keeps.dropMgq (hs : s₀.Keeps s) : s₀.Keeps s.dropMgq :=
  Keeps.frame (Keeps.frame (Keeps.foldl (fun _ _ ht => ht.destroyFence) (Keeps.ite hs.discardQueue hs)))
theorem Keeps.pfReset (hs : s₀.Keeps s) : s₀.Keeps s.pfReset := Keeps.count (Keeps.frame (Keeps.foldl (fun _ _ ht => ht.flrOf) hs.dropMgq))
theorem Keeps.flrStart {fn : Nat} {f : State → State} (hs : s₀.Keeps s) (hf : ∀ {t}, s₀.Keeps t → s₀.Keeps (f t)) : s₀.Keeps (s.flrStart fn f) :=
  Keeps.ite (hf hs) hs.emit

/-! ### Removals (10) -/

theorem Keeps.wrapCmds {cls : List Client} (hs : s₀.Keeps s) : s₀.Keeps (s.wrapCmds cls) := by
  unfold State.wrapCmds
  refine Keeps.settleAfter (Keeps.endReqs (Keeps.foldl (fun _ _ ht => ?_) hs))
  split
  · exact Keeps.ite ht.endWork.advance ht.cancelCmd
  · exact ht

theorem Keeps.stnReset {n : Nat} (hs : s₀.Keeps s) : s₀.Keeps (s.stnReset n) := by
  unfold State.stnReset
  exact Keeps.updStn (Keeps.foldl (fun _ _ ht => (Keeps.ite ht.updEp.emits ht)) hs)

theorem Keeps.clearPart {pid : Nat} (hs : s₀.Keeps s) : s₀.Keeps (s.clearPart pid) :=
  Keeps.pushIso (Keeps.foldl (fun _ _ ht => ht.stnReset) hs.dropReqs.frame)
theorem Keeps.removeEnd {pid : Nat} (hs : s₀.Keeps s) : s₀.Keeps (s.removeEnd pid) :=
  Keeps.foldl (fun _ _ ht => ht.finish) hs.frame.clearPart.frame.pushIso
theorem Keeps.partStepEnd {pid : Nat} (hs : s₀.Keeps s) : s₀.Keeps (s.partStepEnd pid) := hs.clearPart.frame
theorem Keeps.partEnd {pid : Nat} (hs : s₀.Keeps s) : s₀.Keeps (s.partEnd pid) := Keeps.ite hs.partStepEnd hs.frame.removeEnd
theorem Keeps.settleRemovals (hs : s₀.Keeps s) : s₀.Keeps s.settleRemovals := Keeps.foldl (fun _ _ ht => ht.partEnd) hs
theorem Keeps.removeScrub {pid : Nat} (hs : s₀.Keeps s) : s₀.Keeps (s.removeScrub pid) :=
  Keeps.foldl (fun _ _ ht => ht.scrubBegin.scrubErase) hs.pbBatch.frame

theorem Keeps.resetDone {q : Nat} (hs : s₀.Keeps s) : s₀.Keeps (s.resetDone q) := by
  unfold State.resetDone
  split
  · exact Keeps.ite hs.marker hs
  · exact hs

theorem Keeps.stepMarkers {pid : Nat} (hs : s₀.Keeps s) : s₀.Keeps (s.stepMarkers pid) :=
  Keeps.ite (Keeps.foldl (fun _ _ ht1 => ht1.resetDone) (Keeps.foldl (fun _ _ ht => ht.completeCmd) hs)) hs
theorem Keeps.partDrained {pid : Nat} (hs : s₀.Keeps s) : s₀.Keeps (s.partDrained pid) := Keeps.ite hs.stepMarkers.removeScrub.settleRemovals hs
theorem Keeps.doPartRemove {cl : Client} {c : Cmd} (hs : s₀.Keeps s) : s₀.Keeps (s.doPartRemove cl c) :=
  hs.checked (fun _ => (Keeps.waitFor (Keeps.notifyPart (Keeps.foldl (fun _ _ ht1 => ht1.drainQueue) hs.frame))))

theorem Keeps.drainExpiry {pid : Nat} (hs : s₀.Keeps s) : s₀.Keeps (s.drainExpiry pid) := by
  unfold State.drainExpiry
  split
  · exact Keeps.ite hs.frame.wrapCmds.endReqs hs
  · exact hs

theorem Keeps.scrubDrained {k : Nat} {late : Bool} (hs : s₀.Keeps s) : s₀.Keeps (s.scrubDrained k late) :=
  Keeps.ite (Keeps.ite (Keeps.settleRemovals (Keeps.scrubErase (Keeps.ite hs.wrapCmds.endReqs hs))) (Keeps.ite hs.wrapCmds.endReqs hs)) hs

/-! ### Dumps (13) -/

theorem Keeps.setDumpFlags {k f : Nat} (hs : s₀.Keeps s) : s₀.Keeps (s.setDumpFlags k f) := hs.rsWrite
theorem Keeps.putSect {c : Coll} {u flags : Nat} {body : List Byte} (hs : s₀.Keeps s) : s₀.Keeps (s.putSect c u flags body).1 := hs.rsWrite
theorem Keeps.putHead {c : Coll} {flags serial first last : Nat} (hs : s₀.Keeps s) : s₀.Keeps (s.putHead c flags serial first last) := hs.rsWrite
theorem Keeps.settleCopies (hs : s₀.Keeps s) : s₀.Keeps s.settleCopies :=
  Keeps.ite (Keeps.frame (Keeps.foldl (fun _ _ ht => ht.hostWrite.setDumpFlags) hs)) hs
theorem Keeps.dumpDone {c : Coll} (hs : s₀.Keeps s) : s₀.Keeps (s.dumpDone c) := hs.putHead.draw.frame.elog.settleCopies

theorem Keeps.runColl {k : Nat} (hs : s₀.Keeps s) : s₀.Keeps (s.runColl k) := by
  induction k generalizing s with
  | zero => exact hs
  | succ k ih =>
    unfold State.runColl
    split
    · exact hs
    · refine Keeps.ite (ih (Keeps.frame hs.putHead.draw)) ?_
      split
      · exact ih hs.dumpDone
      · exact Keeps.ite hs (ih (Keeps.frame hs.draw.putSect))

theorem Keeps.dump {step : Nat} {units : List Nat} {pid : Option Nat} {serial : Nat} (hs : s₀.Keeps s) : s₀.Keeps (s.dump step units pid serial) :=
  hs.frame.runColl

theorem Keeps.debugTimeout (hs : s₀.Keeps s) : s₀.Keeps s.debugTimeout := by
  unfold State.debugTimeout
  split
  · split
    · exact hs.draw.draw.putSect.frame.runColl
    · exact hs
  · exact hs

theorem Keeps.dumpRel {v : Nat} (hs : s₀.Keeps s) : s₀.Keeps (s.dumpRel v) := hs.setDumpFlags
theorem Keeps.rsNext (hs : s₀.Keeps s) : s₀.Keeps s.rsNext.2 := hs.frame

/-! ### Flits (12) -/

theorem Keeps.updLink {n : Nat} {f : Link → Link} (hs : s₀.Keeps s) : s₀.Keeps (s.updLink n f) := hs.frame
theorem Keeps.nullFlit {n : Nat} {fromStn : Bool} (hs : s₀.Keeps s) : s₀.Keeps (s.nullFlit n fromStn) := Keeps.ite hs.emit hs
theorem Keeps.creditBack {src k m : Nat} (hs : s₀.Keeps s) : s₀.Keeps (s.creditBack src k m) := Keeps.ite hs hs.updLink.nullFlit

theorem Keeps.cxPump {n : Nat} {fromStn : Bool} {k : Nat} (hs : s₀.Keeps s) : s₀.Keeps (State.cxPump k s n fromStn) := by
  induction k generalizing s with
  | zero => exact hs
  | succ k ih => exact Keeps.ite hs (ih (Keeps.ite hs.updLink.emit hs.updLink.emit.creditBack.creditBack.creditBack))

theorem Keeps.send {n : Nat} {fromStn : Bool} (hs : s₀.Keeps s) : s₀.Keeps (s.send n fromStn) := hs.cxPump
theorem Keeps.queueMsg {n : Nat} {fromStn : Bool} {k src : Nat} {m : List (List Byte)} (hs : s₀.Keeps s) : s₀.Keeps (s.queueMsg n fromStn k src m) :=
  hs.updLink.send
theorem Keeps.sendMsg {n : Nat} {fromStn : Bool} (hs : s₀.Keeps s) : s₀.Keeps (s.sendMsg n fromStn) := Keeps.ite hs hs.draw.queueMsg
theorem Keeps.enterInit {n : Nat} (hs : s₀.Keeps s) : s₀.Keeps (s.enterInit n) := hs.updLink.emits
theorem Keeps.retrain {n : Nat} (hs : s₀.Keeps s) : s₀.Keeps (s.retrain n) :=
  Keeps.ite (Keeps.ite hs.updLink.count (Keeps.ite hs.updLink.count.enterInit hs.updLink.count.emit)) hs
theorem Keeps.resend {n : Nat} {stn : Bool} (hs : s₀.Keeps s) : s₀.Keeps (s.resend n stn) :=
  Keeps.ite hs (Keeps.ite hs.updLink.count.raise.emits.retrain hs.updLink.count.raise.emits)
theorem Keeps.arrive {n : Nat} {atStn : Bool} {k : Nat} {m : List (List Byte)} (hs : s₀.Keeps s) : s₀.Keeps (s.arrive n atStn k m) :=
  Keeps.ite hs.queueMsg hs.updLink

theorem Keeps.arrivals {n : Nat} {atStn : Bool} {k fuel : Nat} (hs : s₀.Keeps s) : s₀.Keeps (State.arrivals fuel s n atStn k) := by
  induction fuel generalizing s with
  | zero => exact hs
  | succ fuel ih =>
    unfold State.arrivals
    split
    · exact hs
    · exact Keeps.ite hs (ih hs.updLink.arrive)

theorem Keeps.takeSlots {n : Nat} {atStn : Bool} {b : List Byte} (hs : s₀.Keeps s) : s₀.Keeps (s.takeSlots n atStn b) :=
  Keeps.foldl (fun _ _ ht => ht.updLink.arrivals) hs
theorem Keeps.ackFlit {n : Nat} {atStn : Bool} (hs : s₀.Keeps s) : s₀.Keeps (s.ackFlit n atStn) := Keeps.ite hs.send.nullFlit hs.send
theorem Keeps.markDown {n : Nat} (hs : s₀.Keeps s) : s₀.Keeps (s.markDown n) := hs.updLink.count.raise

theorem Keeps.flitIn {n : Nat} {atStn : Bool} {lost : List Nat} {b : List Byte} (hs : s₀.Keeps s) : s₀.KeepsFst (s.flitIn n atStn lost b) := by
  unfold State.flitIn
  refine .ite (.ite (.ite (.mk hs.updLink) (.mk hs)) (.mk hs)) (.ite (.mk hs) (.ite (.ite (.mk ?_) (.ite (.mk hs) (.mk hs.updLink.emit)))
    (.ite (.mk hs) (.mk ?_))))
  · exact hs.updLink.takeSlots.ackFlit
  · exact Keeps.send (Keeps.ite hs.updLink.resend hs.updLink)

/-! ### Fences, returns and the ladder (13) -/

theorem Keeps.loseStn {n : Nat} (hs : s₀.Keeps s) : s₀.Keeps (s.loseStn n) := Keeps.foldl (fun _ _ ht => ht.cancelCmd) hs.frame

theorem Keeps.fenceStn {n trigger : Nat} {byDriver : Bool} {hung : List Nat} (hs : s₀.Keeps s) : s₀.Keeps (s.fenceStn n trigger byDriver hung) := by
  unfold State.fenceStn
  refine Keeps.ite hs (Keeps.settleAfter (Keeps.dump ?_))
  split
  · exact hs.updStn.count.elog.loseStn.endReqsBut.raise.notifyPart
  · exact hs.updStn.count.elog.loseStn.endReqsBut.raise

theorem Keeps.settleReturn {n : Nat} (hs : s₀.Keeps s) : s₀.Keeps (s.settleReturn n) := by
  unfold State.settleReturn
  refine Keeps.ite (Keeps.settleReads (Keeps.refill ?_)) hs
  split
  · exact hs.updStn.count.pushIso.raise.notifyPart
  · exact hs.updStn.count.pushIso.raise

theorem Keeps.dropMsgs {n : Nat} (hs : s₀.Keeps s) : s₀.Keeps (s.dropMsgs n) :=
  Keeps.foldl (fun _ _ ht => (Keeps.foldl (fun _ _ ht1 => ht1.creditBack) ht.creditBack)) hs
theorem Keeps.trainLink {n : Nat} (hs : s₀.Keeps s) : s₀.Keeps (s.trainLink n) := Keeps.ite hs.dropMsgs.updLink hs.dropMsgs.updLink.enterInit
theorem Keeps.restartLink {n : Nat} (hs : s₀.Keeps s) : s₀.Keeps (s.restartLink n) := hs.updLink.trainLink
theorem Keeps.setPs {n level : Nat} (hs : s₀.Keeps s) : s₀.Keeps (s.setPs n level) := Keeps.ite hs hs.updStn.emit

theorem Keeps.startReturn {n : Nat} (hs : s₀.Keeps s) : s₀.Keeps (s.startReturn n) := by
  unfold State.startReturn
  exact hs.setPs.updStn.stnReset.elog.trainLink

theorem Keeps.stnReturn {n : Nat} (hs : s₀.Keeps s) : s₀.Keeps (s.stnReturn n) := Keeps.ite (Keeps.ite hs.updStn hs.startReturn) hs
theorem Keeps.returnFail {n enum : Nat} (hs : s₀.Keeps s) : s₀.Keeps (s.returnFail n enum) := Keeps.ite hs.updStn hs
theorem Keeps.driverReturn {n : Nat} (hs : s₀.Keeps s) : s₀.Keeps (s.driverReturn n) := Keeps.ite hs.startReturn.updStn hs
theorem Keeps.beatStn {n : Nat} (hs : s₀.Keeps s) : s₀.Keeps (s.beatStn n) := Keeps.ite hs (Keeps.ite hs.fenceStn hs.updStn.emit.sendMsg)
theorem Keeps.heartbeat (hs : s₀.Keeps s) : s₀.Keeps s.heartbeat := Keeps.ite (Keeps.foldl (fun _ _ ht => ht.beatStn) hs) hs
theorem Keeps.beatAnswer {n : Nat} {us : List (Nat × Bool)} (hs : s₀.Keeps s) : s₀.Keeps (s.beatAnswer n us) :=
  Keeps.ite hs (Keeps.ite hs.updStn hs.updStn.fenceStn)
theorem Keeps.memTimeout {n tag : Nat} (hs : s₀.Keeps s) : s₀.Keeps (s.memTimeout n tag) :=
  Keeps.ite hs (Keeps.ite hs.updStn.mpRecord.count.raise.answer.fenceStn hs.updStn.mpRecord.count.raise.answer)
theorem Keeps.memFall {n : Nat} (hs : s₀.Keeps s) : s₀.Keeps (s.memFall n) := Keeps.ite hs.updStn.mpRecord.fenceStn hs.updStn
theorem Keeps.unask {step id : Nat} (hs : s₀.Keeps s) : s₀.Keeps (s.unask step id) := hs.frame
theorem Keeps.beginStep {step id pid : Nat} {r : ERec} (hs : s₀.Keeps s) : s₀.Keeps (s.beginStep step id pid r) := hs.draw.frame.elog
theorem Keeps.stepReset {q : Nat} (hs : s₀.Keeps s) : s₀.Keeps (s.stepReset q) := hs.updQ.endFetch

theorem Keeps.ctxStep {cid : Nat} (hs : s₀.Keeps s) : s₀.Keeps (s.ctxStep cid) :=
  Keeps.ite hs.unask (Keeps.settleSteps (Keeps.ite (Keeps.ask (Keeps.invalCache (Keeps.endReqs (Keeps.wrapCmds
      (Keeps.foldl (fun _ _ ht => ht.stepReset) hs.unask.beginStep.count))))) (Keeps.invalCache (Keeps.endReqs (Keeps.wrapCmds
      (Keeps.foldl (fun _ _ ht1 => ht1.stepReset) hs.unask.beginStep.count))))))

theorem Keeps.engStep {ep : Nat} (hs : s₀.Keeps s) : s₀.Keeps (s.engStep ep) :=
  Keeps.ite hs.unask hs.unask.beginStep.count.frame.engineStepAt.invDropPort.epReturn.settleAfter
theorem Keeps.partStop {pid : Nat} (hs : s₀.Keeps s) : s₀.Keeps (s.partStop pid) := Keeps.foldl (fun _ _ ht => ht.stepReset) hs.frame

theorem Keeps.partStep {pid : Nat} (hs : s₀.Keeps s) : s₀.Keeps (s.partStep pid) :=
  Keeps.ite hs.unask (Keeps.partDrained (Keeps.ite (Keeps.ask (Keeps.endReqs (Keeps.wrapCmds (Keeps.partStop (Keeps.dump (Keeps.notifyPart
      (Keeps.foldl (fun _ _ ht => ht.raise) hs.unask.beginStep.count.frame))))))) (Keeps.endReqs (Keeps.wrapCmds (Keeps.partStop (Keeps.dump
      (Keeps.notifyPart (Keeps.foldl (fun _ _ ht1 => ht1.raise) hs.unask.beginStep.count.frame))))))))

theorem Keeps.boundExpiry {step id : Nat} (hs : s₀.Keeps s) : s₀.Keeps (s.boundExpiry step id) := by
  unfold State.boundExpiry
  split
  · exact Keeps.ite (Keeps.ite hs.ask hs.ask) hs
  · exact Keeps.ite hs.ask hs
  · exact Keeps.ite hs.ask hs
  · exact hs

theorem Keeps.epRestart {n : Nat} (hs : s₀.Keeps s) : s₀.Keeps (s.epRestart n) := by
  unfold State.epRestart
  refine Keeps.foldl (fun _ _ ht => ?_) hs
  split
  · exact Keeps.ite ht.engStep (Keeps.ite ht ht.updEp.emit)
  · exact ht

theorem Keeps.coreLost {core : Nat} (hs : s₀.Keeps s) : s₀.Keeps (s.coreLost core) := Keeps.foldl (fun _ _ ht => ht.cancelCmd) hs
theorem Keeps.endUnlock (hs : s₀.Keeps s) : s₀.Keeps s.endUnlock := Keeps.ite hs.frame.frame.emit hs.frame
theorem Keeps.restartCore {core : Nat} (hs : s₀.Keeps s) : s₀.Keeps (s.restartCore core) :=
  Keeps.settleAfter (Keeps.coreLost (Keeps.dropClaims (Keeps.frame (Keeps.ite hs.endUnlock hs))))

theorem Keeps.watchdog {core : Nat} (hs : s₀.Keeps s) : s₀.Keeps (s.watchdog core) :=
  Keeps.ite hs (Keeps.ite hs.setInput.elog.frame.dropClaims.revertLive (Keeps.ite hs.setInput.elog.frame.frame.ask
      hs.setInput.elog.frame.restartCore))

/-! ### Links (12) -/

theorem Keeps.enumFail {n : Nat} (hs : s₀.Keeps s) : s₀.Keeps (s.enumFail n) := hs.updStn.fenceStn
theorem Keeps.linkDown {n : Nat} (hs : s₀.Keeps s) : s₀.Keeps (s.linkDown n) := Keeps.ite hs.markDown.enumFail hs.markDown.updStn.fenceStn
theorem Keeps.linkAlign {n tx rx : Nat} (hs : s₀.Keeps s) : s₀.Keeps (s.linkAlign n tx rx) := Keeps.ite hs.linkDown hs.updLink.enterInit
theorem Keeps.linkActive {n : Nat} (hs : s₀.Keeps s) : s₀.Keeps (s.linkActive n) :=
  Keeps.ite hs (Keeps.settleReturn (Keeps.send (Keeps.send (Keeps.ite hs.updLink.raise hs.updLink))))

theorem Keeps.trainDone {n tx rx : Nat} {slow : Bool} (hs : s₀.Keeps s) : s₀.Keeps (s.trainDone n tx rx slow) := by
  unfold State.trainDone
  refine Keeps.ite ?_ ?_
  · split
    · exact Keeps.ite hs.updLink hs
    · exact hs.updLink
    · exact hs.linkAlign
    · exact hs.linkActive
    · exact hs.linkAlign
    · exact hs
  · dsimp only
    split
    · exact Keeps.linkActive (Keeps.ite hs.updLink hs)
    · exact Keeps.enterInit (Keeps.ite hs.updLink hs)
    · exact Keeps.ite hs.updLink hs

theorem Keeps.trainFailed {n next : Nat} (hs : s₀.Keeps s) : s₀.Keeps (s.trainFailed n next) :=
  Keeps.ite hs.updLink (Keeps.ite hs.updLink.linkDown hs.updLink)

theorem Keeps.trainTimeout {n : Nat} (hs : s₀.Keeps s) : s₀.Keeps (s.trainTimeout n) := by
  unfold State.trainTimeout
  split
  · exact hs.returnFail
  · exact hs.trainFailed
  · exact hs.trainFailed
  · exact hs.trainFailed
  · exact Keeps.ite hs.updLink hs.trainFailed
  · exact hs

theorem Keeps.cxDisable {n : Nat} (hs : s₀.Keeps s) : s₀.Keeps (s.cxDisable n) := Keeps.ite hs hs.updLink.fenceStn
theorem Keeps.cxEnable {n : Nat} (hs : s₀.Keeps s) : s₀.Keeps (s.cxEnable n) := Keeps.ite hs.updLink.trainLink hs
theorem Keeps.cxRestart {n : Nat} (hs : s₀.Keeps s) : s₀.Keeps (s.cxRestart n) := Keeps.ite hs.restartLink hs
theorem Keeps.startSpare {n : Nat} {toHub : Bool} {lane : Nat} (hs : s₀.Keeps s) : s₀.Keeps (s.startSpare n toHub lane) :=
  Keeps.ite hs.updLink.sendMsg hs
theorem Keeps.window {n : Nat} {toHub : Bool} {lane corrected unc : Nat} (hs : s₀.Keeps s) : s₀.Keeps (s.window n toHub lane corrected unc) :=
  Keeps.ite hs (Keeps.ite hs.countBy.updLink.startSpare hs.countBy.updLink)

theorem Keeps.orderSwitch {n : Nat} {toHub : Bool} {now : Nat} (hs : s₀.Keeps s) : s₀.Keeps (s.orderSwitch n toHub now) := by
  unfold State.orderSwitch
  split
  · exact hs.updLink.sendMsg
  · exact hs

theorem Keeps.takeOrder {n : Nat} {toHub : Bool} {lane count now : Nat} (hs : s₀.Keeps s) : s₀.Keeps (s.takeOrder n toHub lane count now) := by
  unfold State.takeOrder
  split
  · exact Keeps.ite hs (Keeps.ite hs.orderSwitch hs.updLink)
  · exact hs

theorem Keeps.switchLane {n : Nat} {toHub : Bool} (hs : s₀.Keeps s) : s₀.Keeps (s.switchLane n toHub) := by
  unfold State.switchLane
  split
  · exact Keeps.ite hs hs.updLink.count.raise
  · exact hs

theorem Keeps.lockTimeout {n : Nat} {toHub : Bool} (hs : s₀.Keeps s) : s₀.Keeps (s.lockTimeout n toHub) := by
  unfold State.lockTimeout
  split
  · exact Keeps.ite hs hs.updLink.retrain
  · exact hs

theorem Keeps.laneLost {n : Nat} {toHub : Bool} {phys : Nat} (hs : s₀.Keeps s) : s₀.Keeps (s.laneLost n toHub phys) := Keeps.ite hs.updLink.retrain hs

theorem Keeps.cxCtl {v : Nat} (hs : s₀.Keeps s) : s₀.Keeps (s.cxCtl v) :=
  Keeps.ite hs (Keeps.ite (Keeps.startSpare (Keeps.ite (Keeps.cxRestart (Keeps.ite hs.updLink.cxDisable hs.updLink.cxEnable))
      (Keeps.ite hs.updLink.cxDisable hs.updLink.cxEnable))) (Keeps.ite (Keeps.cxRestart (Keeps.ite hs.updLink.cxDisable hs.updLink.cxEnable))
      (Keeps.ite hs.updLink.cxDisable hs.updLink.cxEnable)))

/-! ### Power (14) -/

theorem Keeps.stnGo {n : Nat} (hs : s₀.Keeps s) : s₀.Keeps (s.stnGo n) := hs.refill.settleReads

theorem Keeps.epsRelease {n : Nat} (hs : s₀.Keeps s) : s₀.Keeps (s.epsRelease n) := by
  unfold State.epsRelease
  refine Keeps.foldl (fun _ _ ht => ?_) hs
  split
  · exact Keeps.ite ht.updEp.emit (Keeps.ite ht.updEp.emit ht)
  · exact ht

theorem Keeps.abandon {n pwr : Nat} {flag : Bool} (hs : s₀.Keeps s) : s₀.Keeps (s.abandon n pwr flag) := hs.epsRelease.updStn.setPs
theorem Keeps.enter {n toward : Nat} (hs : s₀.Keeps s) : s₀.Keeps (s.enter n toward) := Keeps.foldl (fun _ _ ht => ht.updEp.emit) hs.updStn
theorem Keeps.wake {n from_ : Nat} (hs : s₀.Keeps s) : s₀.Keeps (s.wake n from_) := hs.updStn.setPs

theorem Keeps.wokenIn {n : Nat} (hs : s₀.Keeps s) : s₀.Keeps (s.wokenIn n) := by
  unfold State.wokenIn
  exact hs.draw.updStn

theorem Keeps.settleWake {n : Nat} (hs : s₀.Keeps s) : s₀.Keeps (s.settleWake n) :=
  Keeps.ite hs (Keeps.ite hs.stnReset.trainLink.updStn (Keeps.ite hs (Keeps.stnGo (Keeps.raise
      (Keeps.ite hs.epsRelease.updStn.pushIso.wokenIn hs.epsRelease.updStn.pushIso)))))

theorem Keeps.demandStn {n : Nat} (hs : s₀.Keeps s) : s₀.Keeps (s.demandStn n) := by
  unfold State.demandStn
  refine Keeps.ite hs ?_
  split
  · exact hs.updStn.setPs.wokenIn.stnGo
  · exact hs.wake.settleWake
  · exact hs.wake.settleWake
  · exact Keeps.ite hs.updStn hs.abandon.stnGo
  · exact hs

theorem Keeps.doze {n : Nat} (hs : s₀.Keeps s) : s₀.Keeps (s.doze n) := hs.updStn.setPs
theorem Keeps.forceOff {n : Nat} (hs : s₀.Keeps s) : s₀.Keeps (s.forceOff n) := Keeps.ite hs (Keeps.ite hs.updStn (Keeps.ite hs.enter hs))
theorem Keeps.dozeTimer {n : Nat} (hs : s₀.Keeps s) : s₀.Keeps (s.dozeTimer n) := Keeps.ite hs (Keeps.ite hs.forceOff (Keeps.ite hs.doze hs))
theorem Keeps.sleepTimer {n : Nat} (hs : s₀.Keeps s) : s₀.Keeps (s.sleepTimer n) := Keeps.ite hs (Keeps.ite hs.forceOff (Keeps.ite hs.enter hs))
theorem Keeps.offTimer {n : Nat} (hs : s₀.Keeps s) : s₀.Keeps (s.offTimer n) := Keeps.ite hs.enter hs
theorem Keeps.commitEntry {n : Nat} (hs : s₀.Keeps s) : s₀.Keeps (s.commitEntry n) :=
  Keeps.ite hs (Keeps.ite (Keeps.demandStn (Keeps.ite hs.updStn.setPs.updLink hs.updStn.setPs)) (Keeps.ite hs.updStn.setPs.updLink hs.updStn.setPs))
theorem Keeps.idleRecord {stn unit ep : Nat} (hs : s₀.Keeps s) : s₀.Keeps (s.idleRecord stn unit ep) := hs.draw.elog

theorem Keeps.epIdleLate {ep : Nat} (hs : s₀.Keeps s) : s₀.Keeps (s.epIdleLate ep) := by
  unfold State.epIdleLate
  dsimp only
  split
  · exact Keeps.ite hs (Keeps.ite hs.abandon hs.engineStepAt.idleRecord.settleAfter)
  · exact hs

theorem Keeps.coreIdleLate {core : Nat} (hs : s₀.Keeps s) : s₀.Keeps (s.coreIdleLate core) :=
  Keeps.ite hs.frame.dropClaims.coreLost.idleRecord.settleAfter hs
theorem Keeps.scanIdleLate (hs : s₀.Keeps s) : s₀.Keeps s.scanIdleLate := Keeps.ite hs.frame.idleRecord hs

theorem Keeps.idleLate {b : IdleBlock} {id : Nat} (hs : s₀.Keeps s) : s₀.Keeps (s.idleLate b id) := by
  unfold State.idleLate
  dsimp only
  split
  · exact hs.epIdleLate
  · exact Keeps.ite hs.abandon hs
  · exact Keeps.ite hs.abandon hs
  · exact Keeps.ite hs.abandon hs
  · exact hs.coreIdleLate
  · exact hs.scanIdleLate

theorem Keeps.ackPs {n ack : Nat} (hs : s₀.Keeps s) : s₀.Keeps (s.ackPs n ack) := Keeps.ite hs.updStn.settleWake hs
theorem Keeps.wakeLate {n : Nat} (hs : s₀.Keeps s) : s₀.Keeps (s.wakeLate n) := Keeps.ite hs (Keeps.ite hs.fenceStn hs.updStn.emit)
theorem Keeps.memRdyLate {n : Nat} (hs : s₀.Keeps s) : s₀.Keeps (s.memRdyLate n) :=
  Keeps.ite hs (Keeps.ite hs.returnFail (Keeps.ite hs.updStn.fenceStn hs))

theorem Keeps.pwrStnWrite {n v : Nat} (hs : s₀.Keeps s) : s₀.Keeps (s.pwrStnWrite n v) :=
  Keeps.ite hs (Keeps.ite (Keeps.ite hs.updStn hs) (Keeps.ite (Keeps.demandStn (Keeps.updStn (Keeps.ite hs.updStn hs))) (Keeps.forceOff
      (Keeps.updStn (Keeps.ite hs.updStn hs)))))

theorem Keeps.warm {q : Queue} (hs : s₀.Keeps s) : s₀.Keeps (s.warm q) := Keeps.ite hs (Keeps.foldl (fun _ _ ht => (Keeps.ite ht ht.demandStn)) hs)

theorem Keeps.sqTail {fn off width v : Nat} (hs : s₀.Keeps s) : s₀.Keeps (s.sqTail fn off width v) := by
  unfold State.sqTail
  refine Keeps.ite hs.doorbell ?_
  split
  · exact Keeps.ite hs.doorbell.warm hs.doorbell
  · exact hs.doorbell

/-! ### Resets and the release (14) -/

theorem Keeps.hubReset (hs : s₀.Keeps s) : s₀.Keeps s.hubReset := hs.frame

/-- A loss of power clears TRAY_PCR and keeps the rest. -/
theorem Keeps.powerLoss (hs : s₀.Keeps s) : s₀.Keeps { s.powerLoss with tray := s.tray } := hs.frame

theorem Keeps.optApply (hs : s₀.Keeps s) : s₀.Keeps s.optApply := hs.optLoad.frame

theorem Keeps.enumStn {n : Nat} (hs : s₀.Keeps s) : s₀.Keeps (s.enumStn n) := by
  unfold State.enumStn
  extract_lets t f
  have ht : s₀.Keeps t := Keeps.foldl (fun _ _ hv => hv.updEp.emit) hs
  exact ht.updStn.emits.trainLink

theorem Keeps.toReady (hs : s₀.Keeps s) : s₀.Keeps s.toReady := Keeps.settleCopies (Keeps.foldl (fun _ _ ht => ht.raise) hs.frame)
theorem Keeps.settleRelease (hs : s₀.Keeps s) : s₀.Keeps s.settleRelease :=
  Keeps.ite (Keeps.toReady (Keeps.foldl (fun _ _ ht => (Keeps.ite ht.updStn ht)) (Keeps.ite hs.frame hs))) (Keeps.ite hs.frame hs)
theorem Keeps.bootRails (hs : s₀.Keeps s) : s₀.Keeps s.bootRails := Keeps.foldl (fun _ _ ht => ht.emits.frame) hs
theorem Keeps.bootStep (hs : s₀.Keeps s) : s₀.Keeps s.bootStep :=
  Keeps.ite (Keeps.settleRelease (Keeps.foldl (fun _ _ ht => ht.enumStn) hs.boot.frame.bootRails)) hs.boot.frame
theorem Keeps.clockStep (hs : s₀.Keeps s) : s₀.Keeps s.clockStep := Keeps.ite hs.frame.bootStep hs.frame.frame
theorem Keeps.release (hs : s₀.Keeps s) : s₀.Keeps s.release := hs.frame.optApply.clockStep
theorem Keeps.flrdAll (hs : s₀.Keeps s) : s₀.Keeps s.flrdAll := hs.emits.frame
theorem Keeps.holdEps (hs : s₀.Keeps s) : s₀.Keeps s.holdEps := hs.emits
theorem Keeps.warmStep3 (hs : s₀.Keeps s) : s₀.Keeps s.warmStep3 := hs.holdEps.hubReset.frame.count.release
theorem Keeps.stopAll (hs : s₀.Keeps s) : s₀.Keeps s.stopAll := hs.flrdAll.frame

theorem Keeps.warmReset {cause : Nat} {dump chip : Bool} (hs : s₀.Keeps s) : s₀.Keeps (s.warmReset cause dump chip) := by
  unfold State.warmReset
  dsimp only
  split
  · exact hs.frame
  · exact hs.frame
  · exact hs.frame.warmStep3
  · exact hs.frame.warmStep3
  · exact hs.frame.warmStep3
  · exact Keeps.ite (Keeps.ite hs.frame.frame.stopAll.dump.warmStep3 hs.frame.frame.stopAll.dump) hs.frame.frame.stopAll.warmStep3

theorem Keeps.brownout (hs : s₀.Keeps s) : s₀.Keeps s.brownout := Keeps.ite hs hs.flrdAll.holdEps.hubReset.frame.count
theorem Keeps.brownoutEnd (hs : s₀.Keeps s) : s₀.Keeps s.brownoutEnd := Keeps.ite hs.frame.release hs
theorem Keeps.chip {cause : Nat} (hs : s₀.Keeps s) : s₀.Keeps (s.chip cause) :=
  Keeps.ite hs.frame.warmReset (Keeps.ite hs.frame.ask hs.frame.beginStep.count.frame.warmReset)
theorem Keeps.chipStep (hs : s₀.Keeps s) : s₀.Keeps s.chipStep := Keeps.ite hs.chip (Keeps.ite hs.chip (Keeps.ite hs.chip (Keeps.ite hs.chip hs)))
theorem Keeps.coresHung (hs : s₀.Keeps s) : s₀.Keeps s.coresHung := Keeps.ite hs.frame.chip hs

/-- The last step of the ladder raises TRAY_PCR and keeps the rest. -/
theorem Keeps.powerCycle (hs : s₀.Keeps s) : s₀.Keeps { s.powerCycle with tray := s.tray } := by
  unfold State.powerCycle
  split
  · exact hs
  · extract_lets s₁ s₂ s₃ s₄
    have h₂ : s₀.Keeps s₂ := Keeps.foldr (fun _ _ ht => ht.logAppend) hs.unask.beginStep
    have h₃ : s₀.Keeps s₃ := by
      simp only [s₃]
      split
      · exact h₂.logAppend
      · exact h₂
    have h₄ : s₀.Keeps s₄ := h₃.count.lifeCommit
    clear_value s₄
    exact ⟨h₄.mem, h₄.fuses, hs.tray⟩

theorem Keeps.debugLate (hs : s₀.Keeps s) : s₀.Keeps s.debugLate := Keeps.ite hs.debugTimeout.warmStep3 hs.debugTimeout
theorem Keeps.clockRetry {hub seq ltp : Bool} (hs : s₀.Keeps s) : s₀.Keeps (s.clockRetry hub seq ltp) := Keeps.ite hs.frame.clockStep hs
theorem Keeps.clockStopped (hs : s₀.Keeps s) : s₀.Keeps s.clockStopped := Keeps.ite hs.draw.frame.chip hs
theorem Keeps.memRise {n : Nat} (hs : s₀.Keeps s) : s₀.Keeps (s.memRise n) := Keeps.ite hs.updStn.settleReturn.settleWake.settleRelease.stnGo hs
theorem Keeps.memoryLate {n : Nat} (hs : s₀.Keeps s) : s₀.Keeps (s.memoryLate n) :=
  Keeps.ite (Keeps.settleRelease (Keeps.ite hs.updStn hs.enumFail)) hs
theorem Keeps.linkSettle {n : Nat} (hs : s₀.Keeps s) : s₀.Keeps (s.linkSettle n) := hs.settleWake.settleRelease
theorem Keeps.jtagReset (hs : s₀.Keeps s) : s₀.Keeps s.jtagReset := hs.warmReset
theorem Keeps.tapScan {i : TapInstr} {tdi : List Bool} (hs : s₀.Keeps s) : s₀.Keeps (s.tapScan i tdi) := Keeps.ite hs hs.draw.emit

theorem Keeps.tapLoad {i : TapInstr} {tdi : List Bool} (hs : s₀.Keeps s) : s₀.Keeps (s.tapLoad i tdi) := by
  unfold State.tapLoad
  dsimp only
  split
  · exact hs.tapScan.frame.frame.emit
  · exact hs.tapScan.frame.jtagReset
  · exact hs.tapScan.frame

theorem Keeps.fnUpdate {fn : Nat} {en bme : Bool} (hs : s₀.Keeps s) : s₀.Keeps (s.fnUpdate fn en bme) :=
  Keeps.ite hs (Keeps.ite hs.frame.frame.emits.settleCopies hs.frame)
theorem Keeps.rstCtl {v : Nat} (hs : s₀.Keeps s) : s₀.Keeps (s.rstCtl v) := Keeps.ite hs.warmReset hs

/-! ### Ageing and the calendar (15) -/

theorem Keeps.planDom {m : Measure} (hs : s₀.Keeps s) : s₀.Keeps (s.planDom m) := by
  unfold State.planDom
  split
  · exact hs
  · have hraised : ∀ {p q : Prop} [Decidable p] [Decidable q] {t : State} {n i : Nat}, s₀.Keeps t →
        s₀.Keeps (if q then (if p then t.raise 769 n else t).raise 771 i else if p then t.raise 769 n else t) :=
      fun ht => Keeps.ite (Keeps.raise (Keeps.ite ht.raise ht)) (Keeps.ite ht.raise ht)
    exact Keeps.ite (Keeps.marginSave (hraised (Keeps.countBy hs.frame))) (hraised (Keeps.countBy hs.frame))

theorem Keeps.probeRails {ms : List Measure} (hs : s₀.Keeps s) : s₀.Keeps (s.probeRails ms) := hs.emits

theorem Keeps.avsWrite {r : Nat} {ans : RailAnswer} {volts : Nat} (hs : s₀.Keeps s) : s₀.Keeps (s.avsWrite r ans volts) := by
  unfold State.avsWrite
  refine Keeps.ite hs ?_
  dsimp only
  split
  · exact hs.emit.frame
  · exact hs.emit.frame.raise
  · exact hs.emit.frame.raise

theorem Keeps.settleReplan (hs : s₀.Keeps s) : s₀.Keeps s.settleReplan := Keeps.ite hs.frame.raise hs
theorem Keeps.replanAsk (hs : s₀.Keeps s) : s₀.Keeps s.replanAsk := hs.frame
theorem Keeps.skipDoms (hs : s₀.Keeps s) : s₀.Keeps s.skipDoms := hs.frame
theorem Keeps.replan {ms : List Measure} (hs : s₀.Keeps s) : s₀.Keeps (s.replan ms) :=
  Keeps.ite hs (Keeps.settleReplan (Keeps.logFree (Keeps.draw (Keeps.foldl (fun _ _ ht => ht.planDom) hs.replanAsk.count.probeRails.skipDoms))))
theorem Keeps.autoReplan (hs : s₀.Keeps s) : s₀.Keeps s.autoReplan := Keeps.ite hs.replanAsk.frame (Keeps.ite hs.replanAsk.frame hs)
theorem Keeps.freqStep {n : Nat} (hs : s₀.Keeps s) : s₀.Keeps (s.freqStep n) := Keeps.ite hs.updStn.emit hs
theorem Keeps.freqDone {n f : Nat} (hs : s₀.Keeps s) : s₀.Keeps (s.freqDone n f) :=
  Keeps.ite hs.updStn.frame.count.raise.marginSave.settleReplan.settleReads hs

theorem Keeps.freqLate {n : Nat} (hs : s₀.Keeps s) : s₀.Keeps (s.freqLate n) := by
  unfold State.freqLate
  dsimp only
  split
  · exact hs
  · exact Keeps.ite hs.updStn.emits hs.updStn.frame.emit.fenceStn.settleReplan

theorem Keeps.opTick (hs : s₀.Keeps s) : s₀.Keeps s.opTick := hs.count.count.frame

theorem Keeps.tick (hs : s₀.Keeps s) : s₀.Keeps s.tick :=
  Keeps.foldl (fun _ _ ht => (Keeps.ite ht.setInput ht)) (Keeps.ite (Keeps.frame (Keeps.ite hs.frame.opTick hs.frame))
      (Keeps.ite hs.frame.opTick hs.frame))

theorem Keeps.wallSet {v : Nat} (hs : s₀.Keeps s) : s₀.Keeps (s.wallSet v) := hs.frame.raise

/-! ### What reads clear -/

theorem Keeps.fnRc {fn off : Nat} (hs : s₀.Keeps s) : s₀.Keeps (s.fnRc fn off) := by
  unfold State.fnRc
  split
  · exact hs.frame
  · split
    · exact hs.updQ
    · exact hs
  · exact hs.frame
  · exact hs

theorem Keeps.xltRc {off : Nat} (hs : s₀.Keeps s) : s₀.Keeps (s.xltRc off) := by
  unfold State.xltRc
  split
  · exact Keeps.ite hs.frame hs.frame
  · exact hs.frame
  · split
    · exact hs.updPb
    · exact hs
  · exact Keeps.ite hs hs.frame
  · exact Keeps.ite hs hs.frame
  · exact hs.frame
  · exact hs.frame
  · exact hs

theorem Keeps.seqRc {c off : Nat} (hs : s₀.Keeps s) : s₀.Keeps (s.seqRc c off) := Keeps.ite hs.claimRead (Keeps.ite hs.setHring hs)

theorem Keeps.cxRc {off : Nat} (hs : s₀.Keeps s) : s₀.Keeps (s.cxRc off) := by
  unfold State.cxRc
  refine Keeps.ite hs ?_
  split
  · exact hs.updLink
  · exact hs.updLink
  · exact hs.updLink
  · exact hs.updLink
  · exact hs

theorem Keeps.rstRc {off : Nat} (hs : s₀.Keeps s) : s₀.Keeps (s.rstRc off) := by
  unfold State.rstRc
  dsimp only
  split
  · exact Keeps.ite hs.updStn hs
  · exact Keeps.ite hs.updStn hs
  · exact hs.frame
  · exact hs.rsNext
  · exact Keeps.ite hs.updStn hs
  · exact Keeps.ite hs.updStn hs
  · exact Keeps.ite hs.updStn hs
  · exact hs

theorem Keeps.rcAt {who off : Nat} (hs : s₀.Keeps s) : s₀.Keeps (s.rcAt who off) :=
  Keeps.ite hs.seqRc (Keeps.ite hs.fnRc (Keeps.ite hs (Keeps.ite hs.xltRc (Keeps.ite hs.cxRc (Keeps.ite hs.rstRc hs)))))
theorem Keeps.regRc {who off width : Nat} (hs : s₀.Keeps s) : s₀.Keeps (s.regRc who off width) :=
  Keeps.ite (Keeps.ite hs hs.rcAt) (Keeps.ite (Keeps.ite hs.rcAt hs.rcAt.rcAt) hs)

theorem Keeps.openRead {fn off width : Nat} (hs : s₀.Keeps s) : s₀.Keeps (s.openRead fn off width).2 := by
  unfold State.openRead
  dsimp only
  split
  · exact Keeps.ite hs.rcAt hs
  · split
    · exact Keeps.ite (Keeps.rcAt (Keeps.ite hs.rcAt hs)) (Keeps.ite hs.rcAt hs)
    · exact hs

theorem Keeps.inbound {fn off width : Nat} (hs : s₀.Keeps s) : s₀.Keeps (s.inbound fn off width).2.2 := by
  unfold State.inbound
  split
  · split
    · exact hs.regRc
    · exact hs
  · exact hs.openRead

/-! ### The dictionary and CAN FD (15) -/

theorem Keeps.lcAdvance {v : Nat} {fuseOk : Bool} (hs : s₀.Keeps s) : s₀.KeepsFst (s.lcAdvance v fuseOk) :=
  .ite (.mk hs) (.ite (.mk hs.fuseSet.logFree.raise) (.mk hs.fuseSet.raise))

theorem Keeps.odAct {iface idx sub : Nat} {b : List Byte} (hs : s₀.Keeps s) : s₀.KeepsFst (s.odAct iface idx sub b) :=
  .ite (.mk hs.frame) (.ite (.ite (.mk hs.lifeCommit) (.mk hs)) (.ite (.mk hs.wallSet) (.ite (.ite (.mk hs.replanAsk) (.mk hs))
    (.ite (.ite (.mk hs.confirm) (.mk hs)) (.ite (.mk hs.draw.lcAdvance) (.ite (.ite (.mk hs.frame) (.mk hs)) (.ite (.mk hs.frame)
      (.ite (.mk hs) (.ite (.mk hs.frame) (.mk hs))))))))))

theorem Keeps.odWrite {iface idx sub : Nat} {b : List Byte} (hs : s₀.Keeps s) : s₀.Keeps (s.odWrite iface idx sub b).1 := by
  unfold State.odWrite
  split
  · exact hs
  · dsimp only
    split
    · exact hs
    · split
      · exact hs
      · split
        · exact hs
        · exact hs.odAct

theorem Keeps.odPost {code size : Nat} (hs : s₀.Keeps s) : s₀.Keeps (s.odPost code size) := hs.frame

theorem Keeps.odCtl {v : Nat} (hs : s₀.Keeps s) : s₀.Keeps (s.odCtl v) := by
  unfold State.odCtl
  refine Keeps.ite hs ?_
  split
  · exact Keeps.ite hs.odPost hs.odPost.frame
  · exact Keeps.ite hs.odPost (Keeps.ite hs.odWrite.frame hs.odWrite.odPost)
  · exact hs

theorem Keeps.canAnswer {req resp : List Byte} (hs : s₀.Keeps s) : s₀.Keeps (s.canAnswer req resp) := hs.frame.emit

theorem Keeps.canServe {req : List Byte} (hs : s₀.Keeps s) : s₀.Keeps (s.canServe req) := by
  unfold State.canServe
  refine Keeps.ite hs.emit ?_
  split
  · exact Keeps.ite hs.canAnswer hs.canAnswer
  · exact Keeps.ite hs.canAnswer (Keeps.ite hs.odWrite.frame hs.odWrite.canAnswer)
  · exact hs.canAnswer

theorem Keeps.canRequest {id : Nat} {ext : Bool} {req : List Byte} (hs : s₀.Keeps s) : s₀.Keeps (s.canRequest id ext req) :=
  Keeps.ite hs (Keeps.ite (Keeps.ite hs.emit hs.frame) hs.canServe)

theorem Keeps.canDrain {k : Nat} (hs : s₀.Keeps s) : s₀.Keeps (s.canDrain k) := by
  induction k generalizing s with
  | zero => exact hs
  | succ k ih =>
    unfold State.canDrain
    split
    · exact hs
    · exact Keeps.ite hs (ih (Keeps.canServe hs.frame))

theorem Keeps.canTime {id : Nat} {ext : Bool} {f : List Byte} (hs : s₀.Keeps s) : s₀.Keeps (s.canTime id ext f) := Keeps.ite hs.wallSet hs
theorem Keeps.canBeat (hs : s₀.Keeps s) : s₀.Keeps s.canBeat := Keeps.ite hs.emit hs
theorem Keeps.canOff (hs : s₀.Keeps s) : s₀.Keeps s.canOff := Keeps.ite hs.frame.raise hs

theorem Keeps.optWrite {ok : Bool} (hs : s₀.Keeps s) : s₀.Keeps (s.optWrite ok).1 := by
  unfold State.optWrite
  split
  · exact hs.nvmErase.nvmProgram
  · exact hs.count

theorem Keeps.optCommit {ok : Bool} (hs : s₀.Keeps s) : s₀.Keeps (s.optCommit ok) := by
  unfold State.optCommit
  refine Keeps.ite hs ?_
  split
  · rename_i x0 x1 heq
    have ht0 := Keeps.of_fst heq hs.optWrite
    dsimp only
    split
    · exact Keeps.odPost (Keeps.frame (Keeps.raise (Keeps.ite ht0.logFree ht0.raise)))
    · exact Keeps.canDrain (Keeps.canAnswer (Keeps.frame (Keeps.raise (Keeps.ite ht0.logFree ht0.raise))))
    · exact Keeps.emit (Keeps.frame (Keeps.raise (Keeps.ite ht0.logFree ht0.raise)))
    · exact Keeps.frame (Keeps.raise (Keeps.ite ht0.logFree ht0.raise))

/-! ### Register writes -/

theorem Keeps.qctl {fn v : Nat} (hs : s₀.Keeps s) : s₀.Keeps (s.qctl fn v) := by
  unfold State.qctl
  dsimp only
  split
  · exact hs.resume
  · exact hs.qctlReset
  · exact Keeps.ite hs.badQctl hs

theorem Keeps.fnPut32 {fn off v : Nat} (hs : s₀.Keeps s) : s₀.Keeps (s.fnPut32 fn off v) := by
  unfold State.fnPut32
  split
  · exact hs.qctl
  · exact hs.frame
  · exact hs.evFnCfg
  · exact hs.evFnHead
  · exact Keeps.ite hs.frame hs
  · exact hs

theorem Keeps.xltPut32 {off v : Nat} (hs : s₀.Keeps s) : s₀.Keeps (s.xltPut32 off v) := by
  unfold State.xltPut32
  split
  · exact Keeps.ite hs.mqiEnable hs
  · exact Keeps.ite hs hs.frame
  · exact hs.frame
  · exact hs.frame
  · exact hs.frame
  · exact hs.pbCfg
  · exact hs.pbHead
  · exact hs.wmapWrite
  · exact hs.frame
  · exact hs.frame
  · exact Keeps.ite hs.frame hs

theorem Keeps.pbBase {v : Nat} (hs : s₀.Keeps s) : s₀.Keeps (s.pbBase v) := by
  unfold State.pbBase
  split
  · exact Keeps.ite hs hs.updPb
  · exact hs

theorem Keeps.evcPut {fw : Bool} {off v : Nat} (hs : s₀.Keeps s) : s₀.Keeps (s.evcPut fw off v) := by
  unfold State.evcPut
  split
  · exact hs.frame
  · exact hs.frame
  · exact hs.srcCfg
  · exact hs.srcRoute
  · exact Keeps.ite hs hs.clearActive
  · exact Keeps.ite hs.raise hs
  · exact Keeps.ite hs (Keeps.ite hs.maskWord hs.maskWord)

theorem Keeps.seqPut {c off v : Nat} (hs : s₀.Keeps s) : s₀.Keeps (s.seqPut c off v) := by
  unfold State.seqPut
  split
  · exact hs.frame
  · exact hs.doneClaim
  · exact hs.frame
  · exact Keeps.foldl (fun _ _ ht => (Keeps.ite ht.setHring ht)) hs
  · exact hs.evcPut

theorem Keeps.cxPut {off v : Nat} (hs : s₀.Keeps s) : s₀.Keeps (s.cxPut off v) := by
  unfold State.cxPut
  split
  · exact hs.frame
  · exact hs.cxCtl
  · exact Keeps.ite hs.updLink hs
  · exact hs

theorem Keeps.escReq {v : Nat} (hs : s₀.Keeps s) : s₀.Keeps (s.escReq v) := by
  unfold State.escReq
  dsimp only
  split
  · exact hs.ctxStep
  · exact Keeps.ite hs.engStep hs
  · exact hs.partStep
  · exact hs.chipStep
  · exact hs

theorem Keeps.stnCtl {v : Nat} (hs : s₀.Keeps s) : s₀.Keeps (s.stnCtl v) :=
  Keeps.ite hs (Keeps.ite (Keeps.epRestart (Keeps.ite (Keeps.driverReturn (Keeps.ite hs.fenceStn hs)) (Keeps.ite hs.fenceStn hs))) (Keeps.ite
      (Keeps.driverReturn (Keeps.ite hs.fenceStn hs)) (Keeps.ite hs.fenceStn hs)))

theorem Keeps.rstPut {off v : Nat} (hs : s₀.Keeps s) : s₀.Keeps (s.rstPut off v) := by
  unfold State.rstPut
  split
  · exact hs.frame
  · exact hs.rstCtl
  · exact hs.frame
  · exact hs.frame
  · exact hs.frame
  · exact hs.pwrStnWrite
  · exact hs.escReq
  · exact hs.dumpRel
  · exact hs.frame
  · exact hs.frame
  · exact Keeps.ite hs.updStn hs
  · exact hs.stnCtl
  · exact hs

theorem Keeps.mgtPut {off v : Nat} (hs : s₀.Keeps s) : s₀.Keeps (s.mgtPut off v) := by
  unfold State.mgtPut
  split
  · exact hs.frame
  · exact hs.odCtl
  · exact Keeps.ite hs.frame.replanAsk hs.frame
  · exact hs.frame
  · exact Keeps.ite hs.frame hs

theorem Keeps.put64 {who off v : Nat} (hs : s₀.Keeps s) : s₀.Keeps (s.put64 who off v) := by
  unfold State.put64
  split
  · exact hs.frame
  · exact Keeps.ite hs hs.frame
  · exact Keeps.ite hs hs.frame
  · exact hs.pbBase
  · exact hs.frame
  · exact hs

theorem Keeps.put32 {who off v : Nat} (hs : s₀.Keeps s) : s₀.Keeps (s.put32 who off v) :=
  Keeps.ite (Keeps.ite hs.seqPut hs) (Keeps.ite hs.fnPut32 (Keeps.ite hs (Keeps.ite hs.xltPut32 (Keeps.ite hs.evcPut (Keeps.ite hs.cxPut
      (Keeps.ite hs.rstPut hs.mgtPut))))))

theorem Keeps.putWord {who off v : Nat} (hs : s₀.Keeps s) : s₀.Keeps (s.putWord who off v) := by
  unfold State.putWord
  split
  · exact Keeps.ite hs.put64 hs.put64
  · exact hs.put32

theorem Keeps.regWrite {who off width v : Nat} (hs : s₀.Keeps s) : s₀.Keeps (s.regWrite who off width v) :=
  Keeps.ite hs.putWord (Keeps.ite (Keeps.ite hs.put64 hs.putWord.putWord) hs)
theorem Keeps.inWrite {fn off width v : Nat} (hs : s₀.Keeps s) : s₀.Keeps (s.inWrite fn off width v) := Keeps.ite hs (Keeps.ite hs.sqTail hs.regWrite)

/-! ### The monitor (15) -/

theorem Keeps.say {lines : List (List Byte)} {code : Nat} (hs : s₀.Keeps s) : s₀.Keeps (s.say lines code) := hs.emit
theorem Keeps.mon {f : State → State} (hs : s₀.Keeps s) (hf : ∀ {t}, s₀.Keeps t → s₀.Keeps (f t)) : s₀.Keeps (s.mon f) := Keeps.ite (hf hs) hs
theorem Keeps.monOpen {f : State → State} (hs : s₀.Keeps s) (hf : ∀ {t}, s₀.Keeps t → s₀.Keeps (f t)) : s₀.Keeps (s.monOpen f) :=
  hs.mon (fun ht => (Keeps.ite (hf ht) ht.say))
theorem Keeps.rom {f : State → State} (hs : s₀.Keeps s) (hf : ∀ {t}, s₀.Keeps t → s₀.Keeps (f t)) : s₀.Keeps (s.rom f) := Keeps.ite (hf hs) hs
theorem Keeps.romDiag {f : State → State} (hs : s₀.Keeps s) (hf : ∀ {t}, s₀.Keeps t → s₀.Keeps (f t)) : s₀.Keeps (s.romDiag f) :=
  hs.rom (fun ht => (Keeps.ite (hf ht) ht.say))
theorem Keeps.challenge (hs : s₀.Keeps s) : s₀.Keeps s.challenge := Keeps.ite hs.say hs.draw.frame.say
theorem Keeps.wrongAnswer (hs : s₀.Keeps s) : s₀.Keeps s.wrongAnswer := hs.frame.count.say
theorem Keeps.unlocked (hs : s₀.Keeps s) : s₀.Keeps s.unlocked := hs.draw.frame.count.raise.logAppend.say

theorem Keeps.answer_ {r t : Nat} (hs : s₀.Keeps s) : s₀.Keeps (s.answer_ r t) := by
  unfold State.answer_
  split
  · exact hs.wrongAnswer
  · exact Keeps.ite hs.frame.count.say (Keeps.ite hs.unlocked hs.wrongAnswer)

theorem Keeps.fuseProg {w v : Nat} {ok : Bool} (hs : s₀.Keeps s) : s₀.Keeps (s.fuseProg w v ok) :=
  Keeps.ite hs.say (Keeps.ite hs.say (Keeps.ite hs.fuseSet.say hs.fuseSet.raise.say))
theorem Keeps.fuseRead {w : Nat} (hs : s₀.Keeps s) : s₀.Keeps (s.fuseRead w) := Keeps.ite hs.say hs.say
theorem Keeps.peek {off : Nat} (hs : s₀.Keeps s) : s₀.Keeps (s.peek off) := hs.regRc.say
theorem Keeps.xload {x : Nat} {m : List Byte} (hs : s₀.Keeps s) : s₀.Keeps (s.xload x m) :=
  Keeps.ite hs.say (Keeps.ite hs.slotWrite.slotPut.say hs.slotWrite.say)

/-! ### Parity (13) -/

theorem Keeps.parityCount {u n : Nat} {per : Bool} (hs : s₀.Keeps s) : s₀.Keeps (s.parityCount u n per) := by
  unfold State.parityCount
  split
  · exact hs.frame.countBy
  · exact hs.updStn.countBy

theorem Keeps.rsMark {a v : Nat} (hs : s₀.Keeps s) : s₀.Keeps (s.rsMark a v) := hs.rsWrite

theorem Keeps.rsFail {w : Nat} (hs : s₀.Keeps s) : s₀.Keeps (s.rsFail w) := by
  unfold State.rsFail
  refine Keeps.ite hs.rsWrite.rsMark (Keeps.ite hs.rsWrite ?_)
  split
  · exact hs.rsWrite.rsMark
  · exact hs.rsWrite

theorem Keeps.loseEvent (hs : s₀.Keeps s) : s₀.Keeps s.loseEvent := by
  unfold State.loseEvent
  split
  · exact hs
  · exact Keeps.ite hs.setSrc.hubRingLose hs.setSrc.fnRingLose

theorem Keeps.parityHeld {a : ParityWord} (hs : s₀.Keeps s) : s₀.Keeps (s.parityHeld a) := by
  unfold State.parityHeld
  split
  · exact hs
  · exact hs
  · exact hs
  · exact hs.frame
  · exact hs.updStn
  · exact hs
  · split
    · exact hs
    · exact hs.updPb.pbLose
  · exact hs.loseEvent
  · exact Keeps.ite hs.ask hs
  · exact hs.ask
  · exact Keeps.ite hs.restartCore hs
  · exact hs.ask
  · exact hs.rsFail

theorem Keeps.parity {a : Parity} (hs : s₀.Keeps s) : s₀.Keeps (s.parity a) := by
  unfold State.parity
  split
  · exact hs
  · exact hs.parityCount
  · exact hs.parityCount.elog.raise.parityHeld

theorem Keeps.loseIndex {cl : Client} (hs : s₀.Keeps s) : s₀.Keeps (s.loseIndex cl) := hs.updCmd.cancelCmd

theorem Keeps.response {stn lane tag cid key type : Nat} {data : List Byte} {poison : Nat} {last : Bool} {par : Parity} (hs : s₀.Keeps s) :
    s₀.Keeps (s.response stn lane tag cid key type data poison last par) := by
  unfold State.response
  refine Keeps.ite hs ?_
  split
  · exact Keeps.ite hs.memResponse (Keeps.parity (Keeps.answer (Keeps.ite (Keeps.loseIndex (Keeps.ite hs.part.mpBad hs.part))
      (Keeps.ite hs.part.mpBad hs.part))))
  · exact hs.memResponse

/-! ### The commands -/

/-- Every command but POWER_ON and the power-cycle step keeps the memories' form, the fuses and TRAY_PCR, by what its operation keeps. -/
theorem exec_keeps (c : Instr) (s : State) (hon : c ≠ .powerOn) (hcycle : c ≠ .powerCycleStep) : ∃ t, exec c s = .next t ∧ s.Keeps t := by
  have hs := Keeps.refl s
  cases c with
  | sqTailDoorbell => exact ⟨_, rfl, hs.mmioOf (fun ht => ht.sqTail)⟩
  | cqHeadDoorbell => exact ⟨_, rfl, hs.mmioOf (fun ht => ht.sqTail)⟩
  | queueSelectAndFetch => exact ⟨_, rfl, Keeps.selectAndFetch (Keeps.refillLists (Keeps.foldl (fun _ _ ht => ht.settleQueue) hs))⟩
  | expressWindowEnd => exact ⟨_, rfl, hs.frame⟩
  | envelopeReceived =>
    refine ⟨_, rfl, ?_⟩
    split
    · split
      · exact hs.answer.parity
      · exact hs
    · exact hs.deadLtp
  | commandCompletion => exact ⟨_, rfl, hs.completeCmd⟩
  | cqItimeExpiry =>
    refine ⟨_, rfl, ?_⟩
    split
    · exact (Keeps.ite hs.updQ.irq hs)
    · exact hs
  | qctlResume => exact ⟨_, rfl, hs.mmioOf (fun ht => ht.resume)⟩
  | qctlReset => exact ⟨_, rfl, hs.mmioOf (fun ht => ht.qctlReset)⟩
  | guiltyQueueResetDone => exact ⟨_, rfl, hs.resetDone.settleSteps⟩
  | guiltyResetBoundExpiry => exact ⟨_, rfl, Keeps.ite hs.ask hs⟩
  | mqiEnable => exact ⟨_, rfl, hs.mmio (fun ht => ht.mqiEnable)⟩
  | registerWrite => exact ⟨_, rfl, Keeps.ite hs.regWrite (Keeps.ite hs.inWrite hs)⟩
  | nop => exact ⟨_, rfl, hs.start (fun ht => ht.doNop)⟩
  | fenceSignal => exact ⟨_, rfl, hs.start (fun ht => ht.doFenceSignal)⟩
  | fenceCreate => exact ⟨_, rfl, hs.start (fun ht => ht.doFenceCreate)⟩
  | fenceDestroy => exact ⟨_, rfl, hs.start (fun ht => ht.doFenceDestroy)⟩
  | fenceClearError => exact ⟨_, rfl, hs.start (fun ht => ht.doFenceClear)⟩
  | fenceWait => exact ⟨_, rfl, hs.start (fun ht => ht.doFenceWait)⟩
  | graphEdge => exact ⟨_, rfl, hs.start (fun ht => ht.doGraphEdge)⟩
  | lookupPool => exact ⟨_, rfl, hs.start (fun ht => ht.doLookup)⟩
  | lookupGather => exact ⟨_, rfl, hs.start (fun ht => ht.doLookup)⟩
  | lookupMulti => exact ⟨_, rfl, hs.start (fun ht => ht.doMulti)⟩
  | occurrence =>
    refine ⟨_, rfl, ?_⟩
    split
    · exact (Keeps.ite hs.loseIndex.settleAfter.parity hs.occurrence.parity)
    · exact hs
  | partialArrival => exact ⟨_, rfl, hs.partialArrival⟩
  | stationFinalReport => exact ⟨_, rfl, hs.finalReport.pumpAll⟩
  | updateRows => exact ⟨_, rfl, hs.start (fun ht => ht.doUpdate)⟩
  | updateAccum => exact ⟨_, rfl, hs.start (fun ht => ht.doUpdate)⟩
  | tableSwitchPublish => exact ⟨_, rfl, hs.start (fun ht => ht.doSwitch)⟩
  | tableSwitchNewBase => exact ⟨_, rfl, hs.start (fun ht => ht.doNewBase)⟩
  | tableSwitchDiscard => exact ⟨_, rfl, hs.start (fun ht => ht.doSwitch)⟩
  | switchPoint => exact ⟨_, rfl, hs.switchPoint⟩
  | versionRetire => exact ⟨_, rfl, hs.versionRetire.settleTable⟩
  | tableRetireWait => exact ⟨_, rfl, hs.start (fun ht => ht.doRetire)⟩
  | tableRetireTable => exact ⟨_, rfl, hs.start (fun ht => ht.doRetire)⟩
  | tableCompactCopy => exact ⟨_, rfl, hs.start (fun ht => ht.doCompact)⟩
  | copyInstall => exact ⟨_, rfl, hs.copyInstall⟩
  | tableCompactRebase => exact ⟨_, rfl, (hs.start (fun ht => ht.doRebase)).resumeHeld.settleStreams⟩
  | summaryRebuild => exact ⟨_, rfl, hs.summaryRebuild⟩
  | streamOpen => exact ⟨_, rfl, hs.start (fun ht => ht.doStreamOpen)⟩
  | streamAppend => exact ⟨_, rfl, (hs.start (fun ht => ht.doAppend)).pumpAll⟩
  | streamGather => exact ⟨_, rfl, (hs.start (fun ht => ht.doGather)).pumpAll⟩
  | streamClose => exact ⟨_, rfl, (hs.start (fun ht => ht.doClose)).pumpAll⟩
  | streamTrim => exact ⟨_, rfl, (hs.start (fun ht => ht.doClose)).pumpAll⟩
  | scanLutBuild => exact ⟨_, rfl, hs.start (fun ht => ht.doLutBuild)⟩
  | scanPq => exact ⟨_, rfl, hs.start (fun ht => ht.doScan)⟩
  | dispatch => exact ⟨_, rfl, hs.start (fun ht => ht.doDispatch)⟩
  | copy => exact ⟨_, rfl, hs.start (fun ht => ht.doCopy)⟩
  | census => exact ⟨_, rfl, hs.start (fun ht => ht.doCensus)⟩
  | programLoad => exact ⟨_, rfl, hs.start (fun ht => ht.doProgLoad)⟩
  | programUnload => exact ⟨_, rfl, hs.start (fun ht => ht.doProgUnload)⟩
  | contextCreate => exact ⟨_, rfl, hs.start (fun ht => ht.doCtxCreate)⟩
  | contextDestroy => exact ⟨_, rfl, hs.start (fun ht => ht.doCtxDestroy)⟩
  | queueCreate => exact ⟨_, rfl, hs.start (fun ht => ht.doQueueCreate)⟩
  | queueDestroy => exact ⟨_, rfl, hs.start (fun ht => ht.doQueueDestroy)⟩
  | queueDrained => exact ⟨_, rfl, hs.queueDrained⟩
  | tableCreate => exact ⟨_, rfl, hs.start (fun ht => ht.doTableCreate)⟩
  | partitionCreate => exact ⟨_, rfl, hs.start (fun ht => ht.doPartCreate)⟩
  | partitionRemove => exact ⟨_, rfl, hs.start (fun ht => ht.doPartRemove)⟩
  | partitionDrained => exact ⟨_, rfl, hs.partDrained⟩
  | tDrainExpiry => exact ⟨_, rfl, hs.drainExpiry⟩
  | segmentSet => exact ⟨_, rfl, hs.start (fun ht => ht.doSegmentSet)⟩
  | invalidateRange => exact ⟨_, rfl, hs.start (fun ht => ht.doInvalidate)⟩
  | extentAck => exact ⟨_, rfl, hs.extentAck⟩
  | invalidateAckTimeout => exact ⟨_, rfl, hs.invTimeout⟩
  | keyslotLoad => exact ⟨_, rfl, hs.start (fun ht => ht.doKeyLoad)⟩
  | keyslotScrub => exact ⟨_, rfl, hs.start (fun ht => ht.doKeyScrub)⟩
  | scrubTagsDrained => exact ⟨_, rfl, hs.scrubDrained⟩
  | keyAck => exact ⟨_, rfl, hs.keyAck.settleRemovals⟩
  | keyAckTimeout => exact ⟨_, rfl, Keeps.ite hs.ask hs⟩
  | firmwareStage => exact ⟨_, rfl, hs.start (fun ht => ht.doFwStage)⟩
  | firmwareActivate => exact ⟨_, rfl, hs.start (fun ht => ht.doFwActivate)⟩
  | liveUpdate => exact ⟨_, rfl, hs.start (fun ht => ht.doLive)⟩
  | trialConfirmTimer => exact ⟨_, rfl, hs.trialTimer⟩
  | confirm => exact ⟨_, rfl, Keeps.ite hs.confirm hs⟩
  | commandTimeout => exact ⟨_, rfl, hs.cmdTimeout⟩
  | parkedHeadTimeout => exact ⟨_, rfl, hs.headTimeout⟩
  | flr => exact ⟨_, rfl, hs.flrStart (fun ht => (Keeps.ite ht.pfReset ht.flrOf))⟩
  | flrComplete => exact ⟨_, rfl, hs.flrDone⟩
  | flrIsolationTimeout => exact ⟨_, rfl, hs.flrIsolate⟩
  | pfFunctionReset => exact ⟨_, rfl, hs.flrStart (fun ht => ht.pfReset)⟩
  | functionStateUpdate => exact ⟨_, rfl, hs.fnUpdate⟩
  | hostHotReset => exact ⟨_, rfl, hs.warmReset⟩
  | inboundMmioRead => exact ⟨_, rfl, Keeps.ite hs.regRc.emit hs.inbound.emit⟩
  | ltpCompletion => exact ⟨_, rfl, hs.ltpCompletion⟩
  | ltpReadTimeout => exact ⟨_, rfl, Keeps.ite hs.failRest hs⟩
  | memoryResponse => exact ⟨_, rfl, hs.response⟩
  | memoryTimeout => exact ⟨_, rfl, hs.memTimeout⟩
  | sweepStart => exact ⟨_, rfl, hs.sweepStart⟩
  | memRdyRise => exact ⟨_, rfl, hs.memRise⟩
  | memRdyFall => exact ⟨_, rfl, Keeps.ite hs.memFall hs⟩
  | postbagBatchWrite => exact ⟨_, rfl, hs.pbBatch⟩
  | postbagEnable => exact ⟨_, rfl, hs.mmio (fun ht => ht.pbCfg)⟩
  | postbagHeadWrite => exact ⟨_, rfl, hs.mmio (fun ht => ht.pbHead)⟩
  | faultLostClear => exact ⟨_, rfl, hs.mmio (fun ht => ht.frame)⟩
  | xltWmapWrite => exact ⟨_, rfl, hs.mmio (fun ht => ht.wmapWrite)⟩
  | walkReadResponse =>
    refine ⟨_, rfl, ?_⟩
    split
    · split
      · refine (Keeps.answer ?_)
        split
        · exact (Keeps.ite hs.part.mpBad hs.part)
        · exact hs.part
      · exact hs
    · exact hs.deadLtp
  | eventInputChange => exact ⟨_, rfl, hs.setInput⟩
  | eventDelivery => exact ⟨_, rfl, hs.deliver⟩
  | eventRingEnable => exact ⟨_, rfl, hs.mmioOf (fun ht => ht.evFnCfg)⟩
  | eventRingHeadWrite => exact ⟨_, rfl, hs.mmioOf (fun ht => ht.evFnHead)⟩
  | evcAck => exact ⟨_, rfl, hs.mmio (fun ht => (Keeps.ite ht ht.clearActive))⟩
  | evcSwset => exact ⟨_, rfl, hs.hostOr (fun ht => (Keeps.ite ht.raise ht))⟩
  | evcMaskSet => exact ⟨_, rfl, hs.hostOr (fun ht => ht.maskWord)⟩
  | evcMaskClr => exact ⟨_, rfl, hs.hostOr (fun ht => ht.maskWord)⟩
  | sourceConfigWrite => exact ⟨_, rfl, hs.hostOr (fun ht => (Keeps.ite ht.srcRoute ht.srcCfg))⟩
  | evcClaim => exact ⟨_, rfl, hs.claim⟩
  | evcDone => exact ⟨_, rfl, hs.doneClaim⟩
  | frankingCreditReturn => exact ⟨_, rfl, hs.franking⟩
  | upstreamBeat => exact ⟨_, rfl, hs.upBeat⟩
  | doneResponse => exact ⟨_, rfl, hs.doneResp⟩
  | engRdyChange => exact ⟨_, rfl, hs.engRdy⟩
  | engineQuiesceAck => exact ⟨_, rfl, hs.qack⟩
  | engineReturnTimeout => exact ⟨_, rfl, hs.updEp⟩
  | flitReceive => exact ⟨_, rfl, Keeps.ite (Keeps.ite hs.flitIn.linkDown hs.flitIn) hs⟩
  | replayTimeout => exact ⟨_, rfl, Keeps.ite hs.resend hs⟩
  | linkTrainTimeout => exact ⟨_, rfl, Keeps.ite hs.trainTimeout.linkSettle hs⟩
  | linkTrainDone => exact ⟨_, rfl, Keeps.ite hs.trainDone.linkSettle hs⟩
  | cxDisable => exact ⟨_, rfl, hs.mmio (fun ht => ht.cxDisable)⟩
  | cxRestart => exact ⟨_, rfl, hs.mmio (fun ht => ht.cxRestart)⟩
  | spareGo => exact ⟨_, rfl, hs.mmio (fun ht => (Keeps.ite ht.updLink.startSpare ht))⟩
  | spareWindowCheck => exact ⟨_, rfl, hs.window⟩
  | spareRequest => exact ⟨_, rfl, Keeps.ite hs.updLink hs⟩
  | switchOrder => exact ⟨_, rfl, hs.takeOrder⟩
  | spareLockTimeout => exact ⟨_, rfl, hs.lockTimeout⟩
  | spareBackgroundRetrain => exact ⟨_, rfl, Keeps.ite hs.updLink hs⟩
  | laneLoss => exact ⟨_, rfl, hs.laneLost⟩
  | heartbeat => exact ⟨_, rfl, hs.heartbeat⟩
  | heartbeatAnswer => exact ⟨_, rfl, hs.beatAnswer⟩
  | stationWatchdogExpiry => exact ⟨_, rfl, hs.fenceStn⟩
  | stnHctlFence => exact ⟨_, rfl, hs.mmio (fun ht => ht.fenceStn)⟩
  | stationReturn => exact ⟨_, rfl, hs.stnReturn⟩
  | stnHctlReturn => exact ⟨_, rfl, hs.mmio (fun ht => ht.driverReturn)⟩
  | epRestart => exact ⟨_, rfl, hs.mmio (fun ht => (Keeps.ite ht.epRestart ht))⟩
  | debugReadTimeout => exact ⟨_, rfl, hs.debugLate⟩
  | watchdogExpiry => exact ⟨_, rfl, hs.watchdog⟩
  | faultCoresHung => exact ⟨_, rfl, hs.coresHung⟩
  | contextStep => exact ⟨_, rfl, hs.ctxStep⟩
  | engineStep => exact ⟨_, rfl, hs.engStep⟩
  | partitionStep => exact ⟨_, rfl, hs.partStep⟩
  | chipStep => exact ⟨_, rfl, hs.chipStep⟩
  | escalationBoundExpiry => exact ⟨_, rfl, hs.boundExpiry⟩
  | powerCycleStep => exact absurd rfl hcycle
  | dumpRelease => exact ⟨_, rfl, hs.mmio (fun ht => ht.dumpRel)⟩
  | rsramDataRead => exact ⟨_, rfl, hs.rsNext.emit⟩
  | powerOn => exact absurd rfl hon
  | brownout => exact ⟨_, rfl, hs.brownout⟩
  | brownoutRelease => exact ⟨_, rfl, hs.brownoutEnd⟩
  | pinWarmReset => exact ⟨_, rfl, hs.warmReset⟩
  | trayReset => exact ⟨_, rfl, hs.warmReset⟩
  | softwareReset => exact ⟨_, rfl, hs.mmio (fun ht => ht.rstCtl)⟩
  | jtagChipReset => exact ⟨_, rfl, hs.jtagReset⟩
  | tapReset => exact ⟨_, rfl, hs.frame⟩
  | clockCheckRetry => exact ⟨_, rfl, hs.clockRetry⟩
  | memoryReadyTimeout => exact ⟨_, rfl, hs.memoryLate⟩
  | hubClockStopped => exact ⟨_, rfl, hs.clockStopped⟩
  | idleTimerDoze => exact ⟨_, rfl, hs.dozeTimer⟩
  | dozeTimerSleep => exact ⟨_, rfl, hs.sleepTimer⟩
  | sleepTimerOff => exact ⟨_, rfl, hs.offTimer⟩
  | entryCommit => exact ⟨_, rfl, hs.commitEntry⟩
  | idleRequestTimeout => exact ⟨_, rfl, hs.idleLate⟩
  | stationDemand => exact ⟨_, rfl, Keeps.ite hs.demandStn hs⟩
  | psAck => exact ⟨_, rfl, hs.ackPs⟩
  | wakeAckTimeout => exact ⟨_, rfl, hs.wakeLate⟩
  | keepWarmLapse => exact ⟨_, rfl, hs.updQ⟩
  | policyWrite => exact ⟨_, rfl, hs.mmio (fun ht => ht.pwrStnWrite)⟩
  | replan => exact ⟨_, rfl, hs.replan⟩
  | autoReplan => exact ⟨_, rfl, hs.autoReplan⟩
  | frequencyStep => exact ⟨_, rfl, hs.freqStep⟩
  | arithFack => exact ⟨_, rfl, hs.freqDone⟩
  | arithFackTimeout => exact ⟨_, rfl, hs.freqLate⟩
  | avsRailWrite => exact ⟨_, rfl, Keeps.ite hs.avsWrite hs⟩
  | uptimeTick => exact ⟨_, rfl, hs.tick⟩
  | lifetimeCommit => exact ⟨_, rfl, Keeps.ite hs.lifeCommit hs⟩
  | optionCommit => exact ⟨_, rfl, hs.optCommit⟩
  | wallSet => exact ⟨_, rfl, Keeps.ite hs.wallSet hs⟩
  | lcAdvance => exact ⟨_, rfl, Keeps.ite hs.odWrite hs⟩
  | odRead => exact ⟨_, rfl, hs.mmio (fun ht => (Keeps.ite ht.odCtl ht))⟩
  | odWrite => exact ⟨_, rfl, hs.mmio (fun ht => (Keeps.ite ht.odCtl ht))⟩
  | canRequest => exact ⟨_, rfl, hs.canRequest⟩
  | canTime => exact ⟨_, rfl, hs.canTime⟩
  | canHeartbeat => exact ⟨_, rfl, hs.canBeat⟩
  | canBusOff => exact ⟨_, rfl, hs.canOff⟩
  | monitorHelp => exact ⟨_, rfl, hs.mon (fun ht => ht.say)⟩
  | monitorId => exact ⟨_, rfl, hs.mon (fun ht => ht.say)⟩
  | monitorStat => exact ⟨_, rfl, hs.mon (fun ht => ht.say)⟩
  | monitorElog => exact ⟨_, rfl, hs.mon (fun ht => ht.say)⟩
  | monitorLlog => exact ⟨_, rfl, hs.mon (fun ht => ht.say)⟩
  | monitorAge => exact ⟨_, rfl, hs.mon (fun ht => (Keeps.ite ht.say ht.say))⟩
  | monitorCx => exact ⟨_, rfl, hs.mon (fun ht => (Keeps.ite ht.say ht.say))⟩
  | monitorStn => exact ⟨_, rfl, hs.mon (fun ht => (Keeps.ite ht.say ht.say))⟩
  | monitorOdRead => exact ⟨_, rfl, hs.mon (fun ht => ht.say)⟩
  | monitorOdWrite => exact ⟨_, rfl, hs.monOpen (fun ht => (Keeps.ite ht.odWrite ht.odWrite.say))⟩
  | unlock =>
    refine ⟨_, rfl, ?_⟩
    refine (hs.mon (fun ht => ?_))
    split
    · exact ht.challenge
    · exact ht.answer_
  | lock => exact ⟨_, rfl, hs.mon (fun ht => ht.endUnlock.say)⟩
  | unlockExpiry => exact ⟨_, rfl, Keeps.ite hs.endUnlock hs⟩
  | unlockLockoutEnd => exact ⟨_, rfl, hs.frame⟩
  | monitorReplan => exact ⟨_, rfl, hs.monOpen (fun ht => ht.replanAsk.say)⟩
  | baud => exact ⟨_, rfl, hs.monOpen (fun ht => (Keeps.ite ht.say.frame ht.say))⟩
  | monitorDump => exact ⟨_, rfl, hs.monOpen (fun ht => (Keeps.ite ht.say ht.say))⟩
  | peek => exact ⟨_, rfl, hs.monOpen (fun ht => ht.peek)⟩
  | poke => exact ⟨_, rfl, hs.monOpen (fun ht => ht.regWrite.say)⟩
  | monitorReset => exact ⟨_, rfl, hs.monOpen (fun ht => ht.say.warmReset)⟩
  | fuseRead => exact ⟨_, rfl, hs.monOpen (fun ht => ht.fuseRead)⟩
  | fuseProgram => exact ⟨_, rfl, hs.monOpen (fun ht => ht.fuseProg)⟩
  | monitorLc => exact ⟨_, rfl, hs.monOpen (fun ht => ht.lcAdvance.say)⟩
  | bootromId => exact ⟨_, rfl, hs.rom (fun ht => ht.say)⟩
  | bootlog => exact ⟨_, rfl, hs.rom (fun ht => ht.say)⟩
  | xload => exact ⟨_, rfl, hs.rom (fun ht => ht.xload)⟩
  | bootromReset => exact ⟨_, rfl, hs.rom (fun ht => ht.say.warmReset)⟩
  | bootromPeek => exact ⟨_, rfl, hs.romDiag (fun ht => ht.peek)⟩
  | bootromFuseRead => exact ⟨_, rfl, hs.romDiag (fun ht => ht.fuseRead)⟩
  | spareLocked => exact ⟨_, rfl, hs.orderSwitch⟩
  | spareSwitchCountReached => exact ⟨_, rfl, hs.switchLane⟩
  | returnMemRdyTimeout => exact ⟨_, rfl, hs.memRdyLate⟩
  | cxDisableClear => exact ⟨_, rfl, hs.mmio (fun ht => ht.cxEnable)⟩
  | tapInstructionLoad => exact ⟨_, rfl, hs.tapLoad⟩

/-- POWER_ON keeps the memories' form and the fuses, and leaves TRAY_PCR low (R421, R422). -/
theorem powerOn_keeps (s : State) : (s.memWf = true → s.powerOn.memWf = true) ∧ s.fusesKept s.powerOn ∧ s.powerOn.tray = false := by
  have hloss : s.Keeps { s.flrdAll.holdEps.powerLoss with tray := s.tray } := (Keeps.refl s).flrdAll.holdEps.powerLoss
  have hon : State.Keeps { s.flrdAll.holdEps.powerLoss with spi := s.build.norAnswers } s.powerOn :=
    (Keeps.refl _).count.release
  exact ⟨fun h => hon.mem (hloss.mem h), fun w b hb => hon.fuses w b (hloss.fuses w b hb), hon.tray⟩

/-- A power-cycle step that is due leaves TRAY_PCR high (R384, R408). -/
theorem powerCycle_tray (s : State) : s.powerCycle.tray = (s.tray || s.want.contains (5, 0)) := by
  unfold State.powerCycle
  cases h : s.want.contains (5, 0)
  · exact (Bool.or_false _).symm
  · exact (Bool.or_true _).symm

end Sys2Proof.Machine.State

end

section

/-! Steps: the front of the queue, the memories' form, the fuses and TRAY_PCR (R365, R384, R386, R408, R421). -/

namespace Sys2Proof.Machine

/-- Whatever the command, the memories' form and the fuses are kept, and what becomes of TRAY_PCR depends on the command alone. -/
theorem exec_next_keeps {c : Instr} {s t : State} (h : exec c s = .next t) :
    (s.memWf = true → t.memWf = true) ∧ s.fusesKept t ∧
      (s.tray = false → t.tray = true → c = .powerCycleStep) ∧ (s.tray = true → t.tray = false → c = .powerOn) := by
  by_cases hon : c = .powerOn
  · subst hon
    cases h
    obtain ⟨hm, hf, ht⟩ := s.powerOn_keeps
    exact ⟨hm, hf, fun _ h => absurd (ht.symm.trans h) (by decide), fun _ _ => rfl⟩
  · by_cases hcycle : c = .powerCycleStep
    · subst hcycle
      cases h
      have hk := (State.Keeps.refl s).powerCycle
      exact ⟨hk.mem, hk.fuses, fun _ _ => rfl, fun h h' => absurd (h'.symm.trans s.powerCycle_tray) (by simp [h])⟩
    · obtain ⟨u, hu, hk⟩ := State.exec_keeps c s hon hcycle
      cases hu.symm.trans h
      exact ⟨hk.mem, hk.fuses, fun h h' => absurd (h.symm.trans (hk.tray.symm.trans h')) (by decide),
        fun h h' => absurd (h.symm.trans (hk.tray.symm.trans h')) (by decide)⟩

/-- A step of a state with a command at the front of its queue is that command's effect. -/
theorem step_cons {s : State} {c : Instr} {rest : List Instr} (h : s.pending = c :: rest) : step s = exec c { s with pending := rest } := by
  unfold step
  rw [h]

/-- An idle step changes nothing. -/
theorem step_nil {s : State} (h : s.pending = []) : step s = .next s := by
  unfold step
  rw [h]

/-- Settles O1: `step` takes the queue apart. -/
theorem stepTakesTheFrontCommand : Obligations.StepTakesTheFrontCommand :=
  ⟨fun _ _ _ => rfl, fun _ => step_nil⟩

/-- Settles O3, by evaluation. -/
theorem resetMemoriesCanonical : Obligations.ResetMemoriesCanonical := ⟨reset_memWf, rfl⟩

/-- Settles O2, by what each command keeps (`exec_next_keeps`). -/
theorem stepKeepsMemoriesCanonical : Obligations.StepKeepsMemoriesCanonical := by
  intro s t hs ht
  cases hp : s.pending with
  | nil =>
    cases (step_nil hp).symm.trans ht
    exact hs
  | cons c rest => exact (exec_next_keeps ((step_cons hp).symm.trans ht)).1 hs

/-- Settles O4, by what each command keeps (`exec_next_keeps`). -/
theorem stepKeepsProgrammedFuses : Obligations.StepKeepsProgrammedFuses := by
  intro s t ht
  cases hp : s.pending with
  | nil =>
    cases (step_nil hp).symm.trans ht
    exact fun _ _ => id
  | cons c rest => exact (exec_next_keeps ((step_cons hp).symm.trans ht)).2.1

/-- Settles O5, by what each command does to TRAY_PCR (`exec_next_keeps`). -/
theorem trayPcrRisesByTheLastStepAlone : Obligations.TrayPcrRisesByTheLastStepAlone := by
  intro s t c rest hp ht
  obtain ⟨-, -, hrise, hfall⟩ := exec_next_keeps ((step_cons hp).symm.trans ht)
  exact ⟨hrise, hfall⟩

end Sys2Proof.Machine

end

section

/-! Crash dumps: flags, reads and late debug reads (R407, R415 to R418, R420). -/

namespace Sys2Proof.Machine

/-! ### Dump flags (R415) -/

/-- FLAGS of a dump slot's header are the low bits of its fourth byte (R415). -/
theorem State.dumpFlags_eq (s : State) (k : Nat) : s.dumpFlags k = (Tab.atD s.rcv.rsram (dumpAt k + 3) 0).toNat % 16 := by
  simp [State.dumpFlags, State.rsRead, rd, runFrom, leNat]

/-- Setting flags writes one byte of the retention SRAM. -/
theorem State.setDumpFlags_frame (s : State) (k f : Nat) :
    s.setDumpFlags k f = { s with rcv := { s.rcv with rsram := (s.setDumpFlags k f).rcv.rsram } } := rfl

theorem State.setDumpFlags_outside (s : State) (k f : Nat) {a : Nat} (h : a ≠ dumpAt k + 3) :
    Tab.atD (s.setDumpFlags k f).rcv.rsram a 0 = Tab.atD s.rcv.rsram a 0 :=
  cellsWrite_outside _ _ _ (by simp only [leBytes_length]; omega)

/-- Flags that are set are added to those that were. -/
theorem State.setDumpFlags_flags (s : State) (k : Nat) {f : Nat} (hf : f < 16) : (s.setDumpFlags k f).dumpFlags k = s.dumpFlags k ||| f := by
  have hor : s.dumpFlags k ||| f < 16 := Nat.or_lt_two_pow (n := 4) (Nat.mod_lt _ (by decide)) hf
  have hread : Tab.atD (s.setDumpFlags k f).rcv.rsram (dumpAt k + 3) 0 = BitVec.ofNat 8 (s.dumpFlags k ||| f) :=
    cellPut_self _ _ _
  rw [State.dumpFlags_eq, hread, BitVec.toNat_ofNat]
  omega

/-! ### A late debug read (R417) -/

/-- A debug read without an answer ends its section, and collection goes on (R417). -/
theorem State.debugTimeout_section {s : State} {c : Coll} {cs : List Coll} {u : Nat} {us : List Nat} (hc : s.rcv.colls = c :: cs)
    (hu : c.todo = u :: us) :
    s.debugTimeout =
      let n := Config.dumpLen (s.fresh + 1) u % max 1 (ceilDiv (s.sectBody u c.pid).length 64)
      let r := s.draw.draw.putSect c u 1 ((s.sectBody u c.pid).take (64 * n))
      let t : State := { r.1 with rcv := { r.1.rcv with colls := r.2 :: cs } }
      t.runColl t.collFuel := by
  unfold State.debugTimeout
  rw [hc]
  dsimp only
  rw [hu]

/-- Settles O45: a released slot's flag is added to its header, a word of the retention SRAM is read and passed, and a late debug read ends its
section with the bytes already read. -/
theorem dumpsAreReadAndReleased : Obligations.DumpsAreReadAndReleased := by
  refine ⟨fun s v hs => ?_, fun s tag => rfl, fun s c cs u us hc hu => ?_⟩
  · refine ⟨s.setDumpFlags (bits v.toNat 0 1) 4, congrArg Host.Outcome.next (State.mmio_reaches _ hs), rfl, ?_, ?_⟩
    · exact s.setDumpFlags_flags _ (by decide)
    · exact fun a ha => s.setDumpFlags_outside _ _ ha
  · refine ⟨_, _, rfl, rfl, ?_⟩
    show Host.Outcome.next s.debugLate = _
    unfold State.debugLate
    rw [State.debugTimeout_section hc hu]
    simp only [State.putSect, hu]
    rfl

end Sys2Proof.Machine

end

section

/-! The SPI NOR: what programs, erases and log records change (R387, R460, R461, R480). -/

namespace Sys2Proof.Machine

/-! ### What operations over the SPI NOR change (R387, R460, R480) -/

/-- From `s` to `t` the SPI NOR, the counters' companions and what was driven alone changed, and nothing driven was taken back. -/
structure State.NorMoved (s t : State) : Prop where
  eq : t = { s with nvm := t.nvm, incr := t.incr, out := t.out }
  out : s.out <+: t.out

/-- From `s` to `t` the SPI NOR, the place in the lifetime ring, the counters and what was driven alone changed, and nothing driven was taken
back. -/
structure State.LogMoved (s t : State) : Prop where
  eq : t = { s with nvm := t.nvm, incr := t.incr, out := t.out, logAt := t.logAt, logSeq := t.logSeq, life := t.life }
  out : s.out <+: t.out

variable {s t u : State}

theorem State.NorMoved.refl (s : State) : s.NorMoved s := ⟨rfl, List.prefix_rfl⟩

theorem State.NorMoved.trans (h : s.NorMoved t) (k : t.NorMoved u) : s.NorMoved u := ⟨by rw [k.eq, h.eq], h.out.trans k.out⟩

theorem State.NorMoved.ite {p : Prop} [Decidable p] (h : s.NorMoved t) (k : s.NorMoved u) : s.NorMoved (if p then t else u) := by
  split
  · exact h
  · exact k

theorem State.NorMoved.logMoved (h : s.NorMoved t) : s.LogMoved t := ⟨by rw [h.eq], h.out⟩

theorem State.LogMoved.refl (s : State) : s.LogMoved s := (State.NorMoved.refl s).logMoved

theorem State.LogMoved.trans (h : s.LogMoved t) (k : t.LogMoved u) : s.LogMoved u := ⟨by rw [k.eq, h.eq], h.out.trans k.out⟩

theorem State.LogMoved.ite {p : Prop} [Decidable p] (h : s.LogMoved t) (k : s.LogMoved u) : s.LogMoved (if p then t else u) := by
  split
  · exact h
  · exact k

theorem State.count_norMoved (s : State) (x k : Nat) : s.NorMoved (s.count x k) := by
  obtain ⟨i, hi⟩ := s.count_frame x k
  rw [hi]
  exact ⟨rfl, List.prefix_rfl⟩

theorem State.emits_norMoved (s : State) (os : List Output) : s.NorMoved (s.emits os) := ⟨rfl, List.prefix_append _ _⟩

/-- A fold of such changes is one. -/
theorem State.foldl_norMoved {α : Type} {f : State → α → State} (hf : ∀ (v : State) x, v.NorMoved (f v x)) (l : List α) (s : State) :
    s.NorMoved (l.foldl f s) :=
  foldl_keeps s.NorMoved f l (fun v x _ hv => hv.trans (hf v x)) s (.refl s)

theorem State.nvmProgram_norMoved (s : State) (a : Nat) (bs : List Byte) : s.NorMoved (s.nvmProgram a bs) := by
  unfold State.nvmProgram
  have hw := State.foldl_norMoved (f := fun v (x : Nat × List Byte) => v.spiWrite (spiCmd 0x12 x.1 ++ x.2)) (fun v _ => v.emits_norMoved _)
    (spiPages a bs) s
  refine .ite (hw.trans ⟨rfl, List.prefix_rfl⟩) (s.count_norMoved _ _)

theorem State.nvmErase_norMoved (s : State) (a : Nat) : s.NorMoved (s.nvmErase a) := by
  unfold State.nvmErase
  have hw : s.NorMoved { s.spiWrite (spiCmd 0x21 a) with nvm := s.nvm.filter (fun e => e.1 / 4096 != a / 4096) } :=
    ⟨rfl, List.prefix_append _ _⟩
  exact .ite (hw.trans (State.count_norMoved _ _ _)) (s.count_norMoved _ _)

theorem State.nvmEraseRange_norMoved (s : State) (a n : Nat) : s.NorMoved (s.nvmEraseRange a n) :=
  State.foldl_norMoved (fun v k => v.nvmErase_norMoved (a + 4096 * k)) _ s

/-- A slot's state log is in the SPI NOR (R480). -/
theorem State.slotPut_norMoved (s : State) (x : Nat) (r : SlotRec) : s.NorMoved (s.slotPut x r) := by
  unfold State.slotPut
  dsimp only
  split
  · exact s.nvmProgram_norMoved _ _
  · split
    · exact ((s.nvmErase_norMoved _).trans (State.nvmProgram_norMoved _ _ _)).trans (State.nvmProgram_norMoved _ _ _)
    · exact (s.nvmErase_norMoved _).trans (State.nvmProgram_norMoved _ _ _)

theorem State.slotWrite_norMoved (s : State) (x : Nat) (m : List Byte) : s.NorMoved (s.slotWrite x m).1 :=
  ((s.slotPut_norMoved _ _).trans (State.nvmEraseRange_norMoved _ _ _)).trans (State.nvmProgram_norMoved _ _ _)

theorem State.logPut_logMoved (s : State) (type : Nat) (body : List Byte) : s.LogMoved (s.logPut type body) :=
  (s.nvmProgram_norMoved _ _).logMoved.trans ⟨rfl, List.prefix_rfl⟩

theorem State.foldCounters_logMoved (s : State) : s.LogMoved s.foldCounters := .ite ⟨rfl, List.prefix_rfl⟩ (.refl s)

theorem State.logRoom_logMoved (s : State) (n : Nat) : s.LogMoved (s.logRoom n) := by
  unfold State.logRoom
  extract_lets v fresh w
  have hv : s.LogMoved v := .ite (.refl s) ⟨rfl, List.prefix_rfl⟩
  have hw : s.LogMoved w := hv.trans (v.nvmErase_norMoved _).logMoved
  exact .ite hv (.ite ((hw.trans (w.logPut_logMoved _ _)).trans (State.foldCounters_logMoved _)) hw)

/-- A record of the lifetime log (R460). -/
theorem State.logAppend_logMoved (s : State) (type : Nat) (body : List Byte) : s.LogMoved (s.logAppend type body) :=
  (s.logRoom_logMoved _).trans (State.logPut_logMoved _ _ _)

theorem State.LogMoved.mgt (h : s.LogMoved t) : t.mgt = s.mgt := by rw [h.eq]

/-- A COUNTERS record, after which the hour begins anew (R461). -/
theorem State.commitCounters_eq (s : State) : ∃ t, s.LogMoved t ∧ s.commitCounters = { t with mgt := { s.mgt with toCommit := 3600 } } := by
  have h : s.LogMoved ((s.logRoom 7).logPut 1 (s.logRoom 7).countersBody).foldCounters :=
    ((s.logRoom_logMoved 7).trans (State.logPut_logMoved _ _ _)).trans (State.foldCounters_logMoved _)
  refine ⟨_, h, ?_⟩
  rw [← (s.logRoom_logMoved 7).mgt]
  rfl

end Sys2Proof.Machine

end

section

/-! The boot ROM's monitor (R430, R478, R488). -/

namespace Sys2Proof.Machine

/-! ### Replies of the boot ROM (R488) -/

theorem State.say_out (s : State) (lines : List (List Byte)) (code : Nat) : s.say lines code = { s with out := s.out ++ [reply lines code] } := rfl

theorem State.rom_failed {s : State} (f : State → State) (h : s.rst.rel = .failed) : s.rom f = f s := if_pos h

theorem State.rom_else {s : State} (f : State → State) (h : s.rst.rel ≠ .failed) : s.rom f = s := if_neg h

theorem State.romDiag_decommissioned {s : State} (f : State → State) (h : s.rst.rel = .failed) (hlc : 2 ≤ s.lc) : s.romDiag f = f s :=
  (State.rom_failed _ h).trans (if_pos hlc)

theorem State.romDiag_locked {s : State} (f : State → State) (h : s.rst.rel = .failed) (hlc : s.lc < 2) : s.romDiag f = s.say [] 7 :=
  (State.rom_failed _ h).trans (if_neg (by omega))

/-- FUSE R gives a fuse word there is, or RANGE. -/
theorem State.fuseRead_eq (s : State) (w : Nat) :
    s.fuseRead w = { s with out := s.out ++ [if w ≤ 76 then reply [hexNum 4 (s.fuse w)] 0 else reply [] 6] } := by
  unfold State.fuseRead
  split <;> rfl

/-- An image that does not verify, or for a slot that there is not, is refused (R488). -/
theorem State.xload_refused {s : State} {x : Nat} {m : List Byte} (h : 2 ≤ x ∨ s.imageCheck 1 m ≠ 0) : s.xload x m = s.say [] 6 := if_pos h

/-- An image that reads back puts its slot in TRIAL (R482, R488). -/
theorem State.xload_written {s : State} {x : Nat} {m : List Byte} (h : ¬(2 ≤ x ∨ s.imageCheck 1 m ≠ 0)) (hw : (s.slotWrite x m).2 = true) :
    s.xload x m = ((s.slotWrite x m).1.slotPut x
      ⟨max ((s.slotWrite x m).1.slotSeq 0) ((s.slotWrite x m).1.slotSeq 1) + 1, 2, 0⟩).say [] 0 := (if_neg h).trans (if_pos hw)

/-- One that does not is NVM_FAIL. -/
theorem State.xload_failed {s : State} {x : Nat} {m : List Byte} (h : ¬(2 ≤ x ∨ s.imageCheck 1 m ≠ 0)) (hw : (s.slotWrite x m).2 = false) :
    s.xload x m = (s.slotWrite x m).1.say [] 9 := (if_neg h).trans (if_neg (by simp [hw]))

/-- An answer after changes of the SPI NOR leaves the rest of the block alone. -/
theorem State.NorMoved.say {s t : State} (h : s.NorMoved t) (lines : List (List Byte)) (code : Nat) : s.NorMoved (t.say lines code) :=
  h.trans (t.emits_norMoved [reply lines code])

theorem exec_xload {s : State} (h : s.rst.rel = .failed) (x : Nat) (m : List Byte) : exec (.xload x m) s = .next (s.xload x m) :=
  congrArg Host.Outcome.next (State.rom_failed _ h)

/-- Settles O59: each command of the boot ROM's monitor runs in FAILED alone, and registers and fuses are read in DECOMMISSIONED alone. -/
theorem theBootRomAnswersInFailed : Obligations.TheBootRomAnswersInFailed := by
  refine ⟨fun s h => ⟨?id, ?log, ?reset, fun x m => ⟨s.xload x m, exec_xload h x m, ?_⟩, fun hlc => ⟨fun off => ?peek, fun w => ?fuse⟩,
    fun hlc => ⟨fun off => ?noPeek, fun w => ?noFuse⟩⟩, fun s h => ?_⟩
  case id => exact congrArg Host.Outcome.next (State.rom_failed _ h)
  case log => exact congrArg Host.Outcome.next (State.rom_failed _ h)
  case reset => exact congrArg Host.Outcome.next (State.rom_failed _ h)
  case peek => exact congrArg Host.Outcome.next (State.romDiag_decommissioned _ h hlc)
  case fuse => exact congrArg Host.Outcome.next ((State.romDiag_decommissioned _ h hlc).trans (s.fuseRead_eq w))
  case noPeek => exact congrArg Host.Outcome.next (State.romDiag_locked _ h hlc)
  case noFuse => exact congrArg Host.Outcome.next (State.romDiag_locked _ h hlc)
  · split
    case isTrue hx => exact State.xload_refused hx
    case isFalse hx =>
      have hmoved := s.slotWrite_norMoved x m
      cases hw : (s.slotWrite x m).2
      · rw [State.xload_failed hx hw]
        exact ⟨(hmoved.say _ _).eq, by simp [State.say_out], fun h => nomatch h⟩
      · rw [State.xload_written hx hw]
        exact ⟨((hmoved.trans (State.slotPut_norMoved _ _ _)).say _ _).eq, by simp [State.say_out], fun _ => rfl⟩
  · have hrom (f : State → State) : Host.Outcome.next (s.rom f) = (Host.Outcome.next s : Out) := congrArg _ (State.rom_else f h)
    exact ⟨hrom _, hrom _, hrom _, fun _ _ => hrom _, fun _ => hrom _, fun _ => hrom _⟩

end Sys2Proof.Machine

end

section

/-! The monitor: who may run a command, fuses and the lifecycle state (R386, R478, R489, R490). -/

namespace Sys2Proof.Machine

/-! ### Commands of the firmware's monitor (R489, R490) -/

theorem State.mon_up {s : State} (f : State → State) (h : s.fwUp = true) : s.mon f = f s := if_pos h

theorem State.monOpen_open {s : State} (f : State → State) (h : s.fwUp = true) (ho : s.lc = 0 ∨ s.mgt.unlocked = true) : s.monOpen f = f s :=
  (State.mon_up _ h).trans (if_pos (by simpa [State.open_] using ho))

theorem State.monOpen_locked {s : State} (f : State → State) (h : s.fwUp = true) (hlc : s.lc ≠ 0) (hu : s.mgt.unlocked = false) :
    s.monOpen f = s.say [] 7 :=
  (State.mon_up _ h).trans (if_neg (by simp [State.open_, hlc, hu]))

/-- A write that begins no commit of the options is not waited for (R458). -/
theorem State.committing_else (s : State) {iface idx sub code : Nat} (h : idx ≠ 0x2602) : s.committing iface idx sub code = false := by
  simp [State.committing, h]

/-! ### Fuses and the lifecycle state (R386, R478) -/

theorem State.fuseProg_ok {s : State} {w : Nat} (v : Nat) (hlc : s.lc = 0) (hw : w < 36 ∨ w = 76) :
    s.fuseProg w v true = { s with fuses := Tab.put s.fuses w (s.fuse w ||| v % 2 ^ 32), out := s.out ++ [reply [] 0] } := by
  unfold State.fuseProg
  rw [if_neg (by simpa using hlc), if_neg (not_not.2 hw)]
  rfl

theorem State.fuseProg_failed {s : State} {w : Nat} (v : Nat) (hlc : s.lc = 0) (hw : w < 36 ∨ w = 76) :
    s.fuseProg w v false = (s.raise 774 2).say [] 9 := by
  unfold State.fuseProg
  rw [if_neg (by simpa using hlc), if_neg (not_not.2 hw)]
  rfl

theorem State.fuseProg_range {s : State} {w : Nat} (v : Nat) (ok : Bool) (hlc : s.lc = 0) (hw : ¬(w < 36 ∨ w = 76)) :
    s.fuseProg w v ok = s.say [] 6 := by
  unfold State.fuseProg
  rw [if_neg (by simpa using hlc), if_pos hw]

theorem State.lcCheck_decommission {s : State} (h : s.lc ≤ 1) : s.lcCheck 3 true = 0 := by
  unfold State.lcCheck
  rw [if_neg (by decide), if_neg (by omega)]
  rfl

theorem State.lcCheck_other (s : State) {v : Nat} (u : Bool) (h : v ≠ 1 ∧ v ≠ 3) : s.lcCheck v u = 6 := if_pos h

/-- An advance that its checks allow programs the fuse word and is logged (R478). -/
theorem State.lcAdvance_ok {s : State} {v : Nat} (h : s.lcCheck v s.mgt.unlocked = 0) :
    s.lcAdvance v true = ((({ s with fuses := Tab.put s.fuses 76 (s.fuse 76 ||| v % 2 ^ 32) } : State).logFree 6).raise 783 v, 0) := by
  unfold State.lcAdvance
  dsimp only
  rw [if_neg (by simp [h])]
  rfl

theorem State.lcAdvance_failed {s : State} {v : Nat} (h : s.lcCheck v s.mgt.unlocked = 0) : s.lcAdvance v false = (s.raise 774 2, 9) := by
  unfold State.lcAdvance
  dsimp only
  rw [if_neg (by simp [h])]
  rfl

theorem State.lcAdvance_refused {s : State} {v : Nat} (ok : Bool) (h : s.lcCheck v s.mgt.unlocked ≠ 0) :
    s.lcAdvance v ok = (s, s.lcCheck v s.mgt.unlocked) := if_pos h

/-- A record whose body is not laid out takes a draw, and changes what a log record changes (R460). -/
theorem State.logFree_logMoved (s : State) (type : Nat) : s.draw.LogMoved (s.logFree type) := s.draw.logAppend_logMoved _ _

end Sys2Proof.Machine

end

section

/-! What an open monitor changes (R386, R478, R489, R490). -/

namespace Sys2Proof.Machine

theorem exec_monitorLc {s : State} (h : s.fwUp = true) (ho : s.lc = 0 ∨ s.mgt.unlocked = true) (v : BitVec 8) (ok : Bool) :
    exec (.monitorLc v ok) s = .next ((s.lcAdvance v.toNat ok).1.say [] (s.lcAdvance v.toNat ok).2) :=
  congrArg Host.Outcome.next (State.monOpen_open _ h ho)

/-- An unlocked monitor decommissions the block (R478). -/
theorem State.lcAdvance_decommissions {s : State} (hlc : s.lc ≤ 1) (hu : s.mgt.unlocked = true) :
    ∃ t : State, s.lcAdvance 3 true = (t, 0) ∧ t.fuses = Tab.put s.fuses 76 (s.fuse 76 ||| 3) ∧ s.out <+: t.out := by
  have hlog := State.logFree_logMoved { s with fuses := Tab.put s.fuses 76 (s.fuse 76 ||| 3 % 2 ^ 32) } 6
  refine ⟨_, State.lcAdvance_ok (by rw [hu]; exact State.lcCheck_decommission hlc), ?_, ?_⟩
  · rw [State.raise_fuses, hlog.eq]
    rfl
  · rw [State.raise_out]
    exact hlog.out

/-- Settles O57: an open monitor's commands run, each with its effect and its reply. -/
theorem anOpenMonitorActs : Obligations.AnOpenMonitorActs := by
  intro s hup ho
  have hrun (f : State → State) : Host.Outcome.next (s.monOpen f) = (Host.Outcome.next (f s) : Out) :=
    congrArg Host.Outcome.next (State.monOpen_open f hup ho)
  refine ⟨fun idx sub b hidx => ?od, hrun _, fun n => ?baud, fun k => ?dump, fun off => hrun _, fun off v => hrun _, fun d => hrun _,
    fun w => ?fuseRead, fun w v hlc hw => ⟨?fuseOk, ?fuseErr⟩, fun w v ok hlc hw => ?fuseRange, fun v hlc hu hv => ?lc, fun v h1 h3 => ?lcRange⟩
  case od =>
    refine (hrun _).trans ?_
    dsimp only
    rw [State.committing_else _ hidx]
    rfl
  case baud =>
    refine (hrun _).trans ?_
    simp only [List.contains_iff_mem]
    split <;> rfl
  case dump =>
    refine (hrun _).trans ?_
    split <;> rfl
  case fuseRead => exact (hrun _).trans (congrArg Host.Outcome.next (s.fuseRead_eq w))
  case fuseOk =>
    have hv : v.toNat % 2 ^ 32 = v.toNat := Nat.mod_eq_of_lt v.isLt
    refine ⟨_, (hrun _).trans (congrArg Host.Outcome.next (State.fuseProg_ok _ hlc hw)), rfl, ?_⟩
    rw [hv]
    exact Tab.becomes_put _ _ _
  case fuseErr =>
    obtain ⟨e, he⟩ := s.raise_frame 774 2
    refine ⟨_, (hrun _).trans (congrArg Host.Outcome.next (State.fuseProg_failed _ hlc hw)), ?_⟩
    rw [he]
    rfl
  case fuseRange => exact (hrun _).trans (congrArg Host.Outcome.next (State.fuseProg_range _ ok hlc hw))
  case lc =>
    subst hv
    obtain ⟨t, ht, hfuses, hout⟩ := State.lcAdvance_decommissions hlc hu
    refine ⟨t.say [] 0, ?_, ?_, hout.trans (List.prefix_append _ _), by simp [State.say_out]⟩
    · rw [exec_monitorLc hup ho, show (3#8).toNat = 3 from rfl, ht]
    · rw [State.say_out]
      exact hfuses ▸ Tab.becomes_put _ _ _
  case lcRange =>
    have hv : v.toNat ≠ 1 ∧ v.toNat ≠ 3 := ⟨fun h => h1 (BitVec.eq_of_toNat_eq h), fun h => h3 (BitVec.eq_of_toNat_eq h)⟩
    have hc : s.lcCheck v.toNat s.mgt.unlocked = 6 := s.lcCheck_other _ hv
    rw [exec_monitorLc hup ho, State.lcAdvance_refused true (by rw [hc]; decide), hc]
    rfl

end Sys2Proof.Machine

end

section

/-! What the monitor prints, and what a locked one refuses (R447, R489, R490). -/

namespace Sys2Proof.Machine

/-- The ageing of the hub, and of each station slot that is built, is in the dictionary (R471). -/
theorem State.odTop_age {s : State} {d : Nat} (h : d = 48 ∨ d < 48 ∧ s.built d = true) : (s.odTop (State.ageIdx d)).isSome = true := by
  rcases h with rfl | ⟨hd, hb⟩
  · rfl
  · have hidx : State.ageIdx d = 0x2310 + d := if_neg (by omega)
    unfold State.odTop
    iterate 10 rw [if_neg (by omega)]
    rw [if_pos (by omega), show State.ageIdx d - 0x2310 = d by omega, if_pos hb]
    rfl

/-- Settles O56: what the monitor prints is its reply alone, and a locked monitor's reply to a command that changes something is LOCKED. -/
theorem monitorPrintsWithoutAKey : Obligations.MonitorPrintsWithoutAKey := by
  refine ⟨fun s hup => ?_, fun s hup hlc hu => ?_⟩
  · have hrun (f : State → State) : Host.Outcome.next (s.mon f) = (Host.Outcome.next (f s) : Out) := congrArg Host.Outcome.next (State.mon_up f hup)
    refine ⟨hrun _, hrun _, hrun _, fun n => hrun _, fun n => hrun _, fun d hd => ?age, fun n hb => ⟨?cx, ?stn⟩, fun n hb => ⟨?noCx, ?noStn⟩,
      fun idx sub => hrun _⟩
    case age =>
      have hle : d ≤ 48 := by omega
      refine (hrun _).trans (congrArg Host.Outcome.next ((if_pos ⟨State.odTop_age hd, hle⟩).trans ?_))
      rfl
    case cx => exact (hrun _).trans (congrArg Host.Outcome.next (if_pos hb))
    case stn => exact (hrun _).trans (congrArg Host.Outcome.next (if_pos hb))
    case noCx => exact (hrun _).trans (congrArg Host.Outcome.next (if_neg (by simp [hb])))
    case noStn => exact (hrun _).trans (congrArg Host.Outcome.next (if_neg (by simp [hb])))
  · have hlocked (f : State → State) : Host.Outcome.next (s.monOpen f) = (Host.Outcome.next (s.say [] 7) : Out) :=
      congrArg Host.Outcome.next (State.monOpen_locked f hup hlc hu)
    exact ⟨fun _ _ _ => hlocked _, hlocked _, fun _ => hlocked _, fun _ => hlocked _, fun _ => hlocked _, fun _ _ => hlocked _,
      fun _ => hlocked _, fun _ => hlocked _, fun _ _ _ => hlocked _, fun _ _ => hlocked _⟩

end Sys2Proof.Machine

end

section

/-! Unlocking the monitor (R478, R491, R492). -/

namespace Sys2Proof.Machine

theorem exec_unlock_answer {s : State} (h : s.fwUp = true) (r t : Nat) : exec (.unlock (some (r, t))) s = .next (s.answer_ r t) :=
  congrArg Host.Outcome.next (State.mon_up _ h)

section
variable {s : State} {at_ : Nat} {c : List Byte} (hc : s.mgt.challenge = some (at_, c)) (r t : Nat)
include hc

theorem State.answer_signed (hat : s.mgt.uptime ≤ at_ + 60) (hok : s.answerOk r t c = true) : s.answer_ r t = s.unlocked := by
  unfold State.answer_
  rw [hc]
  exact (if_neg (by omega)).trans (if_pos hok)

theorem State.answer_wrong (hat : s.mgt.uptime ≤ at_ + 60) (hok : ¬s.answerOk r t c = true) : s.answer_ r t = s.wrongAnswer := by
  unfold State.answer_
  rw [hc]
  exact (if_neg (by omega)).trans (if_neg hok)

theorem State.answer_late (hat : at_ + 60 < s.mgt.uptime) :
    s.answer_ r t = (({ s with mgt := { s.mgt with challenge := none } } : State).count 0x210A 2).say [] 7 := by
  unfold State.answer_
  rw [hc]
  exact if_pos hat

end

/-- A count, a source and a log record change their own parts of the block. -/
theorem State.logged_frame {s t : State} {x k n info type : Nat} {b : List Byte} (ht : ((s.count x k).raise n info).logAppend type b = t) :
    t = { s with nvm := t.nvm, logAt := t.logAt, logSeq := t.logSeq, life := t.life, incr := t.incr, evc := t.evc, out := t.out } := by
  obtain ⟨i, hi⟩ := s.count_frame x k
  obtain ⟨e, he⟩ := (s.count x k).raise_frame n info
  have hlog := ((s.count x k).raise n info).logAppend_logMoved type b
  rw [ht] at hlog
  rw [hlog.eq, he, hi]

/-- Unlocking raises source 781 and writes a log record (R491). -/
theorem State.unlocked_frame {s t : State} (ht : s.unlocked = t) :
    t = { s with
      mgt := { s.mgt with challenge := none, wrong := 0, unlocked := true }, fresh := s.fresh + 1, nvm := t.nvm, logAt := t.logAt,
      logSeq := t.logSeq, life := t.life, incr := t.incr, evc := t.evc, out := t.out } ∧ t.out.getLast? = some (reply [] 0) := by
  subst ht
  have h := State.logged_frame (s := { s.draw with mgt := { s.mgt with challenge := none, wrong := 0, unlocked := true } }) (x := 0x210A) (k := 1)
    (n := 781) (info := 0) (type := 2)
    (b := ({ kind := 6 } : ERec).bytes (Config.stamp s.fresh).toNat (leNat ((List.range 8).map (Config.recByte s.fresh)))) rfl
  exact ⟨congrArg (fun t : State => t.say [] 0) h, List.getLast?_concat⟩

/-- Without an element there is nothing to take out. -/
theorem filter_bne_of_not_mem {α : Type} [BEq α] [LawfulBEq α] {x : α} {l : List α} (h : x ∉ l) : l.filter (· != x) = l :=
  List.filter_eq_self.2 fun a ha => by simpa using fun (he : a = x) => h (he ▸ ha)

theorem State.endUnlock_noTest {s : State} (h : s.mgt.test = false) : s.endUnlock = { s with mgt := { s.mgt with unlocked := false } } := by
  simp [State.endUnlock, h]

/-- The end of unlocking ends IEEE 1500 test mode by an idle request (R431, R492). -/
theorem State.endUnlock_test {s : State} (h : s.mgt.test = true) (hlc : s.lc = 1) (hasked : (5, 0) ∉ s.mgt.asked) :
    s.endUnlock = { s with
      mgt := { s.mgt with unlocked := false, test := false, asked := s.mgt.asked ++ [(5, 0)] }, out := s.out ++ [.idleReq 5 0] } := by
  have hkeep := filter_bne_of_not_mem hasked
  simp [State.endUnlock, h, hlc, hkeep, State.emit]

/-- Settles O58: a challenge is given outside a lockout, and only a signed answer in time unlocks; LOCK and the hour's end undo it. -/
theorem unlockingNeedsASignature : Obligations.UnlockingNeedsASignature := by
  refine ⟨fun s hup hl => ?lockout, fun s hup hl => ?challenge, fun s r t at_ c hup hc hat => ?answer, fun s r t at_ c hup hc hat => ?late,
    fun s ht hup => ?lock, fun s ht => ?expiry, fun s ht hlc hu hasked => ?testExpiry, fun s => rfl⟩
  case lockout => exact congrArg Host.Outcome.next ((State.mon_up _ hup).trans (if_pos hl))
  case challenge =>
    refine ⟨(List.range 16).map (Config.challenge s.fresh), by simp, ?_⟩
    exact congrArg Host.Outcome.next ((State.mon_up _ hup).trans (if_neg (by simp [hl])))
  case answer =>
    refine ⟨s.answer_ r t, exec_unlock_answer hup r t, ?_⟩
    split
    case isTrue hok =>
      rw [State.answer_signed hc r t hat hok]
      exact State.unlocked_frame rfl
    case isFalse hok =>
      rw [State.answer_wrong hc r t hat hok]
      unfold State.wrongAnswer
      dsimp only
      obtain ⟨i, hi⟩ := State.count_frame { s with mgt := { s.mgt with
        challenge := none, wrong := if 3 ≤ s.mgt.wrong + 1 then 0 else s.mgt.wrong + 1,
        lockout := s.mgt.lockout || decide (3 ≤ s.mgt.wrong + 1) } } 0x210A 2
      rw [hi]
      rfl
  case late =>
    refine ⟨s.answer_ r t, exec_unlock_answer hup r t, ?_⟩
    rw [State.answer_late hc r t hat]
    obtain ⟨i, hi⟩ := State.count_frame { s with mgt := { s.mgt with challenge := none } } 0x210A 2
    rw [hi]
    rfl
  case lock =>
    refine congrArg Host.Outcome.next ((State.mon_up _ hup).trans ?_)
    rw [State.endUnlock_noTest ht]
    rfl
  case expiry =>
    refine congrArg Host.Outcome.next ?_
    cases hu : s.mgt.unlocked
    · simp [← hu]
    · rw [if_pos rfl, State.endUnlock_noTest ht]
  case testExpiry => exact congrArg Host.Outcome.next ((if_pos hu).trans (State.endUnlock_test ht hlc hasked))

end Sys2Proof.Machine

end

section

/-! The object dictionary through the mirror (R445 to R447, R454, R455). -/

namespace Sys2Proof.Machine

/-! ### Little-endian numbers and the data registers (R20, R454) -/

/-- Bytes are the number that they spell. -/
theorem leBytes_leNat (b : List Byte) : leBytes b.length (leNat b) = b := by
  induction b with
  | nil => rfl
  | cons x b ih =>
    have hx : BitVec.ofNat 8 (x.toNat + 256 * leNat b) = x := BitVec.eq_of_toNat_eq (by
      rw [BitVec.toNat_ofNat]
      have := x.isLt
      omega)
    have hb : (x.toNat + 256 * leNat b) / 256 = leNat b := by
      have := x.isLt
      omega
    rw [List.length_cons, leNat, leBytes, hx, hb, ih]

/-- A fold that changes entry `i` of a table by its own old value, for every `i` below `n`. -/
theorem Tab.atD_foldl_put (g : Nat → Nat → Nat) (t : Tab Nat) (n j : Nat) :
    Tab.atD ((List.range n).foldl (fun t i => Tab.put t i (g i (Tab.atD t i 0))) t) j 0 = if j < n then g j (Tab.atD t j 0) else Tab.atD t j 0 := by
  induction n generalizing j with
  | zero => rfl
  | succ n ih =>
    rw [List.range_succ, List.foldl_append]
    by_cases h : j = n
    · subst h
      simp [ih]
    · rw [List.foldl_cons, List.foldl_nil, Tab.atD_put_ne _ _ _ h, ih]
      simp only [show j < n + 1 ↔ j < n by omega]

/-- Bytes cut in fours, each short piece filled up, are the bytes and what filled up the last. -/
theorem take_flatMap_fours (pad : Nat → List Byte) (hpad : ∀ i, (pad i).length = 4) (n : Nat) (b : List Byte) (hb : b.length ≤ 4 * n) :
    ((List.range n).flatMap (fun i => (b.drop (4 * i)).take 4 ++ (pad i).drop ((b.drop (4 * i)).take 4).length)).take b.length = b := by
  induction n generalizing b pad with
  | zero => simp [List.eq_nil_of_length_eq_zero (by omega : b.length = 0)]
  | succ n ih =>
    rw [List.range_succ_eq_map, List.flatMap_cons, List.flatMap_map]
    by_cases hlen : b.length < 4
    · simp [List.take_of_length_le (show b.length ≤ 4 by omega), List.append_assoc]
    · have hfull : (pad 0).drop (b.take 4).length = [] := by simp [hpad]; omega
      have htail := ih (fun i => pad (i + 1)) (fun i => hpad (i + 1)) (b.drop 4) (by simp; omega)
      simp only [List.drop_drop, List.length_drop] at htail
      have hfour : (b.take 4).length = 4 := by simp; omega
      simp only [Nat.mul_zero, List.drop_zero, hfull, List.append_nil, Nat.mul_succ, Nat.succ_eq_add_one, Nat.add_comm _ 4] at htail ⊢
      rw [List.take_append, hfour, htail, List.take_of_length_le (by omega), List.take_append_drop]

/-- A data register after bytes were put into the registers: those of them that it takes, then what it held. -/
theorem leBytes_odPut (t : Tab Nat) (b : List Byte) {i : Nat} (hi : i < 16) :
    leBytes 4 (Tab.atD (odPut t b) i 0) = (b.drop (4 * i)).take 4 ++ (leBytes 4 (Tab.atD t i 0)).drop ((b.drop (4 * i)).take 4).length := by
  have hput := Tab.atD_foldl_put (fun i v => leNat ((b.drop (4 * i)).take 4 ++ (leBytes 4 v).drop ((b.drop (4 * i)).take 4).length)) t 16 i
  rw [if_pos hi] at hput
  have hlen : ((b.drop (4 * i)).take 4 ++ (leBytes 4 (Tab.atD t i 0)).drop ((b.drop (4 * i)).take 4).length).length = 4 := by
    simp
  calc leBytes 4 (Tab.atD (odPut t b) i 0)
    _ = leBytes 4 (leNat _) := congrArg (leBytes 4) hput
    _ = leBytes _ (leNat _) := by rw [hlen]
    _ = _ := leBytes_leNat _

/-- What the data registers hold after bytes were put into them from the start on (R454). -/
theorem State.odBytes_odPut {s : State} {t : Tab Nat} {b : List Byte} (hb : b.length ≤ 64) (hd : s.mgt.odData = odPut t b) :
    s.odBytes.take b.length = b := by
  have hcut := take_flatMap_fours (fun i => leBytes 4 (Tab.atD t i 0)) (fun _ => leBytes_length 4 _) 16 b hb
  have hbytes : s.odBytes = (List.range 16).flatMap (fun i =>
      (b.drop (4 * i)).take 4 ++ (leBytes 4 (Tab.atD t i 0)).drop ((b.drop (4 * i)).take 4).length) :=
    List.flatMap_congr fun i hi => by rw [hd]; exact leBytes_odPut t b (List.mem_range.1 hi)
  rw [hbytes]
  exact hcut

/-! ### Accesses of the dictionary (R445 to R447, R454, R455) -/

section
variable {s : State} {v : BitVec 32} (hs : s.reaches 0)
include hs

theorem exec_odRead (hop : bits v.toNat 0 2 = 1) : exec (.odRead v) s = .next (s.odCtl v.toNat) :=
  congrArg Host.Outcome.next ((State.mmio_reaches _ hs).trans (if_pos hop))

theorem exec_odWrite (hop : bits v.toNat 0 2 = 2) : exec (.odWrite v) s = .next (s.odCtl v.toNat) :=
  congrArg Host.Outcome.next ((State.mmio_reaches _ hs).trans (if_pos hop))

end

/-- While an access runs, a write of the control register takes none (R455). -/
theorem State.odCtl_busy {s : State} (v : Nat) (h : s.mgt.odBusy = true) : s.odCtl v = s := if_pos h

section
variable {s : State} {v : Nat} (hbusy : s.mgt.odBusy = false)
include hbusy

/-- A read posts its result, and brings its bytes where it succeeds within the entry. -/
theorem State.odCtl_read (hop : bits v 0 2 = 1) :
    s.odCtl v =
      let r := s.odRead 0 (bits s.mgt.odAddr 0 16) (bits s.mgt.odAddr 16 8)
      if r.1 = 0 ∧ r.2.1 ≤ bits v 16 16 then s.odPost 5 r.2.1
      else { s.odPost r.1 r.2.1 with mgt := { (s.odPost r.1 r.2.1).mgt with
        odData := if r.1 = 0 then odPut s.mgt.odData ((r.2.2.drop (bits v 16 16)).take 64) else s.mgt.odData } } := by
  unfold State.odCtl
  simp only [hbusy, hop]
  rfl

theorem State.odCtl_write_length (hop : bits v 0 2 = 2) (hlen : bits v 8 7 = 0 ∨ 64 < bits v 8 7) : s.odCtl v = s.odPost 5 0 := by
  unfold State.odCtl
  simp only [hbusy, hop, if_pos hlen]
  rfl

/-- A write that begins no commit posts its result. -/
theorem State.odCtl_write (hop : bits v 0 2 = 2) (hlen : ¬(bits v 8 7 = 0 ∨ 64 < bits v 8 7)) (hidx : bits s.mgt.odAddr 0 16 ≠ 0x2602) :
    s.odCtl v =
      let r := s.odWrite 0 (bits s.mgt.odAddr 0 16) (bits s.mgt.odAddr 16 8) (s.odBytes.take (bits v 8 7))
      r.1.odPost r.2.1 r.2.2 := by
  unfold State.odCtl
  simp only [hbusy, hop, if_neg hlen, State.committing_else _ hidx]
  rfl

end

/-- An index that is absent has its code (R447). -/
theorem State.odFind_absent {s : State} {idx : Nat} (i sub : Nat) (h : s.odTop idx = none) : s.odFind i idx sub = .error 1 := by
  unfold State.odFind
  rw [h]

/-- Settles O52: the mirror posts the code and size of each access, and a read of an entry brings its bytes from the offset on. -/
theorem dictionaryAnswersTheMirror : Obligations.DictionaryAnswersTheMirror := by
  refine ⟨fun s v hs hop hbusy hr => ?failed, fun s v hs hop hbusy hr ho => ?read, fun s idx sub i h => ?absent, fun s v hs hop hbusy hlen => ?length,
    fun s v hs hop hbusy hlo hhi hidx => ?write, fun s v hbusy => ?busy⟩
  case failed =>
    rw [exec_odRead hs hop, State.odCtl_read hbusy hop]
    simp [hr, State.odPost]
  case read =>
    rw [exec_odRead hs hop, State.odCtl_read hbusy hop]
    refine ⟨_, rfl, ?_, ?_⟩
    · simp [hr, Nat.not_le.2 ho, State.odPost]
    · exact State.odBytes_odPut (t := s.mgt.odData) (by simp) (by simp [hr, Nat.not_le.2 ho])
  case absent =>
    have hfind := State.odFind_absent i sub h
    refine ⟨?_, fun b => ?_⟩
    · unfold State.odRead
      rw [hfind]
    · unfold State.odWrite
      rw [hfind]
  case length => rw [exec_odWrite hs hop, State.odCtl_write_length hbusy hop hlen, State.odPost]
  case write => rw [exec_odWrite hs hop, State.odCtl_write hbusy hop (by omega) hidx, State.odPost]
  case busy =>
    have hctl (p : Prop) [Decidable p] : s.mmio (fun s => if p then s.odCtl v.toNat else s) = s := by
      rcases s.mmioOf_cases 0 (fun s => if p then s.odCtl v.toNat else s) with h | ⟨-, h⟩
      · exact h
      · exact h.trans (by rw [State.odCtl_busy _ hbusy]; exact ite_self s)
    exact ⟨congrArg Host.Outcome.next (hctl _), congrArg Host.Outcome.next (hctl _)⟩

end Sys2Proof.Machine

end

section

/-! Hub resets (R406, R421 to R425, R428, R434). -/

namespace Sys2Proof.Machine

/-! ### What a hub reset clears (R421, R434) -/

theorem State.clearedTo_count {s w : State} (h : s.clearedTo w) (x k : Nat) : s.clearedTo (w.count x k) := by
  obtain ⟨i, hi⟩ := w.count_frame x k
  rw [hi]
  exact h

theorem Tab.mapV_mapV {α β γ : Type} (t : Tab α) (f : Nat → α → β) (g : Nat → β → γ) :
    Tab.mapV (Tab.mapV t f) g = Tab.mapV t (fun i a => g i (f i a)) := List.map_map

/-! ### Warm resets without a dump (R406, R422 to R425) -/

/-- The state in which the release of a warm reset that was triggered with `cause` begins (R406 steps 1 to 3). -/
def State.warmCleared (s : State) (cause : Nat) : State :=
  let t := { s with rst := { s.rst with due := 2 ^ cause, ladder := false } }.stopAll
  { t.holdEps.hubReset with rst := { t.rst with cause := t.rst.cause ||| t.rst.due, due := 0 } }.count 0x2101 3

/-- A block that runs, or waits in FAILED, is cleared and released. -/
theorem State.warmReset_release {s : State} (h : s.rst.rel = .ready ∨ s.rst.rel = .failed) (ho : s.opts.val 3 = 0) (cause : Nat) :
    s.warmReset cause false false = (s.warmCleared cause).release := by
  unfold State.warmReset
  have hno : (false || s.opts.val 3 == 1) = false := by rw [ho]; rfl
  rcases h with h | h <;> rw [h] <;> exact if_neg (by simp [hno])

theorem State.warmCleared_clears (s : State) (cause : Nat) : s.clearedTo (s.warmCleared cause) := by
  refine State.clearedTo_count ⟨?_, ?_⟩ _ _ <;> and_intros <;> rfl

/-- What a warm reset keeps of the always-on domain, and the RST_CAUSE bit that it sets. -/
theorem State.warmCleared_keeps (s : State) (cause : Nat) :
    let w := s.warmCleared cause
    w.rst.cause = s.rst.cause ||| 2 ^ cause ∧ w.spi = s.spi ∧ w.mgt.uptime = s.mgt.uptime ∧ w.rcv.rsram = s.rcv.rsram ∧
      w.rcv.elogCnt = s.rcv.elogCnt ∧ w.xlt.epoch = s.xlt.epoch ∧ w.fns = Tab.mapV s.fns (fun _ f => { en := f.en, bme := f.bme }) := by
  unfold State.warmCleared
  dsimp only
  rw [State.count_rst, State.count_spi, State.count_mgt, State.count_rcv, State.count_xlt, State.count_fns]
  exact ⟨rfl, rfl, rfl, rfl, rfl, rfl,
    Tab.mapV_mapV s.fns (fun _ f => ({ f with flr := false } : Fn)) (fun _ f => ({ en := f.en, bme := f.bme } : Fn))⟩

/-- In a hold, or while a dump is collected, a trigger leaves its bit due (R425). -/
theorem State.warmReset_due {s : State} (h : s.rst.rel = .hold ∨ s.rst.rel = .collect) (cause : Nat) :
    s.warmReset cause false false = { s with rst := { s.rst with due := s.rst.due ||| 2 ^ cause } } := by
  unfold State.warmReset
  rcases h with h | h <;> simp [h]

/-! ### RST_CTL (R442) -/

theorem exec_softwareReset {s : State} {v : BitVec 32} (hs : s.reaches 0) (hkey : bits v.toNat 8 8 = 0xA5) (hgo : bit v.toNat 0 = true)
    (hdump : bit v.toNat 1 = false) : exec (.softwareReset v) s = .next (s.warmReset 7 false false) := by
  refine congrArg Host.Outcome.next ((State.mmio_reaches _ hs).trans ?_)
  rw [State.rstCtl, if_pos ⟨hkey, hgo⟩, hdump]

theorem State.rstCtl_keyless {s : State} {v : Nat} (h : bits v 8 8 ≠ 0xA5 ∨ bit v 0 = false) : s.rstCtl v = s := by
  refine if_neg fun ⟨hkey, hgo⟩ => ?_
  rcases h with h | h
  · exact h hkey
  · exact absurd (h.symm.trans hgo) (by decide)

/-- A register write that its register ignores leaves the block alone, whether or not it reaches the register. -/
theorem State.mmio_ignored {s : State} {f : State → State} (h : f s = s) : s.mmio f = s := by
  rcases s.mmioOf_cases 0 f with hm | ⟨-, hm⟩
  · exact hm
  · exact hm.trans h

theorem State.rel_of_reaches {s : State} {fn : Nat} (h : s.reaches fn) : s.rst.rel = .ready := by simpa [State.up] using h.1

/-! ### Power-on and brown-outs (R421, R422, R428) -/

/-- The state in which the release of a power-on reset begins. -/
def State.powerCleared (s : State) : State := { s.flrdAll.holdEps.powerLoss with spi := s.build.norAnswers }.count 0x2101 1

theorem State.powerCleared_clears (s : State) : s.clearedTo s.powerCleared := by
  refine State.clearedTo_count ⟨?_, ?_⟩ _ _ <;> and_intros <;> rfl

theorem State.powerCleared_values (s : State) :
    let w := s.powerCleared
    w.spi = s.build.norAnswers ∧ w.rst.cause = 1 ∧ w.rst.holdCnt = 0 ∧ w.rcv = {} ∧ w.mgt = {} ∧ w.xlt = {} ∧ w.rails = [] ∧ w.tray = false ∧
      w.fns = [(0, { en := true })] := by
  unfold State.powerCleared
  obtain ⟨i, hi⟩ := State.count_frame { s.flrdAll.holdEps.powerLoss with spi := s.build.norAnswers } 0x2101 1
  rw [hi]
  exact ⟨rfl, rfl, rfl, rfl, rfl, rfl, rfl, rfl, rfl⟩

/-- A brown-out holds the block (R422, R425). -/
theorem State.brownout_holds {s : State} (h : s.rst.rel ≠ .hold) :
    s.clearedTo s.brownout ∧ s.brownout.rst.rel = .hold ∧ s.brownout.rst.cause = s.rst.cause ||| 2 ^ 8 ∧
      s.brownout.rst.holdCnt = satAdd 32 s.rst.holdCnt 1 ∧ s.brownout.rcv.state = 2 ∧ s.brownout.rcv.rsram = s.rcv.rsram ∧ s.brownout.spi = s.spi ∧
      s.brownout.mgt.uptime = s.mgt.uptime := by
  unfold State.brownout
  rw [if_neg h]
  dsimp only
  refine ⟨State.clearedTo_count ⟨?_, ?_⟩ _ _, ?_⟩
  · and_intros <;> rfl
  · and_intros <;> rfl
  · rw [State.count_rst, State.count_rcv, State.count_spi, State.count_mgt]
    exact ⟨rfl, rfl, rfl, rfl, rfl, rfl, rfl⟩

/-- Settles O46: a warm reset, power-on and a brown-out each clear the block by the hub reset, keep what their power classes keep and set their
bit of RST_CAUSE; in a hold or a collection the bit is left due. -/
theorem hubResetsClearTheBlock : Obligations.HubResetsClearTheBlock := by
  refine ⟨⟨fun s h ho => ?warm, fun s v hs ho hkey hgo hdump => ?software, fun s v h => ?ignored, fun s h => ?due⟩,
    ⟨fun s => ⟨s.powerCleared, rfl, s.powerCleared_clears, s.powerCleared_values⟩,
      fun s h => ⟨s.brownout, rfl, State.brownout_holds h⟩, fun s h => ?held, fun s h => ?notHeld⟩⟩
  case warm =>
    have hrel := State.warmReset_release h ho
    refine ⟨?pin, ?hot, ?tray, ?jtag⟩
    case pin => exact ⟨_, congrArg Host.Outcome.next (hrel 1), s.warmCleared_clears 1, s.warmCleared_keeps 1⟩
    case hot =>
      obtain ⟨hcause, hspi, hup, hram, hcnt, hepoch, -⟩ := s.warmCleared_keeps 2
      exact ⟨_, congrArg Host.Outcome.next (hrel 2), s.warmCleared_clears 2, hcause, hspi, hup, hram, hcnt, hepoch⟩
    case tray =>
      obtain ⟨hcause, hspi, hup, hram, hcnt, hepoch, -⟩ := s.warmCleared_keeps 6
      exact ⟨_, congrArg Host.Outcome.next (hrel 6), s.warmCleared_clears 6, hcause, hspi, hup, hram, hcnt, hepoch⟩
    case jtag =>
      obtain ⟨hcause, hspi, hup, hram, hcnt, hepoch, -⟩ := s.warmCleared_keeps 9
      exact ⟨_, congrArg Host.Outcome.next (hrel 9), s.warmCleared_clears 9, hcause, hspi, hup, hram, hcnt, hepoch⟩
  case software =>
    obtain ⟨hcause, hspi, hup, hram, hcnt, -, -⟩ := s.warmCleared_keeps 7
    refine ⟨_, ?_, s.warmCleared_clears 7, hcause, hspi, hup, hram, hcnt⟩
    rw [exec_softwareReset hs hkey hgo hdump, State.warmReset_release (.inl (State.rel_of_reaches hs)) ho]
  case ignored => exact congrArg Host.Outcome.next (State.mmio_ignored (State.rstCtl_keyless h))
  case due =>
    have hdue := State.warmReset_due h
    exact ⟨congrArg Host.Outcome.next (hdue 1), congrArg Host.Outcome.next (hdue 2), congrArg Host.Outcome.next (hdue 6),
      congrArg Host.Outcome.next (hdue 9)⟩
  case held => exact ⟨congrArg Host.Outcome.next (if_pos h), congrArg Host.Outcome.next (if_pos h)⟩
  case notHeld => exact congrArg Host.Outcome.next (if_neg h)

end Sys2Proof.Machine

end

section

/-! The release and the TAP (R389, R406, R418, R428 to R430, R436, R478, R492). -/

namespace Sys2Proof.Machine

/-! ### Copies of dumps (R418) -/

/-- From `s` to `t` host memory, the retention SRAM, the copies that wait and what was driven alone changed. -/
def State.copiesMoved (s t : State) : Prop :=
  t = { s with host := t.host, out := t.out, rcv := { s.rcv with rsram := t.rcv.rsram, copies := t.rcv.copies } }

theorem State.copiesMoved.refl (s : State) : s.copiesMoved s := rfl

theorem State.copiesMoved.trans {s t u : State} (h : s.copiesMoved t) (k : t.copiesMoved u) : s.copiesMoved u := by
  unfold State.copiesMoved at h k ⊢
  rw [k, h]

theorem State.hostWrite_copiesMoved (s : State) (fn : Nat) (pasid : Option Nat) (a : Nat) (bs : List Byte) (p : Bool) :
    s.copiesMoved (s.hostWrite fn pasid a bs p) := by
  rcases s.hostWrite_cases fn pasid a bs p with h | ⟨-, h⟩ <;> rw [h] <;> rfl

theorem State.settleCopies_copiesMoved (s : State) : s.copiesMoved s.settleCopies := by
  unfold State.settleCopies
  split
  · refine State.copiesMoved.trans (foldl_keeps s.copiesMoved _ _ (fun v k _ hv => hv.trans ?_) s (.refl s)) rfl
    exact (v.hostWrite_copiesMoved _ _ _ _ _).trans rfl
  · exact .refl s

/-! ### The end of a release (R428 steps 7 to 9) -/

/-- Raising sources one after the other changes the event controller alone. -/
theorem State.foldl_raise_frame {α : Type} (n i : α → Nat) (l : List α) (s : State) :
    ∃ e, l.foldl (fun (s : State) x => s.raise (n x) (i x)) s = { s with evc := e } := by
  refine foldl_keeps (fun t => ∃ e, t = { s with evc := e }) _ _ ?_ s ⟨s.evc, rfl⟩
  rintro _ x - ⟨e, rfl⟩
  obtain ⟨f, hf⟩ := State.raise_frame { s with evc := e } (n x) (i x)
  exact ⟨f, hf⟩

/-- What telling of rejected slots and copying dumps leave alone. -/
theorem State.toldAndCopied_keeps (told : List Nat) (s : State) :
    let t := (told.foldl (fun (s : State) v => s.raise 780 v) s).settleCopies
    t.rst = s.rst ∧ t.rcv.state = s.rcv.state ∧ t.fw = s.fw := by
  obtain ⟨e, he⟩ := State.foldl_raise_frame (fun _ => 780) id told s
  dsimp only at he ⊢
  rw [show told.foldl (fun (s : State) v => s.raise 780 v) s = { s with evc := e } from he, State.settleCopies_copiesMoved { s with evc := e }]
  exact ⟨rfl, rfl, rfl⟩

/-- READY (R428 step 9). -/
theorem State.toReady_values (s : State) :
    s.toReady.rst.rel = .ready ∧ s.toReady.rcv.state = 0 ∧ s.toReady.rst.readyAt = s.mgt.uptime ∧ s.toReady.fw.rejected = [] := by
  unfold State.toReady
  dsimp only
  obtain ⟨hrst, hrcv, hfw⟩ := State.toldAndCopied_keeps s.fw.rejected { s with
    evc := { groupBits := s.evc.groupBits, fwEn := s.evc.fwEn }, rst := { s.rst with rel := .ready, ladder := false, readyAt := s.mgt.uptime },
    rcv := { s.rcv with state := 0, running := s.rcv.running.filter (fun r => r.1 != 4) }, fw := { s.fw with rejected := [] } }
  rw [hrst, hrcv, hfw]
  exact ⟨rfl, rfl, rfl, rfl⟩

/-- When every slot's enumeration is over the block is READY. -/
theorem State.settleRelease_ready {s : State} (h : s.rst.rel = .memory) (hall : ∀ n, n < s.build.nstn → (s.stnAt n).enum ≠ 0) :
    s.settleRelease = s.toReady := by
  have hslots : (List.range s.build.nstn).all s.slotKnown = true :=
    List.all_eq_true.2 fun n hn => by simp [State.slotKnown, hall n (List.mem_range.1 hn)]
  have hkeep : (List.range s.build.nstn).foldl (fun s n => if (s.stnAt n).enum = 0 then s.updStn n (fun x => { x with enum := 1 }) else s) s = s :=
    foldl_keeps (fun t => t = s) _ _ (fun t n hn ht => by rw [ht, if_neg (hall n (List.mem_range.1 hn))]) s rfl
  have hlinks : s.rst.rel ≠ .links := by simp [h]
  unfold State.settleRelease
  simp only [hlinks, false_and, if_false]
  rw [if_pos ⟨h, hslots⟩, hkeep]

/-! ### The clocks (R428, R436) -/

theorem State.clockStep_in {s : State} (h : s.rst.clkOut = 0) :
    s.clockStep = { s with rst := { s.rst with clk := 8 * (s.rst.clk / 8) } }.bootStep := by
  unfold State.clockStep
  simp [h]

theorem State.clockStep_out {s : State} (h : s.rst.clkOut ≠ 0) (h8 : s.rst.clkOut < 8) :
    s.clockStep = { s with rst := { s.rst with rel := .clocks, clk := s.rst.clkOut + 8 * (s.rst.clk / 8) } } := by
  unfold State.clockStep
  rw [Nat.mod_eq_of_lt h8]
  exact if_neg h

theorem exec_clockCheckRetry {s : State} (h : s.rst.rel = .clocks) (hub seq ltp : Bool) :
    exec (.clockCheckRetry hub seq ltp) s =
      .next ({ s with rst := { s.rst with clkOut := b2n (!hub) + 2 * b2n (!seq) + 4 * b2n (!ltp) } } : State).clockStep :=
  congrArg Host.Outcome.next (if_pos h)

/-- A clock that fails its check is one of three. -/
theorem clocksOut_range {hub seq ltp : Bool} (h : (hub && seq && ltp) = false) :
    b2n (!hub) + 2 * b2n (!seq) + 4 * b2n (!ltp) ≠ 0 ∧ b2n (!hub) + 2 * b2n (!seq) + 4 * b2n (!ltp) < 8 := by
  revert h
  cases hub <;> cases seq <;> cases ltp <;> decide

/-- Without a slot to boot the release ends in FAILED (R430). -/
theorem State.bootStep_failed {s : State} (h : s.boot.2 = false) :
    s.bootStep = { s.boot.1 with rst := { s.boot.1.rst with rel := .failed }, rcv := { s.boot.1.rcv with state := 3 } } :=
  if_neg (by simp [h])

/-! ### TAP instructions (R389, R478, R492) -/

/-- In PRODUCTION the wrappers of a locked block and the other instructions act as BYPASS (R478). -/
theorem State.tapOk_production {s : State} {i : TapInstr} (hlc : s.lc = 1) (hi : i = .other ∨ i = .wrapper1500 ∧ s.mgt.unlocked = false) :
    s.tapOk i = false := by
  rcases hi with rfl | ⟨rfl, hu⟩ <;> simp [State.tapOk, *]

theorem State.tapOk_wrapper {s : State} (h : s.lc ≠ 1 ∨ s.mgt.unlocked = true) : s.tapOk .wrapper1500 = true := by
  unfold State.tapOk
  rcases h with h | h
  · exact if_neg h
  · split
    · exact h
    · rfl

theorem State.tapOk_chipReset (s : State) : s.tapOk .chipReset = true := by simp [State.tapOk]

/-- An instruction that is refused acts as BYPASS. -/
theorem State.tapLoad_refused {s : State} {i : TapInstr} (h : s.tapOk i = false) :
    s.tapLoad i [] = { s with mgt := { s.mgt with tap := .bypass, test := false } } := by
  unfold State.tapLoad
  rw [h]
  rfl

/-- One that is permitted, and neither resets the block nor enters test mode, becomes the TAP's instruction after its data scan. -/
theorem State.tapLoad_plain {s : State} {i : TapInstr} (tdi : List Bool) (h : s.tapOk i = true) (hw : i ≠ .wrapper1500) (hr : i ≠ .chipReset) :
    s.tapLoad i tdi = { s.tapScan i tdi with mgt := { s.mgt with tap := i, test := false } } := by
  have hmgt : (s.tapScan i tdi).mgt = s.mgt := by unfold State.tapScan; split <;> rfl
  unfold State.tapLoad
  rw [h]
  cases i with
  | wrapper1500 => exact absurd rfl hw
  | chipReset => exact absurd rfl hr
  | _ => rw [← hmgt]; rfl

theorem State.tapLoad_wrapper {s : State} (h : s.tapOk .wrapper1500 = true) (hasked : (5, 0) ∉ s.mgt.asked) :
    s.tapLoad .wrapper1500 [] = { s with
      mgt := { s.mgt with tap := .wrapper1500, test := true, asked := s.mgt.asked ++ [(5, 0)] }, out := s.out ++ [.idleReq 5 0] } := by
  have hkeep := filter_bne_of_not_mem hasked
  simp [State.tapLoad, h, State.tapScan, hkeep, State.emit]

/-- Settles O47: each step of the release by its own rule, and each TAP instruction by what the lifecycle state permits. -/
theorem theReleaseGoesInOrder : Obligations.TheReleaseGoesInOrder := by
  refine ⟨⟨fun s h => ?clocksIn, fun s hub seq ltp h hout => ?clocksOut, fun s h => ?failed, fun s h hall => ?ready,
      fun s n hrel hb hk hl => ?absent, fun s n hrel hb hk hl => ?late, fun s hrel => ?stopped⟩,
    ⟨fun s => rfl, fun s i hlc hi => ?refused, fun s i hi hw hr => ?plain, fun s h hasked => ?wrapper, fun s => ?chipReset,
      fun s i tdi htdi hi hw hr => ?scan⟩⟩
  case clocksIn => rw [exec_clockCheckRetry h, State.clockStep_in rfl]; rfl
  case clocksOut =>
    obtain ⟨hne, hlt⟩ := clocksOut_range hout
    refine ⟨_, (exec_clockCheckRetry h hub seq ltp).trans (congrArg Host.Outcome.next (State.clockStep_out hne hlt)), ?_⟩
    simp only [h]
  case failed => rw [State.bootStep_failed h]; exact ⟨rfl, rfl⟩
  case ready => rw [State.settleRelease_ready h hall]; exact s.toReady_values
  case absent =>
    refine ⟨_, ?_, rfl, s.updStn_becomes n (fun x => { x with enum := 2, state := 3 })⟩
    refine congrArg Host.Outcome.next ((if_pos ⟨hrel, hb, by simp [hk]⟩).trans ?_)
    rw [if_pos hl]
  case late =>
    refine ⟨_, ?_, rfl, s.updStn_becomes n (fun x => { x with enum := 3 })⟩
    refine congrArg Host.Outcome.next ((if_pos ⟨hrel, hb, by simp [hk]⟩).trans ?_)
    rw [if_neg hl, State.enumFail]
  case stopped =>
    refine ⟨_, congrArg Host.Outcome.next (if_pos (by rcases hrel with h | h | h <;> simp [State.up, h])), rfl, Nat.le_add_right _ _, ?_⟩
    exact Nat.add_lt_add_left (Nat.mod_lt _ (by decide)) 8
  case refused => exact congrArg Host.Outcome.next (State.tapLoad_refused (State.tapOk_production hlc hi))
  case plain => exact congrArg Host.Outcome.next (State.tapLoad_plain [] hi hw hr)
  case wrapper => exact congrArg Host.Outcome.next (State.tapLoad_wrapper (State.tapOk_wrapper h) hasked)
  case chipReset =>
    refine congrArg Host.Outcome.next ?_
    unfold State.tapLoad
    rw [s.tapOk_chipReset]
    rfl
  case scan =>
    refine ⟨s.tapReg i tdi.length, ?_, ?_, (congrArg Host.Outcome.next (State.tapLoad_plain tdi hi hw hr)).trans ?_⟩
    · rintro rfl
      rfl
    · rintro rfl
      rfl
    · rw [State.tapScan, if_neg htdi]
      rfl

end Sys2Proof.Machine

end

section

/-! An entry into Sleep that commits (R313, R439). -/

namespace Sys2Proof.Machine

/-- A station on its way to Sleep whose ports have answered, with its copy of one context's partition and key slot (R313, R439). -/
def enteringStn : Stn := { pwr := 4, toward := 2, iso := [(1, 7)] }

/-- A block that station 0 is about to enter Sleep in. -/
def enteringState : State := { State.reset with stns := [(0, enteringStn)] }

/-- The entry takes the station's copies of R313 with it. -/
theorem commitEntry_enteringState :
    enteringState.commitEntry 0 = { enteringState with
      stns := [(0, { enteringStn with pwr := 2, sleeps := 1, psReq := 2, iso := [] })], out := [.psReq 0 2] } := by
  decide +kernel

/-- Refutes O48: an entry that commits clears the station's copies of R313 (`Stn.iso`), which the statement leaves as they were. -/
theorem not_idleStationsPowerDown : ¬ Obligations.IdleStationsPowerDown := by
  unfold Obligations.IdleStationsPowerDown
  intro ⟨_, _, _, hcommit, _⟩
  obtain ⟨t, hexec, -, hstn, -, -⟩ := hcommit enteringState 0 rfl rfl rfl
  have ht : t = _ := (Host.Outcome.next.inj hexec).symm.trans commitEntry_enteringState
  rw [ht] at hstn
  exact absurd hstn.1 (by decide)

end Sys2Proof.Machine

end

section

/-! Stations' entries (R437 to R440). -/

namespace Sys2Proof.Machine

/-! ### Stations (R437 to R440) -/

/-- A station whose entry was put reads as it, and the others read as before. -/
theorem State.stnAt_of_becomes {s t : State} {n : Nat} {x : Stn} (h : Tab.becomes s.stns t.stns n x) :
    t.stnAt n = x ∧ ∀ m, m ≠ n → t.stnAt m = s.stnAt m := by
  obtain ⟨hn, hm⟩ := h
  exact ⟨by simp [State.stnAt, Tab.atD, hn], fun m h => by simp [State.stnAt, Tab.atD, hm m h]⟩

@[simp] theorem State.stnAt_updStn_self (s : State) (n : Nat) (f : Stn → Stn) : (s.updStn n f).stnAt n = f (s.stnAt n) :=
  (State.stnAt_of_becomes (s.updStn_becomes n f)).1

theorem State.stnAt_updStn_ne (s : State) {n m : Nat} (f : Stn → Stn) (h : m ≠ n) : (s.updStn n f).stnAt m = s.stnAt m :=
  (State.stnAt_of_becomes (s.updStn_becomes n f)).2 m h

/-- A station changes, and its power state is asked of the integrator where that is not what was asked last (R440). -/
theorem State.setPs_updStn (s : State) (n : Nat) (f : Stn → Stn) (level : Nat) :
    let t := (s.updStn n f).setPs n level
    t = { s with stns := t.stns, out := if (f (s.stnAt n)).psReq = level then s.out else s.out ++ [.psReq n level] } ∧
      Tab.becomes s.stns t.stns n { f (s.stnAt n) with psReq := level } := by
  have hf := s.updStn_becomes n f
  unfold State.setPs
  rw [State.stnAt_updStn_self]
  split
  case isTrue h => exact ⟨rfl, h ▸ hf⟩
  case isFalse h =>
    refine ⟨rfl, Tab.becomes_trans hf ?_⟩
    have hput := (s.updStn n f).updStn_becomes n (fun x => { x with psReq := level })
    rwa [State.stnAt_updStn_self] at hput

end Sys2Proof.Machine

end

section

/-! Demands, acknowledgements and policies (R84, R433, R437 to R442). -/

namespace Sys2Proof.Machine

/-! ### What leaving a power state changes (R433, R439) -/

/-- Releasing a station's ports changes the ports and what was driven. -/
theorem State.epsRelease_frame (s : State) (n : Nat) :
    s.epsRelease n = { s with eps := (s.epsRelease n).eps, out := (s.epsRelease n).out } := by
  unfold State.epsRelease
  refine foldl_keeps (fun t => t = { s with eps := t.eps, out := t.out }) _ _ (fun t ep _ ht => ?_) s rfl
  split
  · split
    · rw [ht]; rfl
    · split
      · rw [ht]; rfl
      · exact ht
  · exact ht

theorem State.epsRelease_stnAt (s : State) (n m : Nat) : (s.epsRelease n).stnAt m = s.stnAt m := by rw [s.epsRelease_frame n]; rfl

/-- An entry that is given up leaves the station in `pwr`. -/
theorem State.abandon_becomes (s : State) (n pwr : Nat) (flag : Bool) :
    let t := s.abandon n pwr flag
    t = { s with stns := t.stns, eps := t.eps, out := t.out } ∧
      Tab.becomes s.stns t.stns n { s.stnAt n with pwr := pwr, idleReq := [], abandon := (s.stnAt n).abandon || flag, psReq := pwr } := by
  obtain ⟨hframe, hstn⟩ := (s.epsRelease n).setPs_updStn n (fun x => { x with pwr := pwr, idleReq := [], abandon := x.abandon || flag }) pwr
  rw [s.epsRelease_stnAt, show (s.epsRelease n).stns = s.stns by rw [s.epsRelease_frame]] at hstn
  refine ⟨?_, hstn⟩
  unfold State.abandon
  rw [hframe, s.epsRelease_frame]

/-- From `s` to `t` nothing of station `m` changed but its copies of R313. -/
def State.isoMoved (s t : State) (m : Nat) : Prop := t.stnAt m = { s.stnAt m with iso := (t.stnAt m).iso }

theorem State.isoMoved.updStn {s t : State} {m : Nat} (h : s.isoMoved t m) (n : Nat) (l : Tab Nat) :
    s.isoMoved (t.updStn n (fun x => { x with iso := l })) m := by
  unfold State.isoMoved at h ⊢
  by_cases hm : m = n
  · subst hm
    rw [State.stnAt_updStn_self, h]
  · rw [State.stnAt_updStn_ne _ _ hm]
    exact h

/-- The copies of R313 are pushed to stations, which change in nothing else. -/
theorem State.pushIso_isoMoved (s : State) (m : Nat) : s.isoMoved s.pushIso m := by
  unfold State.pushIso
  refine foldl_keeps (fun t => s.isoMoved t m) _ _ (fun t n _ ht => ?_) s rfl
  extract_lets x l
  split
  · exact ht
  · exact ht.updStn n l

/-! ### Demands (R438, R439) -/

theorem exec_stationDemand {s : State} {n : Nat} (hb : s.built n = true) (hd : s.demanded n = true) :
    exec (.stationDemand n) s = .next (s.demandStn n) := congrArg Host.Outcome.next (if_pos (by rw [hb, hd]; rfl))

section
variable {s : State} {n : Nat} (hpol : (s.stnAt n).policy ≠ 3) (hst : (s.stnAt n).state = 0)
include hpol hst

theorem State.demandStn_doze (hpwr : (s.stnAt n).pwr = 1) :
    s.demandStn n = (((s.updStn n (fun x => { x with pwr := 0 })).setPs n 0).wokenIn n).stnGo n := by
  simp [State.demandStn, hpol, hst, hpwr]

theorem State.demandStn_asleep (hpwr : (s.stnAt n).pwr = 2 ∨ (s.stnAt n).pwr = 3) :
    s.demandStn n = (s.wake n (s.stnAt n).pwr).settleWake n := by
  rcases hpwr with hpwr | hpwr <;> simp [State.demandStn, hpol, hst, hpwr]

theorem State.demandStn_committing (hpwr : (s.stnAt n).pwr = 4) (hidle : (s.stnAt n).idleReq = []) :
    s.demandStn n = s.updStn n (fun x => { x with demand := true }) := by
  simp [State.demandStn, hpol, hst, hpwr, hidle]

theorem State.demandStn_entering (hpwr : (s.stnAt n).pwr = 4) (hidle : (s.stnAt n).idleReq ≠ []) :
    s.demandStn n = (s.abandon n 0 false).stnGo n := by
  simp [State.demandStn, hpol, hst, hpwr, hidle]

end

/-- A station that is not waking with its supplies there does not change (R440). -/
theorem State.settleWake_waits {s : State} {n : Nat} (h : (s.stnAt n).pwr ≠ 5 ∨ (s.stnAt n).state ≠ 0 ∨ (s.stnAt n).psAck ≠ 0) :
    s.settleWake n = s := if_pos h

/-- How long a wake took is noted of its station alone. -/
theorem State.wokenIn_values (s : State) (n : Nat) :
    let t := s.wokenIn n
    t = { s with stns := t.stns, fresh := s.fresh + 1 } ∧ t.stnAt n = { s.stnAt n with wakeLast := (t.stnAt n).wakeLast, wakeMax := (t.stnAt n).wakeMax } ∧
      ∀ m, m ≠ n → t.stnAt m = s.stnAt m := by
  obtain ⟨hn, hm⟩ := State.stnAt_of_becomes (s.draw.updStn_becomes n (fun x => { x with
    wakeLast := min (Config.wakeTime s.fresh) 65535, wakeMax := max x.wakeMax (min (Config.wakeTime s.fresh) 65535) }))
  refine ⟨rfl, ?_, hm⟩
  dsimp only
  rw [show (s.wokenIn n).stnAt n = _ from hn]
  rfl

/-- An acknowledgement is noted, and lets a wake go on (R440). -/
theorem State.ackPs_eq {s : State} {n ack : Nat} (hb : s.built n = true) (hack : ack < 4) :
    s.ackPs n ack = (s.updStn n (fun x => { x with psAck := ack })).settleWake n := by
  unfold State.ackPs
  rw [if_pos hb, Nat.mod_eq_of_lt hack]

/-- The block once a station that waked from Sleep is Active (R439, R440). -/
def State.awake (s : State) (n : Nat) : State :=
  let w := ((s.epsRelease n).updStn n (fun x => { x with pwr := 0, sumAll := true, sumRel := 0 })).pushIso
  (w.wokenIn n).raise (64 + n) 4

theorem State.settleWake_awake {s : State} {n : Nat} (hpwr : (s.stnAt n).pwr = 5) (hst : (s.stnAt n).state = 0) (hack : (s.stnAt n).psAck = 0)
    (hfrom : (s.stnAt n).wakeFrom = 2) : s.settleWake n = (s.awake n).stnGo n := by
  simp [State.settleWake, State.awake, hpwr, hst, hack, hfrom]

theorem State.awake_values (s : State) (n : Nat) :
    let u := s.awake n
    u = { s with stns := u.stns, eps := u.eps, out := u.out, fresh := s.fresh + 1, evc := u.evc } ∧
      (u.stnAt n).pwr = 0 ∧ (u.stnAt n).psAck = (s.stnAt n).psAck ∧ (u.stnAt n).sumAll = true ∧
      ∀ m, m ≠ n → u.stnAt m = { s.stnAt m with iso := (u.stnAt m).iso } := by
  obtain ⟨p, hp⟩ : ∃ p, (s.epsRelease n).updStn n (fun x => { x with pwr := 0, sumAll := true, sumRel := 0 }) = p := ⟨_, rfl⟩
  have hframe : p = { s with stns := p.stns, eps := p.eps, out := p.out } := by rw [← hp, s.epsRelease_frame]; rfl
  have hpn : p.stnAt n = { s.stnAt n with pwr := 0, sumAll := true, sumRel := 0 } := by
    rw [← hp, State.stnAt_updStn_self, s.epsRelease_stnAt]
  have hpm (m : Nat) (h : m ≠ n) : p.stnAt m = s.stnAt m := by rw [← hp, State.stnAt_updStn_ne _ _ h, s.epsRelease_stnAt]
  obtain ⟨ns, hpush⟩ := p.pushIso_frame
  obtain ⟨hwoken, hn, hm⟩ := p.pushIso.wokenIn_values n
  obtain ⟨e, hraise⟩ := (p.pushIso.wokenIn n).raise_frame (64 + n) 4
  have hu : s.awake n = { p.pushIso.wokenIn n with evc := e } := by unfold State.awake; rw [hp, hraise]
  have hstn (m : Nat) : (s.awake n).stnAt m = (p.pushIso.wokenIn n).stnAt m := by rw [hu]; rfl
  have hiso := p.pushIso_isoMoved
  unfold State.isoMoved at hiso
  refine ⟨?_, ?_, ?_, ?_, fun m h => ?_⟩
  · rw [hu, hwoken, hpush, hframe]
  · rw [hstn, hn, hiso, hpn]
  · rw [hstn, hn, hiso, hpn]
  · rw [hstn, hn, hiso, hpn]
  · rw [hstn, hm m h, hiso, hpm m h]

/-! ### Policies (R441, R442) -/

/-- A policy that the slot takes acts as a demand or lets an entry begin. -/
theorem State.pwrStnWrite_policy {s : State} {n v : Nat} (hb : s.built n = true) (hremote : (s.build.remote n && bits v 8 2 == 3) = false) :
    ∃ u : State, s.pwrStnWrite n v = (if bits v 8 2 = 1 then u.demandStn n else u.forceOff n) ∧ u = { s with stns := u.stns } ∧
      Tab.becomes s.stns u.stns n { s.stnAt n with policy := bits v 8 2, abandon := if bit v 3 = true then false else (s.stnAt n).abandon } := by
  unfold State.pwrStnWrite
  cases hbit : bit v 3
  · refine ⟨s.updStn n (fun x => { x with policy := bits v 8 2 }), ?_, rfl, s.updStn_becomes n _⟩
    simp [hb, hremote]
  · have hclear := s.updStn_becomes n (fun x => { x with abandon := false })
    have hpolicy := (s.updStn n (fun x => { x with abandon := false })).updStn_becomes n (fun x => { x with policy := bits v 8 2 })
    rw [State.stnAt_updStn_self] at hpolicy
    refine ⟨_, ?_, rfl, Tab.becomes_trans hclear hpolicy⟩
    have hremote' : ((s.updStn n (fun x => { x with abandon := false })).build.remote n && bits v 8 2 == 3) = false := hremote
    simp only [hb, hremote', Bool.not_true, Bool.false_eq_true, if_false, if_true]

/-- Settles O49: a demand by the power state it meets, an acknowledgement by whether its station wakes, and a policy by what it asks for. -/
theorem demandsWakeStations : Obligations.DemandsWakeStations := by
  refine ⟨⟨fun s n hb hd hpol hst => ⟨fun hpwr => ?doze, fun hpwr hack => ?asleep, fun hpwr hidle => ?committing, fun hpwr hidle => ?entering⟩,
      fun s n h => ?undemanded, fun s n ack hb hack h => ?ack, fun s n hb hpwr hst hfrom => ?wakes, fun s n hpwr hst hack htried => ?again,
      fun s n hpwr hst hack htried => ?fenced⟩,
    ⟨fun s q x hq => ?lapse, fun s v hs hb hremote => ?policy, fun s v hs hb hremote hp habandon => ?remoteOff, fun s n h => if_pos (.inl h)⟩⟩
  case doze =>
    obtain ⟨hframe, hstn⟩ := s.setPs_updStn n (fun x => { x with pwr := 0 }) 0
    obtain ⟨hn, hm⟩ := State.stnAt_of_becomes hstn
    obtain ⟨hwoken, hwn, hwm⟩ := ((s.updStn n (fun x => { x with pwr := 0 })).setPs n 0).wokenIn_values n
    refine ⟨_, (exec_stationDemand hb hd).trans (congrArg _ (State.demandStn_doze hpol hst hpwr)), ?_, ?_, ?_, fun m h => (hwm m h).trans (hm m h)⟩
    · rw [hwoken, hframe]
    · rw [hwn, hn]
    · rw [hwn, hn]
  case asleep =>
    obtain ⟨hframe, hstn⟩ := s.setPs_updStn n (fun x => { x with pwr := 5, wakeFrom := (s.stnAt n).pwr, wakeTried := false, demand := false }) 0
    refine ⟨s.wake n (s.stnAt n).pwr, ?_, ?_, hstn, ?_⟩
    · rw [exec_stationDemand hb hd, State.demandStn_asleep hpol hst hpwr]
      refine congrArg _ (State.settleWake_waits (.inr (.inr ?_)))
      exact fun h => hack (by rw [← h, show (s.wake n (s.stnAt n).pwr).stnAt n = _ from (State.stnAt_of_becomes hstn).1])
    · rw [State.wake, hframe]
    · rw [State.wake, hframe]
  case committing =>
    exact ⟨_, (exec_stationDemand hb hd).trans (congrArg _ (State.demandStn_committing hpol hst hpwr hidle)), rfl, s.updStn_becomes n _⟩
  case entering =>
    obtain ⟨hframe, hstn⟩ := s.abandon_becomes n 0 false
    refine ⟨_, (exec_stationDemand hb hd).trans (congrArg _ (State.demandStn_entering hpol hst hpwr hidle)), hframe, ?_⟩
    rwa [Bool.or_false] at hstn
  case undemanded =>
    refine congrArg Host.Outcome.next (if_neg ?_)
    rcases h with h | h <;> simp [h]
  case ack =>
    refine ⟨s.updStn n (fun x => { x with psAck := ack }), congrArg Host.Outcome.next ?_, rfl, s.updStn_becomes n _⟩
    rw [State.ackPs_eq hb hack, State.settleWake_waits]
    rw [State.stnAt_updStn_self]
    exact h.imp id .inr
  case wakes =>
    obtain ⟨hframe, hn, hack, hsum, hm⟩ := (s.updStn n (fun x => { x with psAck := 0 })).awake_values n
    refine ⟨_, congrArg Host.Outcome.next ((State.ackPs_eq hb (by decide)).trans (State.settleWake_awake ?_ ?_ ?_ ?_)), hframe, hn, ?_, hsum,
      fun m h => ?_⟩
    · simpa using hpwr
    · simpa using hst
    · simp
    · simpa using hfrom
    · simpa using hack
    · rw [hm m h, State.stnAt_updStn_ne _ _ h]
  case again =>
    refine ⟨(s.updStn n (fun x => { x with wakeTried := true })).emit (.psReq n 0), congrArg Host.Outcome.next ?_, rfl,
      s.updStn_becomes n (fun x => { x with wakeTried := true })⟩
    simp [State.wakeLate, hpwr, hst, hack, htried]
  case fenced =>
    refine congrArg Host.Outcome.next ?_
    simp [State.wakeLate, hpwr, hst, hack, htried]
  case lapse =>
    exact ⟨_, rfl, rfl, fun k hk => Tab.at?_upd_ne _ _ hk, (Tab.at?_upd_self _ _ _).trans (by rw [hq]; rfl)⟩
  case policy =>
    obtain ⟨u, hu, hframe, hstn⟩ := State.pwrStnWrite_policy hb hremote
    exact ⟨u, congrArg Host.Outcome.next ((State.mmio_reaches _ hs).trans hu), hframe, hstn⟩
  case remoteOff =>
    refine congrArg Host.Outcome.next ((State.mmio_reaches _ hs).trans ?_)
    simp [State.pwrStnWrite, hb, hremote, hp, habandon]

end Sys2Proof.Machine

end

section

/-! Sources and masks (R324, R325, R327, R339, R340, R343). -/

namespace Sys2Proof.Machine

/-! ### Sources (R324, R327) -/

/-- From `s` to `t` the states of sources alone changed. -/
def State.srcsMoved (s t : State) : Prop := t = { s with evc := { s.evc with srcs := t.evc.srcs } }

theorem State.srcsMoved.trans {s t u : State} (h : s.srcsMoved t) (k : t.srcsMoved u) : s.srcsMoved u := by
  unfold State.srcsMoved at h k ⊢
  rw [k, h]

theorem State.srcsMoved.mayCfg {s t : State} (h : s.srcsMoved t) (fw : Bool) (n : Nat) : t.mayCfg fw n = s.mayCfg fw n := by
  rw [h]
  rfl

@[simp] theorem State.src_setSrc_self (s : State) (n : Nat) (x : Src) : (s.setSrc n x).src n = x := Tab.atD_put_self _ _ _ _

theorem State.src_setSrc_ne (s : State) {n m : Nat} (x : Src) (h : m ≠ n) : (s.setSrc n x).src m = s.src m := Tab.atD_put_ne _ _ _ h

/-- The input of a source that is built is sampled. -/
theorem State.setInput_built {s : State} {n : Nat} (h : s.srcBuilt n = true) (level : Bool) (info : Nat) :
    s.setInput n level info = s.setSrc n ((s.src n).sample n level info) := if_pos h

/-- A source that is not built takes nothing. -/
theorem State.setInput_unbuilt {s : State} {n : Nat} (h : s.srcBuilt n = false) (level : Bool) (info : Nat) : s.setInput n level info = s :=
  if_neg (by simp [h])

/-- A rising input of a RISING source is an edge. -/
theorem Src.sample_rising {x : Src} (n info : Nat) (hs : x.sense = 1) (hr : x.raw = false) :
    x.sample n true info = { x with raw := true, pending := true, count := min 255 (x.count + 1), info := mergeInfo n x.info info } := by
  simp [Src.sample, hs, hr]

/-- A falling input of a RISING source is none. -/
theorem Src.sample_falling {x : Src} (n info : Nat) (hs : x.sense = 1) : x.sample n false info = { x with raw := false } := by
  simp [Src.sample, hs]

/-- A happening of a RISING source whose input is low is one edge. -/
theorem State.raise_rising {s : State} {n : Nat} (info : Nat) (hb : s.srcBuilt n = true) (hs : (s.src n).sense = 1) (hr : (s.src n).raw = false) :
    s.srcsMoved (s.raise n info) ∧ (∀ m, m ≠ n → (s.raise n info).src m = s.src m) ∧
      (s.raise n info).src n = { s.src n with
        pending := true, count := min 255 ((s.src n).count + 1), info := mergeInfo n (s.src n).info info } := by
  unfold State.raise
  rw [State.setInput_built hb, State.setInput_built (show (s.setSrc n _).srcBuilt n = true from hb), State.src_setSrc_self,
    Src.sample_rising n info hs hr, Src.sample_falling n info (by exact hs)]
  refine ⟨rfl, fun m hm => ?_, ?_⟩
  · rw [State.src_setSrc_ne _ _ hm, State.src_setSrc_ne _ _ hm]
  · rw [State.src_setSrc_self, ← hr]

/-- INFO values of a software source of the driver are merged bit by bit (R325). -/
theorem mergeInfo_software {n : Nat} (hlo : 896 ≤ n) (hhi : n ≤ 959) (old new : Nat) : mergeInfo n old new = old ||| new := by
  unfold mergeInfo
  rw [if_neg (by omega), if_pos (by omega)]

theorem State.srcBuilt_software (s : State) {n : Nat} (hlo : 896 ≤ n) (hhi : n ≤ 959) : s.srcBuilt n = true := by
  have hres : srcReserved n = false := by simp [srcReserved]; omega
  unfold State.srcBuilt
  rw [hres, if_neg (by omega), if_neg (by omega)]
  rfl

/-! ### Masks and configuration (R339, R340, R343) -/

/-- A write by firmware, or one that reaches the register, acts. -/
theorem State.hostOr_acts {s : State} {fw : Bool} (f : State → State) (h : fw = true ∨ s.reaches 0) : s.hostOr fw f = f s := by
  unfold State.hostOr
  cases fw
  · exact State.mmio_reaches f (h.resolve_left (by decide))
  · rfl

theorem State.hostOr_ignored {s : State} (fw : Bool) {f : State → State} (h : f s = s) : s.hostOr fw f = s := by
  cases fw
  · exact State.mmio_ignored h
  · exact h

/-- One bit of a mask word, written by `fw`. -/
def State.maskBit (fw set : Bool) (i v : Nat) (s : State) (j : Nat) : State :=
  if bit v j ∧ s.mayCfg fw (32 * i + j) then s.setSrc (32 * i + j) { s.src (32 * i + j) with masked := set } else s

theorem State.maskBit_srcsMoved (fw set : Bool) (i v : Nat) (s : State) (j : Nat) : s.srcsMoved (s.maskBit fw set i v j) := by
  unfold State.maskBit
  split
  · rfl
  · rfl

theorem State.maskBit_src (fw set : Bool) (i v : Nat) (s : State) (j m : Nat) :
    (s.maskBit fw set i v j).src m =
      if m = 32 * i + j ∧ v.testBit j = true ∧ s.mayCfg fw m = true then { s.src m with masked := set } else s.src m := by
  unfold State.maskBit
  by_cases hm : m = 32 * i + j
  · subst hm
    by_cases h : bit v j ∧ s.mayCfg fw (32 * i + j)
    · rw [if_pos h, State.src_setSrc_self, if_pos ⟨rfl, h⟩]
    · rw [if_neg h, if_neg fun ⟨_, h'⟩ => h h']
  · rw [if_neg (show ¬(m = 32 * i + j ∧ v.testBit j = true ∧ s.mayCfg fw m = true) from fun h => hm h.1)]
    by_cases h : bit v j ∧ s.mayCfg fw (32 * i + j)
    · rw [if_pos h, State.src_setSrc_ne _ _ hm]
    · rw [if_neg h]

/-- A write of the low `k` bits of a mask word masks or unmasks the sources of the set bits that the writer owns, and changes nothing else. -/
theorem State.maskBits_src (s : State) (fw set : Bool) (i v k : Nat) :
    let t := (List.range k).foldl (State.maskBit fw set i v) s
    s.srcsMoved t ∧ ∀ m, t.src m =
      if 32 * i ≤ m ∧ m < 32 * i + k ∧ v.testBit (m - 32 * i) = true ∧ s.mayCfg fw m = true then { s.src m with masked := set } else s.src m := by
  induction k with
  | zero => exact ⟨rfl, fun m => by rw [if_neg (by omega)]; rfl⟩
  | succ k ih =>
    obtain ⟨hframe, hsrc⟩ := ih
    rw [List.range_succ, List.foldl_append]
    refine ⟨hframe.trans (State.maskBit_srcsMoved fw set i v _ k), fun m => ?_⟩
    refine (State.maskBit_src fw set i v _ k m).trans ?_
    rw [hframe.mayCfg, hsrc m]
    by_cases hm : m = 32 * i + k
    · subst hm
      have hsub : 32 * i + k - 32 * i = k := by omega
      simp [hsub]
    · have hlt : m < 32 * i + (k + 1) ↔ m < 32 * i + k := by omega
      simp [hm, hlt]

/-- A write of a mask word (R343). -/
theorem State.maskWord_src (s : State) (fw set : Bool) (i v : Nat) :
    s.srcsMoved (s.maskWord fw set i v) ∧ ∀ m, (s.maskWord fw set i v).src m =
      if m / 32 = i ∧ v.testBit (m % 32) = true ∧ s.mayCfg fw m = true then { s.src m with masked := set } else s.src m := by
  obtain ⟨hframe, hsrc⟩ := s.maskBits_src fw set i v 32
  refine ⟨hframe, fun m => (hsrc m).trans ?_⟩
  by_cases h : m / 32 = i
  · have hbit : m - 32 * i = m % 32 := by omega
    have hrange : 32 * i ≤ m ∧ m < 32 * i + 32 := by omega
    simp [h, hbit, hrange]
  · have hrange : ¬(32 * i ≤ m ∧ m < 32 * i + 32) := by omega
    rw [if_neg fun h' => hrange ⟨h'.1, h'.2.1⟩, if_neg fun h' => h h'.1]

end Sys2Proof.Machine

end

section

/-! Source inputs and who configures them (R324, R327, R328, R339, R340, R343). -/

namespace Sys2Proof.Machine

/-- A configuration that its writer may write (R340, R343). -/
theorem State.srcCfg_values {s : State} {fw : Bool} {n : Nat} (v : Nat) (h : s.mayCfg fw n = true) :
    ∃ x : Src, s.srcCfg fw n v = s.setSrc n x ∧ x.prio = bits v 8 8 ∧
      x.sense = (if srcFixed n = true then (s.src n).sense else bits v 0 2) ∧ x.hring = (if fw = true then bits v 3 2 else 0) ∧
      x.masked = (s.src n).masked := by
  unfold State.srcCfg
  rw [if_pos h]
  refine ⟨_, rfl, ?_⟩
  generalize (if srcFixed n = true then (s.src n).sense else bits v 0 2) = sense
  by_cases hsense : sense = (s.src n).sense
  · rw [if_pos hsense]
    exact ⟨rfl, hsense.symm, rfl, rfl⟩
  · rw [if_neg hsense]
    exact ⟨rfl, rfl, rfl, rfl⟩

theorem exec_sourceConfigWrite_denied {s : State} {fw : Bool} (h : s.mayCfg fw s.evc.ssel = false) (route : Bool) (v : BitVec 32) :
    exec (.sourceConfigWrite fw route v) s = .next s := by
  have hno : ¬s.mayCfg fw s.evc.ssel = true := by simp [h]
  refine congrArg Host.Outcome.next (State.hostOr_ignored fw ?_)
  cases route
  · exact if_neg hno
  · exact if_neg hno

/-- Settles O33: an input by what its source's SENSE makes of it, and a mask or a configuration by whose source it is. -/
theorem sourcesSampleTheirInputs : Obligations.SourcesSampleTheirInputs := by
  refine ⟨⟨fun s n info hb hs hr => ?edge, fun s n level info hb hs => ?level, fun s n level info hb => ?unbuilt, fun s v hreach hlo hhi hs hr => ?swset,
      fun s v hreach hfw hs ha => ?ack⟩,
    ⟨fun s fw set i v hw => ?mask, fun s fw v hw hc => ?config, fun s fw route v hc => exec_sourceConfigWrite_denied hc route v⟩⟩
  case edge =>
    refine ⟨_, congrArg Host.Outcome.next (State.setInput_built hb _ _), rfl, fun m hm => State.src_setSrc_ne _ _ hm, ?_⟩
    rw [State.src_setSrc_self, Src.sample_rising n _ hs hr]
  case level =>
    refine ⟨_, congrArg Host.Outcome.next (State.setInput_built hb _ _), rfl, fun m hm => State.src_setSrc_ne _ _ hm, ?_⟩
    rw [State.src_setSrc_self, Src.sample, if_pos hs]
    exact ⟨rfl, rfl, rfl⟩
  case unbuilt => exact congrArg Host.Outcome.next (State.setInput_unbuilt hb _ _)
  case swset =>
    obtain ⟨hframe, hm, hn⟩ := State.raise_rising (v.toNat / 1024 * 1024) (s.srcBuilt_software hlo hhi) hs hr
    rw [mergeInfo_software hlo hhi] at hn
    refine ⟨_, congrArg Host.Outcome.next ((State.hostOr_acts _ (.inr hreach)).trans (if_pos ⟨hlo, hhi⟩)), hframe, hm, hn⟩
  case ack =>
    refine ⟨s.setSrc (bits v.toNat 0 10) _, congrArg Host.Outcome.next ((State.mmio_reaches _ hreach).trans ?_), rfl,
      fun m hm => State.src_setSrc_ne _ _ hm, State.src_setSrc_self _ _ _⟩
    rw [if_neg (by simp [hfw])]
    exact if_pos ⟨hs, ha⟩
  case mask =>
    obtain ⟨hframe, hsrc⟩ := s.maskWord_src fw set i v.toNat
    refine ⟨_, ?_, hframe, hsrc⟩
    cases set
    · exact congrArg Host.Outcome.next (State.hostOr_acts _ hw)
    · exact congrArg Host.Outcome.next (State.hostOr_acts _ hw)
  case config =>
    obtain ⟨x, hx, hprio, hsense, hring, hmasked⟩ := State.srcCfg_values v.toNat hc
    refine ⟨_, congrArg Host.Outcome.next ((State.hostOr_acts _ hw).trans hx), rfl, fun m hm => State.src_setSrc_ne _ _ hm, ?_⟩
    rw [State.src_setSrc_self]
    exact ⟨hprio, hsense, hring, hmasked⟩

end Sys2Proof.Machine

end

section

/-! Delivery: the winner and the rings (R330 to R333, R335). -/

namespace Sys2Proof.Machine

/-! ### Choosing one of a list -/

/-- A fold that keeps what it has or takes what comes ends with one of the list. -/
theorem mem_of_foldl_choose {α : Type} {f : Option α → α → Option α} (hf : ∀ b c, f b c = some c ∨ f b c = b) {l : List α} {b : Option α} {x : α}
    (h : l.foldl f b = some x) : b = some x ∨ x ∈ l := by
  induction l generalizing b with
  | nil => exact .inl h
  | cons c l ih =>
    rcases ih h with hx | hx
    · rcases hf b c with hc | hc
      · rw [hc] at hx
        exact .inr (by simp [Option.some.inj hx])
      · exact .inl (hc ▸ hx)
    · exact .inr (List.mem_cons_of_mem _ hx)

/-- Of two sources the first goes first: lower PRIO, then lower number (R330). -/
def ahead (x y : Nat × Src) : Prop := x.2.prio < y.2.prio ∨ (x.2.prio = y.2.prio ∧ x.1 ≤ y.1)

/-- The better of the winner so far and the next source (R330). -/
def betterSrc (b : Option (Nat × Src)) (c : Nat × Src) : Option (Nat × Src) :=
  match b with
  | none => some c
  | some d => if c.2.prio < d.2.prio then some c else some d

theorem State.winner_eq (s : State) (ltp : Bool) :
    s.winner ltp = (s.evc.srcs.filter (fun e => s.mayWin ltp e.1 e.2)).foldl betterSrc none := rfl

theorem betterSrc_choose (b : Option (Nat × Src)) (c : Nat × Src) : betterSrc b c = some c ∨ betterSrc b c = b := by
  cases b with
  | none => exact .inl rfl
  | some d =>
    by_cases h : c.2.prio < d.2.prio
    · exact .inl (if_pos h)
    · exact .inr (if_neg h)

/-- A fold over sources in the order of their numbers ends with the one that is ahead of all. -/
theorem foldl_betterSrc_ahead {l : Tab Src} {d x : Nat × Src} (hsorted : Tab.sorted l = true) (hd : ∀ e ∈ l, d.1 < e.1)
    (h : l.foldl betterSrc (some d) = some x) : ahead x d ∧ ∀ y ∈ l, ahead x y := by
  induction l generalizing d with
  | nil =>
    cases Option.some.inj h
    exact ⟨.inr ⟨rfl, Nat.le_refl _⟩, by simp⟩
  | cons c l ih =>
    obtain ⟨hc, hl⟩ := (Tab.sorted_cons c.1 c.2 l).1 hsorted
    have hdc := hd c (by simp)
    rw [List.foldl_cons] at h
    by_cases hlt : c.2.prio < d.2.prio
    · rw [show betterSrc (some d) c = some c from if_pos hlt] at h
      obtain ⟨hxc, hxl⟩ := ih hl hc h
      refine ⟨?_, List.forall_mem_cons.2 ⟨hxc, hxl⟩⟩
      unfold ahead at hxc ⊢
      omega
    · rw [show betterSrc (some d) c = some d from if_neg hlt] at h
      obtain ⟨hxd, hxl⟩ := ih hl (fun e he => hd e (List.mem_cons_of_mem _ he)) h
      refine ⟨hxd, List.forall_mem_cons.2 ⟨?_, hxl⟩⟩
      unfold ahead at hxd ⊢
      omega

/-- The winner is a source that may win (R330). -/
theorem State.winner_mem {s : State} {ltp : Bool} {e : Nat × Src} (h : s.winner ltp = some e) : e ∈ s.evc.srcs ∧ s.mayWin ltp e.1 e.2 = true := by
  rw [State.winner_eq] at h
  exact List.mem_filter.1 ((mem_of_foldl_choose betterSrc_choose h).resolve_left (by simp))

/-- No source that may win is ahead of the winner (R330). -/
theorem State.winner_ahead {s : State} {ltp : Bool} {e y : Nat × Src} (hsorted : Tab.sorted s.evc.srcs = true) (h : s.winner ltp = some e)
    (hy : y ∈ s.evc.srcs) (hmay : s.mayWin ltp y.1 y.2 = true) : ahead e y := by
  rw [State.winner_eq] at h
  have hys : y ∈ s.evc.srcs.filter (fun e => s.mayWin ltp e.1 e.2) := List.mem_filter.2 ⟨hy, hmay⟩
  have hfs := Tab.sorted_filter (fun e => s.mayWin ltp e.1 e.2) hsorted
  generalize s.evc.srcs.filter (fun e => s.mayWin ltp e.1 e.2) = l at h hys hfs
  cases l with
  | nil => cases h
  | cons d l =>
    obtain ⟨hd, hl⟩ := (Tab.sorted_cons d.1 d.2 l).1 hfs
    obtain ⟨hed, hel⟩ := foldl_betterSrc_ahead hl hd h
    exact List.forall_mem_cons.2 ⟨hed, hel⟩ y hys

/-- While LTP-H takes no write only a source of firmware may win (R330). -/
theorem State.mayWin_noLtp {s : State} {n : Nat} {x : Src} (h : s.mayWin false n x = true) : srcFw n = true := by
  unfold State.mayWin at h
  by_cases hfw : srcFw n = true
  · exact hfw
  · simp [hfw] at h

/-! ### The record in a ring (R331 to R333, R335) -/

/-- The record of a function whose ring has room is in host memory, the ring's tail moves on, and an armed ring sends its message (R332,
R333). -/
theorem State.fnRingPut_values {s : State} {fn : Nat} {f : Fn} (src prio : Nat) (ovf level : Bool) (info co : Nat) (hf : Tab.at? s.fns fn = some f)
    (hfn : s.fnOk fn = true) (hvec : f.evArmed = false ∨ f.evVec ≠ 0x7FF) :
    let t := s.fnRingPut fn src prio ovf level info co
    let bs := eventBytes src prio ovf level (phaseOf f.evN f.evTail) info (Config.stamp s.fresh).toNat co
    t = { s with fns := t.fns, host := t.host, out := t.out, fresh := s.fresh + 1 } ∧
      t.host = s.host.write (f.evBase + 16 * (f.evTail % f.evN)) bs false ∧
      Tab.becomes s.fns t.fns fn { f with evTail := posAdd f.evN f.evTail 1, evArmed := false } ∧
      (f.evArmed = true → t.out.getLast? = some (.irq fn f.evVec)) := by
  intro t bs
  have hwhost := State.hostWrite_host (s := s.draw) none (f.evBase + 16 * (f.evTail % f.evN)) bs false hfn
  have hwframe := s.draw.hostWrite_frame fn none (f.evBase + 16 * (f.evTail % f.evN)) bs false
  have ht : t = (if f.evArmed then
      ({ s.draw.hostWrite fn none (f.evBase + 16 * (f.evTail % f.evN)) bs false with
        fns := Tab.upd (s.draw.hostWrite fn none (f.evBase + 16 * (f.evTail % f.evN)) bs false).fns fn
          (fun f => { f with evTail := posAdd f.evN f.evTail 1, evArmed := false }) } : State).irq fn f.evVec
      else { s.draw.hostWrite fn none (f.evBase + 16 * (f.evTail % f.evN)) bs false with
        fns := Tab.upd (s.draw.hostWrite fn none (f.evBase + 16 * (f.evTail % f.evN)) bs false).fns fn
          (fun f => { f with evTail := posAdd f.evN f.evTail 1, evArmed := false }) }) := by
    simp only [t, State.fnRingPut, Tab.atD, hf, Option.getD_some]
    rfl
  generalize s.draw.hostWrite fn none (f.evBase + 16 * (f.evTail % f.evN)) bs false = w at *
  have hwfns : w.fns = s.fns := by rw [hwframe]; rfl
  have hbecomes : Tab.becomes s.fns (Tab.upd w.fns fn (fun f => { f with evTail := posAdd f.evN f.evTail 1, evArmed := false })) fn
      { f with evTail := posAdd f.evN f.evTail 1, evArmed := false } := by
    rw [hwfns]
    exact Tab.becomes_upd _ hf
  have hwrst : w.rst = s.rst := by rw [hwframe]; rfl
  rw [ht]
  cases harmed : f.evArmed
  · exact ⟨by rw [hwframe]; rfl, hwhost, hbecomes, by simp⟩
  · have hok : State.fnOk { w with fns := Tab.upd w.fns fn (fun f => { f with evTail := posAdd f.evN f.evTail 1, evArmed := false }) } fn = true := by
      simp only [State.fnOk, hf, Bool.and_eq_true] at hfn
      simp only [State.fnOk, Tab.at?_upd_self, hwfns, hf, hwrst, Option.map_some, Bool.and_eq_true]
      exact hfn
    rw [if_pos rfl, State.irq_driven (hvec.resolve_left (by simp [harmed])) hok]
    exact ⟨by rw [hwframe]; rfl, hwhost, hbecomes, fun _ => by simp [State.emit]⟩

/-- A record of a hub ring: its bytes in the SRAM, its entry, and the tail (R331, R335). -/
theorem State.hubRingPut_values (s : State) (r : Nat) (e : HrRec) :
    let t := s.hubRingPut r e
    t = { s with evc := t.evc, fresh := s.fresh + 1 } ∧ t.evc.srcs = s.evc.srcs ∧
      Tab.at? (t.hring r).sram ((s.hring r).tail % 256) =
        some (eventBytes e.src e.prio e.ovf e.level (phaseOf 256 (s.hring r).tail) e.info (Config.stamp s.fresh).toNat e.coalesced) ∧
      Tab.becomes (s.hring r).recs (t.hring r).recs ((s.hring r).tail % 256) { e with order := s.evc.order, stamp := s.fresh } ∧
      (t.hring r).tail = posAdd 256 (s.hring r).tail 1 := by
  intro t
  have hring : t.hring r = { s.hring r with
      recs := Tab.put (s.hring r).recs ((s.hring r).tail % 256) { e with order := s.evc.order, stamp := s.fresh }
      sram := Tab.put (s.hring r).sram ((s.hring r).tail % 256)
        (eventBytes e.src e.prio e.ovf e.level (phaseOf 256 (s.hring r).tail) e.info (Config.stamp s.fresh).toNat e.coalesced)
      tail := posAdd 256 (s.hring r).tail 1 } := Tab.atD_put_self _ _ _ _
  rw [hring]
  exact ⟨rfl, rfl, Tab.at?_put_self _ _ _, Tab.becomes_put _ _ _, rfl⟩

/-- The EVENT frame of a management source whose ring has room (R449, R453). -/
theorem State.eventFrame_eq {s : State} {r : Nat} (n : Nat) (x : Src) (level : Bool) (co : Nat) (hfull : (s.hring r).full = false) :
    s.eventFrame r n x level co = { s with out := s.out ++ if 768 ≤ n ∧ n ≤ 831 ∧ s.build.canfd = true then
      [canFrame s (0x80 + s.opts.fields.getD 7 1)
        (eventBytes n x.prio false level (phaseOf 256 (s.hring r).tail) x.info (Config.stamp s.fresh).toNat co)] else [] } := by
  unfold State.eventFrame
  by_cases h : 768 ≤ n ∧ n ≤ 831 ∧ s.build.canfd = true
  · rw [if_pos (by simp [h, hfull]), if_pos h]
    rfl
  · rw [if_neg (by simpa [hfull, and_assoc] using h), if_neg h, List.append_nil]

theorem State.fnRingOvf_none {s : State} {fn : Nat} (h : (Tab.atD s.fns fn {}).evOvf = false) : s.fnRingOvf fn = s :=
  if_neg (by simp [h])

theorem State.hubRingOvf_none {s : State} {r : Nat} (h : (s.hring r).ovf = false) : s.hubRingOvf r = s := if_neg (by simp [h])

end Sys2Proof.Machine

end

section

/-! Records reach the rings, and functions enable and read theirs (R328, R330 to R333, R335, R342, R453). -/

namespace Sys2Proof.Machine

theorem State.deliver_none {s : State} {ltp : Bool} (h : s.winner ltp = none) : s.deliver ltp = s := by
  unfold State.deliver
  rw [h]

/-- The record of a HOST source goes to the ring of its function (R330, R332). -/
theorem State.deliver_host {s : State} {ltp : Bool} {n : Nat} {x : Src} {f : Fn} (hw : s.winner ltp = some (n, x)) (hfw : srcFw n = false)
    (hf : Tab.at? s.fns x.fn = some f) (hen : f.evEn = true) (hfull : f.evFull = false) :
    s.deliver ltp = (s.setSrc n x.delivered).fnRingPut x.fn n x.prio false (x.sense == 0) x.info (if x.sense = 0 then 1 else x.count) := by
  unfold State.deliver
  rw [hw]
  simp [hfw, State.fnRingRecord, Tab.atD, hf, hen, hfull]

/-- The record of a firmware source (R331, R335). -/
def Src.hubRec (x : Src) (n : Nat) : HrRec :=
  { src := n, prio := x.prio, ovf := false, level := x.sense == 0, info := x.info, stamp := 0, coalesced := if x.sense = 0 then 1 else x.count
    mode := x.mode, tmask := x.tmask, order := 0 }

/-- The EVENT frame that goes out with the record of a firmware source: one for a source of management, where CAN FD is built (R449, R453). -/
def State.frameOf (s : State) (n : Nat) (x : Src) : List Output :=
  if 768 ≤ n ∧ n ≤ 831 ∧ s.build.canfd = true then
    [canFrame s (0x80 + s.opts.fields.getD 7 1) (eventBytes n x.prio false (x.sense == 0) (phaseOf 256 (s.hring x.hring).tail) x.info
      (Config.stamp s.fresh).toNat (if x.sense = 0 then 1 else x.count))] else []

/-- A firmware source delivered, its frame sent; its record is still to be put in the ring. -/
def State.announced (s : State) (n : Nat) (x : Src) : State :=
  { s with evc := { s.evc with srcs := Tab.put s.evc.srcs n x.delivered }, out := s.out ++ s.frameOf n x }

/-- The record of a firmware source goes to its hub ring, and out as an EVENT frame where the source is one of management (R330, R335,
R453). -/
theorem State.deliver_fw {s : State} {ltp : Bool} {n : Nat} {x : Src} (hw : s.winner ltp = some (n, x)) (hfw : srcFw n = true)
    (hfull : (s.hring x.hring).full = false) : s.deliver ltp = (s.announced n x).hubRingPut x.hring (x.hubRec n) := by
  have hframe : (s.setSrc n x.delivered).eventFrame x.hring n x (x.sense == 0) (if x.sense = 0 then 1 else x.count) = s.announced n x :=
    State.eventFrame_eq (s := s.setSrc n x.delivered) n x _ _ hfull
  have hring : (s.announced n x).hring x.hring = s.hring x.hring := rfl
  unfold State.deliver
  rw [hw]
  simp only [hfw, if_true, beq_iff_eq, hframe, State.hubRingRecord, hring, hfull]
  rfl

/-- What EVC_FN_CFG.EN makes of a function's ring (R332, R342). -/
def Fn.ringEnabled (f : Fn) (v : Nat) : Fn :=
  if 4 ≤ bits v 1 4 ∧ bits v 1 4 ≤ 12 then
    { f with evVec := bits v 5 11, evLog2 := bits v 1 4, evEn := true, evCfgErr := false, evHead := 0, evTail := 0, evArmed := true }
  else { f with evVec := bits v 5 11, evLog2 := bits v 1 4, evCfgErr := true }

/-- What a write of EVC_FN_CFG makes of the function (R332, R342). -/
def Fn.cfgWritten (v : Nat) (f : Fn) : Fn :=
  let f := { f with evVec := bits v 5 11, evLog2 := if f.evEn then f.evLog2 else bits v 1 4 }
  if bit v 0 && !f.evEn then
    if 4 ≤ bits v 1 4 ∧ bits v 1 4 ≤ 12 then { f with evEn := true, evCfgErr := false, evHead := 0, evTail := 0, evArmed := true }
    else { f with evCfgErr := true }
  else { f with evEn := bit v 0 && f.evEn }

theorem State.evFnCfg_eq (s : State) (fn v : Nat) :
    s.evFnCfg fn v = ({ s with fns := Tab.upd s.fns fn (Fn.cfgWritten v) } : State).fnRingOvf fn := rfl

/-- A function with no overflow record waiting gets none (R341). -/
theorem State.fnRingOvf_upd {s : State} {fn : Nat} {f : Fn} {g : Fn → Fn} (hf : Tab.at? s.fns fn = some f) (hovf : (g f).evOvf = false) :
    ({ s with fns := Tab.upd s.fns fn g } : State).fnRingOvf fn = { s with fns := Tab.upd s.fns fn g } :=
  State.fnRingOvf_none (by simpa [Tab.atD, hf] using hovf)

theorem Fn.cfgWritten_enable {f : Fn} {v : Nat} (hen : f.evEn = false) (hv : bit v 0 = true) : f.cfgWritten v = f.ringEnabled v := by
  simp [Fn.cfgWritten, Fn.ringEnabled, hen, hv]

@[simp] theorem Fn.ringEnabled_evOvf (f : Fn) (v : Nat) : (f.ringEnabled v).evOvf = f.evOvf := by
  unfold Fn.ringEnabled
  split <;> rfl

theorem State.evFnCfg_enable {s : State} {fn v : Nat} {f : Fn} (hf : Tab.at? s.fns fn = some f) (hen : f.evEn = false) (hv : bit v 0 = true)
    (hovf : f.evOvf = false) :
    s.evFnCfg fn v = { s with fns := Tab.upd s.fns fn (Fn.cfgWritten v) } := by
  rw [State.evFnCfg_eq, State.fnRingOvf_upd hf]
  rw [Fn.cfgWritten_enable hen hv, Fn.ringEnabled_evOvf, hovf]

/-- A function's ring whose head moved (R333). -/
def Fn.headMoved (h : Nat) (f : Fn) : Fn := { f with evHead := h, evArmed := f.evArmed || h == f.evTail }

/-- A head within what the ring holds moves it, and the message is sent again while records are left (R333). -/
theorem State.evFnHead_moves {s : State} {fn v h : Nat} {f : Fn} (hf : Tab.at? s.fns fn = some f) (hdec : posDec f.evN v = some h)
    (hle : posSub f.evN h f.evHead ≤ posSub f.evN f.evTail f.evHead) (hovf : f.evOvf = false) (hfn : s.fnOk fn = true) (hvec : f.evVec ≠ 0x7FF) :
    s.evFnHead fn v = { s with
      fns := Tab.upd s.fns fn (Fn.headMoved h)
      out := if h = f.evTail then s.out else s.out ++ [.irq fn f.evVec] } := by
  have hmoved : s.evFnHead fn v = (if h ≠ f.evTail then ({ s with fns := Tab.upd s.fns fn (Fn.headMoved h) } : State).irq fn f.evVec
      else { s with fns := Tab.upd s.fns fn (Fn.headMoved h) }).fnRingOvf fn := by
    unfold State.evFnHead
    simp only [hf, hdec, hle, if_true]
    rfl
  rw [hmoved]
  by_cases htail : h = f.evTail
  · rw [if_neg (by simp [htail]), if_pos htail, State.fnRingOvf_upd hf hovf]
  · have hok : State.fnOk { s with fns := Tab.upd s.fns fn (Fn.headMoved h) } fn = true := by
      simp only [State.fnOk, hf, Bool.and_eq_true] at hfn
      simpa only [State.fnOk, Tab.at?_upd_self, hf, Option.map_some, Bool.and_eq_true, Fn.headMoved] using hfn
    rw [if_pos htail, if_neg htail, State.irq_driven hvec hok]
    exact State.fnRingOvf_upd (s := s.emit (.irq fn f.evVec)) hf hovf

/-- Settles O34: the winner by the fold over the sources in order, its record by the ring of its owner, and a function's ring by its two
registers. -/
theorem recordsReachTheRings : Obligations.RecordsReachTheRings := by
  refine ⟨⟨fun s ltp n x hsorted hw => ?winner, fun s n x hw => State.mayWin_noLtp (State.winner_mem hw).2,
      fun s hw => congrArg Host.Outcome.next (State.deliver_none hw), fun s n x f hltp hw hfw hf hen hfull hfn hvec => ?host,
      fun s n x hw hfw hfull => ?firmware⟩,
    ⟨fun s fn v f hreach hf hen hv hovf => ?enable, fun s fn h v f hreach hf hdec hle hovf hfn hvec => ?head⟩⟩
  case winner =>
    obtain ⟨hmem, hmay⟩ := State.winner_mem hw
    exact ⟨Tab.at?_of_mem hsorted hmem, hmay, fun m y hy hymay => State.winner_ahead hsorted hw hy hymay⟩
  case host =>
    have hdeliver := State.deliver_host hw hfw hf hen hfull
    obtain ⟨hframe, hhost, hfns, hirq⟩ := State.fnRingPut_values (s := s.setSrc n x.delivered) n x.prio false (x.sense == 0) x.info
      (if x.sense = 0 then 1 else x.count) hf hfn hvec
    refine ⟨_, congrArg Host.Outcome.next ((congrArg s.deliver hltp).trans hdeliver), ?_, ?_, hhost, hfns, hirq⟩
    · exact hframe.trans (by rw [hframe]; rfl)
    · rw [hframe]
      exact State.src_setSrc_self _ _ _
  case firmware =>
    have hdeliver := State.deliver_fw hw hfw hfull
    obtain ⟨hframe, hsrcs, hsram, hrecs, htail⟩ := (s.announced n x).hubRingPut_values x.hring (x.hubRec n)
    refine ⟨_, _, congrArg Host.Outcome.next hdeliver, ?_, ?_, hsram, ?_, hrecs, htail, rfl, rfl, rfl, rfl⟩
    · exact hframe.trans rfl
    · exact (congrArg (fun t => Tab.atD t n (srcReset n)) hsrcs).trans (State.src_setSrc_self _ _ _)
    · rw [hframe]
      rfl
  case enable =>
    have hfns := Tab.becomes_upd (Fn.cfgWritten v.toNat) hf
    rw [Fn.cfgWritten_enable hen hv] at hfns
    exact ⟨_, congrArg Host.Outcome.next ((State.mmioOf_reaches _ hreach).trans (State.evFnCfg_enable hf hen hv hovf)), rfl, hfns⟩
  case head =>
    refine ⟨_, congrArg Host.Outcome.next ((State.mmioOf_reaches _ hreach).trans (State.evFnHead_moves hf hdec hle hovf hfn hvec)), rfl,
      Tab.becomes_upd (Fn.headMoved h) hf, rfl⟩

end Sys2Proof.Machine

end

section

/-! Claims and their ends (R336 to R338). -/

namespace Sys2Proof.Machine

/-- The records that are presented to a core, with their rings and slots (R336). -/
def State.offered (s : State) (core : Nat) : List (Nat × Nat × HrRec) :=
  s.evc.rings.flatMap (fun h => (h.2.recs.filter (fun e => s.presented core e.2)).map (fun e => (h.1, e.1, e.2)))

/-- The better of the record so far and the next one: lower PRIO, then the one written earlier (R337). -/
def betterRec (b : Option (Nat × Nat × HrRec)) (c : Nat × Nat × HrRec) : Option (Nat × Nat × HrRec) :=
  match b with
  | none => some c
  | some d => if c.2.2.prio < d.2.2.prio ∨ (c.2.2.prio = d.2.2.prio ∧ c.2.2.order < d.2.2.order) then some c else some d

theorem State.claimPick_eq (s : State) (core : Nat) : s.claimPick core = (s.offered core).foldl betterRec none := rfl

theorem betterRec_choose (b : Option (Nat × Nat × HrRec)) (c : Nat × Nat × HrRec) : betterRec b c = some c ∨ betterRec b c = b := by
  cases b with
  | none => exact .inl rfl
  | some d =>
    by_cases h : c.2.2.prio < d.2.2.prio ∨ (c.2.2.prio = d.2.2.prio ∧ c.2.2.order < d.2.2.order)
    · exact .inl (if_pos h)
    · exact .inr (if_neg h)

/-- What a claim takes is presented to the core (R336, R337). -/
theorem State.presented_of_claimPick {s : State} {core r slot : Nat} {e : HrRec} (h : s.claimPick core = some (r, slot, e)) :
    s.presented core e = true := by
  rw [State.claimPick_eq] at h
  have hmem := (mem_of_foldl_choose betterRec_choose h).resolve_left (by simp)
  obtain ⟨ring, -, hring⟩ := List.mem_flatMap.1 hmem
  obtain ⟨x, hx, heq⟩ := List.mem_map.1 hring
  cases heq
  exact (List.mem_filter.1 hx).2

theorem State.claim_eq {s : State} {core : Nat} (h : core < 8) : s.claim core = (s.claimRead core).2.emit (.seqRead core (s.claimRead core).1) :=
  if_neg (by omega)

@[simp] theorem State.hring_setHring_self (s : State) (r : Nat) (x : HubRing) : (s.setHring r x).hring r = x := Tab.atD_put_self _ _ _ _

theorem State.hring_setHring_ne (s : State) {r q : Nat} (x : HubRing) (h : q ≠ r) : (s.setHring r x).hring q = s.hring q := Tab.atD_put_ne _ _ _ h

/-- The head alone moves over free slots (R335). -/
theorem HubRing.advance_frame (k : Nat) (h : HubRing) : HubRing.advance k h = { h with head := (HubRing.advance k h).head } := by
  induction k generalizing h with
  | zero => rfl
  | succ k ih =>
    unfold HubRing.advance
    split
    · rfl
    · exact (ih _).trans rfl

theorem HubRing.advance_recs (k : Nat) (h : HubRing) : (HubRing.advance k h).recs = h.recs := by rw [HubRing.advance_frame]
theorem HubRing.advance_tail (k : Nat) (h : HubRing) : (HubRing.advance k h).tail = h.tail := by rw [HubRing.advance_frame]
theorem HubRing.advance_ovf (k : Nat) (h : HubRing) : (HubRing.advance k h).ovf = h.ovf := by rw [HubRing.advance_frame]

/-- A slot freed in a ring with no overflow record waiting (R335, R338). -/
theorem State.freeSlot_eq {s : State} {r slot : Nat} (hovf : (s.hring r).ovf = false) :
    s.freeSlot r slot = s.setHring r (HubRing.advance 256 { s.hring r with recs := Tab.del (s.hring r).recs slot }) :=
  State.hubRingOvf_none (by rw [State.hring_setHring_self, HubRing.advance_ovf]; exact hovf)

/-- DONE of a record the core claimed, of a RISING source, frees its slot (R338). -/
theorem State.doneClaim_own {s : State} {core v : Nat} {e : HrRec} (hcore : core < 8) (hclaims : s.claims core ≠ [])
    (he : Tab.at? (s.hring (bits v 10 2)).recs (bits v 12 8) = some e) (hby : e.by_ = some core) (hlevel : e.level = false) :
    s.doneClaim core v = s.freeSlot (bits v 10 2) (bits v 12 8) := by
  simp [State.doneClaim, Nat.not_le.2 hcore, hclaims, he, hby, hlevel]

theorem State.doneClaim_empty {s : State} {core : Nat} (v : Nat) (hcore : core < 8) (hclaims : s.claims core = []) :
    s.doneClaim core v = { s with evc := { s.evc with empty_ := Tab.put s.evc.empty_ core () } } := by
  simp [State.doneClaim, Nat.not_le.2 hcore, hclaims]

/-- Settles O35: a claim by the fold over the records presented, DONE by the slot it frees. -/
theorem coresClaimAndEndRecords : Obligations.CoresClaimAndEndRecords := by
  refine ⟨fun s core hcore hpick => ?spurious, fun s core r slot e hcore hpick => ?claim, fun s core v e hcore hclaims he hby hlevel hovf => ?done,
    fun s core v hcore hclaims => congrArg Host.Outcome.next (State.doneClaim_empty v.toNat hcore hclaims)⟩
  case spurious =>
    refine congrArg Host.Outcome.next ((State.claim_eq hcore).trans ?_)
    simp only [State.claimRead, hpick]
    rfl
  case claim =>
    have hclaim := State.claim_eq (s := s) hcore
    simp only [State.claimRead, hpick] at hclaim
    refine ⟨_, congrArg Host.Outcome.next hclaim, rfl, rfl, ?_, State.presented_of_claimPick hpick, fun q hq => State.hring_setHring_ne s _ hq⟩
    have hring := State.hring_setHring_self s r { s.hring r with recs := Tab.put (s.hring r).recs slot { e with by_ := some core } }
    exact (congrArg (fun h : HubRing => Tab.becomes (s.hring r).recs h.recs slot { e with by_ := some core }) hring).mpr (Tab.becomes_put _ _ _)
  case done =>
    have hdone := (State.doneClaim_own hcore hclaims he hby hlevel).trans (State.freeSlot_eq hovf)
    refine ⟨_, congrArg Host.Outcome.next hdone, rfl, ?_, ?_⟩
    · rw [State.hring_setHring_self, HubRing.advance_recs]
      exact Tab.loses_del _ _
    · rw [State.hring_setHring_self, HubRing.advance_tail]

end Sys2Proof.Machine

end

section

/-! Rails, seconds and commits (R453, R459, R461, R464). -/

namespace Sys2Proof.Machine

/-! ### Rails (R459) -/

/-- A rail that may still rise is written: at most 5 mV up, and never past its plan (R459). -/
theorem State.avsWrite_writes {s : State} {r : Nat} (ans : RailAnswer) (volts : Nat) (hon : s.railOn r = true) (hstatus : (s.rail r).status = 0)
    (hplan : (s.rail r).off < s.railPlan r) :
    s.avsWrite r ans volts =
      let o := min (s.railPlan r) ((s.rail r).off + 5)
      let t := s.emit (.avs r (s.railBase r + o))
      match ans with
      | .ok => { t with rails := Tab.put s.rails r { s.rail r with off := o, volt := volts } }
      | .statusFault => ({ t with rails := Tab.put s.rails r { s.rail r with off := o, volt := volts, status := 2 } } : State).raise 772 r
      | .silent => ({ t with rails := Tab.put s.rails r { s.rail r with status := 1 } } : State).raise 772 r := by
  unfold State.avsWrite
  exact if_neg (by simp [hon, hstatus, hplan])

/-- A rail that is marked, or at its plan, is not written (R459). -/
theorem State.avsWrite_none {s : State} {r : Nat} (ans : RailAnswer) (volts : Nat) (h : (s.rail r).status ≠ 0 ∨ s.railPlan r ≤ (s.rail r).off) :
    s.avsWrite r ans volts = s := by
  unfold State.avsWrite
  exact if_pos (by simpa [or_assoc] using Or.inr h)

theorem exec_avsRailWrite_up {s : State} (hup : s.fwUp = true) (r : Nat) (ans : RailAnswer) (volts : Nat) :
    exec (.avsRailWrite r ans volts) s = .next (s.avsWrite r ans volts) := congrArg Host.Outcome.next (if_pos hup)

/-! ### The calendar (R461, R464) -/

/-- The time a second later (R464). -/
def State.secondPassed (s : State) : State :=
  { s with mgt := { s.mgt with uptime := (s.mgt.uptime + 1) % 2 ^ 64, wall := (s.mgt.wall + 1) % 2 ^ 64 } }

/-- Watchdog inputs that were raised fall again (R399). -/
theorem State.lowerInputs_frame (l : List Nat) (s : State) :
    ∃ e, l.foldl (fun s k => if (s.src (256 + k)).raw then s.setInput (256 + k) false 0 else s) s = { s with evc := e } := by
  refine foldl_keeps (fun t => ∃ e, t = { s with evc := e }) _ l ?_ s ⟨s.evc, rfl⟩
  rintro t k - ⟨e, rfl⟩
  split
  · obtain ⟨e', h⟩ := State.setInput_frame { s with evc := e } (256 + k) false 0
    exact ⟨e', h⟩
  · exact ⟨e, rfl⟩

/-- A second of operation, by what runs on it (R461, R464, R484). -/
theorem State.opTick_values (s : State) :
    s.opTick = { s with incr := s.opTick.incr, mgt := { s.mgt with toReplan := s.mgt.toReplan - 1, toCommit := s.mgt.toCommit - 1 }, fw := s.opTick.fw } ∧
      Tab.atD s.opTick.incr 1 0 = satAdd 64 (Tab.atD s.incr 1 0) 1 := by
  refine ⟨rfl, ?_⟩
  exact (Tab.atD_put_ne _ _ _ (by omega)).trans (Tab.atD_put_self _ _ _ _)

/-- The state in which `tick` lowers the watchdogs' inputs: the calendar and the counters of operation have moved. -/
theorem State.tick_eq (s : State) : ∃ r e, s.tick = { (if s.operating then s.secondPassed.opTick else s.secondPassed) with rcv := r, evc := e } := by
  let v := if s.operating then s.secondPassed.opTick else s.secondPassed
  let w := if !v.up && v.rst.ladder then { v with rcv := { v.rcv with elapsed := satAdd 24 v.rcv.elapsed 1000 } } else v
  have hw : ∃ r, w = { v with rcv := r } := by
    by_cases h : (!v.up && v.rst.ladder) = true
    · exact ⟨_, if_pos h⟩
    · exact ⟨_, if_neg h⟩
  obtain ⟨r, hr⟩ := hw
  obtain ⟨e, he⟩ := State.lowerInputs_frame (List.range 8) w
  exact ⟨r, e, he.trans (congrArg (fun x : State => { x with evc := e }) hr)⟩

theorem State.foldCounters_spi {s : State} (h : s.spi = true) : s.foldCounters.incr = [] := by
  unfold State.foldCounters
  rw [if_pos h]

/-- Where the device is there, a COUNTERS record starts the companions anew (R461). -/
theorem State.commitCounters_spi {s : State} (h : s.spi = true) :
    ∃ t, s.LogMoved t ∧ t.incr = [] ∧ s.commitCounters = { t with mgt := { s.mgt with toCommit := 3600 } } := by
  have hv : s.LogMoved ((s.logRoom 7).logPut 1 (s.logRoom 7).countersBody) := (s.logRoom_logMoved 7).trans (State.logPut_logMoved _ _ _)
  refine ⟨_, hv.trans (State.foldCounters_logMoved _), State.foldCounters_spi (by rw [hv.eq]; exact h), ?_⟩
  rw [← (s.logRoom_logMoved 7).mgt]
  rfl

/-- Settles O51: a rail by what its Status answers, a second by what runs on it, a commit by what its record changes. -/
theorem railsAndTheCalendar : Obligations.RailsAndTheCalendar := by
  refine ⟨⟨fun s r volts hup hon hstatus hplan => ?rail, fun s r volts a h => ?railNone⟩, fun s => ?tick,
    fun s v hup => congrArg Host.Outcome.next (if_pos hup), fun s hup hspi => ?commit⟩
  case rail =>
    have hexec := fun a => (exec_avsRailWrite_up hup r a volts).trans (congrArg Host.Outcome.next (State.avsWrite_writes a volts hon hstatus hplan))
    exact ⟨⟨_, hexec .ok, rfl, Tab.becomes_put _ _ _⟩, ⟨_, hexec .statusFault, rfl, Tab.becomes_put _ _ _⟩,
      ⟨_, hexec .silent, rfl, Tab.becomes_put _ _ _⟩⟩
  case railNone =>
    refine congrArg Host.Outcome.next ?_
    rw [State.avsWrite_none a volts h, ite_self]
  case tick =>
    obtain ⟨r, e, htick⟩ := s.tick_eq
    by_cases hop : s.operating = true
    · obtain ⟨hop_eq, hcount⟩ := s.secondPassed.opTick_values
      rw [if_pos hop, hop_eq] at htick
      refine ⟨_, congrArg Host.Outcome.next htick, rfl, ?_, fun _ => hcount, fun h => absurd hop (by simp [h])⟩
      rw [if_pos hop, if_pos hop]
      rfl
    · rw [if_neg hop] at htick
      refine ⟨_, congrArg Host.Outcome.next htick, rfl, ?_, fun h => absurd h hop, fun _ => rfl⟩
      rw [if_neg hop, if_neg hop]
      rfl
  case commit =>
    obtain ⟨t, ht, hincr, hcommit⟩ := State.commitCounters_spi hspi
    have hframe := ht.eq
    rw [hincr] at hframe
    have hexec := congrArg (fun u : State => u.raise 773 ((u.logSeq - 1) % 2 ^ 32)) hcommit
    refine ⟨{ t with mgt := { s.mgt with toCommit := 3600 } }, congrArg Host.Outcome.next ((if_pos hup).trans hexec), ?_⟩
    conv_lhs => rw [hframe]

end Sys2Proof.Machine

end

section

/-! What the SPI NOR reads after it was written (R387, R460). -/

namespace Sys2Proof.Machine

/-! ### What the SPI NOR reads (R387) -/

theorem runFrom_eq_range' (a n : Nat) : runFrom a n = List.range' a n := by
  induction n generalizing a with
  | zero => rfl
  | succ n ih => rw [runFrom, ih, List.range'_succ]

/-- A byte programmed into a blank cell reads as it was written (R387). -/
theorem byte_programmed (b : Byte) : (0xFF : Byte) ^^^ (0 ||| (0xFF ^^^ b)) = b := by
  change (0xFF : BitVec 8) ^^^ (0#8 ||| (0xFF ^^^ b)) = b
  rw [BitVec.zero_or, ← BitVec.xor_assoc, BitVec.xor_self, BitVec.zero_xor]

theorem cellsOr_outside (c : List Host.Cell) (a : Nat) (bs : List Byte) {x : Nat} (h : x < a ∨ a + bs.length ≤ x) :
    Tab.atD (cellsOr c a bs) x 0 = Tab.atD c x 0 := by
  induction bs generalizing c a with
  | nil => rfl
  | cons b bs ih =>
    rw [List.length_cons] at h
    rw [cellsOr, ih _ _ (by omega), cellPut_ne _ _ (by omega)]

theorem cellsOr_inside (c : List Host.Cell) (a : Nat) (bs : List Byte) {i : Nat} (h : i < bs.length) :
    Tab.atD (cellsOr c a bs) (a + i) 0 = Tab.atD c (a + i) 0 ||| bs[i] := by
  induction bs generalizing c a i with
  | nil => simp at h
  | cons b bs ih =>
    rw [cellsOr]
    cases i with
    | zero =>
      rw [cellsOr_outside _ _ _ (by omega)]
      exact cellPut_self c a _
    | succ i =>
      have hi := ih (cellPut c a (Tab.atD c a 0 ||| b)) (a + 1) (i := i) (by simpa using h)
      rw [cellPut_ne _ _ (by omega)] at hi
      simpa [Nat.add_assoc, Nat.add_comm 1 i] using hi

theorem Tab.atD_filter_key {α : Type} (t : Tab α) (p : Nat → Bool) (x : Nat) (d : α) :
    Tab.atD (t.filter (fun e => p e.1)) x d = if p x = true then Tab.atD t x d else d := by
  induction t with
  | nil => simp [Tab.atD]
  | cons e t ih =>
    obtain ⟨k, v⟩ := e
    simp only [Tab.atD] at ih ⊢
    by_cases hk : x = k
    · subst hk
      by_cases hp : p x = true
      · simp [hp, Tab.at?]
      · simpa [hp] using ih
    · by_cases hp : p k = true
      · simpa [hp, Tab.at?, hk] using ih
      · simpa [hp, Tab.at?, hk] using ih

/-- What a program of `bs` at `a` leaves in the device (R387). -/
theorem State.nvmProgram_nvm {s : State} (h : s.spi = true) (a : Nat) (bs : List Byte) :
    (s.nvmProgram a bs).nvm = cellsOr s.nvm a (bs.map (fun b => 0xFF ^^^ b)) := by
  unfold State.nvmProgram
  rw [if_pos h]

/-- What an erase of the sector of `a` leaves in the device (R387). -/
theorem State.nvmErase_nvm {s : State} (h : s.spi = true) (a : Nat) :
    (s.nvmErase a).nvm = s.nvm.filter (fun e => e.1 / 4096 != a / 4096) := by
  unfold State.nvmErase
  rw [if_pos h, ((State.count_norMoved _ _ _)).eq]
  rfl

theorem State.spi_of_norMoved {s t : State} (h : s.NorMoved t) : t.spi = s.spi := by rw [h.eq]

/-- Bytes programmed into a blank sector read back (R387). -/
theorem State.nvmRead_program_erased {s : State} (h : s.spi = true) (bs : List Byte) (hlen : bs.length ≤ 4096) :
    ((s.nvmErase 0).nvmProgram 0 bs).nvmRead 0 bs.length = bs := by
  have herase := State.spi_of_norMoved (s.nvmErase_norMoved 0)
  have hspi : ((s.nvmErase 0).nvmProgram 0 bs).spi = true := by
    rw [State.spi_of_norMoved (State.nvmProgram_norMoved _ 0 bs), herase, h]
  have hnvm := State.nvmProgram_nvm (herase.trans h) 0 bs
  rw [State.nvmErase_nvm h] at hnvm
  unfold State.nvmRead
  rw [if_pos hspi]
  refine List.ext_getElem (by simp) fun i hi hi' => ?_
  have hblank : Tab.atD (s.nvm.filter (fun e => e.1 / 4096 != 0 / 4096)) i 0 = 0 := by
    rw [Tab.atD_filter_key s.nvm (fun k => k / 4096 != 0 / 4096), if_neg]
    simpa using (by omega : i / 4096 = 0)
  have hin := cellsOr_inside (s.nvm.filter (fun e => e.1 / 4096 != 0 / 4096)) 0 (bs.map (fun b => 0xFF ^^^ b)) (i := i) (by simpa using hi')
  rw [Nat.zero_add, hblank] at hin
  simp only [runFrom_eq_range', List.getElem_map, List.getElem_range', Nat.zero_add, Nat.one_mul, State.nvmByte, hnvm, hin]
  exact byte_programmed _

/-- From `s` to `t` the first 4 KiB sector of the SPI NOR reads the same. -/
def State.sector0Kept (s t : State) : Prop := ∀ x, x < 4096 → Tab.atD t.nvm x 0 = Tab.atD s.nvm x 0

theorem State.sector0Kept.trans {s t u : State} (h : s.sector0Kept t) (k : t.sector0Kept u) : s.sector0Kept u :=
  fun x hx => (k x hx).trans (h x hx)

theorem State.nvmProgram_sector0 (s : State) {a : Nat} (bs : List Byte) (ha : 4096 ≤ a) : s.sector0Kept (s.nvmProgram a bs) := by
  intro x hx
  by_cases h : s.spi = true
  · rw [State.nvmProgram_nvm h]
    exact cellsOr_outside _ _ _ (by omega)
  · unfold State.nvmProgram
    rw [if_neg h]
    rfl

theorem State.nvmErase_sector0 (s : State) {a : Nat} (ha : 4096 ≤ a) : s.sector0Kept (s.nvmErase a) := by
  intro x hx
  by_cases h : s.spi = true
  · rw [State.nvmErase_nvm h, Tab.atD_filter_key s.nvm (fun k => k / 4096 != a / 4096), if_pos]
    simpa using (by omega : x / 4096 ≠ a / 4096)
  · unfold State.nvmErase
    rw [if_neg h]
    rfl

theorem State.logPut_sector0 (s : State) (type : Nat) (body : List Byte) : s.sector0Kept (s.logPut type body) :=
  s.nvmProgram_sector0 _ (by unfold logAddr; omega)

theorem State.foldCounters_sector0 (s : State) : s.sector0Kept s.foldCounters := by
  unfold State.foldCounters
  split
  · exact fun _ _ => rfl
  · exact fun _ _ => rfl

theorem State.logRoom_sector0 (s : State) (n : Nat) : s.sector0Kept (s.logRoom n) := by
  unfold State.logRoom
  extract_lets v fresh w
  have hv : s.sector0Kept v := by
    by_cases h : s.logAt % 64 + n ≤ 64
    · rw [show v = s from if_pos h]
      exact fun _ _ => rfl
    · rw [show v = { s with logAt := (s.logAt / 64 + 1) % 1006 * 64 } from if_neg h]
      exact fun _ _ => rfl
  have hw : s.sector0Kept w := hv.trans (v.nvmErase_sector0 (by unfold logAddr; omega))
  split
  · exact hv
  · split
    · exact (hw.trans (w.logPut_sector0 _ _)).trans (State.foldCounters_sector0 _)
    · exact hw

/-- The lifetime log lies above the first sector (R387, R460). -/
theorem State.logAppend_sector0 (s : State) (type : Nat) (body : List Byte) : s.sector0Kept (s.logAppend type body) :=
  (s.logRoom_sector0 _).trans (State.logPut_sector0 _ _ _)

theorem State.nvmRead_sector0 {s t : State} (hspi : t.spi = s.spi) (h : s.sector0Kept t) {n : Nat} (hn : n ≤ 4096) : t.nvmRead 0 n = s.nvmRead 0 n := by
  unfold State.nvmRead
  rw [hspi]
  split
  · refine List.map_congr_left fun x hx => ?_
    have hlt : x < 4096 := by 
      rw [runFrom_eq_range', List.mem_range'_1] at hx
      omega
    exact congrArg (fun b => 0xFF ^^^ b) (h x hlt)
  · rfl

end Sys2Proof.Machine

end

section

/-! Commits of the options, and CAN FD frames (R388, R449 to R452, R457, R458). -/

namespace Sys2Proof.Machine

/-! ### Commits of the options (R458) -/

/-- A commit of the options that the device carries out writes the shadow (R458). -/
theorem State.optWrite_ok {s : State} (h : s.spi = true) (hlen : s.shadow.bytes.length = 256) :
    s.optWrite true = ((s.nvmErase 0).nvmProgram 0 s.shadow.bytes, true) := by
  have hread := State.nvmRead_program_erased h s.shadow.bytes (by omega)
  rw [hlen] at hread
  simp [State.optWrite, hread]

/-- What a commit that the mirror asked for leaves when it ends (R454, R458). -/
theorem State.optCommit_mirror {s t : State} {ok good : Bool} {r : List Byte} (hup : s.fwUp = true) (hw : s.optWrite ok = (t, good))
    (hcommit : s.mgt.commit = some (0, r)) {u : State} (hu : (if good then t.logFree 7 else t.raise 774 1).raise 782 (b2n (!good)) = u)
    (hmgt : u.mgt = s.mgt) :
    s.optCommit ok = { u with mgt := { s.mgt with commit := none, odBusy := false, odResult := if good then 0 else 9, odSize := 1 } } := by
  unfold State.optCommit
  simp only [hup, hw, hu, hmgt, hcommit]
  rw [← hmgt]
  rfl

/-! ### CAN FD frames (R388, R449 to R452) -/

theorem canPad_short {b : List Byte} (h : b.length ≤ 8) : canPad b = b := by
  have hfind : ((List.range 9 ++ [12, 16, 20, 24, 32, 48, 64]).find? (fun n => decide (b.length ≤ n))) = some b.length := by
    generalize b.length = k at h ⊢
    interval_cases k <;> rfl
  unfold canPad
  rw [hfind]
  simp [zeros]

theorem canFrame_short (s : State) (id : Nat) {b : List Byte} (h : b.length ≤ 8) : canFrame s id b = .can id 1 b := by
  unfold canFrame
  rw [if_pos h, canPad_short h]

/-- A request of the right form is served, unless a commit of the port's own runs (R388, R450, R451). -/
theorem State.canRequest_serves {s : State} {req : List Byte} (hup : s.canUp = true) (hlo : 8 ≤ req.length) (hhi : req.length ≤ 64)
    (hcommit : s.mgt.commit.map (·.1) ≠ some 1) : s.canRequest (0x200 + s.node) false req = s.canServe req := by
  unfold State.canRequest
  rw [if_neg (by simp [hup, hlo, hhi]), if_neg (by simpa using hcommit)]

/-- In a commit of the port's own four requests wait, and a fifth is refused (R451). -/
theorem State.canRequest_waits {s : State} {req : List Byte} (hup : s.canUp = true) (hlo : 8 ≤ req.length) (hhi : req.length ≤ 64)
    (hcommit : s.mgt.commit.map (·.1) = some 1) :
    s.canRequest (0x200 + s.node) false req = if s.mgt.canQ.length < 4 then { s with mgt := { s.mgt with canQ := s.mgt.canQ ++ [req] } }
      else s.emit (canFrame s (0x280 + s.node) (canResp req 8 0 [])) := by
  unfold State.canRequest
  rw [if_neg (by simp [hup, hlo, hhi]), if_pos (by simp [hcommit])]
  by_cases hq : s.mgt.canQ.length < 4
  · rw [if_neg (by omega), if_pos hq]
  · rw [if_pos (by omega), if_neg hq]

/-- A read that finds something is answered with up to 56 bytes from its offset on (R450). -/
theorem State.canServe_read {s : State} {req : List Byte} (hnew : req ≠ s.mgt.lastReq) (hop : rd req 0 1 = 1)
    (hok : (s.odRead 1 (rd req 2 2) (rd req 4 1)).1 = 0) (hoff : rd req 6 2 < (s.odRead 1 (rd req 2 2) (rd req 4 1)).2.1) :
    s.canServe req = s.canAnswer req (canResp req 0 (s.odRead 1 (rd req 2 2) (rd req 4 1)).2.1
      (((s.odRead 1 (rd req 2 2) (rd req 4 1)).2.2.drop (rd req 6 2)).take 56)) := by
  unfold State.canServe
  simp only [hop, if_neg hnew, hok]
  exact if_neg (by omega)

theorem State.canTime_down {s : State} {id : Nat} {ext : Bool} {f : List Byte} (h : s.canUp = false ∨ ext = true ∨ id ≠ 0) : s.canTime id ext f = s := by
  unfold State.canTime
  refine if_neg ?_
  rintro hall
  simp only [Bool.and_eq_true, Bool.not_eq_true', beq_iff_eq] at hall
  obtain ⟨⟨⟨hup, hext⟩, hid⟩, -⟩ := hall
  simp [hup, hext, hid] at h

theorem State.canRequest_ignored {s : State} {id : Nat} {ext : Bool} {f : List Byte} (h : s.canUp = false ∨ ext = true ∨ id ≠ 0x200 + s.node) :
    s.canRequest id ext f = s := by
  unfold State.canRequest
  refine if_pos ?_
  simp only [Bool.or_eq_true, Bool.not_eq_true', bne_iff_ne]
  exact .inl (.inl (by simpa [or_assoc] using h))

/-- Settles O53: a commit by what the shadow's bytes read back as, a frame by its identifier and by what its request asks for. -/
theorem optionsAreCommitted : Obligations.OptionsAreCommitted := by
  refine ⟨⟨fun s r hup hspi hlen hcommit => ?written, fun s r hup hcommit => ?failed, fun s b hup => congrArg Host.Outcome.next (if_pos (by simp [hup]))⟩,
    fun s req hup hlo hhi hcommit hsame => ?repeated, fun s req hup hlo hhi hcommit hnew hop hok hoff => ?read,
    fun s req r hup hlo hhi hcommit => ?waits, fun s id ext f h => congrArg Host.Outcome.next (State.canRequest_ignored (.inr h)),
    fun s id ext f h => congrArg Host.Outcome.next (State.canTime_down (.inr h)), fun s id b => canFrame_short s id,
    fun s f hup hf => congrArg Host.Outcome.next (if_pos (by simp [hup, hf])),
    fun s hup hbeat => congrArg Host.Outcome.next (if_pos (by simp [hup, hbeat])), fun s hup => congrArg Host.Outcome.next (if_pos hup),
    fun s id ext f hdown => ⟨congrArg Host.Outcome.next (State.canRequest_ignored (.inl hdown)),
      congrArg Host.Outcome.next (State.canTime_down (.inl hdown)), congrArg Host.Outcome.next (if_neg (by simp [hdown])),
      congrArg Host.Outcome.next (if_neg (by simp [hdown]))⟩⟩
  case written =>
    have hnor := (s.nvmErase_norMoved 0).trans (State.nvmProgram_norMoved _ 0 s.shadow.bytes)
    have hread := State.nvmRead_program_erased hspi s.shadow.bytes (by omega)
    have hw := State.optWrite_ok hspi hlen
    generalize (s.nvmErase 0).nvmProgram 0 s.shadow.bytes = t at hnor hread hw
    have hlog : t.draw.LogMoved (t.logFree 7) := t.draw.logAppend_logMoved _ _
    have hkept : t.draw.sector0Kept (t.logFree 7) := t.draw.logAppend_sector0 _ _
    generalize hu : t.logFree 7 = u at hlog hkept
    obtain ⟨e, he⟩ := u.raise_frame 782 0
    rw [← hu] at he
    refine ⟨_, congrArg Host.Outcome.next (State.optCommit_mirror hup hw hcommit he ?_), ?_, ?_⟩
    · rw [hu, hlog.eq, hnor.eq]
      rfl
    · rw [hu]
      conv_lhs => rw [hlog.eq, hnor.eq]
      rfl
    · rw [hlen] at hread
      rw [← hread, hu]
      exact State.nvmRead_sector0 (s := t.draw) (n := 256) (by rw [hlog.eq]) hkept (by decide)
  case failed =>
    obtain ⟨i, hi⟩ := s.count_frame 0x2109 2
    obtain ⟨e, he⟩ := (s.count 0x2109 2).raise_frame 774 1
    obtain ⟨e', he'⟩ := ((s.count 0x2109 2).raise 774 1).raise_frame 782 1
    refine ⟨_, congrArg Host.Outcome.next (State.optCommit_mirror hup rfl hcommit he' ?_), ?_⟩
    · rw [he, hi]
    · rw [he, hi]
      rfl
  case repeated =>
    exact congrArg Host.Outcome.next ((State.canRequest_serves hup hlo hhi hcommit).trans (if_pos hsame))
  case read =>
    exact ⟨_, congrArg Host.Outcome.next ((State.canRequest_serves hup hlo hhi hcommit).trans (State.canServe_read hnew hop hok hoff)), rfl, rfl, rfl⟩
  case waits =>
    exact congrArg Host.Outcome.next (State.canRequest_waits hup hlo hhi (by rw [hcommit]; rfl))

end Sys2Proof.Machine

end

section

/-! Trials and the lifecycle state (R478, R479, R484, R487). -/

namespace Sys2Proof.Machine

/-! ### Confirmation (R479, R484) -/

/-- From `s` to `t` the fuses, the SPI NOR and its companions, the sources' states and the free choices alone changed. -/
def State.confirmMoved (s t : State) : Prop :=
  t = { s with
    nvm := t.nvm, fuses := t.fuses, fresh := t.fresh, incr := t.incr, life := t.life, logAt := t.logAt, logSeq := t.logSeq, evc := t.evc
    out := t.out }

theorem State.confirmMoved.trans {s t u : State} (h : s.confirmMoved t) (k : t.confirmMoved u) : s.confirmMoved u := by
  unfold State.confirmMoved at h k ⊢
  rw [k, h]

theorem State.LogMoved.confirmMoved {s t : State} (h : s.LogMoved t) : s.confirmMoved t := by
  unfold State.confirmMoved
  rw [h.eq]

theorem State.raise_confirmMoved (s : State) (n i : Nat) : s.confirmMoved (s.raise n i) := by
  obtain ⟨e, he⟩ := s.raise_frame n i
  rw [he]
  rfl

theorem State.fuseSet_confirmMoved (s : State) (w v : Nat) (ok : Bool) : s.confirmMoved (s.fuseSet w v ok).1 := by
  cases ok
  · rfl
  · rfl

theorem State.raiseThermo_confirmMoved (s : State) (w n v : Nat) : s.confirmMoved (s.raiseThermo w n v) := by
  unfold State.raiseThermo
  split
  · rfl
  split
  · exact State.confirmMoved.trans (t := s.draw) rfl (s.draw.raise_confirmMoved _ _)
  · exact foldl_keeps s.confirmMoved _ _ (fun t i _ ht => ht.trans (t.fuseSet_confirmMoved _ _ _)) s.draw rfl

theorem State.logFree_confirmMoved (s : State) (type : Nat) : s.confirmMoved (s.logFree type) :=
  State.confirmMoved.trans (t := s.draw) rfl (s.logFree_logMoved type).confirmMoved

/-- A running slot in TRIAL is confirmed: its record, the counters of its image's versions, the log, and then source 779 (R484). -/
theorem State.confirm_trial {s : State} {r : SlotRec} (hr : s.slotRec s.fw.slot = some r) (hst : r.st = 2) :
    ∃ t, s.confirmMoved t ∧ s.confirm = ({ t with fw := { s.fw with toConfirm := 0 } } : State).raise 779 s.fw.version := by
  have hput := (s.slotPut_norMoved s.fw.slot { r with st := 3 }).logMoved.confirmMoved
  let m := s.slotImage s.fw.slot
  let v := s.slotPut s.fw.slot { r with st := 3 }
  let w := if bit (iFlags m) 0 then v.raiseThermo 36 1024 (iSvn m) else v
  have hw : s.confirmMoved w := by
    by_cases h : bit (iFlags m) 0 = true
    · rw [show w = v.raiseThermo 36 1024 (iSvn m) from if_pos h]
      exact hput.trans (v.raiseThermo_confirmMoved _ _ _)
    · rw [show w = v from if_neg h]
      exact hput
  have ht := (hw.trans (w.raiseThermo_confirmMoved 68 256 (iMinProg m))).trans (State.logFree_confirmMoved _ 5)
  refine ⟨_, ht, ?_⟩
  have hfw : ((w.raiseThermo 68 256 (iMinProg m)).logFree 5).fw = s.fw := by rw [ht]
  rw [← hfw]
  unfold State.confirm
  simp only [hr, hst]
  rfl

/-- A slot that is not on trial is left alone (R484). -/
theorem State.confirm_none {s : State} (h : (s.slotRec s.fw.slot).map (·.st) ≠ some 2) : s.confirm = s := by
  unfold State.confirm
  cases hr : s.slotRec s.fw.slot with
  | none => rfl
  | some r => exact if_pos (by simpa [hr] using h)

theorem State.inTrial_iff (s : State) : s.inTrial = true ↔ (s.slotRec s.fw.slot).map (·.st) = some 2 := by simp [State.inTrial]

/-! ### The lifecycle state (R478) -/

/-- The lifecycle state is in the dictionary, to be written by the unlocked alone (R487). -/
theorem State.odFind_lc (s : State) : s.odFind 0 0x2500 8 = .ok ⟨.rwu, leBytes 1 s.lc⟩ := rfl

/-- A write of the lifecycle state that access allows asks for an advance (R478, R487). -/
theorem State.odWrite_lc {s : State} (v : BitVec 8) (h : s.lc = 0 ∨ s.mgt.unlocked = true) :
    (s.odWrite 0 0x2500 8 [v]).1 = (s.draw.lcAdvance v.toNat (!Config.fuseErr s.fresh)).1 := by
  unfold State.odWrite
  rw [State.odFind_lc]
  dsimp only
  rw [if_neg (by decide), if_neg (by simp [h]), if_neg (by simp)]
  rfl

/-- One that access does not allow changes nothing (R447, R478). -/
theorem State.odWrite_lc_locked {s : State} (v : BitVec 8) (hlc : s.lc ≠ 0) (hu : s.mgt.unlocked = false) : (s.odWrite 0 0x2500 8 [v]).1 = s := by
  unfold State.odWrite
  rw [State.odFind_lc]
  dsimp only
  rw [if_neg (by decide), if_pos ⟨rfl, by simp [hlc, hu]⟩]

theorem State.lcCheck_production {s : State} {u : Bool} (hlc : s.lc = 0) (hroot : (anyByte (s.keyHash 0) || anyByte (s.keyHash 1)) = true)
    (hprog : anyByte (s.keyHash 2) = true) : s.lcCheck 1 u = 0 := by
  unfold State.lcCheck
  rw [if_neg (by decide), if_neg (by omega), if_pos rfl, if_pos (by rw [hroot, hprog]; rfl)]

theorem State.lcCheck_decommissioned {s : State} {v : Nat} {u : Bool} (h : 2 ≤ s.lc) : s.lcCheck v u = 6 := by
  unfold State.lcCheck
  by_cases hv : v ≠ 1 ∧ v ≠ 3
  · rw [if_pos hv]
  · rw [if_neg hv, if_pos (.inr h)]

/-- An advance that its checks allow, where the fuse port's answer is free: the fuse word takes the value, or stays as it was (R386, R478; log
entry 15). -/
theorem State.lcAdvance_allowed {s : State} {v : Nat} (h : s.lcCheck v s.mgt.unlocked = 0) (hv : v < 2 ^ 32) (err : Bool) :
    s.confirmMoved (s.lcAdvance v (!err)).1 ∧ (s.lcAdvance v (!err)).1.fuse 76 = if err = true then s.fuse 76 else s.fuse 76 ||| v := by
  cases err
  · rw [show (!false) = true from rfl, State.lcAdvance_ok h]
    let p : State := { s with fuses := Tab.put s.fuses 76 (s.fuse 76 ||| v % 2 ^ 32) }
    have hlog := p.logFree_confirmMoved 6
    have hfuses : (p.logFree 6).fuses = p.fuses := by rw [(p.logFree_logMoved 6).eq]; rfl
    obtain ⟨e, he⟩ := (p.logFree 6).raise_frame 783 v
    refine ⟨(State.confirmMoved.trans (t := p) rfl hlog).trans ((p.logFree 6).raise_confirmMoved 783 v), ?_⟩
    rw [show (((p.logFree 6).raise 783 v, 0) : State × Nat).1 = _ from he]
    have hword : s.fuse 76 ||| v % 2 ^ 32 = s.fuse 76 ||| v := by rw [Nat.mod_eq_of_lt hv]
    exact (congrArg (fun f => Tab.atD f 76 0) hfuses).trans ((Tab.atD_put_self _ _ _ _).trans hword)
  · rw [show (!true) = false from rfl, State.lcAdvance_failed h]
    obtain ⟨e, he⟩ := s.raise_frame 774 2
    refine ⟨s.raise_confirmMoved 774 2, ?_⟩
    rw [show ((s.raise 774 2, 9) : State × Nat).1 = _ from he]
    rfl

theorem exec_lcAdvance_up {s : State} (v : BitVec 8) (hup : s.fwUp = true) : exec (.lcAdvance v) s = .next (s.odWrite 0 0x2500 8 [v]).1 :=
  congrArg Host.Outcome.next (if_pos hup)

/-- Settles O54: a confirmation by what its steps change, an advance of the lifecycle state by its checks and the fuse port's answer. -/
theorem trialsAndTheLifecycle : Obligations.TrialsAndTheLifecycle := by
  refine ⟨fun s r hup hr hst => ?confirmed, fun s h => ?alone, fun s hup htrial hsec hto => ?timer, fun s h => congrArg Host.Outcome.next (if_neg ?notYet),
    fun s hup hlc hroot hprog => ?production, fun s hup hlc hu => ?decommission, fun s v hlc hu => ?locked, fun s v hlc => ?ended⟩
  case confirmed =>
    obtain ⟨t, ht, hconfirm⟩ := State.confirm_trial hr hst
    refine ⟨{ t with fw := { s.fw with toConfirm := 0 } }, congrArg Host.Outcome.next ((if_pos hup).trans hconfirm), ?_⟩
    conv_lhs => rw [ht]
  case alone =>
    refine ⟨congrArg Host.Outcome.next ?_, congrArg Host.Outcome.next (if_neg fun hall => h (s.inTrial_iff.1 hall.1))⟩
    rw [State.confirm_none h, ite_self]
  case timer => exact congrArg Host.Outcome.next ((if_pos ⟨htrial, hsec, hto⟩).trans (if_pos hup).symm)
  case notYet =>
    rintro ⟨-, hsec, hto⟩
    exact h.elim hsec fun h => h hto
  case production =>
    obtain ⟨hmoved, hfuse⟩ := State.lcAdvance_allowed (s := s.draw) (v := 1) (State.lcCheck_production hlc hroot hprog) (by decide)
      (Config.fuseErr s.fresh)
    exact ⟨_, (exec_lcAdvance_up _ hup).trans (congrArg Host.Outcome.next (State.odWrite_lc _ (.inl hlc))),
      State.confirmMoved.trans (t := s.draw) rfl hmoved, hfuse⟩
  case decommission =>
    obtain ⟨-, hfuse⟩ := State.lcAdvance_allowed (s := s.draw) (v := 3)
      ((congrArg (s.draw.lcCheck 3) hu).trans (State.lcCheck_decommission (s := s.draw) hlc)) (by decide) (Config.fuseErr s.fresh)
    exact ⟨_, (exec_lcAdvance_up _ hup).trans (congrArg Host.Outcome.next (State.odWrite_lc _ (.inr hu))), hfuse⟩
  case locked =>
    refine congrArg Host.Outcome.next ?_
    rw [State.odWrite_lc_locked v hlc hu, ite_self]
  case ended =>
    by_cases hup : s.fwUp = true
    · cases hu : s.mgt.unlocked
      · refine ⟨s, (exec_lcAdvance_up _ hup).trans (congrArg Host.Outcome.next (State.odWrite_lc_locked v (by omega) hu)), rfl⟩
      · have hrefused := State.lcAdvance_refused (s := s.draw) (v := v.toNat) (!Config.fuseErr s.fresh)
          (by rw [State.lcCheck_decommissioned (s := s.draw) hlc]; decide)
        refine ⟨s.draw, (exec_lcAdvance_up _ hup).trans (congrArg Host.Outcome.next ((State.odWrite_lc v (.inr hu)).trans ?_)), rfl⟩
        rw [hrefused]
    · exact ⟨s, congrArg Host.Outcome.next (if_neg hup), rfl⟩

end Sys2Proof.Machine

end

section

/-! Re-plans and frequency steps (R466 to R471, R473). -/

namespace Sys2Proof.Machine

/-! ### The plan of a domain (R467, R470) -/

/-- A reading whose need is within MAX_OFFSET is planned at the step that runs (R467). -/
theorem State.planGo_enough {s : State} {m : Measure} {o f : Nat} {r : SlackReading} (rs : List SlackReading)
    (h : s.needOf m o r.ps ≤ Int.ofNat (s.opts.val 12)) : s.planGo m o f (r :: rs) = (s.needOf m o r.ps, f, false) := if_pos h

/-- A domain that no SRAM rail feeds needs what it has, while its slack is enough (R467). -/
theorem State.needOf_enough {s : State} {m : Measure} {o : Nat} {slack : Int} (hbases : s.sramBases m.dom = [])
    (h : Int.ofNat (s.opts.val 10) ≤ slack) : s.needOf m o slack = Int.ofNat o := by
  unfold State.needOf
  dsimp only
  rw [hbases, if_neg (Int.not_lt.2 h)]
  rfl

/-- Where its slack is short, it needs what its sensitivity calls for (R467). -/
theorem State.needOf_short {s : State} {m : Measure} {o : Nat} {slack : Int} (hbases : s.sramBases m.dom = []) (hkv : m.kvFs ≠ 0)
    (h : slack < Int.ofNat (s.opts.val 10)) :
    s.needOf m o slack = Int.ofNat o + ceil5 ((Int.ofNat (s.opts.val 10) - slack) * 1000) (Int.ofNat m.kvFs) := by
  unfold State.needOf
  dsimp only
  rw [hbases, if_pos h, if_neg hkv]
  rfl

/-- An offset that rose is counted, and a margin that nears its end is told (R462, R470). -/
theorem State.countTold_frame {s w : State} {k d : Nat} {p : Prop} [Decidable p]
    (hw : w = if p then (s.countBy 0x2108 3 k).raise 769 d else s.countBy 0x2108 3 k) : w = { s with incr := w.incr, evc := w.evc } := by
  obtain ⟨i, hi⟩ := s.countBy_frame 0x2108 3 k
  obtain ⟨e, he⟩ := (s.countBy 0x2108 3 k).raise_frame 769 d
  by_cases h : p
  · rw [hw, if_pos h, he, hi]
  · rw [hw, if_neg h, hi]

/-- What a plan makes of a domain whose need is within MAX_OFFSET: its measures, its offset, and the step it runs at (R467, R471). -/
structure Dom.Planned (d x : Dom) (m : Measure) (r : SlackReading) (now o : Nat) : Prop where
  off : x.off = o
  plan : x.plan = d.fstep
  fstep : x.fstep = d.fstep
  slack : x.slack = r.ps
  shift : x.shift = m.shiftPpm
  vmin : x.vmin = m.vmin
  last : x.last = now

/-- Planning a domain with one reading, whose need is `n` mV: its entry is put, it is counted and told, and the margins are saved where the
offset rose (R467, R470). -/
theorem State.planDom_single {s : State} {m : Measure} {r : SlackReading} {n : Nat} (hslacks : m.slacks = [r])
    (hneed : s.needOf m (s.dom m.dom).off r.ps = Int.ofNat n) (hn : n ≤ s.opts.val 12) :
    ∃ (w : State) (x : Dom), (s.planDom m = if (s.dom m.dom).off < max (s.dom m.dom).off n then w.marginSave else w) ∧
      w = { s with age := { s.age with doms := Tab.put s.age.doms m.dom x }, incr := w.incr, evc := w.evc } ∧
      (s.dom m.dom).Planned x m r s.opSecs (max (s.dom m.dom).off n) := by
  have hgo : s.planGo m (s.dom m.dom).off (s.dom m.dom).fstep [r] = (Int.ofNat n, (s.dom m.dom).fstep, false) := by
    rw [State.planGo_enough [] (by rw [hneed]; exact Int.ofNat_le.2 hn), hneed]
  have hmin : min (Int.ofNat n).toNat (s.opts.val 12) = n := by
    rw [Int.ofNat_eq_natCast, Int.toNat_natCast]
    omega
  unfold State.planDom
  rw [hslacks]
  simp only [hgo, hmin, Nat.sub_self, List.getElem?_cons_zero, Option.getD_some, Bool.or_false, Bool.false_eq_true, false_and, if_false]
  exact ⟨_, _, rfl, State.countTold_frame (s := { s with age := { s.age with doms := Tab.put s.age.doms m.dom _ } }) rfl,
    ⟨rfl, rfl, rfl, rfl, rfl, rfl, rfl⟩⟩

/-- The entry put is what reads back, and the other domains read as before. -/
theorem State.dom_of_put {s w : State} {d : Nat} {x : Dom} (h : w.age.doms = Tab.put s.age.doms d x) :
    w.dom d = x ∧ ∀ e, e ≠ d → w.dom e = s.dom e :=
  ⟨(congrArg (fun t => Tab.atD t d ({} : Dom)) h).trans (Tab.atD_put_self _ _ _ _),
    fun e he => (congrArg (fun t => Tab.atD t e ({} : Dom)) h).trans (Tab.atD_put_ne _ _ _ he)⟩

theorem State.marginSave_age (s : State) : s.marginSave.age = s.age := by
  rw [((s.nvmErase_norMoved _).trans (State.nvmProgram_norMoved _ _ _) : s.NorMoved s.marginSave).eq]

/-! ### Re-plans (R466, R467, R473) -/

/-- The state in which a re-plan measures: it runs, is counted, its rails were probed, and stations that are not up are marked (R465, R466). -/
theorem State.replan_begins (s : State) (ms : List Measure) :
    let u := ((s.replanAsk.count 0x2108 1).probeRails ms).skipDoms
    u = { s with age := u.age, incr := u.incr, out := u.out } ∧ u.age.running = true := by
  obtain ⟨i, hi⟩ := s.replanAsk.count_frame 0x2108 1
  rw [hi]
  exact ⟨rfl, rfl⟩

theorem State.settleReplan_ends {s : State} (hrun : s.age.running = true) (hdone : ∀ d ∈ s.age.doms, d.2.plan ≤ d.2.fstep) :
    s.settleReplan = ({ s with age := { s.age with running := false, leastEnd := s.least.1, leastDom := s.least.2 } } : State).raise 768 s.least.1 :=
  if_pos ⟨hrun, List.all_eq_true.2 fun d hd => decide_eq_true (hdone d hd)⟩

/-! ### Frequency steps (R468, R469) -/

theorem State.freqStep_asks {s : State} {n : Nat} (hbuilt : s.built n = true) (hplan : (s.dom n).fstep < (s.dom n).plan)
    (hnone : (s.stnAt n).fstepTo = none) (hup : s.stnUp n = true) (hidle : s.arithIdle n = true) (hfw : s.fwUp = true) :
    s.freqStep n = (s.updStn n (fun x => { x with fsel := (s.dom n).fstep + 1, fstepTo := some ((s.dom n).fstep + 1), fTried := false })).emit
      (.fsel n ((s.dom n).fstep + 1)) :=
  if_pos (by simp [hbuilt, hplan, hnone, hup, hidle, hfw])

/-- A step that its echo took: the domain runs at it (R469). -/
def State.stepTaken (s : State) (n f : Nat) : State :=
  { s.updStn n (fun x => { x with fstepTo := none }) with
    age := { s.age with doms := Tab.put s.age.doms n { s.dom n with fstep := f } } }

theorem State.freqDone_eq {s : State} {n f : Nat} (h : (s.stnAt n).fstepTo = some f) :
    s.freqDone n f = ((((s.stepTaken n f).count 0x2108 2).raise 770 (n + 256 * f)).marginSave.settleReplan).settleReads := if_pos h

/-- A step whose echo did not come is asked for once more, over the old one (R469). -/
theorem State.freqLate_first {s : State} {n f : Nat} (hto : (s.stnAt n).fstepTo = some f) (htried : (s.stnAt n).fTried = false) :
    s.freqLate n = (s.updStn n (fun x => { x with fTried := true })).emits [.fsel n (s.dom n).fstep, .fsel n f] := by
  simp [State.freqLate, hto, htried]

/-- A step given up: the old one is asked for, and nothing is planned past it (R469). -/
def State.stepGivenUp (s : State) (n : Nat) : State :=
  ({ s.updStn n (fun x => { x with fstepTo := none, fsel := (s.dom n).fstep }) with
    age := { s.age with doms := Tab.upd s.age.doms n (fun d => { d with plan := d.fstep }) } } : State).emit (.fsel n (s.dom n).fstep)

theorem State.freqLate_second {s : State} {n f : Nat} (hto : (s.stnAt n).fstepTo = some f) (htried : (s.stnAt n).fTried = true) :
    s.freqLate n = ((s.stepGivenUp n).fenceStn n 2 false []).settleReplan := by
  simp [State.freqLate, hto, htried, State.stepGivenUp, State.updStn]

/-- Settles O50: a domain by its one reading's need, a re-plan by the parts of its step, a frequency step by its echo or the lack of it. -/
theorem replansMeasureAndPlan : Obligations.ReplansMeasureAndPlan := by
  refine ⟨⟨fun s m r hslacks hbases hslack hoff => ?enough, fun s m r n hslacks hbases hslack hkv hneed hn => ?short, fun s ms hup => ?replan,
      fun s hrun hdone => ⟨_, rfl, State.settleReplan_ends hrun hdone⟩, fun s hup hcut hauto hto => ?calendar, fun s hup hcut hat => ?cut⟩,
    ⟨fun s n hbuilt hplan hnone hup hidle hfw => ?asks, fun s n f hto => ?echo, fun s n f hto htried => ?first, fun s n f hto htried => ?second⟩⟩
  case enough =>
    obtain ⟨w, x, hplan, hw, hx⟩ := State.planDom_single hslacks (State.needOf_enough hbases hslack) hoff
    rw [max_self, if_neg (Nat.lt_irrefl _)] at hplan
    obtain ⟨hself, hothers⟩ := State.dom_of_put (s := s) (w := w) (congrArg (fun t : State => t.age.doms) hw)
    rw [max_self] at hx
    refine ⟨w, ?_, hplan, ?_⟩
    · conv_lhs => rw [hw]
      rw [hw]
    · rw [hself]
      exact ⟨hx.off, hx.plan, hx.fstep, hx.slack, hx.shift, hx.vmin, hx.last, hothers⟩
  case short =>
    obtain ⟨w, x, hplan, hw, hx⟩ := State.planDom_single hslacks ((State.needOf_short hbases hkv hslack).trans hneed.symm) hn
    have hage : (s.planDom m).age = w.age := by
      rw [hplan]
      split
      · exact w.marginSave_age
      · rfl
    have hself := (State.dom_of_put (s := s) (w := s.planDom m) (congrArg Age.doms (hage.trans (congrArg State.age hw)))).1
    rw [hself]
    exact ⟨hx.off, hx.plan⟩
  case replan =>
    obtain ⟨hframe, hrun⟩ := s.replan_begins (ms.filter (fun m => m.dom == 48 || (s.built m.dom && s.stnUp m.dom)))
    exact ⟨_, hframe, hrun, congrArg Host.Outcome.next (if_neg (by simp [hup]))⟩
  case calendar =>
    refine congrArg Host.Outcome.next ((if_neg (by simp [hcut])).trans (if_pos (by simp [hup, hauto, hto])))
  case cut =>
    exact congrArg Host.Outcome.next (if_pos (by simp [hup, hcut, hat]))
  case asks =>
    exact ⟨_, congrArg Host.Outcome.next (State.freqStep_asks hbuilt hplan hnone hup hidle hfw), rfl, Tab.becomes_put _ _ _⟩
  case echo =>
    obtain ⟨i, hi⟩ := (s.stepTaken n f).count_frame 0x2108 2
    refine ⟨(s.stepTaken n f).count 0x2108 2, _, ?_, ?_, ?_, ?_, rfl, congrArg Host.Outcome.next (State.freqDone_eq hto)⟩
    · rw [hi]
      rfl
    · rw [hi]
      exact Tab.becomes_put _ _ _
    · rw [hi]
      exact Tab.becomes_put _ _ _
    · rw [hi]
      rfl
  case first =>
    exact ⟨_, congrArg Host.Outcome.next (State.freqLate_first hto htried), rfl, Tab.becomes_put _ _ _⟩
  case second =>
    exact ⟨s.stepGivenUp n, congrArg Host.Outcome.next (State.freqLate_second hto htried), rfl, Tab.becomes_put _ _ _⟩

end Sys2Proof.Machine

end

section

/-! Steps of the ladder begin (R402, R414, R420). -/

namespace Sys2Proof.Machine

/-! ### Steps of the ladder begin (R402, R414, R420) -/

/-- A step that begins: ESC_STEP and ESC_ID name it, it is counted, and it runs. -/
structure Recov.Begun (x y : Recov) (step id : Nat) : Prop where
  escStep : y.escStep = step
  escId : y.escId = id
  cnt : y.cnt = Tab.put x.cnt (step - 1) (satAdd 32 (Tab.atD x.cnt (step - 1) 0) 1)
  running : y.running = x.running ++ [(step, id)]

theorem State.rsWrite_rcv (s : State) (a : Nat) (bs : List Byte) : ∃ m, (s.rsWrite a bs).rcv = { s.rcv with rsram := m } := ⟨_, rfl⟩

/-- An error record writes the log alone (R413). The write is left folded, as in `State.elog_elogCnt`. -/
theorem State.elog_rcv (s : State) (r : ERec) : ∃ m n k, (s.elog r).rcv = { s.rcv with rsram := m, elogCnt := n, serial := k } := by
  obtain ⟨m, hm⟩ := s.draw.rsWrite_rcv (64 * (s.rcv.elogCnt % 256)) (r.bytes (Config.stamp s.fresh).toNat (s.rcv.serial + 1))
  exact ⟨m, _, _, congrArg (fun x : Recov => { x with elogCnt := (x.elogCnt + 1) % 2 ^ 32, serial := x.serial + 1 }) hm⟩

theorem Recov.Begun.elog {x : Recov} {s : State} {step id : Nat} (h : x.Begun s.rcv step id) (r : ERec) : x.Begun (s.elog r).rcv step id := by
  obtain ⟨m, n, k, hr⟩ := s.elog_rcv r
  rw [hr]
  exact ⟨h.escStep, h.escId, h.cnt, h.running⟩

theorem State.beginStep_frame (s : State) (step id pid : Nat) (r : ERec) :
    s.beginStep step id pid r = { s with fresh := s.fresh + 2, rcv := (s.beginStep step id pid r).rcv } := rfl

theorem State.beginStep_begun (s : State) (step id pid : Nat) (r : ERec) : s.rcv.Begun (s.beginStep step id pid r).rcv step id := by
  exact Recov.Begun.elog ⟨rfl, rfl, rfl, rfl⟩ _

/-- A step that begins and is counted among the lifetime counters too (R402, R462). -/
theorem State.beginStep_count (s : State) (step id pid : Nat) (r : ERec) (x k : Nat) :
    let w := (s.beginStep step id pid r).count x k
    w = { s with fresh := s.fresh + 2, rcv := w.rcv, incr := w.incr } ∧ s.rcv.Begun w.rcv step id := by
  obtain ⟨i, hi⟩ := (s.beginStep step id pid r).count_frame x k
  rw [hi]
  exact ⟨rfl, s.beginStep_begun step id pid r⟩

end Sys2Proof.Machine

end

section

/-! Watchdogs, chip steps and the power cycle (R399, R402, R406, R408). -/

namespace Sys2Proof.Machine

/-! ### Watchdogs (R399) -/

/-- The source of a hub core's watchdog is always built. -/
theorem State.srcBuilt_watchdog (s : State) {core : Nat} (h : core < 8) : s.srcBuilt (256 + core) = true := by
  have hres : srcReserved (256 + core) = false := by simp [srcReserved]; omega
  unfold State.srcBuilt
  rw [hres, if_neg (by omega), if_neg (by omega)]
  rfl

/-- A sampled input is as it was sampled, whatever the source's SENSE (R327). -/
theorem Src.sample_raw (x : Src) (n : Nat) (level : Bool) (info : Nat) : (x.sample n level info).raw = level := by
  unfold Src.sample
  extract_lets rise fall
  split
  · rfl
  · split
    · rfl
    · rfl

/-- A core's watchdog that expired: its source is raised, its record written, and the second kept (R399, R414). -/
def State.expired (s : State) (core : Nat) : State :=
  { (s.setSrc (256 + core) ((s.src (256 + core)).sample (256 + core) true 0)).elog { kind := 3, unit := 0x10 + core, detail := core } with
    cores := Tab.put s.cores core { Tab.atD s.cores core {} with expired := some s.mgt.uptime } }

theorem State.expired_frame (s : State) (core : Nat) :
    s.expired core = { s with
      evc := (s.expired core).evc, rcv := (s.expired core).rcv, fresh := s.fresh + 1, cores := (s.expired core).cores } := rfl

theorem State.expired_raw (s : State) (core : Nat) : ((s.expired core).src (256 + core)).raw = true := by
  have hsrc : (s.expired core).src (256 + core) = (s.src (256 + core)).sample (256 + core) true 0 := State.src_setSrc_self s _ _
  rw [hsrc, Src.sample_raw]

theorem State.expired_elogCnt (s : State) (core : Nat) : (s.expired core).rcv.elogCnt = (s.rcv.elogCnt + 1) % 2 ^ 32 :=
  (s.setSrc (256 + core) _).elog_elogCnt { kind := 3, unit := 0x10 + core, detail := core }

/-- Outside a live update an expiry leads to the chip step the second time in a second, and otherwise to the core's restart (R399). -/
theorem State.watchdog_eq {s : State} {core : Nat} (hcore : core < 8) (hready : s.rst.rel = .ready) (hupdate : s.fw.update = none) :
    s.watchdog core = if (Tab.atD s.cores core {}).expired = some s.mgt.uptime then
      State.ask { s.expired core with cores := Tab.upd (s.expired core).cores core (fun x => { x with hung := true }) } 4 16
    else (s.expired core).restartCore core := by
  have hno : ¬((s.expired core).fw.update.isSome = true ∧ (Tab.atD s.cores core {}).loaded = some s.mgt.uptime) := by
    rintro ⟨h, -⟩
    rw [show (s.expired core).fw.update = none from hupdate] at h
    exact absurd h (by decide)
  unfold State.watchdog
  rw [if_neg (by simp [hready]; omega), State.setInput_built (s.srcBuilt_watchdog hcore)]
  exact if_neg hno

/-- The table of cores after an expiry and a change of the core. -/
theorem State.expired_cores_upd (s : State) (core : Nat) (f : Core → Core) :
    Tab.becomes s.cores (Tab.upd (s.expired core).cores core f) core (f { Tab.atD s.cores core {} with expired := some s.mgt.uptime }) := by
  have hput : Tab.becomes s.cores (s.expired core).cores core { Tab.atD s.cores core {} with expired := some s.mgt.uptime } := Tab.becomes_put _ _ _
  exact Tab.becomes_trans hput (Tab.becomes_upd f hput.1)

/-- A restart of a core other than the management core: its memories are loaded again, and what it was running is lost (R399). -/
theorem State.restartCore_hub {s : State} {core : Nat} (h : core ≠ 4) :
    s.restartCore core = ((({ s with cores := Tab.upd s.cores core (fun x => { x with code := imageCells (s.slotImage s.fw.slot) core, data := [] }) } :
      State).dropClaims core).coreLost core).settleAfter := by
  unfold State.restartCore
  rw [if_neg h]

theorem State.mem_want_ask (s : State) (step id : Nat) : (step, id) ∈ (s.ask step id).want := by
  unfold State.ask
  split
  case isTrue h => simpa using h
  case isFalse => simp

/-! ### The chip step (R402, R406) -/

theorem State.want_none {s : State} (h : s.want.any (fun w => w.1 == 4) = false) :
    ({ s with want := s.want.filter (fun w => w.1 != 4) } : State) = s := by
  have hall : ∀ w ∈ s.want, ¬w.1 = 4 := by simpa using h
  have hfilter : s.want.filter (fun w => w.1 != 4) = s.want := List.filter_eq_self.2 fun w hw => by simpa using hall w hw
  rw [hfilter]

theorem State.want_contains {s : State} (h : s.want.any (fun w => w.1 == 4) = false) (id : Nat) : s.want.contains (4, id) = false := by
  have hall : ∀ w ∈ s.want, ¬w.1 = 4 := by simpa using h
  simpa using fun hmem => hall _ hmem rfl

/-- The cause of a chip step that is due (R406). -/
theorem State.chipStep_due {s : State} (h : s.want.any (fun w => w.1 == 4) = true) :
    s.chipStep = s.chip (if s.want.contains (4, 16) = true then 4 else if s.want.contains (4, 32) = true then 10 else 5) := by
  unfold State.chipStep
  by_cases h16 : s.want.contains (4, 16) = true
  · rw [if_pos h16, if_pos h16]
  · by_cases h32 : s.want.contains (4, 32) = true
    · rw [if_neg h16, if_pos h32, if_neg h16, if_pos h32]
    · rw [if_neg h16, if_neg h32, if_pos h, if_neg h16, if_neg h32]

/-- One that is not due is the driver's (R420). -/
theorem State.chipStep_driver {s : State} (hup : s.up = true) (h : s.want.any (fun w => w.1 == 4) = false) : s.chipStep = s.chip 5 := by
  unfold State.chipStep
  rw [if_neg (by rw [State.want_contains h]; decide), if_neg (by rw [State.want_contains h]; decide), if_neg (by rw [h]; decide), if_pos hup]

/-- The state in which a chip step resets the block: the step is counted and recorded, and it alone runs (R402). -/
def State.chipBegun (s : State) : State :=
  let w := (s.beginStep 4 0 0x3F { kind := 6 }).count 0x2101 4
  { w with rcv := { w.rcv with running := [(4, 0)] } }

/-- A state in which a chip step that has begun is made the only one that runs. -/
def State.onlyChip (w : State) : State := { w with rcv := { w.rcv with running := [(4, 0)] } }

theorem State.chipBegun_eq (s : State) : s.chipBegun = ((s.beginStep 4 0 0x3F { kind := 6 }).count 0x2101 4).onlyChip := rfl

theorem State.onlyChip_values {s w : State} (hframe : w = { s with fresh := s.fresh + 2, rcv := w.rcv, incr := w.incr })
    (hbegun : s.rcv.Begun w.rcv 4 0) :
    w.onlyChip = { s with fresh := w.onlyChip.fresh, rcv := w.onlyChip.rcv, incr := w.onlyChip.incr } ∧ w.onlyChip.rcv.escStep = 4 ∧
      w.onlyChip.rcv.running = [(4, 0)] ∧ Tab.atD w.onlyChip.rcv.cnt 3 0 = satAdd 32 (Tab.atD s.rcv.cnt 3 0) 1 := by
  refine ⟨?_, hbegun.escStep, rfl, ?_⟩
  · rw [hframe]
    rfl
  · have hcnt : w.onlyChip.rcv.cnt = Tab.put s.rcv.cnt 3 (satAdd 32 (Tab.atD s.rcv.cnt 3 0) 1) := hbegun.cnt
    rw [hcnt, Tab.atD_put_self]

theorem State.chip_first {s : State} (cause : Nat) (h : s.want.any (fun w => w.1 == 4) = false) (hrun : s.rcv.running.contains (4, 0) = false)
    (hfew : s.chipSteps < 2) : s.chip cause = s.chipBegun.warmReset cause true true := by
  have hwant := State.want_none h
  unfold State.chip
  simp only [hwant]
  rw [if_neg (by rw [hrun]; decide), if_neg (by omega)]
  rfl

/-- The third within ten minutes asks for the power cycle (R402). -/
theorem State.chip_third {s : State} (cause : Nat) (h : s.want.any (fun w => w.1 == 4) = false) (hrun : s.rcv.running.contains (4, 0) = false)
    (hmany : 2 ≤ s.chipSteps) : s.chip cause = s.ask 5 0 := by
  have hwant := State.want_none h
  unfold State.chip
  simp only [hwant]
  rw [if_neg (by rw [hrun]; decide), if_pos hmany]

/-! ### The power cycle (R408) -/

/-- Records appended one after another are changes of the log (R408, R460). -/
theorem State.foldr_logAppend_logMoved (f : State → Nat → List Byte) (l : List Nat) (s : State) :
    s.LogMoved (l.foldr (fun k s => s.logAppend 2 (f s k)) s) := by
  induction l with
  | nil => exact .refl s
  | cons k l ih => exact ih.trans (State.logAppend_logMoved _ _ _)

/-- A power cycle that is due writes the error log and the newest dump into the lifetime log, commits the counters and drives TRAY_PCR (R408). -/
theorem State.powerCycle_due {s : State} (h : s.want.contains (5, 0) = true) :
    ∃ u, ((s.unask 5 0).beginStep 5 0 0x3F { kind := 6 }).LogMoved u ∧
      s.powerCycle = { (u.count 0x2101 5).lifeCommit.emit .tray with tray := true } := by
  unfold State.powerCycle
  rw [if_neg (by rw [h]; decide)]
  extract_lets b u v
  refine ⟨v, ?_, rfl⟩
  have hu : b.LogMoved u := State.foldr_logAppend_logMoved (fun s k => s.elogAt k) _ b
  have hv : ∀ d, b.LogMoved (match d with
      | some k => u.logAppend 3 (u.rsRead (dumpAt k) 64)
      | none => u) := by
    rintro (_ | k)
    · exact hu
    · exact hu.trans (u.logAppend_logMoved _ _)
  exact hv u.newestDump

/-- A lifetime commit: a COUNTERS record, the hour anew, and source 773 (R453, R461). -/
theorem State.lifeCommit_eq (s : State) :
    ∃ t, s.LogMoved t ∧ s.lifeCommit = { t with evc := s.lifeCommit.evc, mgt := { s.mgt with toCommit := 3600 } } := by
  obtain ⟨t, ht, hcommit⟩ := s.commitCounters_eq
  have hlife := congrArg (fun w : State => w.raise 773 ((w.logSeq - 1) % 2 ^ 32)) hcommit
  obtain ⟨e, he⟩ := ({ t with mgt := { s.mgt with toCommit := 3600 } } : State).raise_frame 773 ((t.logSeq - 1) % 2 ^ 32)
  have heq : s.lifeCommit = { t with evc := e, mgt := { s.mgt with toCommit := 3600 } } := hlife.trans he
  exact ⟨t, ht, by rw [heq]⟩

/-- Settles O44: an expiry by whether the core's last was in this second, a chip step by how many there were, a power cycle by the changes of the
log. -/
theorem watchdogsAndChipSteps : Obligations.WatchdogsAndChipSteps := by
  refine ⟨fun s core hcore hcore4 hready hupdate hexp => ?first, fun s core hcore hready hupdate hexp => ?again, fun s hup hwant => ?driver,
    fun s hwant => congrArg Host.Outcome.next (State.chipStep_due hwant), fun s cause hwant hrun hfew => ?chip,
    fun s cause hwant hrun hmany => State.chip_third cause hwant hrun hmany, fun s hwant => ?power,
    fun s hwant => congrArg Host.Outcome.next (if_pos (by rw [hwant]; rfl))⟩
  case first =>
    have hexpiry := (State.watchdog_eq hcore hready hupdate).trans (if_neg hexp)
    have hcores := s.expired_cores_upd core (fun x => { x with code := imageCells (s.slotImage s.fw.slot) core, data := [] })
    have hraw := s.expired_raw core
    have hcnt := s.expired_elogCnt core
    have hframe := s.expired_frame core
    generalize s.expired core = v at hexpiry hcores hraw hcnt hframe
    have himage : v.slotImage v.fw.slot = s.slotImage s.fw.slot := by rw [hframe]; rfl
    have hrestart := State.restartCore_hub (s := v) hcore4
    rw [himage] at hrestart
    refine ⟨_, congrArg Host.Outcome.next (hexpiry.trans hrestart), ?_, hraw, hcnt, hcores⟩
    rw [hframe]
  case again =>
    have hexpiry := (State.watchdog_eq hcore hready hupdate).trans (if_pos hexp)
    have hcores := s.expired_cores_upd core (fun x => { x with hung := true })
    have hframe := s.expired_frame core
    rw [← hexp] at hcores
    generalize s.expired core = v at hexpiry hcores hframe
    obtain ⟨w, hw⟩ := State.ask_frame { v with cores := Tab.upd v.cores core (fun x => { x with hung := true }) } 4 16
    refine ⟨_, congrArg Host.Outcome.next hexpiry, ?_, State.mem_want_ask _ 4 16, ?_⟩
    · rw [hw, hframe]
    · rw [hw]
      exact hcores
  case driver =>
    refine ⟨congrArg Host.Outcome.next (State.chipStep_driver hup hwant), _, congrArg Host.Outcome.next (if_pos hup), rfl, ?_, ?_⟩
    · rw [Tab.atD_put_ne _ _ _ (by decide), Tab.atD_put_self]
    · rw [Tab.atD_put_self]
  case chip =>
    obtain ⟨hframe, hbegun⟩ := s.beginStep_count 4 0 0x3F { kind := 6 } 0x2101 4
    obtain ⟨honly, hstep, hrunning, hcnt⟩ := State.onlyChip_values hframe hbegun
    have hchip := State.chip_first cause hwant hrun hfew
    rw [State.chipBegun_eq] at hchip
    exact ⟨_, hchip, honly, hstep, hrunning, hcnt⟩
  case power =>
    obtain ⟨u, hu, hcycle⟩ := State.powerCycle_due hwant
    have hbegun := (s.unask 5 0).beginStep_begun 5 0 0x3F { kind := 6 }
    have hframe := (s.unask 5 0).beginStep_frame 5 0 0x3F { kind := 6 }
    generalize (s.unask 5 0).beginStep 5 0 0x3F { kind := 6 } = b at hu hbegun hframe
    obtain ⟨i, hi⟩ := u.count_frame 0x2101 5
    obtain ⟨v, hv, hlife⟩ := (u.count 0x2101 5).lifeCommit_eq
    rw [hlife] at hcycle
    rw [hi] at hv hcycle
    have hstep : v.rcv.escStep = 5 := by rw [hv.eq, hu.eq]; exact hbegun.escStep
    refine ⟨_, congrArg Host.Outcome.next hcycle, ?_, hstep, rfl, List.getLast?_concat⟩
    rw [hv.eq, hu.eq, hframe]
    rfl

end Sys2Proof.Machine

end

section

/-! Engine ports: returns, beats and their ends (R251, R253, R357, R358, R363, R404). -/

namespace Sys2Proof.Machine

/-! ### Engine ports (R357, R363, R404) -/

/-- An engine protocol error is recorded, and makes the port's engine step due (R363, R414). -/
theorem State.protErr_values (s : State) (ep : Nat) :
    ∃ u : State, s.protErr ep = u.ask 2 ep ∧ u = { s with rcv := u.rcv, fresh := s.fresh + 1 } ∧
      u.rcv.elogCnt = (s.rcv.elogCnt + 1) % 2 ^ 32 ∧ u.want = s.want :=
  ⟨s.elog (s.protRec ep), s.protErr_eq ep, rfl, s.elog_elogCnt _, rfl⟩

/-- A port held in reset is released once its engine is ready and has granted credits (R404 step 5). -/
def Ep.returned (e : Ep) : Ep := { e with inReset := e.inReset && !(e.rdy && e.credits != 0) }

theorem State.updEp_becomes {s : State} {ep : Nat} {e : Ep} (f : Ep → Ep) (he : Tab.at? s.eps ep = some e) :
    Tab.becomes s.eps (s.updEp ep f).eps ep (f e) := Tab.becomes_upd f he

/-- A port that changed and then may be released (R404 step 5). -/
theorem State.updEp_epReturn_becomes {s : State} {ep : Nat} {e : Ep} (f : Ep → Ep) (he : Tab.at? s.eps ep = some e) :
    Tab.becomes s.eps ((s.updEp ep f).epReturn ep).eps ep (f e).returned := by
  have hreturn : ∀ x : Ep, (if x.inReset && x.rdy && x.credits != 0 then { x with inReset := false } else x) = x.returned := by
    intro x
    unfold Ep.returned
    by_cases h : (x.inReset && x.rdy && x.credits != 0) = true
    · rw [if_pos h]
      simp only [Bool.and_eq_true] at h
      simp [h]
    · have hkept : x.inReset = (x.inReset && !(x.rdy && x.credits != 0)) := by
        rw [Bool.and_assoc] at h
        cases hr : x.inReset
        · rfl
        · rw [hr, Bool.true_and, Bool.not_eq_true] at h
          rw [h]
          rfl
      rw [if_neg h]
      exact congrArg (fun b => { x with inReset := b }) hkept
  rw [← hreturn]
  exact Tab.becomes_trans (State.updEp_becomes f he) (Tab.becomes_upd _ (State.updEp_becomes f he).1)

/-! ### Beats of an OUTPUT transfer (R251, R358) -/

/-- A write within a range that one stretch of host memory holds is one write for the context's function. -/
theorem State.pwrite_stretch {s : State} (cl : Client) (cid : Nat) {a ca len o : Nat} {wr perm : Bool} {bs : List Byte} (p : Bool)
    (hbs : bs ≠ []) (hfits : o + bs.length ≤ len) :
    s.pwrite cl cid [{ off := 0, len := len, tgt := some ⟨true, 0, a⟩, ca := ca, wr := wr, perm := perm }] o bs p =
      s.hostWrite (s.reqId cid).1 (s.reqId cid).2 (a + o) bs p := by
  have hpos : 0 < bs.length := List.length_pos_iff.2 hbs
  have hlt : o < len := by omega
  have hne : len ≠ 0 := by omega
  simp [State.pwrite, State.twrite, hfits, hpos, hlt, hne]

/-- The command of a beat takes its poison (R394). -/
theorem State.poisonCmd_becomes {s t : State} {cl : Client} {c : Cmd} (poison : Bool) (hc : s.cmd cl = some c) (ht : t.cmds = s.cmds) :
    Tab.becomes s.cmds (if poison then t.updCmd cl (fun c => { c with poison := true }) else t).cmds cl { c with poison := c.poison || poison } := by
  have hat : Tab.at? s.cmds cl = some c := hc
  cases poison
  · rw [Bool.or_false]
    exact ⟨by simpa [ht] using hat, fun j _ => by simp [ht]⟩
  · rw [Bool.or_true]
    have hupd := Tab.becomes_upd (fun c : Cmd => { c with poison := true }) hat
    rw [← ht] at hupd ⊢
    exact hupd

/-! ### The end of an OUTPUT transfer (R253) -/

theorem State.dispEnd_eps (s : State) (cl : Client) : (s.dispEnd cl).eps = s.eps := by
  unfold State.dispEnd
  split
  · split
    · split
      · rfl
      · rfl
    · rfl
  · rfl

/-- An OUTPUT transfer that has every beat and no write to be ordered (R253). -/
def State.outEnded (s : State) (x : Xfer) : Bool := x.kind == 1 && decide (x.len ≤ 64 * x.beats) && !s.writing x

/-- Transfers that have ended leave the port, and the others stay (R253). -/
theorem State.freeOuts_eps {s : State} {ep : Nat} {e : Ep} (he : Tab.at? s.eps ep = some e) :
    ∃ e', Tab.at? (s.freeOuts ep).eps ep = some e' ∧ e'.xids = e.xids.filter (fun x => !s.outEnded x.2) := by
  have hfree : s.freeOuts ep = if e.xids.filter (fun x => s.outEnded x.2) = [] then s else
      (e.xids.filter (fun x => s.outEnded x.2)).foldl (fun s x => s.dispEnd x.2.client)
        (s.updEp ep (fun e => { e with xids := e.xids.filter (fun x => !s.outEnded x.2) })) := by
    unfold State.freeOuts
    rw [he]
    rfl
  by_cases h : e.xids.filter (fun x => s.outEnded x.2) = []
  · rw [if_pos h] at hfree
    have hall : ∀ x ∈ e.xids, (!s.outEnded x.2) = true := by simpa [List.filter_eq_nil_iff] using h
    exact ⟨e, by rw [hfree, he], (List.filter_eq_self.2 hall).symm⟩
  · rw [if_neg h] at hfree
    have heps : (s.freeOuts ep).eps = (s.updEp ep (fun e => { e with xids := e.xids.filter (fun x => !s.outEnded x.2) })).eps := by
      rw [hfree]
      exact foldl_keeps (fun t : State => t.eps = _) _ _ (fun t x _ ht => (t.dispEnd_eps _).trans ht) _ rfl
    exact ⟨_, by rw [heps]; exact (State.updEp_becomes _ he).1, rfl⟩

end Sys2Proof.Machine

end

section

/-! Engine ports move data and stop (R251, R253, R346, R357, R358, R362, R363, R404, R433, R434). -/

namespace Sys2Proof.Machine

section
variable {s : State} {ep : Nat} {e : Ep} (he : Tab.at? s.eps ep = some e)
include he

theorem State.franking_taken {n : Nat} (hin : s.epIn ep e = true) (hn : e.credits + n ≤ 4095) :
    s.franking ep n = ((s.updEp ep (fun e => { e with credits := e.credits + n })).epReturn ep).pump ep 8192 := by
  unfold State.franking
  rw [he]
  dsimp only
  rw [if_neg (by rw [hin]; decide), if_neg (by omega)]

theorem State.franking_error {n : Nat} (hin : s.epIn ep e = true) (hn : 4095 < e.credits + n) : s.franking ep n = s.protErr ep := by
  unfold State.franking
  rw [he]
  dsimp only
  rw [if_neg (by rw [hin]; decide), if_pos hn]

theorem State.franking_reset (n : Nat) (hin : s.epIn ep e = false) : s.franking ep n = s := by
  unfold State.franking
  rw [he]
  dsimp only
  rw [if_pos (by rw [hin]; decide)]

theorem State.upBeat_reset (xid : Nat) (data : List Byte) (poison : Bool) (hin : s.epIn ep e = false) : s.upBeat ep xid data poison = s := by
  unfold State.upBeat
  rw [he]
  dsimp only
  rw [if_pos (by rw [hin]; decide)]

theorem State.doneResp_reset (did stat res : Nat) (hin : s.epIn ep e = false) : s.doneResp ep did stat res = s := by
  unfold State.doneResp
  rw [he]
  dsimp only
  rw [if_pos (by rw [hin]; decide)]

/-- A beat that has no credit, comes after the last, or is of no OUTPUT transfer is an engine error (R362, R363). -/
theorem State.upBeat_error {xid : Nat} (data : List Byte) (poison : Bool) (hin : s.epIn ep e = true)
    (h : (∃ x, Tab.at? e.xids xid = some x ∧ (x.kind ≠ 1 ∨ e.granted = 0 ∨ x.len ≤ 64 * x.beats)) ∨
      (Tab.at? e.xids xid = none ∧ e.ended.contains xid = false)) : s.upBeat ep xid data poison = s.protErr ep := by
  unfold State.upBeat
  rw [he]
  dsimp only
  rw [if_neg (by rw [hin]; decide)]
  rcases h with ⟨x, hx, hbad⟩ | ⟨hnone, hended⟩
  · rw [hx]
    exact if_pos hbad
  · rw [hnone]
    exact if_neg (by rw [hended]; decide)

/-- The state once a beat is written and counted: the port is still to be served. -/
def State.beatTaken (s : State) (ep xid : Nat) (x : Xfer) (data : List Byte) (poison : Bool) (cid : Nat) : State :=
  let t := s.pwrite x.client cid x.pieces (64 * x.beats) data poison
  (if poison then t.updCmd x.client (fun c => { c with poison := true }) else t).updEp ep
    (fun e => { e with granted := e.granted - 1, xids := Tab.put e.xids xid { x with beats := x.beats + 1 } })

/-- A beat with a granted credit is taken (R251, R358). -/
theorem State.upBeat_taken {xid : Nat} {x : Xfer} {c : Cmd} (data : List Byte) (poison : Bool) (hin : s.epIn ep e = true)
    (hx : Tab.at? e.xids xid = some x) (hkind : x.kind = 1) (hgranted : e.granted ≠ 0) (hlen : 64 * x.beats < x.len) (hc : s.cmd x.client = some c) :
    s.upBeat ep xid data poison = ((((s.beatTaken ep xid x data poison (s.cidOf c)).freeOuts ep).grantUp ep).pump ep 8192) := by
  unfold State.upBeat
  rw [he]
  dsimp only
  rw [if_neg (by rw [hin]; decide), hx]
  dsimp only
  rw [if_neg (by rintro (h | h | h); exacts [h hkind, hgranted h, by omega]), hc]
  rfl

theorem State.engRdy_up : s.engRdy ep true = ((s.updEp ep (fun e => { e with rdy := true })).epReturn ep).pump ep 8192 := by
  unfold State.engRdy
  rw [he]
  rfl

theorem State.engRdy_down :
    s.engRdy ep false = if e.rdy = true ∧ (e.dids ≠ [] ∨ e.xids ≠ []) then (s.updEp ep (fun e => { e with rdy := false })).ask 2 ep
      else s.updEp ep (fun e => { e with rdy := false }) := by
  unfold State.engRdy
  rw [he]
  simp [Ep.started]

/-- An idle request that a port acknowledges while its station is entering Sleep or Off leaves the port in reset (R434). -/
theorem State.qack_entering (hreq : e.qreq = true) (hpwr : (Tab.atD s.stns (s.build.epStn ep) {}).pwr = 4) :
    s.qack ep = ({ s.updEp ep (fun e => { e.cleared with rstN := false }) with
      stns := Tab.upd s.stns (s.build.epStn ep) (fun x => { x with idleReq := x.idleReq.filter (· != ep) }) } : State).emits
        [.epReset ep false, .epQreq ep false] := by
  unfold State.qack
  rw [he]
  dsimp only
  rw [if_neg (by rw [hreq]; decide), if_pos hpwr]

/-- Otherwise the port is released at once (R433). -/
theorem State.qack_released (hreq : e.qreq = true) (hpwr : (Tab.atD s.stns (s.build.epStn ep) {}).pwr ≠ 4) :
    s.qack ep = (s.updEp ep Ep.cleared).emits [.epReset ep false, .epQreq ep false, .epReset ep true] := by
  unfold State.qack
  rw [he]
  dsimp only
  rw [if_neg (by rw [hreq]; decide), if_neg hpwr]

end

/-- Settles O26: credits and beats by whether the port takes them, readiness by what of the port is outstanding, an acknowledged request by
whether its station is entering a lower power state. -/
theorem enginePortsMoveDataAndStop : Obligations.EnginePortsMoveDataAndStop := by
  refine ⟨⟨fun s ep n e he hin hn => ?credits, fun s ep n e he hin hn => ?overflow,
      fun s ep xid a ca data poison last perm e x c he hin hx hkind hgranted hlen hc hpieces hfn => ?beat,
      fun s ep xid e x he hx hkind hlen => ?ended, fun s ep xid data poison last e he hin h => ?astray,
      fun s ep xid n did stat res data poison last e he hin => ?reset⟩,
    ⟨fun s ep e he => ?ready, fun s ep e he => ?unready, fun s ep e he hreq => ?idle, fun s ep e he hreset => ?late⟩⟩
  case credits =>
    exact ⟨_, congrArg Host.Outcome.next (State.franking_taken he hin hn), rfl, State.updEp_epReturn_becomes _ he⟩
  case overflow =>
    obtain ⟨u, herr, hu⟩ := s.protErr_values ep
    exact ⟨u, congrArg Host.Outcome.next ((State.franking_error he hin hn).trans herr), hu⟩
  case beat =>
    have htaken := State.upBeat_taken he (leBytes 64 data.toNat) poison hin hx hkind hgranted (by omega) hc
    have hwrite := State.pwrite_stretch (s := s) x.client (s.cidOf c) (a := a) (ca := ca) (len := x.len) (o := 64 * x.beats) (wr := true) (perm := perm)
      (bs := leBytes 64 data.toNat) poison (List.ne_nil_of_length_pos (by simp)) (by simp; omega)
    rw [← hpieces] at hwrite
    have hhost := State.hostWrite_host (s.reqId (s.cidOf c)).2 (a + 64 * x.beats) (leBytes 64 data.toNat) poison hfn
    have hframe := s.hostWrite_frame (s.reqId (s.cidOf c)).1 (s.reqId (s.cidOf c)).2 (a + 64 * x.beats) (leBytes 64 data.toNat) poison
    rw [← hwrite] at hhost hframe
    refine ⟨_, Tab.put e.xids xid { x with beats := x.beats + 1 }, congrArg Host.Outcome.next htaken, ?_⟩
    unfold State.beatTaken
    dsimp only
    generalize s.pwrite x.client (s.cidOf c) x.pieces (64 * x.beats) (leBytes 64 data.toNat) poison = t at hhost hframe
    have hcmds := State.poisonCmd_becomes (t := t) poison hc (by rw [hframe])
    have hsame : (if poison then t.updCmd x.client (fun c => { c with poison := true }) else t) =
        { t with cmds := (if poison then t.updCmd x.client (fun c => { c with poison := true }) else t).cmds } := by
      cases poison
      · rfl
      · rfl
    generalize (if poison then t.updCmd x.client (fun c => { c with poison := true }) else t) = v at hcmds hsame
    have hv : v = { s with host := t.host, out := t.out, cmds := v.cmds } := by rw [hsame, hframe]
    have he' : Tab.at? v.eps ep = some e := by rw [hv]; exact he
    have hvh : v.host = t.host := by rw [hv]
    have hve : v.eps = s.eps := by rw [hv]
    refine ⟨?_, hvh.trans hhost, ?_, Tab.becomes_put _ _ _, hcmds⟩
    · rw [hv]
      rfl
    · rw [← hve]
      exact State.updEp_becomes (fun e => { e with granted := e.granted - 1, xids := Tab.put e.xids xid { x with beats := x.beats + 1 } }) he'
  case ended =>
    obtain ⟨e', he', hxids⟩ := State.freeOuts_eps he
    refine ⟨e', he', ?_⟩
    rw [hxids, List.mem_filter]
    simp [hx, State.outEnded, hkind, hlen]
  case astray =>
    obtain ⟨u, herr, hu, hcnt, -⟩ := s.protErr_values ep
    exact ⟨u, congrArg Host.Outcome.next ((State.upBeat_error he _ poison hin h).trans herr), hu, hcnt⟩
  case reset =>
    exact ⟨congrArg Host.Outcome.next (State.franking_reset he n hin), congrArg Host.Outcome.next (State.upBeat_reset he xid _ poison hin),
      congrArg Host.Outcome.next (State.doneResp_reset he did stat res.toNat hin)⟩
  case ready =>
    refine ⟨_, congrArg Host.Outcome.next (State.engRdy_up he), rfl, ?_⟩
    have hbecomes := State.updEp_epReturn_becomes (fun e => { e with rdy := true }) he
    simpa [Ep.returned, bne] using hbecomes
  case unready =>
    refine ⟨s.updEp ep (fun e => { e with rdy := false }), congrArg Host.Outcome.next (State.engRdy_down he), rfl, State.updEp_becomes _ he⟩
  case idle =>
    by_cases hpwr : (Tab.atD s.stns (s.build.epStn ep) {}).pwr = 4
    · refine ⟨_, congrArg Host.Outcome.next (State.qack_entering he hreq hpwr), rfl, fun h => absurd hpwr h, fun x hx _ => ?_⟩
      exact ⟨State.updEp_becomes (fun e => { e.cleared with rstN := false }) he, rfl, Tab.becomes_upd _ hx⟩
    · refine ⟨_, congrArg Host.Outcome.next (State.qack_released he hreq hpwr), rfl, fun _ => ⟨State.updEp_becomes Ep.cleared he, rfl, rfl⟩,
        fun x hx h => absurd ?_ hpwr⟩
      simpa [Tab.atD, hx] using h
  case late =>
    have hlate : s.updEp ep (fun e => if e.inReset then { e with out := true, inReset := false } else e) = _ := rfl
    refine ⟨_, congrArg Host.Outcome.next hlate, rfl, ?_⟩
    have hbecomes := State.updEp_becomes (fun e => if e.inReset then { e with out := true, inReset := false } else e) he
    rwa [if_pos hreset] at hbecomes

end Sys2Proof.Machine

end

section

/-! Parity errors (R391 to R393). -/

namespace Sys2Proof.Machine

/-- Counting a unit's parity errors leaves the queues as they are. -/
theorem State.parityCount_queues (s : State) (u n : Nat) (per : Bool) : (s.parityCount u n per).queues = s.queues := by
  unfold State.parityCount
  split
  · rw [State.countBy_queues]
  · rw [State.countBy_queues]
    rfl

/-- A lost envelope is counted, recorded and told, and changes no queue beyond what its receipt does (R392). -/
theorem State.parity_envelope_queues (s : State) (u i a : Nat) : (s.parity (.persistent u i a .envelope)).queues = s.queues := by
  unfold State.parity
  dsimp only [State.parityHeld]
  rw [State.raise_queues]
  exact s.parityCount_queues u 1 true

/-- An envelope in error is answered as a failed read. -/
theorem exec_envelopeReceived_lost {s : State} {tag q pos n : Nat} {drop : Bool} {r : Req} (u i a : Nat) (hr : Tab.at? s.tags tag = some r)
    (hpur : r.pur = .fetch q pos n drop) :
    exec (.envelopeReceived tag (.persistent u i a .envelope)) s = .next ((s.answer tag true).parity (.persistent u i a .envelope)) := by
  show execEnvelopeReceived tag _ s = _
  unfold execEnvelopeReceived
  rw [hr]
  dsimp only
  rw [hpur]
  rfl

/-- A ring read for one envelope, of no bytes. -/
def emptyFetch : Req := { stn := none, client := ringClient 1, cid := 0, key := 0, fn := 0, pasid := none, addr := 0, len := 0, pur := .fetch 1 0 1 false }

/-- The queue that it fetches for. -/
def emptyFetchQueue : Queue := { st := .idle, cls := 1, cid := 0, dbs := 0, sq := 0, cq := 0, log2 := 4, t := 1, f := 1 }

/-- A block with that read outstanding. -/
def emptyFetchState : State := { State.reset with tags := [(0, emptyFetch)], queues := [(1, emptyFetchQueue)] }

/-- No byte of the read is marked as failed, so the slot counts as read and its envelope is received. -/
theorem answer_emptyFetchState :
    (emptyFetchState.answer 0 true).queues = [(1, { emptyFetchQueue with h := 1, nextSeq := 1 })] := by decide +kernel

/-- As after a failed read, the queue would stop. -/
theorem stopped_emptyFetchState :
    ((((emptyFetchState.retire 0).stopQueue 1 4).settleQueue 1).settleIso.settleReads).queues =
      [(1, { emptyFetchQueue with st := .stopped, cause := 4, f := 0, t := 0, c := 1, disc := 1 })] := by decide +kernel

/-- Refutes O43, which ranges over every state: a ring read of no bytes, as no fetch makes one, has no byte that a lost envelope could mark, so
its slot is received and its queue does not stop. -/
theorem not_parityErrorsAreCountedAndHandled : ¬ Obligations.ParityErrorsAreCountedAndHandled := by
  unfold Obligations.ParityErrorsAreCountedAndHandled
  intro ⟨_, _, _, _, _, _, _, _, _, _, _, henvelope, _⟩
  obtain ⟨t, hexec, ht, -⟩ := henvelope emptyFetchState (emptyFetchState.retire 0) 0 0 0 0 1 emptyFetch emptyFetchQueue rfl rfl rfl
    (by decide +kernel) (.inl rfl)
  rw [exec_envelopeReceived_lost 0 0 0 rfl rfl, ht] at hexec
  have hqueues := congrArg State.queues (Host.Outcome.next.inj hexec)
  rw [State.parity_envelope_queues, State.parity_envelope_queues, answer_emptyFetchState, stopped_emptyFetchState] at hqueues
  exact absurd hqueues (by decide)

end Sys2Proof.Machine

end

section

/-! Stations are fenced and return (R373, R375, R378, R400, R404, R410 to R412, R420, R429, R432). -/

namespace Sys2Proof.Machine

/-! ### Heartbeats and fences (R400, R410, R411) -/

theorem State.beatStn_silent {s : State} {n : Nat} (hst : (s.stnAt n).state = 0) (hpwr : (s.stnAt n).pwr = 0) (h : 3 ≤ (s.stnAt n).missed) :
    s.beatStn n = s.fenceStn n 1 false (List.range 8) := by
  simp [State.beatStn, hst, hpwr, h]

theorem State.beatStn_counts {s : State} {n : Nat} (hst : (s.stnAt n).state = 0) (hpwr : (s.stnAt n).pwr = 0) (h : (s.stnAt n).missed < 3) :
    s.beatStn n = ((s.updStn n (fun x => { x with missed := x.missed + 1 })).emit (.heartbeat n)).sendMsg n false := by
  simp [State.beatStn, hst, hpwr, Nat.not_le.2 h]

/-- How often each unit of a station made no progress, after an answer (R400). -/
def stalledAfter (us : List (Nat × Bool)) (t : Tab Nat) : Tab Nat :=
  us.foldl (fun t u => if u.2 = true then Tab.put t u.1 (Tab.atD t u.1 0 + 1) else Tab.del t u.1) t

theorem State.beatAnswer_inService {s : State} {n : Nat} (us : List (Nat × Bool)) (hb : s.built n = true) (hst : (s.stnAt n).state = 0)
    (hpwr : (s.stnAt n).pwr = 0) :
    s.beatAnswer n us =
      let st := stalledAfter us (s.stnAt n).stalled
      let t := s.updStn n (fun x => { x with missed := 0, stalled := st })
      if Tab.keys st (fun _ k => decide (6 ≤ k)) = [] then t else t.fenceStn n 2 false (Tab.keys st (fun _ k => decide (6 ≤ k))) := by
  unfold State.beatAnswer
  exact if_neg (by simp [hb, hst, hpwr])

/-- The mark of a fence on its station (R410). -/
def State.fenceMarked (s : State) (n trigger : Nat) (byDriver : Bool) (hung : List Nat) : State :=
  s.updStn n (fun x => { x with
    state := 1, trigger := trigger, fences := satAdd 16 x.fences 1, byDriver := byDriver, missed := 0, stalled := [], silent := x.silent ++ hung })

/-- The state in which a fence is marked, counted and recorded (R410, R414); commands and requests are still to be ended. -/
def State.fenceBegun (s : State) (n trigger : Nat) (byDriver : Bool) (hung : List Nat) : State :=
  ((s.fenceMarked n trigger byDriver hung).count 0x2102 4).elog
    { kind := 4, pid := ((s.fenceMarked n trigger byDriver hung).ownerOf n).getD 0x3F, stn := n, detail := trigger }

theorem State.fenceBegun_values (s : State) (n trigger : Nat) (byDriver : Bool) (hung : List Nat) :
    let u := s.fenceBegun n trigger byDriver hung
    u = { s with stns := u.stns, incr := u.incr, rcv := u.rcv, fresh := s.fresh + 1 } ∧
      Tab.becomes s.stns u.stns n { s.stnAt n with
        state := 1, trigger := trigger, fences := satAdd 16 (s.stnAt n).fences 1, byDriver := byDriver, missed := 0, stalled := []
        silent := (s.stnAt n).silent ++ hung } ∧
      u.rcv.elogCnt = (s.rcv.elogCnt + 1) % 2 ^ 32 := by
  unfold State.fenceBegun
  obtain ⟨i, hi⟩ := (s.fenceMarked n trigger byDriver hung).count_frame 0x2102 4
  rw [hi]
  exact ⟨rfl, Tab.becomes_put _ _ _, State.elog_elogCnt { s.fenceMarked n trigger byDriver hung with incr := i } _⟩

/-- What a fence goes on with: the commands and requests that lose the station end, and its source is raised (R411). -/
def State.fenceEnds (u : State) (n : Nat) : State :=
  ((u.loseStn n).endReqsBut (fun r => r.stn == some n) (fun r => r.waits u.heldCmds)).raise (64 + n) 1

theorem State.fenceStn_eq {s : State} {n : Nat} (trigger : Nat) (byDriver : Bool) (hung : List Nat) (hb : s.built n = true)
    (hst : (s.stnAt n).state = 0) :
    let u := s.fenceBegun n trigger byDriver hung
    s.fenceStn n trigger byDriver hung = ((match (u.fenceEnds n).ownerOf n with
      | some p => (u.fenceEnds n).notifyPart p 2
      | none => u.fenceEnds n).dump 6 (stnUnits n) none u.rcv.serial).settleAfter := by
  unfold State.fenceStn
  exact if_neg (by simp [hb, hst])

/-! ### Returns (R404, R412, R429) -/

/-- From `s` to `t` the links changed in what the hub's ends hold alone, and flits were sent. -/
def State.hubsMoved (s t : State) : Prop :=
  t = { s with links := t.links, out := t.out } ∧ ∀ m, t.link m = { s.link m with hub := (t.link m).hub }

theorem State.hubsMoved.refl (s : State) : s.hubsMoved s := ⟨rfl, fun _ => rfl⟩

theorem State.hubsMoved.trans {s t u : State} (h : s.hubsMoved t) (k : t.hubsMoved u) : s.hubsMoved u :=
  ⟨by rw [k.1, h.1], fun m => by rw [k.2 m, h.2 m]⟩

theorem State.link_updLink_ne (s : State) {n m : Nat} (f : Link → Link) (h : m ≠ n) : (s.updLink n f).link m = s.link m :=
  Tab.atD_put_ne _ _ _ h

theorem State.nullFlit_hubsMoved (s : State) (n : Nat) (fromStn : Bool) : s.hubsMoved (s.nullFlit n fromStn) := by
  unfold State.nullFlit
  split
  · exact ⟨rfl, fun _ => rfl⟩
  · exact .refl s

theorem State.updHub_hubsMoved (s : State) (n : Nat) (f : LEnd → LEnd) : s.hubsMoved (s.updLink n (fun l => { l with hub := f l.hub })) := by
  refine ⟨rfl, fun m => ?_⟩
  by_cases h : m = n
  · subst h
    rw [State.link_updLink_self]
  · rw [State.link_updLink_ne _ _ h]

theorem State.creditBack_hubsMoved (s : State) (src k m : Nat) : s.hubsMoved (s.creditBack src k m) := by
  unfold State.creditBack
  split
  · exact .refl s
  · exact (s.updHub_hubsMoved src (fun e => e.updChan k (fun c => { c with crt := (c.crt + m) % 4096 }))).trans (State.nullFlit_hubsMoved _ _ _)

theorem State.dropMsgs_hubsMoved (s : State) (n : Nat) : s.hubsMoved (s.dropMsgs n) := by
  unfold State.dropMsgs
  refine foldl_keeps s.hubsMoved _ _ (fun t k _ ht => ?_) s (.refl s)
  extract_lets c
  exact foldl_keeps s.hubsMoved _ _ (fun v m _ hv => hv.trans (v.creditBack_hubsMoved _ _ _)) _ (ht.trans (t.creditBack_hubsMoved _ _ _))

/-- A link enters INIT (R373): the other links stay as they are. -/
theorem State.enterInit_values (s : State) (n : Nat) :
    let t := s.enterInit n
    t = { s with links := t.links, out := t.out } ∧
      t.link n = { s.link n with st := 4, hub := { (s.link n).hub with init := false }, stn := { (s.link n).stn with init := false } } ∧
      ∀ m, m ≠ n → t.link m = s.link m :=
  ⟨rfl, Tab.atD_put_self _ _ _ _, fun _ h => Tab.atD_put_ne _ _ _ h⟩

/-- Where a link begins to train: OFF while it is disabled, a remote one in DETECT, and a local one in INIT (R375, R378). -/
def State.trainsFrom (s : State) (n : Nat) : Nat := if (s.link n).disable = true then 0 else if s.build.remote n = true then 1 else 4

/-- A link whose ends begin anew, in DETECT unless it is disabled (R375, R378). -/
def State.trainBegun (s : State) (n : Nat) : State :=
  (s.dropMsgs n).updLink n (fun l => { l with
    st := if l.disable then 0 else 1, again := false, tx := none, rx := none, txGood := 0, rxGood := 0, hub := {}, stn := {} })

theorem State.trainBegun_values (s : State) (n : Nat) :
    let u := s.trainBegun n
    u = { s with links := u.links, out := u.out } ∧
      u.link n = { s.link n with
        st := if (s.link n).disable then 0 else 1, again := false, tx := none, rx := none, txGood := 0, rxGood := 0, hub := {}, stn := {} } ∧
      ∀ m, m ≠ n → (u.link m).st = (s.link m).st := by
  obtain ⟨hframe, hlink⟩ := s.dropMsgs_hubsMoved n
  unfold State.trainBegun
  generalize s.dropMsgs n = w at hframe hlink
  refine ⟨?_, ?_, fun m h => ?_⟩
  · rw [show ∀ f, w.updLink n f = { w with links := (w.updLink n f).links } from fun _ => rfl, hframe]
  · rw [State.link_updLink_self, hlink n]
  · rw [State.link_updLink_ne _ _ h, hlink m]

theorem State.trainLink_eq (s : State) (n : Nat) :
    s.trainLink n = if (s.link n).disable || s.build.remote n then s.trainBegun n else (s.trainBegun n).enterInit n := by
  obtain ⟨hframe, hn, -⟩ := s.trainBegun_values n
  rw [show (s.link n).disable = ((s.trainBegun n).link n).disable by rw [hn], show s.build = (s.trainBegun n).build by rw [hframe]]
  rfl

/-- A link trains from the beginning, which changes the states of no other. -/
theorem State.trainLink_values (s : State) (n : Nat) :
    let t := s.trainLink n
    t = { s with links := t.links, out := t.out } ∧ (t.link n).st = s.trainsFrom n ∧ ∀ m, m ≠ n → (t.link m).st = (s.link m).st := by
  obtain ⟨hu, hun, hum⟩ := s.trainBegun_values n
  rw [State.trainLink_eq]
  generalize s.trainBegun n = u at hu hun hum
  unfold State.trainsFrom
  cases hd : (s.link n).disable <;> cases hr : s.build.remote n
  case false.false =>
    obtain ⟨hi, hin, him⟩ := u.enterInit_values n
    exact ⟨by rw [if_neg (by decide), hi, hu], by rw [if_neg (by decide), hin]; rfl, fun m h => by rw [if_neg (by decide), him m h, hum m h]⟩
  all_goals exact ⟨hu, by rw [if_pos (by decide), hun, hd]; rfl, hum⟩

/-- STN_PS_REQ is driven, of its station alone (R440). -/
theorem State.setPs_values (s : State) (n level : Nat) :
    let t := s.setPs n level
    t = { s with stns := t.stns, out := t.out } ∧ t.stnAt n = { s.stnAt n with psReq := level } ∧ ∀ m, m ≠ n → t.stnAt m = s.stnAt m := by
  unfold State.setPs
  split
  case isTrue h => exact ⟨rfl, by rw [← h], fun _ _ => rfl⟩
  case isFalse h => exact ⟨rfl, Tab.atD_put_self _ _ _ _, fun _ h => Tab.atD_put_ne _ _ _ h⟩

/-- A station's ports are cleared and held in reset for a moment (R412). -/
def State.portsReset (s : State) (n : Nat) : State :=
  ((List.range (s.build.epCount n)).map (fun i => s.build.epFirst n + i)).foldl (fun s ep =>
    if Tab.has s.eps ep then (s.updEp ep (fun e => { e.cleared with inReset := false })).emits [.epReset ep false, .epReset ep true] else s) s

theorem State.portsReset_frame (s : State) (n : Nat) : s.portsReset n = { s with eps := (s.portsReset n).eps, out := (s.portsReset n).out } := by
  refine foldl_keeps (fun t => t = { s with eps := t.eps, out := t.out }) _ _ (fun t ep _ ht => ?_) s rfl
  split
  · rw [ht]; rfl
  · exact ht

/-- What a station holds after a reset (R412): its place in the machine stays. -/
def Stn.resetUnits (x : Stn) : Stn :=
  { x with missed := 0, stalled := [], silent := [], sumAll := false, sumRel := 0, sumA := [], sumB := [], sumSel := false, sortBank := 0, iso := [] }

theorem State.stnReset_values (s : State) (n : Nat) :
    let t := s.stnReset n
    t = { s with eps := t.eps, out := t.out, stns := t.stns } ∧ t.stnAt n = (s.stnAt n).resetUnits ∧
      ∀ m, m ≠ n → t.stnAt m = s.stnAt m := by
  have h : s.stnReset n = (s.portsReset n).updStn n Stn.resetUnits := rfl
  have hw := s.portsReset_frame n
  rw [h]
  generalize s.portsReset n = w at hw
  have hstn (m : Nat) : w.stnAt m = s.stnAt m := by rw [hw]; rfl
  refine ⟨?_, ?_, fun m h => ?_⟩
  · rw [show w.updStn n Stn.resetUnits = { w with stns := (w.updStn n Stn.resetUnits).stns } from rfl, hw]
  · rw [State.stnAt_updStn_self, hstn]
  · rw [State.stnAt_updStn_ne _ _ h, hstn]

/-- From `s` to `t` a return attempt of station `n` began (R412, R439). -/
structure State.Returning (s t : State) (n : Nat) : Prop where
  frame : t = { s with eps := t.eps, fresh := t.fresh, links := t.links, out := t.out, rcv := t.rcv, stns := t.stns }
  state : (t.stnAt n).state = 2
  attempts : (t.stnAt n).attempts = s.attempts n ++ [s.mgt.uptime]
  psReq : (t.stnAt n).psReq = 0
  byDriver : (t.stnAt n).byDriver = (s.stnAt n).byDriver
  link : (t.link n).st = s.trainsFrom n
  others : ∀ m, m ≠ n → t.stnAt m = s.stnAt m ∧ (t.link m).st = (s.link m).st

theorem State.startReturn_returning (s : State) (n : Nat) : s.Returning (s.startReturn n) n := by
  unfold State.startReturn
  obtain ⟨hps, hpsn, hpsm⟩ := s.setPs_values n 0
  generalize s.setPs n 0 = p at hps hpsn hpsm
  extract_lets q
  have hq : q = { s with stns := q.stns, out := q.out } := by rw [show q = { p with stns := q.stns } from rfl, hps]
  have hqn : q.stnAt n = { s.stnAt n with psReq := 0, state := 2, attempts := s.attempts n ++ [s.mgt.uptime] } := by
    rw [show q.stnAt n = _ from p.stnAt_updStn_self n _, hpsn]
  have hqm (m : Nat) (h : m ≠ n) : q.stnAt m = s.stnAt m := (p.stnAt_updStn_ne _ h).trans (hpsm m h)
  clear_value q
  obtain ⟨hr, hrn, hrm⟩ := q.stnReset_values n
  generalize q.stnReset n = r at hr hrn hrm
  generalize ({ kind := 5, pid := (q.ownerOf n).getD 0x3F, stn := n } : ERec) = e
  have hw : r.elog e = { r with fresh := r.fresh + 1, rcv := (r.elog e).rcv } := rfl
  generalize r.elog e = w at hw
  obtain ⟨ht, htn, htm⟩ := w.trainLink_values n
  generalize w.trainLink n = t at ht htn htm
  have hwl : w.links = s.links := by rw [hw, hr, hq]
  have hwlink (m : Nat) : w.link m = s.link m := by unfold State.link; rw [hwl]
  have hstns (m : Nat) : t.stnAt m = r.stnAt m := by rw [ht, hw]; rfl
  have hfrom : w.trainsFrom n = s.trainsFrom n := by
    unfold State.trainsFrom
    rw [hwlink, show w.build = s.build by rw [hw, hr, hq]]
  refine ⟨by rw [ht, hw, hr, hq], ?_, ?_, ?_, ?_, by rw [htn, hfrom], fun m h => ⟨?_, ?_⟩⟩
  · rw [hstns, hrn, hqn]; rfl
  · rw [hstns, hrn, hqn]; rfl
  · rw [hstns, hrn, hqn]; rfl
  · rw [hstns, hrn, hqn]; rfl
  · rw [hstns, hrm m h, hqm m h]
  · rw [htm m h, hwlink]

theorem State.stnReturn_tries {s : State} {n : Nat} (hup : s.up = true) (hb : s.built n = true) (hst : (s.stnAt n).state = 1)
    (hbd : (s.stnAt n).byDriver = false) :
    s.stnReturn n = if 3 ≤ (s.attempts n).length then s.updStn n (fun x => { x with state := 3 }) else s.startReturn n := by
  unfold State.stnReturn
  exact if_pos (by simp [hup, hb, hst, hbd])

theorem State.driverReturn_tries {s : State} {n : Nat} (hb : s.built n = true) (hst : (s.stnAt n).state = 1 ∨ (s.stnAt n).state = 3) :
    s.driverReturn n = (s.startReturn n).updStn n (fun y => { y with enum := 0, fromOut := (s.stnAt n).state == 3 }) := by
  unfold State.driverReturn
  exact if_pos (by rcases hst with hst | hst <;> simp [hb, hst])

/-- The block once a station of no partition is back in service, before what waited for it goes on (R412). -/
def State.returned (s : State) (n : Nat) : State :=
  (((s.updStn n (fun x => { x with
    state := 0, pwr := 0, byDriver := false, fromOut := false, idleReq := [], demand := false, sumAll := true, sumRel := 0, silent := []
    missed := 0, enum := if x.enum = 0 then 1 else x.enum })).count 0x2102 5).pushIso).raise (64 + n) 2

theorem State.returned_values (s : State) (n : Nat) :
    let u := s.returned n
    u = { s with stns := u.stns, incr := u.incr, evc := u.evc } ∧
      (u.stnAt n).state = 0 ∧ (u.stnAt n).pwr = 0 ∧ (u.stnAt n).byDriver = false ∧ (u.stnAt n).sumAll = true ∧
      (u.stnAt n).enum = if (s.stnAt n).enum = 0 then 1 else (s.stnAt n).enum := by
  unfold State.returned
  obtain ⟨w, hw⟩ : ∃ w, w = s.updStn n (fun x => { x with
    state := 0, pwr := 0, byDriver := false, fromOut := false, idleReq := [], demand := false, sumAll := true, sumRel := 0, silent := []
    missed := 0, enum := if x.enum = 0 then 1 else x.enum }) := ⟨_, rfl⟩
  have hn : w.stnAt n = _ := (congrArg (State.stnAt · n) hw).trans (s.stnAt_updStn_self n _)
  rw [← hw]
  obtain ⟨i, hi⟩ := w.count_frame 0x2102 5
  obtain ⟨ns, hpush⟩ := { w with incr := i }.pushIso_frame
  have hiso : { w with incr := i }.isoMoved { w with incr := i }.pushIso n := State.pushIso_isoMoved _ _
  unfold State.isoMoved at hiso
  rw [hi]
  generalize { w with incr := i }.pushIso = p at hpush hiso
  obtain ⟨e, hraise⟩ := p.raise_frame (64 + n) 2
  rw [hraise]
  have hp : ({ p with evc := e } : State).stnAt n = p.stnAt n := rfl
  have hwn : ({ w with incr := i } : State).stnAt n = w.stnAt n := rfl
  dsimp only
  rw [hp, hiso, hwn, hn]
  exact ⟨by rw [hpush, hw]; rfl, rfl, rfl, rfl, rfl, rfl⟩

theorem State.settleReturn_free {s : State} {n : Nat} (hst : (s.stnAt n).state = 2) (hl : (s.link n).st = 5) (hm : (s.stnAt n).memRdy = true)
    (ho : s.ownerOf n = none) : s.settleReturn n = ((s.returned n).refill (some n)).settleReads := by
  have hown : (s.returned n).ownerOf n = none := by
    unfold State.ownerOf at ho ⊢
    rw [(s.returned_values n).1]
    exact ho
  have h : s.settleReturn n = ((match (s.returned n).ownerOf n with
      | some p => (s.returned n).notifyPart p 2
      | none => s.returned n).refill (some n)).settleReads := by
    unfold State.settleReturn
    exact if_pos (by simp [hst, hl, hm])
  rw [h, hown]

/-! ### EP_RESTART (R404, R420, R432) -/

/-- EP_RESTART of one port. -/
def State.epRestartOne (s : State) (ep : Nat) : State :=
  match Tab.at? s.eps ep with
  | some e => if e.out then s.engStep ep
      else if e.busy || e.qreq || e.inReset then s
      else (s.updEp ep (fun e => { e with qreq := true })).emit (.epQreq ep true)
  | none => s

theorem State.epRestart_eq (s : State) (n : Nat) : s.epRestart n = (s.build.epsOf n).foldl State.epRestartOne s := rfl

/-- An idle port is asked to stop. -/
theorem State.epRestartOne_idle {s : State} {ep : Nat} {e : Ep} (h : Tab.at? s.eps ep = some e) (hout : e.out = false) (hbusy : e.busy = false)
    (hq : e.qreq = false) (hr : e.inReset = false) :
    s.epRestartOne ep = (s.updEp ep (fun e => { e with qreq := true })).emit (.epQreq ep true) := by
  unfold State.epRestartOne
  rw [h]
  dsimp only
  rw [if_neg (by simp [hout]), if_neg (by simp [hbusy, hq, hr])]

/-- The idle ports of a list are asked to stop, one after another, and the others stay as they are. -/
theorem State.epRestartOne_foldl {eps : List Nat} (hnd : eps.Nodup) (s : State)
    (h : ∀ ep ∈ eps, ∃ e ∈ Tab.at? s.eps ep, e.out = false ∧ e.busy = false ∧ e.qreq = false ∧ e.inReset = false) :
    let t := eps.foldl State.epRestartOne s
    t = { s with eps := t.eps, out := t.out } ∧ t.out = s.out ++ eps.map (fun ep => .epQreq ep true) ∧
      (∀ ep ∈ eps, ∀ e, Tab.at? s.eps ep = some e → Tab.at? t.eps ep = some { e with qreq := true }) ∧
      (∀ ep, ep ∉ eps → Tab.at? t.eps ep = Tab.at? s.eps ep) := by
  induction eps generalizing s with
  | nil => exact ⟨rfl, by simp, by simp, fun _ _ => rfl⟩
  | cons ep eps ih =>
    obtain ⟨hnot, hnd⟩ := List.nodup_cons.1 hnd
    obtain ⟨e, he, hout, hbusy, hq, hr⟩ := h ep (by simp)
    rw [List.foldl_cons, State.epRestartOne_idle he hout hbusy hq hr]
    obtain ⟨u, hu⟩ : ∃ u, u = (s.updEp ep (fun e => { e with qreq := true })).emit (.epQreq ep true) := ⟨_, rfl⟩
    have huframe : u = { s with eps := u.eps, out := s.out ++ [.epQreq ep true] } := by rw [hu]; rfl
    have hself : Tab.at? u.eps ep = some { e with qreq := true } := by
      rw [hu]
      exact (Tab.at?_upd_self _ _ _).trans (by rw [he]; rfl)
    have hne (k : Nat) (hk : k ≠ ep) : Tab.at? u.eps k = Tab.at? s.eps k := by rw [hu]; exact Tab.at?_upd_ne _ _ hk
    rw [← hu]
    have hmem (k : Nat) (hk : k ∈ eps) : k ≠ ep := fun hkep => hnot (hkep ▸ hk)
    obtain ⟨hframe, hout', hsome, hother⟩ := ih hnd u (fun k hk => by rw [hne k (hmem k hk)]; exact h k (by simp [hk]))
    refine ⟨by rw [hframe, huframe], by rw [hout', huframe]; simp, fun k hk x hx => ?_, fun k hk => ?_⟩
    · rcases List.mem_cons.1 hk with hk | hk
      · rw [hk] at hx ⊢
        rw [hother ep hnot, hself]
        rw [Option.some.inj (he.symm.trans hx)]
      · exact hsome k hk x (by rw [hne k (hmem k hk), hx])
    · rw [List.mem_cons, not_or] at hk
      rw [hother k hk.2, hne k hk.1]

theorem Build.epsOf_nodup (b : Build) (n : Nat) : (b.epsOf n).Nodup :=
  List.nodup_range.map (fun _ _ h => Nat.add_left_cancel h)

/-- Settles O41: fences by what calls for them, and returns by what they begin and how they end. -/
theorem stationsAreFencedAndReturn : Obligations.StationsAreFencedAndReturn := by
  refine ⟨⟨fun s hup => congrArg _ (if_pos hup), fun s n hst hpwr => ⟨State.beatStn_silent hst hpwr, fun h => ?beat⟩,
      fun s n us hb hst hpwr => ?answer, fun s n core => rfl, fun s hs hb hst => ?fence⟩,
    ⟨fun s n hup hb hst hbd hlt => ?returns, fun s n hup hb hst hbd hle => ?out, fun s hs hb hst => ?driver,
      fun s n hst hl hm ho => ⟨s.returned n, State.settleReturn_free hst hl hm ho, s.returned_values n⟩, fun s n hb hst hm => ?late,
      fun s hs hb hidle => ?restart⟩⟩
  case beat => exact ⟨_, State.beatStn_counts hst hpwr h, rfl, Tab.becomes_put _ _ _⟩
  case answer =>
    exact ⟨s.updStn n (fun x => { x with missed := 0, stalled := stalledAfter us (s.stnAt n).stalled }),
      congrArg Host.Outcome.next (State.beatAnswer_inService us hb hst hpwr), rfl, s.updStn_becomes n _⟩
  case fence =>
    obtain ⟨hframe, hstn, hcnt⟩ := s.fenceBegun_values s.rcv.hsel 6 true []
    have hexec : exec .stnHctlFence s = .next (s.fenceStn s.rcv.hsel 6 true []) := congrArg Host.Outcome.next (State.mmio_reaches _ hs)
    rw [List.append_nil] at hstn
    refine ⟨s.fenceBegun s.rcv.hsel 6 true [], (s.fenceBegun s.rcv.hsel 6 true []).fenceEnds s.rcv.hsel, hframe, hstn, hcnt, rfl, fun p hp => ?_,
      fun hp => ?_⟩
    all_goals rw [hexec, State.fenceStn_eq 6 true [] hb hst, hp]
  case returns =>
    have h := s.startReturn_returning n
    refine ⟨s.startReturn n, congrArg Host.Outcome.next ((State.stnReturn_tries hup hb hst hbd).trans (if_neg (by omega))), h.frame, h.state,
      h.attempts, h.psReq, h.link, h.others⟩
  case out =>
    exact ⟨_, congrArg Host.Outcome.next ((State.stnReturn_tries hup hb hst hbd).trans (if_pos hle)), rfl, s.updStn_becomes n _⟩
  case driver =>
    have h := s.startReturn_returning s.rcv.hsel
    have hexec : exec .stnHctlReturn s = .next (s.driverReturn s.rcv.hsel) := congrArg Host.Outcome.next (State.mmio_reaches _ hs)
    rw [State.driverReturn_tries hb hst] at hexec
    generalize s.startReturn s.rcv.hsel = w at h hexec
    refine ⟨_, hexec, ?_, ?_⟩
    · rw [show ∀ f, w.updStn s.rcv.hsel f = { w with stns := (w.updStn s.rcv.hsel f).stns } from fun _ => rfl, h.frame]
    · rw [State.stnAt_updStn_self]
      exact ⟨h.state, rfl, h.byDriver, rfl, h.attempts⟩
  case late =>
    refine ⟨s.updStn n (fun x => { x with
        state := if x.fromOut || decide (3 ≤ (s.attempts n).length) then 3 else 1, enum := if x.enum = 0 then 3 else x.enum }),
      congrArg Host.Outcome.next ?_, rfl, ?_⟩
    · unfold State.memRdyLate
      simp [State.returnFail, hb, hst, hm]
    · have h := s.updStn_becomes n (fun x => { x with
        state := if x.fromOut || decide (3 ≤ (s.attempts n).length) then 3 else 1, enum := if x.enum = 0 then 3 else x.enum })
      simpa using h
  case restart =>
    have h := State.epRestartOne_foldl (s.build.epsOf_nodup s.rcv.hsel) s hidle
    exact ⟨s.epRestart s.rcv.hsel, congrArg Host.Outcome.next ((State.mmio_reaches _ hs).trans (if_pos hb)), h⟩

end Sys2Proof.Machine

end

section

/-! Steps of the escalation ladder (R402 to R405, R409). -/

namespace Sys2Proof.Machine

/-! ### Queues that a step resets (R403, R405) -/

/-- A queue that a ladder step resets; one that is DRAINING stays so (R75, R403). -/
def Queue.stepped (x : Queue) : Queue :=
  { (if x.st = .draining then x else { x with st := .resetting, cause := 5 }) with gotten := [] }

theorem Queue.stepped_draining {x : Queue} (h : x.st = .draining) : x.stepped = { x with gotten := [] } := by
  unfold Queue.stepped
  rw [if_pos h]

theorem Queue.stepped_resets {x : Queue} (h : x.st ≠ .draining) : x.stepped = { x with st := .resetting, cause := 5, gotten := [] } := by
  unfold Queue.stepped
  rw [if_neg h]

theorem Queue.stepped_stepped (x : Queue) : x.stepped.stepped = x.stepped := by
  by_cases h : x.st = .draining
  · rw [Queue.stepped_draining h, Queue.stepped_draining (by exact h)]
  · rw [Queue.stepped_resets h, Queue.stepped_resets (by simp)]

theorem State.stepReset_frame (s : State) (q : Nat) :
    s.stepReset q = { s with queues := (s.stepReset q).queues, tags := (s.stepReset q).tags, waiting := (s.stepReset q).waiting } := rfl

theorem State.stepReset_queues (s : State) (q i : Nat) :
    Tab.at? (s.stepReset q).queues i = if i = q then (Tab.at? s.queues i).map Queue.stepped else Tab.at? s.queues i := by
  have h : (s.stepReset q).queues =
      Tab.upd (Tab.upd s.queues q (fun x => if x.st = .draining then x else { x with st := .resetting, cause := 5 })) q
        (fun x => { x with gotten := [] }) := rfl
  rw [h]
  split
  case isTrue hi =>
    subst hi
    rw [Tab.at?_upd_self, Tab.at?_upd_self, Option.map_map]
    rfl
  case isFalse hi => rw [Tab.at?_upd_ne _ _ hi, Tab.at?_upd_ne _ _ hi]

theorem State.stepResets_frame (l : List Nat) (s : State) :
    let u := l.foldl (fun s q => s.stepReset q) s
    u = { s with queues := u.queues, tags := u.tags, waiting := u.waiting } := by
  refine foldl_keeps (fun t => t = { s with queues := t.queues, tags := t.tags, waiting := t.waiting }) _ _ (fun t q _ ht => ?_) s rfl
  rw [t.stepReset_frame q, ht]

/-- The queues of a list are reset, however often they stand in it, and the others stay. -/
theorem State.stepResets_queues (l : List Nat) (s : State) (i : Nat) :
    Tab.at? (l.foldl (fun s q => s.stepReset q) s).queues i = if i ∈ l then (Tab.at? s.queues i).map Queue.stepped else Tab.at? s.queues i := by
  induction l generalizing s with
  | nil => rfl
  | cons q l ih =>
    rw [List.foldl_cons, ih, State.stepReset_queues]
    by_cases hq : i = q <;> by_cases hl : i ∈ l
    · rw [if_pos hq, if_pos hl, if_pos (by simp [hq]), Option.map_map]
      exact congrArg (Option.map · _) (funext Queue.stepped_stepped)
    · rw [if_pos hq, if_neg hl, if_pos (by simp [hq])]
    · rw [if_neg hq, if_pos hl, if_pos (by simp [hl])]
    · rw [if_neg hq, if_neg hl, if_neg (by simp [hq, hl])]

theorem Tab.mem_keys {α : Type} {t : Tab α} {p : Nat → α → Bool} {k : Nat} : k ∈ Tab.keys t p ↔ ∃ v, (k, v) ∈ t ∧ p k v = true := by
  simp [Tab.keys]

/-! ### What dumps and the engine step leave alone (R404, R415) -/

theorem State.settleCopies_portsMoved (s : State) : s.portsMoved s.settleCopies := by
  rw [State.settleCopies_copiesMoved s]
  rfl

theorem State.rcv_portsMoved (s : State) (r : Recov) : s.portsMoved { s with rcv := r } := rfl

theorem State.rsWrite_portsMoved (s : State) (a : Nat) (bs : List Byte) : s.portsMoved (s.rsWrite a bs) := s.rcv_portsMoved _

theorem State.draw_portsMoved (s : State) : s.portsMoved s.draw := rfl

theorem State.putHead_draw_portsMoved (s : State) (c : Coll) (flags serial first last : Nat) :
    s.portsMoved (s.putHead c flags serial first last).draw :=
  (s.rsWrite_portsMoved _ _).trans (State.draw_portsMoved _)

theorem State.dumpDone_portsMoved (s : State) (c : Coll) : s.portsMoved (s.dumpDone c) :=
  (((s.putHead_draw_portsMoved c 1 _ _ _).trans (State.rcv_portsMoved _ _)).trans (State.elog_portsMoved _ _)).trans (State.settleCopies_portsMoved _)

theorem State.runColl_portsMoved (k : Nat) (s : State) : s.portsMoved (s.runColl k) := by
  induction k generalizing s with
  | zero => exact .refl s
  | succ k ih =>
    unfold State.runColl
    split
    · exact .refl s
    · split
      · exact ((s.putHead_draw_portsMoved _ _ _ _ _).trans (State.rcv_portsMoved _ _)).trans (ih _)
      · split
        · exact (s.dumpDone_portsMoved _).trans (ih _)
        · split
          · exact .refl s
          · exact ((s.draw_portsMoved.trans (State.rsWrite_portsMoved _ _ _)).trans (State.rcv_portsMoved _ _)).trans (ih _)

theorem State.dump_portsMoved (s : State) (step : Nat) (units : List Nat) (pid : Option Nat) (serial : Nat) :
    s.portsMoved (s.dump step units pid serial) := by
  exact (s.rcv_portsMoved _).trans (State.runColl_portsMoved _ _)

theorem State.notifyPart_portsMoved (s : State) (p c : Nat) : s.portsMoved (s.notifyPart p c) := by
  obtain ⟨e, he⟩ := s.notifyPart_frame p c
  rw [he]
  rfl

theorem State.portsMoved.eps {s t : State} (h : s.portsMoved t) : t.eps = s.eps := by unfold State.portsMoved at h; rw [h]

theorem State.refill_portsMoved (s : State) (n : Option Nat) : s.portsMoved (s.refill n) := by
  refine State.portsMoved.trans ?_ (foldl_portsMoved (fun v r => v.issue_portsMoved r) _ _)
  rfl

theorem State.dropReqs_portsMoved (s : State) (p : Req → Bool) : s.portsMoved (s.dropReqs p) := by
  refine State.portsMoved.trans ?_ (foldl_portsMoved (fun v n => v.refill_portsMoved n) _ _)
  rfl

/-- The engine step leaves its port cleared and held in reset (R404 step 4). -/
theorem State.engineStepAt_eps {s : State} {ep : Nat} {e : Ep} (he : Tab.at? s.eps ep = some e) :
    Tab.at? (s.engineStepAt ep).eps ep = some { e.cleared with inReset := true } := by
  unfold State.engineStepAt
  rw [he]
  dsimp only
  refine foldl_keeps (fun (t : State) => Tab.at? t.eps ep = some { e.cleared with inReset := true }) _ _ (fun t cl _ ht => ?_) _ ?_
  · split
    · split
      · exact ht
      · exact ht
    · exact ht
  · have hdrop : (s.dropInputs ep).eps = s.eps := (s.dropReqs_portsMoved _).eps
    exact (Tab.at?_upd_self _ _ _).trans (by rw [hdrop, he]; rfl)

/-! ### The context step (R403) -/

/-- A context step that is asked for, where it may run: it begins. -/
def State.ctxBegun (s : State) (cid : Nat) : State := ((s.unask 1 cid).beginStep 1 cid (s.pidOf cid) { kind := 6, cid := cid }).count 0x2102 1

theorem State.ctxBegun_values (s : State) (cid : Nat) :
    let w := s.ctxBegun cid
    w = { s with want := s.want.filter (· != (1, cid)), fresh := w.fresh, rcv := w.rcv, incr := w.incr } ∧ s.rcv.Begun w.rcv 1 cid := by
  obtain ⟨hframe, hbegun⟩ := (s.unask 1 cid).beginStep_count 1 cid (s.pidOf cid) { kind := 6, cid := cid } 0x2102 1
  unfold State.ctxBegun
  generalize ((s.unask 1 cid).beginStep 1 cid (s.pidOf cid) { kind := 6, cid := cid }).count 0x2102 1 = w at hframe hbegun
  exact ⟨by rw [hframe]; rfl, hbegun⟩

/-- The queues of the context whose step runs are reset (R403 step 1). -/
def State.ctxQueuesReset (w : State) (cid : Nat) : State := (Tab.keys w.queues (fun _ q => q.cid == cid)).foldl (fun s q => s.stepReset q) w

/-- Steps 3 to 5 of R403 for the context whose queues were reset: its commands and requests end, and its translations go. -/
def State.ctxEnds (u : State) (cid : Nat) (qs : List Nat) : State :=
  ((u.wrapCmds (Tab.keys u.cmds (fun _ c => qs.contains c.q))).endReqs (fun r => r.stn.isNone && r.cid == cid && r.pur != .marker)).invalCache cid 0
    (2 ^ 64)

theorem State.ctxStep_runs {s : State} {cid : Nat} (hctx : Tab.has s.ctxs cid = true) (hup : s.up = true)
    (hno : (s.unask 1 cid).absorbed 1 cid (s.pidOf cid) = false) :
    let v := ((s.ctxBegun cid).ctxQueuesReset cid).ctxEnds cid (Tab.keys (s.ctxBegun cid).queues (fun _ q => q.cid == cid))
    s.ctxStep cid = (if s.pidOf cid ≠ 0x3F ∧ 3 ≤ v.stepsNow 1 (some (s.pidOf cid)) then v.ask 3 (s.pidOf cid) else v).settleSteps := by
  unfold State.ctxStep
  have hup' : (s.unask 1 cid).up = true := hup
  exact if_neg (by simp [hno, hctx, hup'])

/-! ### The engine step (R404) -/

/-- The number of an engine step in ESC_ID: 8 times the station's number, and the port of the station (R402). -/
def State.epId (s : State) (ep : Nat) : Nat := 8 * s.build.epStn ep + (ep - s.build.epFirst (s.build.epStn ep))

/-- An engine step runs under the number of its port. -/
def State.engRuns (w : State) (id ep : Nat) : State :=
  { w with rcv := { w.rcv with running := w.rcv.running.filter (· != (2, id)) ++ [(2, ep)] } }

/-- An engine step that may run begins. -/
def State.engBegun (s : State) (ep : Nat) : State :=
  (((s.unask 2 ep).beginStep 2 (s.epId ep) ((s.ownerOf (s.build.epStn ep)).getD 0x3F)
    { kind := 6, stn := s.build.epStn ep, ep := ep - s.build.epFirst (s.build.epStn ep) }).count 0x2102 2).engRuns (s.epId ep) ep

theorem State.engRuns_values {s w : State} {id ep : Nat}
    (hframe : w = { s.unask 2 ep with fresh := (s.unask 2 ep).fresh + 2, rcv := w.rcv, incr := w.incr })
    (hbegun : (s.unask 2 ep).rcv.Begun w.rcv 2 id) :
    let u := w.engRuns id ep
    u = { s with want := s.want.filter (· != (2, ep)), fresh := u.fresh, rcv := u.rcv, incr := u.incr } ∧ u.rcv.escStep = 2 ∧
      u.rcv.escId = id ∧ u.rcv.cnt = Tab.put s.rcv.cnt 1 (satAdd 32 (Tab.atD s.rcv.cnt 1 0) 1) ∧ (2, ep) ∈ u.rcv.running := by
  refine ⟨?_, hbegun.escStep, hbegun.escId, hbegun.cnt, ?_⟩
  · rw [show w.engRuns id ep = { w with rcv := (w.engRuns id ep).rcv } from rfl, hframe]
    rfl
  · simp [State.engRuns]

theorem State.engBegun_values (s : State) (ep : Nat) :
    let w := s.engBegun ep
    w = { s with want := s.want.filter (· != (2, ep)), fresh := w.fresh, rcv := w.rcv, incr := w.incr } ∧ w.rcv.escStep = 2 ∧
      w.rcv.escId = s.epId ep ∧ w.rcv.cnt = Tab.put s.rcv.cnt 1 (satAdd 32 (Tab.atD s.rcv.cnt 1 0) 1) ∧ (2, ep) ∈ w.rcv.running := by
  obtain ⟨hframe, hbegun⟩ := (s.unask 2 ep).beginStep_count 2 (s.epId ep) ((s.ownerOf (s.build.epStn ep)).getD 0x3F)
    { kind := 6, stn := s.build.epStn ep, ep := ep - s.build.epFirst (s.build.epStn ep) } 0x2102 2
  exact State.engRuns_values hframe hbegun

theorem State.engStep_runs {s : State} {ep : Nat} {e : Ep} (he : Tab.at? s.eps ep = some e)
    (hno : (s.unask 2 ep).absorbed 2 ep ((s.ownerOf (s.build.epStn ep)).getD 0x3F) = false) :
    s.engStep ep = ((((s.engBegun ep).engineStepAt ep).invDropPort ep).epReturn ep).settleAfter := by
  have hep : Tab.has s.eps ep = true := by simp [Tab.has, he]
  unfold State.engStep
  exact if_neg (by simp [hno, hep])

/-! ### The partition step (R405) -/

/-- In a partition's step those of its contexts and ports stop (R409). -/
def State.stopInner (w : State) (pid : Nat) : State :=
  { w with rcv := { w.rcv with running := w.rcv.running.filter (fun (r : Nat × Nat) =>
    !((r.1 == 1 && w.pidOf r.2 == pid) || (r.1 == 2 && w.owns pid (w.build.epStn r.2)))) } }

theorem State.stopInner_values {s w : State} {pid : Nat}
    (hframe : w = { s.unask 3 pid with fresh := (s.unask 3 pid).fresh + 2, rcv := w.rcv, incr := w.incr })
    (hbegun : (s.unask 3 pid).rcv.Begun w.rcv 3 pid) :
    let u := w.stopInner pid
    u = { s with want := s.want.filter (· != (3, pid)), fresh := u.fresh, rcv := u.rcv, incr := u.incr } ∧ u.rcv.escStep = 3 ∧
      u.rcv.escId = pid ∧ u.rcv.cnt = Tab.put s.rcv.cnt 2 (satAdd 32 (Tab.atD s.rcv.cnt 2 0) 1) ∧ (3, pid) ∈ u.rcv.running ∧
      (∀ cid, s.pidOf cid = pid → (1, cid) ∉ u.rcv.running) ∧ ∀ ep, s.owns pid (s.build.epStn ep) = true → (2, ep) ∉ u.rcv.running := by
  have hpid (cid : Nat) : w.pidOf cid = s.pidOf cid := by rw [hframe]; rfl
  have howns (n : Nat) : w.owns pid n = s.owns pid n := by rw [hframe]; rfl
  have hbuild : w.build = s.build := by rw [hframe]; rfl
  refine ⟨?_, hbegun.escStep, hbegun.escId, hbegun.cnt, ?_, fun cid h => ?_, fun ep h => ?_⟩
  · rw [show w.stopInner pid = { w with rcv := (w.stopInner pid).rcv } from rfl, hframe]
    rfl
  · exact List.mem_filter.2 ⟨by rw [hbegun.running]; simp, rfl⟩
  · exact fun hmem => by simpa [hpid, h] using (List.mem_filter.1 hmem).2
  · exact fun hmem => by simpa [howns, hbuild, h] using (List.mem_filter.1 hmem).2

/-- The stations of the partition whose step runs raise their sources. -/
def State.partTold (w : State) (pid : Nat) : State := (w.stnsOf pid).foldl (fun s n => s.raise (64 + n) 8) w

/-- The driver is told, and the dump of the partition begins. -/
def State.partDumped (a : State) (pid serial : Nat) : State :=
  (a.notifyPart pid 1).dump 3 ([1, 2] ++ (a.stnsOf pid).flatMap stnUnits) (some pid) serial

/-- What the partition's queues and commands hold ends (R405 step 3). -/
def State.partEnds (b : State) (pid : Nat) : State :=
  let c := (b.partStop pid).wrapCmds (b.cmdsPart pid)
  c.endReqs (fun r => r.stn.isNone && c.reqPart pid r)

/-- What a partition step that has begun goes on with (R405). -/
def State.partGoes (w : State) (pid : Nat) : State :=
  let d := (((w.stopInner pid).partTold pid).partDumped pid w.rcv.serial).partEnds pid
  (if 3 ≤ d.stepsNow 3 none then d.ask 4 33 else d).partDrained pid

theorem State.partStep_goes {s : State} {pid : Nat} (hpart : Tab.has s.parts pid = true) (hno : (s.unask 3 pid).absorbed 3 pid pid = false) :
    ∃ x : State, x = { s.unask 3 pid with fresh := (s.unask 3 pid).fresh + 2, rcv := x.rcv, incr := x.incr } ∧
      (s.unask 3 pid).rcv.Begun x.rcv 3 pid ∧ exec (.partitionStep pid) s = .next (x.partGoes pid) := by
  have hgoes : s.partStep pid = (((s.unask 3 pid).beginStep 3 pid pid { kind := 6 }).count 0x2102 3).partGoes pid := by
    unfold State.partStep
    exact if_neg (by simp [hno, hpart])
  obtain ⟨hframe, hbegun⟩ := (s.unask 3 pid).beginStep_count 3 pid pid { kind := 6 } 0x2102 3
  exact ⟨_, hframe, hbegun, congrArg Host.Outcome.next hgoes⟩

theorem State.partTold_portsMoved (w : State) (pid : Nat) : w.portsMoved (w.partTold pid) :=
  foldl_portsMoved (fun v n => v.raise_portsMoved (64 + n) 8) _ _

theorem State.stnsOf_congr {s t : State} (h : t.parts = s.parts) (pid : Nat) : t.stnsOf pid = s.stnsOf pid := by
  unfold State.stnsOf
  rw [h]

/-- The partition's step stops it and nothing else (R405 step 1). -/
theorem State.partStop_becomes {s b : State} {pid : Nat} {p : Part} (hb : b.parts = s.parts) (hp : Tab.at? s.parts pid = some p) :
    Tab.becomes s.parts (b.partStop pid).parts pid { p with st := 1, wrapped := true } := by
  unfold State.partStop
  rw [State.stepResets_frame]
  rw [← hb] at hp ⊢
  exact Tab.becomes_upd (fun p : Part => { p with st := 1, wrapped := true }) hp

/-! ### Steps that do not run (R409) -/

theorem State.absorbed_of_not_up {s : State} (hup : s.up = false) (step id pid : Nat) : s.absorbed step id pid = true := by
  simp [State.absorbed, hup]

theorem State.ctxStep_absorbed {s : State} {cid : Nat} (h : (s.unask 1 cid).absorbed 1 cid (s.pidOf cid) = true) : s.ctxStep cid = s.unask 1 cid := by
  unfold State.ctxStep
  exact if_pos (by simp [h])

theorem State.engStep_absorbed {s : State} {ep : Nat} (h : (s.unask 2 ep).absorbed 2 ep ((s.ownerOf (s.build.epStn ep)).getD 0x3F) = true) :
    s.engStep ep = s.unask 2 ep := by
  unfold State.engStep
  exact if_pos (by simp [h])

theorem State.partStep_absorbed {s : State} {pid : Nat} (h : (s.unask 3 pid).absorbed 3 pid pid = true) : s.partStep pid = s.unask 3 pid := by
  unfold State.partStep
  exact if_pos (by simp [h])

/-- Settles O42: a step that runs by what it begins and what it ends, one that may not by what it leaves, and a bound by the next step. -/
theorem stepsOfTheLadderRun : Obligations.StepsOfTheLadderRun := by
  refine ⟨fun s cid hctx hup hno => ?context, fun s ep e he hno => ?engine, fun s pid p hp hno => ?partition, fun s step id hup => ?idle,
    fun s id hrun hlate => ?contextBound, fun s id hrun => congrArg _ (if_pos hrun), fun s id hrun => congrArg _ (if_pos hrun)⟩
  case context =>
    have hexec : exec (.contextStep cid) s = .next (s.ctxStep cid) := rfl
    rw [State.ctxStep_runs hctx hup hno] at hexec
    obtain ⟨hframe, hbegun⟩ := s.ctxBegun_values cid
    generalize s.ctxBegun cid = w at hframe hbegun hexec
    have hat (i : Nat) := State.stepResets_queues (Tab.keys w.queues (fun _ q => q.cid == cid)) w i
    rw [show w.queues = s.queues by rw [hframe]] at hat
    have hreset (i : Nat) (x : Queue) (hx : Tab.at? s.queues i = some x) (hcid : x.cid = cid) :
        Tab.at? (w.ctxQueuesReset cid).queues i = some x.stepped := by
      have hmem : i ∈ Tab.keys s.queues (fun _ q => q.cid == cid) := Tab.mem_keys.2 ⟨x, Tab.mem_of_at? hx, by simp [hcid]⟩
      unfold State.ctxQueuesReset
      rw [show w.queues = s.queues by rw [hframe], hat, if_pos hmem, hx]
      rfl
    refine ⟨w, w.ctxQueuesReset cid, (w.ctxQueuesReset cid).ctxEnds cid (Tab.keys w.queues (fun _ q => q.cid == cid)), hframe, hbegun.escStep,
      hbegun.escId, ?_, ?_, State.stepResets_frame _ w, fun i x hx hcid hst => ⟨_, hreset i x hx hcid, ?_⟩,
      fun i x hx hcid hst => ⟨_, hreset i x hx hcid, ?_⟩, fun i x hx hcid hall => ?_, rfl, hexec⟩
    · rw [hbegun.cnt, Tab.atD_put_self]
    · rw [hbegun.running]
      simp
    · rw [Queue.stepped_resets hst]
      exact ⟨rfl, rfl, rfl, rfl⟩
    · rw [Queue.stepped_draining hst]
      exact ⟨hst, rfl, rfl, rfl⟩
    · have hmem : i ∉ Tab.keys s.queues (fun _ q => q.cid == cid) := by
        rintro h
        obtain ⟨y, hy, hycid⟩ := Tab.mem_keys.1 h
        exact hall i y hy rfl (by simpa using hycid)
      unfold State.ctxQueuesReset
      rw [show w.queues = s.queues by rw [hframe], hat, if_neg hmem, hx]
  case engine =>
    have hexec : exec (.engineStep ep) s = .next (s.engStep ep) := rfl
    rw [State.engStep_runs he hno] at hexec
    obtain ⟨hframe, hstep, hid, hcnt, hrun⟩ := s.engBegun_values ep
    generalize s.engBegun ep = w at hframe hstep hid hcnt hrun hexec
    refine ⟨w, hframe, hstep, by rw [hcnt, Tab.atD_put_self], hrun, hid, State.engineStepAt_eps ?_, hexec⟩
    rw [hframe]
    exact he
  case partition =>
    obtain ⟨x, hbegan, hbegun, hexec⟩ := State.partStep_goes (by simp [Tab.has, hp]) hno
    obtain ⟨hframe, hstep, hid, hcnt, hrun, hctx, hep⟩ := State.stopInner_values hbegan hbegun
    unfold State.partGoes at hexec
    rw [show x.rcv.serial = (x.stopInner pid).rcv.serial from rfl] at hexec
    generalize x.stopInner pid = w at hframe hstep hid hcnt hrun hctx hep hexec
    have hw : w.parts = s.parts := by rw [hframe]
    have ha : (w.partTold pid).parts = s.parts := (w.partTold_portsMoved pid).parts.trans hw
    have hb : ((w.partTold pid).partDumped pid w.rcv.serial).parts = s.parts :=
      (((w.partTold pid).notifyPart_portsMoved pid 1).trans (State.dump_portsMoved _ _ _ _ _)).parts.trans ha
    refine ⟨w, w.partTold pid, (w.partTold pid).partDumped pid w.rcv.serial, _, _, hframe, hstep, hid, by rw [hcnt, Tab.atD_put_self], hrun, hctx,
      hep, ?_, ?_, rfl, State.partStop_becomes hb hp, rfl, hexec⟩
    · unfold State.partTold
      rw [State.stnsOf_congr hw]
    · unfold State.partDumped
      rw [State.stnsOf_congr ha]
  case idle =>
    have hctx : exec (.contextStep id) s = .next (s.unask 1 id) :=
      congrArg Host.Outcome.next (State.ctxStep_absorbed (State.absorbed_of_not_up (by exact hup) _ _ _))
    have heng : exec (.engineStep id) s = .next (s.unask 2 id) :=
      congrArg Host.Outcome.next (State.engStep_absorbed (State.absorbed_of_not_up (by exact hup) _ _ _))
    have hpart : exec (.partitionStep id) s = .next (s.unask 3 id) :=
      congrArg Host.Outcome.next (State.partStep_absorbed (State.absorbed_of_not_up (by exact hup) _ _ _))
    split
    · exact ⟨_, hctx, rfl⟩
    · split
      · exact ⟨_, heng, rfl⟩
      · exact ⟨_, hpart, rfl⟩
  case contextBound => exact congrArg Host.Outcome.next (if_pos (by rw [hrun, hlate]; rfl))

end Sys2Proof.Machine

end

section

/-! Courier links: training and sparing (R373, R375, R378 to R382, R410). -/

namespace Sys2Proof.Machine

/-! ### Bits of lane masks (R382) -/

theorem dvd_packF_ones {l : List Nat} {m : Nat} (h : ∀ i ∈ l, m ≤ i) : 2 ^ m ∣ packF (l.map (fun i => (i, 1, 1))) := by
  induction l with
  | nil => exact dvd_zero _
  | cons a l ih =>
    have ha : 2 ^ m ∣ 1 % 2 ^ 1 * 2 ^ a := Dvd.dvd.mul_left (pow_dvd_pow 2 (h a (by simp))) _
    exact dvd_add ha (ih fun i hi => h i (by simp [hi]))

/-- A mask of single bits in rising order has the bits of its list. -/
theorem testBit_packF_ones {l : List Nat} (h : l.Pairwise (· < ·)) (k : Nat) : (packF (l.map (fun i => (i, 1, 1)))).testBit k = decide (k ∈ l) := by
  induction l with
  | nil => simp [packF]
  | cons a l ih =>
    obtain ⟨hlt, hl⟩ := List.pairwise_cons.1 h
    obtain ⟨c, hc⟩ : 2 ^ (a + 1) ∣ packF (l.map (fun i => (i, 1, 1))) := dvd_packF_ones fun i hi => hlt i hi
    have hor : packF ((a :: l).map (fun i => (i, 1, 1))) = packF (l.map (fun i => (i, 1, 1))) ||| 2 ^ a := by
      have hpow : 2 ^ a < 2 ^ (a + 1) := Nat.pow_lt_pow_right (by decide) (by omega)
      rw [hc, ← Nat.two_pow_add_eq_or_of_lt hpow, ← hc]
      simp [packF, Nat.add_comm]
    rw [hor, Nat.testBit_or, ih hl, Nat.testBit_two_pow]
    by_cases hk : k = a
    · simp [hk]
    · simp [hk, Ne.symm hk]

/-- A lane that a direction does not use is not LANE_OK. -/
theorem Link.laneOk_unused {l : Link} {toHub : Bool} {i : Nat} (h : l.laneUsed toHub i = false) : l.laneOk.testBit i = false := by
  unfold Link.laneOk
  rw [testBit_packF_ones (List.pairwise_lt_range.filter _)]
  cases toHub <;> simp [h]

theorem testBit_clearBit_self (x i : Nat) : (clearBit x i).testBit i = false := by
  unfold clearBit bit
  split
  case isTrue h =>
    have hdiv : (x - 2 ^ i) / 2 ^ i = x / 2 ^ i - 1 := by simpa using Nat.sub_mul_div x (2 ^ i) 1
    rw [Nat.testBit_eq_decide_div_mod_eq, decide_eq_true_eq] at h
    rw [Nat.testBit_eq_decide_div_mod_eq, hdiv]
    simp
    omega
  case isFalse h => simpa using h

theorem testBit_setBit_self (x i : Nat) : (setBit x i).testBit i = true := by
  simp [setBit]

theorem State.link_congr {s t : State} (h : t.links = s.links) (n : Nat) : t.link n = s.link n := by
  unfold State.link
  rw [h]

/-! ### Training (R375, R378) -/

theorem exec_linkTrainDone {s : State} {n : Nat} (tx rx : Nat) (slow : Bool) (hb : s.built n = true) :
    exec (.linkTrainDone n ⟨tx, rx⟩ slow) s = .next ((s.trainDone n tx rx slow).linkSettle n) := congrArg Host.Outcome.next (if_pos hb)

theorem exec_linkTrainTimeout {s : State} {n : Nat} (hb : s.built n = true) :
    exec (.linkTrainTimeout n) s = .next ((s.trainTimeout n).linkSettle n) := congrArg Host.Outcome.next (if_pos hb)

/-- What a finished training state of a remote link leads to. -/
def State.remoteDone (s : State) (n tx rx : Nat) : State :=
  match (s.link n).st with
  | 1 => if 8 ≤ (lanesIn tx 0).length ∧ 8 ≤ (lanesIn rx 0).length then s.updLink n (fun l => { l with st := 2 }) else s
  | 2 => s.updLink n (fun l => { l with st := 3 })
  | 3 => s.linkAlign n tx rx
  | 4 => s.linkActive n
  | 6 => s.linkAlign n tx rx
  | _ => s

theorem State.trainDone_remote {s : State} {n : Nat} (tx rx : Nat) (slow : Bool) (hr : s.build.remote n = true) :
    s.trainDone n tx rx slow = s.remoteDone n tx rx := by
  unfold State.trainDone
  exact if_pos hr

theorem State.remoteDone_detect {s : State} {n tx rx : Nat} (hst : (s.link n).st = 1) (htx : 8 ≤ (lanesIn tx 0).length)
    (hrx : 8 ≤ (lanesIn rx 0).length) : s.remoteDone n tx rx = s.updLink n (fun l => { l with st := 2 }) := by
  unfold State.remoteDone
  rw [hst]
  exact if_pos ⟨htx, hrx⟩

theorem State.remoteDone_eq {s : State} {n : Nat} (tx rx : Nat) (hst : (s.link n).st = 2) :
    s.remoteDone n tx rx = s.updLink n (fun l => { l with st := 3 }) := by
  unfold State.remoteDone
  rw [hst]
  rfl

theorem State.remoteDone_align {s : State} {n : Nat} (tx rx : Nat) (hst : (s.link n).st = 3 ∨ (s.link n).st = 6) :
    s.remoteDone n tx rx = s.linkAlign n tx rx := by
  unfold State.remoteDone
  rcases hst with hst | hst
  · rw [hst]
    rfl
  · rw [hst]
    rfl

theorem State.remoteDone_init {s : State} {n : Nat} (tx rx : Nat) (hst : (s.link n).st = 4) : s.remoteDone n tx rx = s.linkActive n := by
  unfold State.remoteDone
  rw [hst]
  rfl

/-- With fewer than 4 good lanes in a direction ALIGN fails (R378). -/
theorem State.linkAlign_few {s : State} {n tx rx : Nat}
    (h : (lanesIn tx (s.link n).txOff).length < 4 ∨ (lanesIn rx (s.link n).rxOff).length < 4) : s.linkAlign n tx rx = s.linkDown n := by
  unfold State.linkAlign
  exact if_pos (h.imp (fun h => if_pos h) (fun h => if_pos h))

theorem lanesFor_ne_zero {was good : Nat} (h : 4 ≤ good) (hwas : was ≠ 0) : lanesFor was good ≠ 0 := by
  unfold lanesFor
  rw [if_neg (by omega)]
  split
  · decide
  · exact hwas

theorem lanesFor_enough {was good : Nat} (h : 4 ≤ good) : lanesFor was good = if good < 8 then 4 else was := if_neg (by omega)

/-- Otherwise the directions take their lanes, and the INIT exchange begins (R378, R381). -/
theorem State.linkAlign_enough {s : State} {n tx rx : Nat} (ht : 4 ≤ (lanesIn tx (s.link n).txOff).length)
    (hr : 4 ≤ (lanesIn rx (s.link n).rxOff).length) (htx : (s.link n).txLanes ≠ 0) (hrx : (s.link n).rxLanes ≠ 0) :
    ∃ f : Link → Link, s.linkAlign n tx rx = (s.updLink n f).enterInit n ∧
      (f (s.link n)).txLanes = lanesFor (s.link n).txLanes (lanesIn tx (s.link n).txOff).length ∧
      (f (s.link n)).rxLanes = lanesFor (s.link n).rxLanes (lanesIn rx (s.link n).rxOff).length := by
  unfold State.linkAlign
  extract_lets l gt gr a b
  rw [if_neg (not_or.2 ⟨lanesFor_ne_zero ht htx, lanesFor_ne_zero hr hrx⟩)]
  exact ⟨_, rfl, rfl, rfl⟩

/-- Both ends of a link that enters INIT send an INIT flit (R373). -/
theorem State.enterInit_out (s : State) (n : Nat) :
    (s.enterInit n).out = s.out ++
      [.flit n false (((s.enterInit n).link n).hub.flit 3 0 ((List.range 240).map (Config.initByte n false)) 0),
        .flit n true (((s.enterInit n).link n).stn.flit 3 0 ((List.range 240).map (Config.initByte n true)) 0)] := by
  have h : (s.enterInit n).out = s.out ++ [false, true].map (fun stn =>
      .flit n stn ((((s.enterInit n).link n).side stn).flit 3 0 ((List.range 240).map (Config.initByte n stn)) 0)) := rfl
  rw [h, List.map_cons, List.map_cons, List.map_nil, show ∀ l : Link, l.side false = l.hub from fun _ => rfl,
    show ∀ l : Link, l.side true = l.stn from fun _ => rfl]

/-- A link whose INIT exchange is over carries traffic (R373). -/
theorem State.linkActive_agreed {s : State} {n : Nat} (h : (s.link n).agreed = true) (hagain : (s.link n).again = false) :
    s.linkActive n = (((s.updLink n (fun l => { l with st := 5, again := false })).send n false).send n true).settleReturn n := by
  unfold State.linkActive
  simp only [h, hagain, Bool.not_true, Bool.false_eq_true, if_false]

theorem State.linkActive_waits {s : State} {n : Nat} (h : (s.link n).agreed = false) : s.linkActive n = s := by
  unfold State.linkActive
  exact if_pos (by simp [h])

/-- A link that retrains (R378). -/
def Link.retrained (l : Link) : Link :=
  { l with
    st := 6, retrains := satAdd 16 l.retrains 1, again := true, tx := none, rx := none
    hub := { l.hub with init := false, resent := 0 }, stn := { l.stn with init := false, resent := 0 } }

theorem State.retrain_remote {s : State} {n : Nat} (hr : s.build.remote n = true) (hst : (s.link n).st = 5) :
    ∃ i, s.retrain n = { s.updLink n Link.retrained with incr := i } := by
  obtain ⟨i, hi⟩ := (s.updLink n Link.retrained).count_frame 0x2104 2
  refine ⟨i, Eq.trans ?_ hi⟩
  unfold State.retrain
  rw [if_pos hst]
  exact if_pos hr

/-- A retry that is not the third of a second begins in DETECT, and the third takes the link down (R378). -/
theorem State.trainFailed_first {s : State} {n next : Nat} (h : (s.link n).again = false) :
    s.trainFailed n next = s.updLink n (fun l => { l with st := next }) := by
  unfold State.trainFailed
  exact if_pos (by simp [h])

/-- What a retraining attempt that failed leaves of its link (R378). -/
def Link.attemptFailed (l : Link) (f : List Nat) : Link := if 3 ≤ f.length then { l with failed := [] } else { l with st := 1, failed := f }

theorem State.trainFailed_again {s : State} {n : Nat} (h : (s.link n).again = true) :
    let f := (s.link n).failed.filter (· == s.mgt.uptime) ++ [s.mgt.uptime]
    s.trainFailed n 1 = if 3 ≤ f.length then (s.updLink n (fun l => l.attemptFailed f)).linkDown n else s.updLink n (fun l => l.attemptFailed f) := by
  unfold State.trainFailed Link.attemptFailed
  dsimp only
  rw [if_neg (by simp [h])]
  split
  · rfl
  · rfl

theorem State.trainTimeout_eqAlign {s : State} {n : Nat} (h : (s.link n).st = 2 ∨ (s.link n).st = 3) : s.trainTimeout n = s.trainFailed n 1 := by
  unfold State.trainTimeout
  rcases h with h | h
  · rw [h]; rfl
  · rw [h]; rfl

/-! ### CX_CTL (R381, R382) -/

theorem State.cxDisable_enabled {s : State} {n : Nat} (hb : s.built n = true) (hd : (s.link n).disable = false) :
    s.cxDisable n = (s.updLink n (fun l => { l with
      disable := true, st := 0, again := false, tx := none, rx := none, txGood := 0, rxGood := 0 })).fenceStn n 5 true [] := by
  unfold State.cxDisable
  exact if_neg (by simp [hb, hd])

theorem State.cxEnable_disabled {s : State} {n : Nat} (hb : s.built n = true) (hd : (s.link n).disable = true) :
    s.cxEnable n = (s.updLink n (fun l => { l with disable := false })).trainLink n := by
  unfold State.cxEnable
  exact if_pos (by simp [hb, hd])

theorem State.cxRestart_on {s : State} {n : Nat} (hb : s.built n = true) (hst : (s.link n).st ≠ 0) : s.cxRestart n = s.restartLink n := by
  unfold State.cxRestart
  exact if_pos (by simp [hb, hst])

/-- A link that trains keeps its counts, its lanes and what is set of it (R381). -/
theorem State.trainLink_keeps (s : State) (n : Nat) :
    let l := (s.trainLink n).link n
    l.disable = (s.link n).disable ∧ l.downs = (s.link n).downs ∧ l.txLanes = (s.link n).txLanes ∧ l.rxLanes = (s.link n).rxLanes ∧
      l.degraded = (s.link n).degraded ∧ l.txSpared = (s.link n).txSpared ∧ l.rxSpared = (s.link n).rxSpared := by
  obtain ⟨-, hun, -⟩ := s.trainBegun_values n
  rw [State.trainLink_eq]
  split
  · dsimp only
    rw [hun]
    exact ⟨rfl, rfl, rfl, rfl, rfl, rfl, rfl⟩
  · obtain ⟨-, hin, -⟩ := (s.trainBegun n).enterInit_values n
    dsimp only
    rw [hin, hun]
    exact ⟨rfl, rfl, rfl, rfl, rfl, rfl, rfl⟩

/-! ### Sparing (R379, R380) -/

@[simp] theorem Link.spare_setSpare (l : Link) (toHub : Bool) (x : Option Spare) : (l.setSpare toHub x).spare toHub = x := by cases toHub <;> rfl

@[simp] theorem Link.spared_setSpare (l : Link) (toHub d : Bool) (x : Option Spare) : (l.setSpare toHub x).spared d = l.spared d := by
  cases toHub <;> rfl

@[simp] theorem Link.setSpare_st (l : Link) (toHub : Bool) (x : Option Spare) : (l.setSpare toHub x).st = l.st := by cases toHub <;> rfl

/-- A link of which a logical lane moved to the spare (R380 steps 4 to 6). -/
def Link.switched (l : Link) (toHub : Bool) (lane : Nat) : Link :=
  { (l.setSpare toHub none) with
    spareRdy := false
    txSpared := if toHub then l.txSpared else lane
    rxSpared := if toHub then lane else l.rxSpared
    txOff := if toHub then l.txOff else setBit l.txOff lane
    rxOff := if toHub then setBit l.rxOff lane else l.rxOff }

/-- A logical lane that the spare carries is not used on a direction of 8 lanes (R381). -/
theorem Link.switched_unused (l : Link) (toHub : Bool) {lane : Nat} (hlane : lane < 8) (h4 : (if toHub = true then l.rxLanes else l.txLanes) ≠ 4) :
    (l.switched toHub lane).laneUsed toHub lane = false := by
  have hlanes : (l.switched toHub lane).lanes toHub = (List.range 8).map (fun j => if j = lane then 8 else j) := by
    cases toHub
    · exact if_neg h4
    · exact if_neg h4
  have hnot : ((List.range 8).map (fun j => if j = lane then 8 else j)).contains lane = false := by
    have hne : ∀ j : Nat, ¬((if j = lane then 8 else j) = lane) := fun j => by split <;> omega
    simpa using fun j _ => hne j
  have h8 : (lane == 8) = false := by simpa using Nat.ne_of_lt hlane
  unfold Link.laneUsed
  rw [hlanes, hnot, h8, Bool.false_and, Bool.false_and, Bool.false_or, Bool.and_false]

theorem State.startSpare_starts {s : State} {n lane : Nat} {toHub : Bool} (hr : s.build.remote n = true) (hst : (s.link n).st = 5)
    (hspared : (s.link n).spared toHub = 15) (hspare : (s.link n).spare toHub = none) (hlane : lane < 8) :
    s.startSpare n toHub lane = (s.updLink n (fun l => l.setSpare toHub (some { lane := lane }))).sendMsg n (!toHub) := by
  unfold State.startSpare
  exact if_pos (by simp [hr, hst, hspared, hspare, hlane])

theorem State.switchLane_ordered {s : State} {n k : Nat} {toHub : Bool} {p : Spare} (hp : (s.link n).spare toHub = some p) (hat : p.at_ = some k) :
    ∃ i e, s.switchLane n toHub = { s.updLink n (fun l => l.switched toHub p.lane) with incr := i, evc := e } := by
  obtain ⟨i, hi⟩ := (s.updLink n (fun l => l.switched toHub p.lane)).count_frame 0x2104 3
  obtain ⟨e, he⟩ := State.raise_frame { s.updLink n (fun l => l.switched toHub p.lane) with incr := i } (112 + n) 2
  refine ⟨i, e, Eq.trans ?_ he⟩
  rw [← hi]
  unfold State.switchLane
  rw [hp]
  exact if_neg (by simp [hat])

/-- A link after a window of one of its lanes (R379, R382). -/
def Link.windowed (l : Link) (toHub : Bool) (lane corrected unc now : Nat) : Link :=
  { l with
    fecCorr := if toHub then satAdd 64 l.fecCorr corrected else l.fecCorr
    fecNear := if toHub then satAdd 16 l.fecNear unc else l.fecNear
    fecFar := if toHub then l.fecFar else satAdd 16 l.fecFar unc
    lerr := if toHub then Tab.put l.lerr lane (min corrected (2 ^ 24 - 1)) else l.lerr
    unc := l.unc.filter (fun (u : Nat × Nat × Nat × Nat) => u.2.2.2 == now) ++ [(b2n toHub, lane, unc, now)] }

/-- A window within its limits is counted and starts no sparing (R379). -/
theorem State.window_within {s : State} {n lane corrected unc : Nat} (toHub : Bool) (hb : s.built n = true) (hr : s.build.remote n = true)
    (hlane : lane < 9) (hcorr : corrected ≤ (s.link n).thr) (hnone : (s.link n).unc = []) (hunc : unc < 16) :
    ∃ i, s.window n toHub lane corrected unc =
      { s.updLink n (fun l => l.windowed toHub lane corrected unc s.mgt.uptime) with incr := i } := by
  obtain ⟨i, hi⟩ := s.countBy_frame 0x2104 5 unc
  refine ⟨i, ?_⟩
  unfold State.window
  rw [if_neg (by simp [hb, hr]; omega), hi]
  extract_lets d v w l sum
  have hl : l = (s.link n).windowed toHub lane corrected unc s.mgt.uptime := State.link_updLink_self { s with incr := i } n _
  have hsum : sum = unc := by
    have hlunc : l.unc = [(d, lane, unc, s.mgt.uptime)] := by
      rw [hl]
      unfold Link.windowed
      rw [hnone]
      rfl
    have h : sum = ((l.unc.filter (fun (u : Nat × Nat × Nat × Nat) => u.1 == d && u.2.1 == lane)).map (·.2.2.1)).foldl (· + ·) 0 := rfl
    rw [h, hlunc]
    simp
  have hthr : l.thr = (s.link n).thr := by rw [hl]; rfl
  exact if_neg (by rw [hthr, hsum]; omega)

theorem Link.switched_values (l : Link) (toHub : Bool) (lane : Nat) :
    (l.switched toHub lane).spared toHub = lane ∧ (l.switched toHub lane).spare toHub = none ∧
      (if toHub = true then (l.switched toHub lane).rxOff else (l.switched toHub lane).txOff).testBit lane = true ∧
      (l.switched toHub lane).spared (!toHub) = l.spared (!toHub) ∧ (l.switched toHub lane).st = l.st := by
  cases toHub
  · exact ⟨rfl, rfl, testBit_setBit_self _ _, rfl, rfl⟩
  · exact ⟨rfl, rfl, testBit_setBit_self _ _, rfl, rfl⟩

/-- A link whose lane was found lost in a direction (R381). -/
def Link.withoutLane (l : Link) (toHub : Bool) (phys : Nat) : Link :=
  { l with
    txGood := if toHub then l.txGood else clearBit l.txGood phys
    rxGood := if toHub then clearBit l.rxGood phys else l.rxGood }

theorem Link.withoutLane_unused (l : Link) (toHub : Bool) (phys : Nat) : (l.withoutLane toHub phys).retrained.laneUsed toHub phys = false := by
  have hgood (x : Nat) : bit (clearBit x phys) phys = false := testBit_clearBit_self x phys
  cases toHub
  · exact (congrArg (· && _) (hgood l.txGood)).trans (Bool.false_and _)
  · exact (congrArg (· && _) (hgood l.rxGood)).trans (Bool.false_and _)

/-- A lost lane is no longer good, and its link retrains (R381). -/
theorem State.laneLost_retrains {s : State} {n phys : Nat} (toHub : Bool) (hb : s.built n = true) (hr : s.build.remote n = true) (hphys : phys < 9)
    (hst : (s.link n).st = 5) :
    ∃ i, s.laneLost n toHub phys = { (s.updLink n (fun l => l.withoutLane toHub phys)).updLink n Link.retrained with incr := i } := by
  obtain ⟨i, h⟩ := State.retrain_remote (s := s.updLink n (fun l => l.withoutLane toHub phys)) (n := n) hr
    (by rw [State.link_updLink_self]; exact hst)
  refine ⟨i, Eq.trans ?_ h⟩
  unfold State.laneLost
  exact if_pos (by simp [hb, hr, hphys])

/-- Settles O40: training by the state of the link, CX_CTL by its bits, and sparing by its steps. -/
theorem linksTrainAndSpareLanes : Obligations.LinksTrainAndSpareLanes := by
  refine ⟨⟨fun s n tx rx slow hb hr => ⟨s.remoteDone n tx rx, by rw [exec_linkTrainDone tx rx slow hb, State.trainDone_remote tx rx slow hr],
        fun hst htx hrx => ?detect, fun hst => ?eq, fun hst ht hr htx hrx => ?align, fun hst hfew => ?few, fun hst hno => ?waits,
        fun hst hagree hagain => ?active⟩,
      fun s n tx rx slow hb hr hst hagree hagain => ?localActive, fun s n hb hagain hst => ?first, fun s n hb hr hst => ?retrain,
      fun s n hb hagain hst => ?again, fun s hs hb hd => ?disable, fun s hs hb hd => ?enable, fun s hs hb hst hd => ?restart,
      fun s n phys toHub hb hr hphys hst => ?lost⟩,
    ⟨fun s n lane toHub hb hr hst hspared hspare hlane => ?request, fun s v hs hb hr hst hspared hspare => ?go,
      fun s n lane corrected unc toHub hb hr hlane hcorr hnone hunc => ?window, fun s n now toHub p hp => ?locked,
      fun s n lane count now toHub p hp hlane hlocked hd hd' => ?order, fun s n k toHub p hp hat => ?switch,
      fun s n toHub p hr hp hlocked hst => ?unlocked, fun s n toHub hb hrdy hspared => ?background⟩⟩
  case detect =>
    rw [State.remoteDone_detect hst htx hrx]
    exact ⟨rfl, s.updLink_becomes n _⟩
  case eq =>
    rw [State.remoteDone_eq tx rx hst]
    exact ⟨rfl, s.updLink_becomes n _⟩
  case align =>
    obtain ⟨f, hf, hftx, hfrx⟩ := State.linkAlign_enough ht hr htx hrx
    rw [lanesFor_enough ht] at hftx
    rw [lanesFor_enough hr] at hfrx
    obtain ⟨-, hin, -⟩ := (s.updLink n f).enterInit_values n
    rw [State.link_updLink_self] at hin
    rw [State.remoteDone_align tx rx hst, hf]
    refine ⟨rfl, ?_⟩
    rw [State.enterInit_out, hin]
    exact ⟨rfl, hftx, hfrx, rfl, rfl, rfl⟩
  case few => exact (State.remoteDone_align tx rx hst).trans (State.linkAlign_few hfew)
  case waits => exact (State.remoteDone_init tx rx hst).trans (State.linkActive_waits hno)
  case active =>
    exact ⟨s.updLink n (fun l => { l with st := 5, again := false }), (State.remoteDone_init tx rx hst).trans (State.linkActive_agreed hagree hagain),
      rfl, s.updLink_becomes n _⟩
  case localActive =>
    have hdone : s.trainDone n tx rx slow = (s.updLink n (fun l => { l with degraded := slow || decide (tx < 64 ∨ rx < 64) })).linkActive n := by
      unfold State.trainDone
      dsimp only
      rw [if_neg (by simp [hr]), hst, if_pos (.inl rfl)]
      rfl
    rw [State.linkActive_agreed (by rw [State.link_updLink_self]; exact hagree) (by rw [State.link_updLink_self]; exact hagain)] at hdone
    refine ⟨_, (exec_linkTrainDone tx rx slow hb).trans (by rw [hdone]), rfl, ?_⟩
    have h := State.updLink_becomes (s.updLink n (fun l => { l with degraded := slow || decide (tx < 64 ∨ rx < 64) })) n
      (fun l => { l with st := 5, again := false })
    rw [State.link_updLink_self] at h
    exact Tab.becomes_trans (s.updLink_becomes n _) h
  case first =>
    refine ⟨s.updLink n (fun l => { l with st := 1 }), ?_, rfl, s.updLink_becomes n _⟩
    rw [exec_linkTrainTimeout hb, State.trainTimeout_eqAlign hst, State.trainFailed_first hagain]
  case retrain =>
    refine ⟨s.updLink n (fun l => { l with st := 2 }), ?_, rfl, s.updLink_becomes n _⟩
    have h : s.trainTimeout n = s.updLink n (fun l => { l with st := 2 }) := by
      unfold State.trainTimeout
      rw [hst]
      exact if_pos hr
    rw [exec_linkTrainTimeout hb, h]
  case again =>
    refine ⟨s.updLink n (fun l => l.attemptFailed ((s.link n).failed.filter (· == s.mgt.uptime) ++ [s.mgt.uptime])), ?_, rfl, s.updLink_becomes n _⟩
    rw [exec_linkTrainTimeout hb, State.trainTimeout_eqAlign hst, State.trainFailed_again hagain]
  case disable =>
    exact ⟨_, congrArg Host.Outcome.next ((State.mmio_reaches _ hs).trans (State.cxDisable_enabled hb hd)), rfl, s.updLink_becomes _ _⟩
  case enable =>
    have hexec : exec .cxDisableClear s = .next (s.cxEnable s.cxSel) := congrArg Host.Outcome.next (State.mmio_reaches _ hs)
    rw [State.cxEnable_disabled hb hd] at hexec
    obtain ⟨u, hu⟩ : ∃ u, u = s.updLink s.cxSel (fun l => { l with disable := false }) := ⟨_, rfl⟩
    have hlink : u.link s.cxSel = { s.link s.cxSel with disable := false } := by rw [hu, State.link_updLink_self]
    rw [← hu] at hexec
    obtain ⟨hframe, hst, hm⟩ := u.trainLink_values s.cxSel
    obtain ⟨hdis, -⟩ := u.trainLink_keeps s.cxSel
    refine ⟨_, hexec, ?_, ?_, ?_, fun m h => ?_⟩
    · rw [hframe, hu]
      rfl
    · rw [hdis, hlink]
    · rw [hst, State.trainsFrom, hlink, hu]
      rfl
    · rw [hm m h, hu, State.link_updLink_ne _ _ h]
  case restart =>
    have hexec : exec .cxRestart s = .next (s.cxRestart s.cxSel) := congrArg Host.Outcome.next (State.mmio_reaches _ hs)
    rw [State.cxRestart_on hb hst] at hexec
    obtain ⟨u, hu⟩ : ∃ u, u = s.updLink s.cxSel (fun l => { l with
      txSpared := 15, rxSpared := 15, txOff := 0, rxOff := 0, txLanes := 8, rxLanes := 8, degraded := false }) := ⟨_, rfl⟩
    have hlink : u.link s.cxSel = { s.link s.cxSel with
        txSpared := 15, rxSpared := 15, txOff := 0, rxOff := 0, txLanes := 8, rxLanes := 8, degraded := false } := by
      rw [hu, State.link_updLink_self]
    unfold State.restartLink at hexec
    rw [← hu] at hexec
    obtain ⟨hframe, hst', -⟩ := u.trainLink_values s.cxSel
    obtain ⟨-, hdowns, htx, hrx, hdeg, htxs, hrxs⟩ := u.trainLink_keeps s.cxSel
    refine ⟨_, hexec, ?_, ?_, ?_, ?_, ?_, ?_, ?_, ?_⟩
    · rw [hframe, hu]
      rfl
    · rw [hst', State.trainsFrom, hlink, hu]
      exact if_neg (by simp [hd])
    · rw [hdowns, hlink]
    · rw [htx, hlink]
    · rw [hrx, hlink]
    · rw [hdeg, hlink]
    · rw [htxs, hlink]
    · rw [hrxs, hlink]
  case lost =>
    obtain ⟨i, h⟩ := State.laneLost_retrains toHub hb hr hphys hst
    have hlink : ({ (s.updLink n (fun l => l.withoutLane toHub phys)).updLink n Link.retrained with incr := i } : State).link n =
        ((s.link n).withoutLane toHub phys).retrained :=
      ((State.link_congr rfl n).trans (State.link_updLink_self _ n _)).trans (by rw [State.link_updLink_self])
    refine ⟨_, congrArg Host.Outcome.next h, rfl, ?_⟩
    rw [hlink]
    exact ⟨rfl, rfl, rfl, rfl, rfl, Link.laneOk_unused ((s.link n).withoutLane_unused toHub phys), rfl⟩
  case request =>
    refine ⟨_, congrArg Host.Outcome.next (if_pos (by simp [hb, hr, hst, hspared, hspare, hlane])), rfl, s.updLink_becomes n _⟩
  case go =>
    have hlane : bits v.toNat 2 3 < 8 := Nat.mod_lt _ (by decide)
    obtain ⟨w, hw⟩ : ∃ w, w = s.updLink s.cxSel (fun l => { l with spareLane := bits v.toNat 2 3, spareDir := bit v.toNat 5 }) := ⟨_, rfl⟩
    have hlink : w.link s.cxSel = { s.link s.cxSel with spareLane := bits v.toNat 2 3, spareDir := bit v.toNat 5 } := by
      rw [hw, State.link_updLink_self]
    have hstart : w.startSpare s.cxSel (v.toNat.testBit 5) (bits v.toNat 2 3) =
        (w.updLink s.cxSel (fun l => l.setSpare (v.toNat.testBit 5) (some { lane := bits v.toNat 2 3 }))).sendMsg s.cxSel (!v.toNat.testBit 5) :=
      State.startSpare_starts (by rw [hw]; exact hr) (by rw [hlink]; exact hst) (by rw [hlink]; exact hspared) (by rw [hlink]; exact hspare) hlane
    refine ⟨w.updLink s.cxSel (fun l => l.setSpare (v.toNat.testBit 5) (some { lane := bits v.toNat 2 3 })),
      congrArg Host.Outcome.next (((State.mmio_reaches _ hs).trans (if_pos (by rw [hb, hr]; rfl))).trans ?_), ?_, ?_, ?_, ?_⟩
    · rw [← hw]
      exact hstart
    · rw [hw]
      rfl
    · rw [State.link_updLink_self, Link.spare_setSpare]
    · rw [State.link_updLink_self, hlink]
      cases v.toNat.testBit 5 <;> rfl
    · rw [State.link_updLink_self, Link.setSpare_st, hlink]
      exact hst
  case window =>
    obtain ⟨i, hi⟩ := State.window_within toHub hb hr hlane hcorr hnone hunc
    have hlink : ({ s.updLink n (fun l => l.windowed toHub lane corrected unc s.mgt.uptime) with incr := i } : State).link n = _ :=
      (State.link_congr (s := s.updLink n (fun l => l.windowed toHub lane corrected unc s.mgt.uptime)) rfl n).trans (s.link_updLink_self n _)
    refine ⟨_, congrArg Host.Outcome.next hi, rfl, ?_⟩
    rw [hlink]
    exact ⟨rfl, rfl, rfl, rfl, rfl, rfl⟩
  case locked =>
    refine ⟨s.updLink n (fun l => l.setSpare toHub (some { p with locked := true, order := (now + 64) % 4096 })), congrArg Host.Outcome.next ?_, rfl,
      s.updLink_becomes n _⟩
    unfold State.orderSwitch
    rw [hp]
  case order =>
    refine ⟨s.updLink n (fun l => l.setSpare toHub (some { p with at_ := some count })), congrArg Host.Outcome.next ?_, rfl, s.updLink_becomes n _⟩
    unfold State.takeOrder
    rw [hp]
    dsimp only
    rw [if_neg (by simp [hlane, hlocked]), if_neg (by omega)]
  case switch =>
    obtain ⟨i, e, h⟩ := State.switchLane_ordered hp hat
    have hlink : ({ s.updLink n (fun l => l.switched toHub p.lane) with incr := i, evc := e } : State).link n = (s.link n).switched toHub p.lane :=
      (State.link_congr (s := s.updLink n (fun l => l.switched toHub p.lane)) rfl n).trans (s.link_updLink_self n _)
    refine ⟨_, congrArg Host.Outcome.next h, rfl, ?_⟩
    rw [hlink]
    obtain ⟨hspared, hspare, hoff, hother, hst⟩ := (s.link n).switched_values toHub p.lane
    exact ⟨hspared, hspare, rfl, fun hlane h4 => Link.laneOk_unused ((s.link n).switched_unused toHub hlane h4), hoff, hother, hst⟩
  case unlocked =>
    have hlock : s.lockTimeout n toHub = (s.updLink n (fun l => l.setSpare toHub none)).retrain n := by
      unfold State.lockTimeout
      rw [hp]
      exact if_neg (by simp [hlocked])
    obtain ⟨i, h⟩ := State.retrain_remote (s := s.updLink n (fun l => l.setSpare toHub none)) (n := n) hr
      (by rw [State.link_updLink_self, Link.setSpare_st, hst])
    refine ⟨_, congrArg Host.Outcome.next (hlock.trans h), rfl, ?_⟩
    have hlink : ({ (s.updLink n (fun l => l.setSpare toHub none)).updLink n Link.retrained with incr := i } : State).link n =
        ((s.link n).setSpare toHub none).retrained :=
      ((State.link_congr rfl n).trans (State.link_updLink_self _ n _)).trans (by rw [State.link_updLink_self])
    rw [hlink]
    exact ⟨rfl, by cases toHub <;> rfl, rfl⟩
  case background =>
    refine ⟨_, congrArg Host.Outcome.next (if_pos (by simp [hb, hrdy, hspared])), rfl, fun m => ?_⟩
    by_cases h : m = n
    · rw [h, State.link_updLink_self, ← hrdy]
    · rw [State.link_updLink_ne _ _ h]

end Sys2Proof.Machine

end
